-- ==== Sys2Proof/Word.lean ====
section
/-!
DEFINITION. The words of the AD-1 (R3, R4, R58, R83): bytes, scalar words, 64-lane vector values, and the two
collection types the model uses: a sparse map by number and the order of its keys.
-/

namespace Sys2Proof

/-- One byte. -/
abbrev Byte := BitVec 8
/-- A 32-bit word: an instruction word, a lane, a count. -/
abbrev W32 := BitVec 32
/-- A 64-bit scalar value (R83). -/
abbrev W64 := BitVec 64
/-- A vector value: 64 lanes of 32 bits (R83, R196). -/
abbrev VReg := Vector (BitVec 32) 64
/-- A sparse map: pairs of key and value, keys strictly rising. -/
abbrev SMap (α : Type) := List (Nat × α)
/-- Bytes by address, keys strictly rising, no entry equal to what an unlisted address reads as (zero). -/
abbrev Memory := List (Nat × Byte)

/-- The vector whose lane l is `f l`. -/
def VReg.of (f : Nat → BitVec 32) : VReg := Vector.ofFn (fun i => f i.val)
/-- Every lane zero (R32, code 56). -/
def VReg.zero : VReg := Vector.replicate 64 0
/-- Lane l of a vector; zero beyond lane 63. -/
def VReg.lane (v : VReg) (l : Nat) : BitVec 32 := v.getD l 0

end Sys2Proof
end

