-- ==== Sys2Proof/Syntax.lean ====
section
/-!
DEFINITION. The instructions of the AD-1: one constructor for each row of spec/opcode_table.json, 245 with a
word (R28-R50) and 106 steps and host commands without one (95_what_each_step_holds.md).
-/

namespace Sys2Proof

/-- Width W of an S-slot integer instruction (R161). -/
inductive Width where
  | w64 | w32 | w16 | w8
deriving DecidableEq, Repr

/-- COND of CMP (R170). -/
inductive CmpCond where
  | eq | ne | lt | ge | ltu | geu | tst | ntst
deriving DecidableEq, Repr

/-- OPN of PLOG and VPLOG (R171, R210). -/
inductive PlogOp where
  | and | or | xor | andn | orn | nand | nor | xnor
deriving DecidableEq, Repr

/-- An index register (R130, R173); code 3 is reserved. -/
inductive IdxReg where
  | xs | xa | xb
deriving DecidableEq, Repr

/-- FE of a scratchpad or window load (R102, R175). -/
inductive FeL where
  | plain | wf | wfe
deriving DecidableEq, Repr

/-- FE of a scratchpad or window store (R102, R175). -/
inductive FeS where
  | plain | sf | se | wesf
deriving DecidableEq, Repr

/-- SZ of a scalar access: 8, 4, 2, 1 bytes (R175). -/
inductive Size where
  | b8 | b4 | b2 | b1
deriving DecidableEq, Repr

/-- SCOPE (R105); 6 and 7 are reserved. -/
inductive Scope where
  | ctx | core | clus | die | pkg | fab
deriving DecidableEq, Repr

/-- A vector cluster named by CL (R226, R262). -/
inductive Clu where
  | a | b
deriving DecidableEq, Repr

/-- The mask stack BRME tests (R183); codes 3 to 63 are reserved. -/
inductive Cl3 where
  | a | b | ab
deriving DecidableEq, Repr

/-- The file LIVE names (R188); code 3 is reserved. -/
inductive File3 where
  | k | va | vb
deriving DecidableEq, Repr

/-- A float lane format (R203); code 3 is reserved. -/
inductive FFmt where
  | f32 | bf16 | f16
deriving DecidableEq, Repr

/-- RM (R66); codes 5 to 7 are reserved. -/
inductive Rm where
  | rne | rtz | rdn | rup | rna
deriving DecidableEq, Repr

/-- An integer lane width (R203); code 3 is reserved. -/
inductive VW where
  | w32 | w16 | w8
deriving DecidableEq, Repr

/-- TY of VADDMIN (R207). -/
inductive MinTy where
  | f32 | bf16 | s32 | n32
deriving DecidableEq, Repr

/-- COND of VCMP (R208). -/
inductive VCmpCond where
  | eq | ne | lt | ltu | feq | flt | fle | fun_
deriving DecidableEq, Repr

/-- Format code of VCVT (R211). -/
inductive CvtFmt where
  | f32 | bf16 | f16 | e4m3 | e5m2 | s32 | s16 | s8
deriving DecidableEq, Repr

/-- FMT of VMXQ and VMXD (R212). -/
inductive MxFmt where
  | mxf8 | mxf8b | mxf4 | mxi8
deriving DecidableEq, Repr

/-- SP of VGATH and VSCAT (R222); 2 and 3 are reserved. -/
inductive GSpace where
  | sp | win
deriving DecidableEq, Repr

/-- SZ of VGATH and VSCAT (R222); 3 is reserved. -/
inductive GSize where
  | b4 | b2 | b1
deriving DecidableEq, Repr

/-- Activation or weight format (R251); 5 to 7 are reserved. -/
inductive AFmt where
  | bf16 | mxf8 | mxf8b | mxi8 | mxf4
deriving DecidableEq, Repr

/-- GW of MSWAP (R248, R270); 6 and 7 are reserved. -/
inductive Gw where
  | normal | g8 | g16 | g32 | g64 | g128
deriving DecidableEq, Repr

/-- DF of MDRN (R269); 7 is reserved. -/
inductive DrainFmt where
  | f32lo | f32hi | bf16 | mxf8 | mxf8b | mxi8 | mxf4
deriving DecidableEq, Repr

/-- A nest level 0 to 5 (R186, R279); 6 and 7 are reserved. -/
inductive Lvl where
  | l0 | l1 | l2 | l3 | l4 | l5
deriving DecidableEq, Repr

/-- OPC of an accumulate (R297); 22 to 31 are reserved. -/
inductive AccOp where
  | addS32 | addS64 | addF32 | addBf16 | minS32 | maxS32 | minN32 | maxN32 | minS64 | maxS64 | minN64 | maxN64 | minF32 | maxF32 | andB32 | orB32 | xorB32 | andB64 | orB64 | xorB64 | swapB32 | swapB64
deriving DecidableEq, Repr

/-- DIR of CRSUB (R307); 2 and 3 are reserved. -/
inductive SpoutDir where
  | in_ | out
deriving DecidableEq, Repr

/-- MODE of a phaser member (R414); 3 is reserved. -/
inductive PhMode where
  | sig | wait | sw
deriving DecidableEq, Repr

/-- TY of THRC (R230); 3 is reserved. -/
inductive ThrTy where
  | f32 | s32 | n32
deriving DecidableEq, Repr

/-- FORM of TTMASK (R236); 3 is reserved. -/
inductive MaskForm where
  | word | bias | bits
deriving DecidableEq, Repr

/-- FLD of TTPATH (R236); 3 is reserved. -/
inductive PathFld where
  | node | tok | slot
deriving DecidableEq, Repr

/-- WHAT of TTRD (R245); 3 is reserved. -/
inductive TtWhat where
  | node | desc | pos
deriving DecidableEq, Repr

/-- WHAT of NSWR (R439). -/
inductive NsField where
  | n | vl | w | p | flags | user | parent | link
deriving DecidableEq, Repr

/-- A selector of the scalar file (R32). Codes 61 to 63 are reserved. -/
inductive SSel where
  | q (n : BitVec 4)    -- qs entry of that age, codes 0-15
  | k (r : BitVec 5)    -- k0-k31, codes 16-47
  | kx (j : BitVec 3)   -- k[xs + j], codes 48-55
  | zero | one          -- codes 56, 57
  | core                -- the core number, code 58
  | fin                 -- pop of the fabric receive FIFO, code 59
  | cq                  -- pop of the count queue, code 60
deriving DecidableEq, Repr

/-- A selector of a cluster's vector file (R32). Codes 59, 60 and 63 are reserved. -/
inductive VSel where
  | q (n : BitVec 4)    -- qa (qb) entry of that age
  | v (r : BitVec 5)    -- va0-va31 (vb0-vb31)
  | vx (j : BitVec 3)   -- va[xa + j] (vb[xb + j])
  | zero | one          -- codes 56, 57
  | lane                -- the lane number, code 58
  | xq                  -- newest entry of the other cluster's queue, code 61
  | sq                  -- qs0[31:0] in every lane, code 62
deriving DecidableEq, Repr

/-- A destination of PUT (R35). -/
inductive KDst where
  | k (r : BitVec 5) | kx (j : BitVec 3) | fout
deriving DecidableEq, Repr

/-- A destination of VPUT (R35, R202). -/
inductive VDst where
  | v (r : BitVec 5) | vx (j : BitVec 3)
deriving DecidableEq, Repr

/-- The guard of an operand-form slot: predicate G and inversion N (R30). -/
structure Guard where
  p : BitVec 3
  inv : Bool
deriving DecidableEq, Repr

/-- The format field of lane-wise vector arithmetic (R203). -/
inductive VTy where
  | flt (f : FFmt) (rm : Rm)
  | int (w : VW) (u sat : Bool)
deriving DecidableEq, Repr

/-- OPR and TY of VRED (R225). -/
inductive RedOp where
  | fadd (f : FFmt) | fmin (f : FFmt) | fmax (f : FFmt)
  | add (u : Bool) | min (u : Bool) | max (u : Bool)
  | and | or
deriving DecidableEq, Repr

/-- What NSRD reads: one of four words, or the whole record into the scratchpad (R433, R438). -/
inductive NsRd where
  | word (w : BitVec 2) | sp
deriving DecidableEq, Repr

/-- Stage code of CXS, 0 to 21 (R229). -/
abbrev Stg := Fin 22

/-- Field B of NEST (R185). -/
structure NestB where
  cq : Bool
  stages : BitVec 3
deriving DecidableEq, Repr

/-- Field B of NSTRIDE: the k register, or zero with CLR (R186). -/
inductive StrideB where
  | clr | reg (r : BitVec 5)
deriving DecidableEq, Repr

/-- SRC and DST of VCVT (R211). -/
structure CvtB where
  src : CvtFmt
  dst : CvtFmt
deriving DecidableEq, Repr

/-! ### What steps without a word carry -/

/-- A block of the register cache (R132). -/
inductive RcBlock where
  | k | va (r : BitVec 5) | vb (r : BitVec 5)
deriving DecidableEq, Repr

/-- An access at the LLC directory (R118). -/
inductive DirEvent where
  | load | store (bs : List Byte) | relCore | rel (s : Nat) | acq (s : Nat) | fence | engine | remote
deriving DecidableEq, Repr

/-- The answer of a home package: the data, or the subcode of R101 of its fault and the offset that failed (R90, R119,
R218). -/
structure RemoteResp where
  data : List Byte
  err : Nat
  off : Nat := 0
deriving DecidableEq, Repr

/-- What a remote ticketed operation carries (R327). -/
structure RTicket where
  id : BitVec 16
  wave : Nat
  origin : Nat
  ticket : W64
  idx : Nat
  elem : Nat
deriving DecidableEq, Repr

/-- A node operation as the Basin receives it (R433). -/
inductive NsOp where
  | vl (amt : BitVec 16)
  | back (v : W32) (vlr : BitVec 16) (alt : Bool)
  | sel (cpuct fpu : W32)
  | rd (f : NsRd) (off : Nat)
  | wr (f : NsField) (b : W64)
  | alloc (priors : List (BitVec 16))
  | free
deriving DecidableEq, Repr

/-- What a message of a stream does when it commits (R320, R325). `ret` is the request its response answers; a node
operation names its launch at the origin. -/
inductive StreamBody where
  | write (bytes : List (Nat × Byte))
  | acc (op : AccOp) (off : Nat) (v : W64) (ret : Option Nat)
  | cas (size off : Nat) (cmp new : W64) (ret : Nat)
  | zero (off : Nat) (at_ : Bool)
  | node (id : W32) (launch : Nat) (op : NsOp) (ret : Option Nat)
  | fill (holes : List Nat)
  | close (holes : List Nat)
deriving DecidableEq, Repr

/-- A message of a stream: identity, sequence number, ticket and body (R324). -/
structure StreamMsg where
  src : Nat
  strm : Nat
  seq : Nat
  tick : Option RTicket
  body : StreamBody
deriving DecidableEq, Repr

/-- A FIFO message: source endpoint and core, destination core, header and payload words (R333, R335). -/
structure FifoMsg where
  src : Nat
  score : Nat
  dcore : Nat
  words : List W64
deriving DecidableEq, Repr

/-- The kind of a collective (R336, R463). -/
inductive CollKind where
  | red | bc | a2a | vir | disp | comb | samp
deriving DecidableEq, Repr

/-- The descriptor fields the members of a collective compare (R337, R463). -/
structure CollKey where
  kind : CollKind
  cid : Nat
  fields : List Nat
deriving DecidableEq, Repr

/-- What a member sends for a collective instance (R337-R344). -/
inductive CollBody where
  | contrib (key : CollKey) (data : List Byte)
  | done (absent : Nat)
  | abort
  | fault
  | unreach
  | mismatch
deriving DecidableEq, Repr

/-- A collective message from a member endpoint. -/
structure CollMsg where
  src : Nat
  cid : Nat
  inst : Nat                            -- the instance's number among those of its CID (R337)
  body : CollBody
deriving DecidableEq, Repr

/-- A message between packages (R320, R328, R331, R335, R339, R482). -/
inductive Msg where
  | load (req off size : Nat) (mask : W64) (acq : Option Scope)
  | resp (req : Nat) (r : RemoteResp)
  | strm (m : StreamMsg)
  | ack (strm n err off : Nat)
  | held (strm n : Nat)
  | recv (id : Nat)
  | retry (strm n : Nat)
  | refused (strm : Nat)
  | fifo (m : FifoMsg)
  | fifoRetry (id : Nat)
  | resume (score : Nat)
  | coll (m : CollMsg)
  | clapper (tag : W64)
  | wavedone (id : BitVec 16) (w : Nat)
  | lend (half : BitVec 1) (limit : Nat)
deriving DecidableEq, Repr

/-- A flit (R315): its 256 bytes, the die half it reaches (R331), and what its text says, whose layout the manual does not
give (log entry 77): its sender's name for the message and for this sending of it, the flit's place among how many, and the
message. -/
structure Flit where
  bytes : List Byte
  half : BitVec 1
  id : Nat
  sending : Nat
  idx : Nat
  cnt : Nat
  msg : Msg
deriving DecidableEq, Repr

/-- A firing of the Clapper (R482, R483): tag, trigger kind 1 to 4, source core and context, 0xFFFF and 0xFF where there is
none, or source endpoint. -/
structure Firing where
  tag : W64
  kind : Nat
  core : Nat := 0xFFFF
  ctx : Nat := 0xFF
  src : Option Nat := none
deriving DecidableEq, Repr

/-- A Plohus message after its LMAGIC and OPC (R475): HQ, the reserved byte, MSGID and payload. -/
structure HostMsg where
  hq : BitVec 8
  resv : BitVec 8 := 0
  msgid : W32
  payload : List Byte
deriving DecidableEq, Repr

/-- What a step without a word carries beside numbers: an arriving message, a host command, a block. -/
inductive EvBody where
  | none
  | block (b : RcBlock)
  | dir (k : DirEvent)
  | strm (m : StreamMsg)
  | flit (f : Flit)
  | fifo (m : FifoMsg)
  | coll (m : CollMsg)
  | firing (f : Firing)
  | host (m : HostMsg)
  | remote (r : RemoteResp)
  | data (bytes : List Byte)
deriving DecidableEq, Repr

/-- The operands of a step without a word (State.ev holds those of the step that moves next): the core, the task
record, a number (a scope, a launch, a queue pair, a place in a list, a request), a second number, an address or a
value, a small selector, a yes or no, and what arrives. -/
structure Ev where
  core : Nat := 0
  task : Nat := 0
  num : Nat := 0
  cnt : Nat := 0
  val : W64 := 0
  sel : BitVec 5 := 0
  flag : Bool := false
  body : EvBody := .none
deriving DecidableEq, Repr

/-- The instructions. -/
inductive Instr where
  -- class 0: S slot
  | add (g : Guard) (a b : SSel) (sat u : Bool) (w : Width)
  | sub (g : Guard) (a b : SSel) (sat u : Bool) (w : Width)
  | addi (g : BitVec 3) (a : SSel) (i : BitVec 13)
  | mul (g : Guard) (a b : SSel) (sat u : Bool) (w : Width)
  | mulh (g : Guard) (a b : SSel) (u : Bool) (w : Width)
  | div (g : Guard) (a b : SSel) (sat u : Bool) (w : Width)
  | rem (g : Guard) (a b : SSel) (u : Bool) (w : Width)
  | and (g : Guard) (a b : SSel) (u : Bool) (w : Width)
  | or (g : Guard) (a b : SSel) (u : Bool) (w : Width)
  | xor (g : Guard) (a b : SSel) (u : Bool) (w : Width)
  | andi (g : BitVec 3) (a : SSel) (i : BitVec 13)
  | shl (g : Guard) (a b : SSel) (u : Bool) (w : Width)
  | shr (g : Guard) (a b : SSel) (u : Bool) (w : Width)
  | shli (g : BitVec 3) (a : SSel) (u : Bool) (w : Width) (sh : BitVec 6)
  | shri (g : BitVec 3) (a : SSel) (u : Bool) (w : Width) (sh : BitVec 6)
  | movi (g : BitVec 3) (i : BitVec 13)
  | shori (g : BitVec 3) (a : SSel) (i : BitVec 13)
  | min (g : Guard) (a b : SSel) (u : Bool) (w : Width)
  | max (g : Guard) (a b : SSel) (u : Bool) (w : Width)
  | clz (g : Guard) (a : SSel) (w : Width)
  | popc (g : Guard) (a : SSel) (w : Width)
  | bfx (g : Guard) (a b : SSel) (u : Bool)
  | bfi (g : Guard) (a b : SSel) (m : BitVec 4)
  | sext (g : Guard) (a : SSel) (u : Bool) (w : Width)
  | sel (g : Guard) (a b : SSel) (p : BitVec 3)
  | cmp (g : Guard) (a b : SSel) (cond : CmpCond) (d : BitVec 3)
  | plog (g : Guard) (x y : BitVec 3) (op : PlogOp) (d : BitVec 3)
  | put (g : Guard) (a : SSel) (d : KDst)
  | putx (g : Guard) (a : SSel) (x : IdxReg)
  | xaddi (g : BitVec 3) (x : IdxReg) (i : BitVec 13)
  | fence (g : Guard) (sc : Scope)
  | ld (g : Guard) (a b : SSel) (fe : FeL) (u : Bool) (sz : Size)
  | st (g : Guard) (a b : SSel) (fe : FeS) (sz : Size)
  | ldw (g : Guard) (a b : SSel) (fe : FeL) (u : Bool) (sz : Size)
  | stw (g : Guard) (a b : SSel) (fe : FeS) (sz : Size)
  | ldg (g : Guard) (a b : SSel) (u : Bool) (sz : Size)
  | stg (g : Guard) (a b : SSel) (slot : BitVec 4) (sz : Size)
  | lda (g : Guard) (a b : SSel) (sc : Scope) (u : Bool) (sz : Size)
  | strl (g : Guard) (a b : SSel) (slot : BitVec 3) (sc : Scope)
  | br (g : BitVec 3) (i : BitVec 13)
  | brme (g : BitVec 3) (cl : Cl3) (i : BitVec 13)
  | jmp (off : BitVec 22)
  | call (off : BitVec 22)
  | jmpr (g : Guard) (a : SSel)
  | callr (g : Guard) (a : SSel)
  | ret (g : Guard) (a : SSel)
  | nest (g : Guard) (a : SSel) (bs : NestB) (len : BitVec 6)
  | nstride (g : Guard) (a : SSel) (k : StrideB) (clr : Bool) (j : BitVec 2) (l : Lvl)
  | nestmask (g : Guard) (a b : SSel) (l : Lvl)
  | cqpush (g : Guard) (a : SSel)
  | live (g : Guard) (a : SSel) (ft : File3)
  | phase (g : Guard) (a : SSel)
  | csrr (g : BitVec 3) (n : BitVec 12)
  | csrw (g : BitVec 3) (a : SSel) (n : BitVec 12)
  | trap (g : BitVec 3) (i : BitVec 8)
  | waitcy (g : BitVec 3) (i : BitVec 13)
  | snap (g : Guard) (a : SSel)
  | exit (g : Guard) (a : SSel)
  -- class 1: vector slot
  | vaddA (g : Guard) (a b : VSel) (ty : VTy)
  | vaddB (g : Guard) (a b : VSel) (ty : VTy)
  | vsubA (g : Guard) (a b : VSel) (ty : VTy)
  | vsubB (g : Guard) (a b : VSel) (ty : VTy)
  | vmulA (g : Guard) (a b : VSel) (ty : VTy)
  | vmulB (g : Guard) (a b : VSel) (ty : VTy)
  | vfmaA (g : Guard) (a b : VSel) (ty : FFmt) (m : BitVec 4)
  | vfmaB (g : Guard) (a b : VSel) (ty : FFmt) (m : BitVec 4)
  | vfmsA (g : Guard) (a b : VSel) (ty : FFmt) (m : BitVec 4)
  | vfmsB (g : Guard) (a b : VSel) (ty : FFmt) (m : BitVec 4)
  | vaddminA (g : Guard) (a b : VSel) (ty : MinTy) (m : BitVec 4)
  | vaddminB (g : Guard) (a b : VSel) (ty : MinTy) (m : BitVec 4)
  | vminA (g : Guard) (a b : VSel) (ty : VTy)
  | vminB (g : Guard) (a b : VSel) (ty : VTy)
  | vmaxA (g : Guard) (a b : VSel) (ty : VTy)
  | vmaxB (g : Guard) (a b : VSel) (ty : VTy)
  | vabsA (g : Guard) (a : VSel) (ty : VTy)
  | vabsB (g : Guard) (a : VSel) (ty : VTy)
  | vnegA (g : Guard) (a : VSel) (ty : VTy)
  | vnegB (g : Guard) (a : VSel) (ty : VTy)
  | vandA (g : Guard) (a b : VSel)
  | vandB (g : Guard) (a b : VSel)
  | vorA (g : Guard) (a b : VSel)
  | vorB (g : Guard) (a b : VSel)
  | vxorA (g : Guard) (a b : VSel)
  | vxorB (g : Guard) (a b : VSel)
  | vshlA (g : Guard) (a b : VSel) (ty : VTy)
  | vshlB (g : Guard) (a b : VSel) (ty : VTy)
  | vshrA (g : Guard) (a b : VSel) (ty : VTy)
  | vshrB (g : Guard) (a b : VSel) (ty : VTy)
  | vcmpA (g : Guard) (a b : VSel) (cond : VCmpCond) (d : BitVec 3)
  | vcmpB (g : Guard) (a b : VSel) (cond : VCmpCond) (d : BitVec 3)
  | vselA (g : Guard) (a b : VSel) (p : BitVec 3)
  | vselB (g : Guard) (a b : VSel) (p : BitVec 3)
  | vplogA (g : Guard) (x y : BitVec 3) (op : PlogOp) (d : BitVec 3)
  | vplogB (g : Guard) (x y : BitVec 3) (op : PlogOp) (d : BitVec 3)
  | vcvtA (g : Guard) (a : VSel) (ft : CvtB) (p : BitVec 2) (su : Bool) (rm : Rm)
  | vcvtB (g : Guard) (a : VSel) (ft : CvtB) (p : BitVec 2) (su : Bool) (rm : Rm)
  | vmxqA (g : Guard) (a : VSel) (ft : MxFmt) (p : BitVec 3)
  | vmxqB (g : Guard) (a : VSel) (ft : MxFmt) (p : BitVec 3)
  | vmxdA (g : Guard) (a b : VSel) (ft : MxFmt) (p : BitVec 3)
  | vmxdB (g : Guard) (a b : VSel) (ft : MxFmt) (p : BitVec 3)
  | vrcpA (g : Guard) (a : VSel) (ft : FFmt)
  | vrcpB (g : Guard) (a : VSel) (ft : FFmt)
  | vrsqA (g : Guard) (a : VSel) (ft : FFmt)
  | vrsqB (g : Guard) (a : VSel) (ft : FFmt)
  | vexpA (g : Guard) (a : VSel) (ft : FFmt)
  | vexpB (g : Guard) (a : VSel) (ft : FFmt)
  | vlogA (g : Guard) (a : VSel) (ft : FFmt)
  | vlogB (g : Guard) (a : VSel) (ft : FFmt)
  | vtanhA (g : Guard) (a : VSel) (ft : FFmt)
  | vtanhB (g : Guard) (a : VSel) (ft : FFmt)
  | vmoviA (g : BitVec 3) (i : BitVec 13)
  | vmoviB (g : BitVec 3) (i : BitVec 13)
  | vputA (g : Guard) (a : VSel) (d : VDst)
  | vputB (g : Guard) (a : VSel) (d : VDst)
  | vputxA (g : Guard) (a : VSel) (l : BitVec 6)
  | vputxB (g : Guard) (a : VSel) (l : BitVec 6)
  | vxmovA (g : Guard) (r : BitVec 5)
  | vxmovB (g : Guard) (r : BitVec 5)
  | vmpushA (inv : Bool) (p : BitVec 3)
  | vmpushB (inv : Bool) (p : BitVec 3)
  | vldA (g : Guard) (a b : VSel) (fe : FeL)
  | vldB (g : Guard) (a b : VSel) (fe : FeL)
  | vstA (g : Guard) (a b : VSel) (fe : FeS)
  | vstB (g : Guard) (a b : VSel) (fe : FeS)
  | vldwA (g : Guard) (a b : VSel) (fe : FeL)
  | vldwB (g : Guard) (a b : VSel) (fe : FeL)
  | vstwA (g : Guard) (a b : VSel) (fe : FeS)
  | vstwB (g : Guard) (a b : VSel) (fe : FeS)
  | vldgA (g : Guard) (a b h : VSel)
  | vldgB (g : Guard) (a b h : VSel)
  | vstgA (g : Guard) (a b h : VSel)
  | vstgB (g : Guard) (a b h : VSel)
  | vgathA (g : Guard) (a b : VSel) (gsp : GSpace) (sz : GSize) (u : Bool)
  | vgathB (g : Guard) (a b : VSel) (gsp : GSpace) (sz : GSize) (u : Bool)
  | vscatA (g : Guard) (a b : VSel) (gsp : GSpace) (sz : GSize)
  | vscatB (g : Guard) (a b : VSel) (gsp : GSpace) (sz : GSize)
  | vlshuA (g : Guard) (a b : VSel) (n : BitVec 6)
  | vlshuB (g : Guard) (a b : VSel) (n : BitVec 6)
  | vlshdA (g : Guard) (a b : VSel) (n : BitVec 6)
  | vlshdB (g : Guard) (a b : VSel) (n : BitVec 6)
  | vbcastA (g : Guard) (a : VSel) (l : BitVec 6)
  | vbcastB (g : Guard) (a : VSel) (l : BitVec 6)
  | viotaA (g : Guard) (a : VSel) (step : BitVec 6)
  | viotaB (g : Guard) (a : VSel) (step : BitVec 6)
  | vpermA (g : Guard) (a b : VSel)
  | vpermB (g : Guard) (a b : VSel)
  | vredA (g : Guard) (a : VSel) (op : RedOp)
  | vredB (g : Guard) (a : VSel) (op : RedOp)
  -- class 3: M slot
  | mwld (g : Guard) (a : SSel) (h : BitVec 1)
  | mwsel (g : Guard) (h : BitVec 1)
  | mpush (g : Guard) (a : VSel) (b : SSel) (cl : Clu) (acc : Bool) (seg : BitVec 4)
  | mshift (g : Guard) (b : SSel) (acc : Bool) (seg : BitVec 4)
  | macc (g : Guard) (a : SSel)
  | mdrn (g : Guard) (a b : SSel) (cl : Clu) (df : DrainFmt) (clr : Bool)
  | mzero (g : Guard) (a : SSel) (n : BitVec 6)
  | msweep (g : Guard) (a : SSel) (n : BitVec 6)
  | mend (g : Guard)
  | mswap (g : Guard) (gw : Gw)
  | mfmt (g : Guard) (ft : AFmt)
  | mstat (g : Guard)
  -- class 4: C slot
  | cnest (g : Guard) (a : SSel) (l : Lvl)
  | cstride (g : Guard) (a b : SSel) (l : Lvl)
  | cbase (g : Guard) (a b : SSel) (slot : BitVec 4)
  | ccopy (g : Guard) (a b : SSel) (t : Bool)
  | cacc (g : Guard) (a b : SSel) (t : Bool) (op : AccOp)
  | caccr (g : Guard) (a b : SSel) (t : Bool) (op : AccOp)
  | ccas (g : Guard) (a b : SSel) (t sz : Bool) (m : BitVec 4)
  | csync (g : Guard) (a b : SSel) (rgen : Bool)
  | cswait (g : Guard) (a b : SSel)
  | cfeset (g : Guard) (a b : SSel) (ft : Bool)
  | cring (g : Guard) (a b : SSel) (r : BitVec 3)
  | crsub (g : Guard) (a b : SSel) (dir : SpoutDir) (r : BitVec 3)
  | crunsub (g : Guard) (r : BitVec 3)
  | crfin (g : Guard) (r : BitVec 3)
  | cwait (g : Guard)
  | stream (g : Guard) (a : SSel) (q : BitVec 4)
  | sclose (g : Guard) (fill : Bool) (q : BitVec 4)
  | clred (g : Guard) (a : SSel)
  | clbc (g : Guard) (a : SSel)
  | cla2a (g : Guard) (a : SSel)
  | clvir (g : Guard) (a : SSel)
  | clrowDisp (g : Guard) (a : SSel)
  | clrowComb (g : Guard) (a : SSel)
  | clwait (g : Guard) (a : SSel)
  | fbstat (g : Guard) (a : SSel) (what : Bool)
  | kvld (g : Guard) (a b : SSel)
  | kvst (g : Guard) (a b : SSel)
  | psel (g : Guard) (a b : SSel)
  | pmapRead (g : Guard) (a b : SSel)
  | pmapReadref (g : Guard) (a b : SSel)
  | pmapMapnew (g : Guard) (a b : SSel)
  | pmapRevoke (g : Guard) (a b : SSel)
  | pmapEvict (g : Guard) (a b : SSel)
  | pmapPrefetch (g : Guard) (a b : SSel)
  | psref (g : Guard) (a b : SSel) (pin new : Bool)
  | psdrop (g : Guard) (a : SSel) (pin : Bool)
  -- class 5: Q slot
  | spawn (g : Guard) (a b : SSel) (desc nj : Bool)
  | spawnb (g : Guard) (a b : SSel) (wsid : BitVec 6)
  | cancel (g : Guard) (a : SSel)
  | reprio (g : Guard) (a b : SSel)
  | join (g : Guard) (a : SSel) (any : Bool)
  | tkdone (g : Guard)
  | tstat (g : Guard)
  | phreg (g : Guard) (a : SSel) (mode : PhMode)
  | phdrop (g : Guard) (a : SSel)
  | pharr (g : Guard) (a : SSel) (sc : Scope)
  | phwait (g : Guard) (a : SSel) (sc : Scope)
  | phaw (g : Guard) (a : SSel) (sc : Scope)
  | phrd (g : Guard) (a : SSel)
  | nsvl (g : Guard) (a b : SSel) (t : Bool)
  | nsback (g : Guard) (a b : SSel) (t alt : Bool)
  | nssel (g : Guard) (a b : SSel) (t : Bool)
  | nsrd (g : Guard) (a b : SSel) (t : Bool) (ft : NsRd)
  | nswr (g : Guard) (a b : SSel) (t : Bool) (ft : NsField)
  | nsalloc (g : Guard) (a b : SSel) (t : Bool)
  | nsallocFree (g : Guard) (a : SSel) (t : Bool)
  | gscfg (g : Guard) (a : SSel) (clr : Bool) (n : BitVec 4)
  | gsocc (g : Guard) (a : SSel)
  | gsdlen (g : Guard) (a : SSel)
  | gsseed (g : Guard) (a : SSel)
  | gsiterStart (g : Guard) (a : SSel)
  | gsiterLayer (g : Guard) (a b : SSel)
  | gsiterEnd (g : Guard) (b : SSel)
  | gsnoise (g : Guard) (a b : SSel) (cl : Clu)
  | gssamp (g : Guard) (a : SSel)
  | gsacc (g : Guard) (a b : SSel)
  | gswait (g : Guard) (a b : SSel) (lay : Bool)
  -- class 6: X slot
  | cxs (g : Guard) (a b : VSel) (cl : Clu) (sg : Stg)
  | thrc (g : Guard) (a b : VSel) (cl : Clu) (ty : ThrTy) (ge : Bool)
  | hist (g : Guard) (a b : VSel) (cl : Clu) (dir : Bool)
  | ttnew (g : Guard) (a b : SSel)
  | ttadd (g : Guard) (a b : SSel) (fl : BitVec 6)
  | ttpos (g : Guard) (a : SSel) (cl : Clu) (blk : BitVec 2)
  | ttmask (g : Guard) (a : SSel) (cl : Clu) (col : Bool) (form : MaskForm) (blk : BitVec 2)
  | ttpath (g : Guard) (a : SSel) (cl : Clu) (fld : PathFld) (blk : BitVec 2)
  | ttprune (g : Guard) (a b : SSel) (sf : Bool)
  | ttfree (g : Guard) (a : SSel)
  | ttrd (g : Guard) (a : SSel) (what : TtWhat)
  -- words without a field
  | nop
  | cqclr
  | rte
  | vminvA
  | vmpopA
  | vminvB
  | vmpopB
  -- steps without a word (95_what_each_step_holds.md); their operands stand in State.ev
  | expchkWrite
  | trappcWrite
  | rxringWrite
  | ftgcfgWrite
  | tteageWrite
  | bfcfgWrite
  | bftabWrite
  | gsctlWrite
  | snapcfgWrite
  | gscurRead
  | mergeIssueCycle
  | asyncCauseTaken
  | resultLanding
  | regcacheFill
  | waitExpiry
  | rteResume
  | phaseDrainComplete
  | replayIterationEnd
  | contextPark
  | contextResume
  | priorityPark
  | taskStart
  | waveFormation
  | ticketRetire
  | batchClose
  | batchTaskEnd
  | phaserOpApply
  | copyGranule
  | commandComplete
  | spoutTileTransfer
  | spoutDepthUpdate
  | mwldComplete
  | arrayFill
  | sweepRollback
  | pageWalk
  | directoryAccess
  | cacheEviction
  | releasePerform
  | remoteResponse
  | weirArrival
  | ackReceive
  | flitReceive
  | retransmitTimeout
  | endpointUnreachable
  | linkStateChange
  | flitSeal
  | lendWindow
  | lendReceive
  | fifoDelivery
  | resumeNotice
  | remoteRetryResend
  | wavedone
  | waveClose
  | collectiveArrival
  | collectiveComplete
  | ualinkRefused
  | flashFill
  | evictComplete
  | setBuildComplete
  | nodeWalkStep
  | gsqOpArrival
  | coreGrant
  | entryTaskCreate
  | launchComplete
  | watchdogStage1
  | watchdogStage2
  | watchdogStage3
  | clapperCapture
  | clapperMessage
  | patrolScrub
  | fetchAheadFault
  | powerGood
  | finalCutStepDone
  | throttleStep
  | trip
  | qpEstablish
  | rdmaWrite
  | rdmaRead
  | plohusDrop
  | plohusUnknown
  | launch
  | kill
  | resume
  | finalcut
  | reset
  | setroot
  | setprio
  | setexp
  | xlinv
  | mrreg
  | mrdereg
  | reach
  | kekset
  | keyset
  | fencerel
  | pwrcap
  | attest
  | certread
  | snapcmd
  | snapread
  | logread
  | basinApply
  | bundleFetch
  | qpTeardown
  | rdmaAtomicOrUd
  | captureDone
deriving DecidableEq, Repr

end Sys2Proof
end

