-- ==== Sys2Proof/Config.lean ====
section
/-!
DEFINITION. What the model leaves free: values the manual does not give (NOTES.md '## Assumptions'). They are opaque:
no proof can see them, so a statement holds whatever they are.
-/

namespace Sys2Proof.Config

/-- A byte of the 96-byte signature of an attestation report over the given bytes, by the count of reports (R481), log entry
12. -/
opaque attestSig : Nat → List Byte → Nat → Byte
/-- A byte of a 48-byte measurement digest: of the firmware (0), of the fused configuration (1) (R481), log entry 12. -/
opaque digest : Nat → Nat → Byte
/-- The certificate chain CERTREAD returns (R476, R481), as far as one message holds it (R475), log entry 12. -/
opaque certChain : List Byte
/-- INFO of an OPERAND trap whose offending value the manual does not name (R149, R185), by State.fresh; log entry 15. -/
opaque freeInfo : Nat → BitVec 64
/-- What operand codes 57 and 58 deliver to an 8-bit or 4-bit float or MX element that cannot hold the integer exactly
(R197 states no rounding), by element format and integer; log entry 16. -/
opaque narrowConst : Nat → Nat → BitVec 8
/-- Cycles of a tile of a stage ring, from its first read request to its slot's full setting (R310), by State.fresh; log
entry 17. -/
opaque tileCycles : Nat → Nat
/-- Which free resource is taken where the manual says only that one is (a stream number, a task record, a frame), by
State.fresh; log entry 4. -/
opaque pick : Nat → Nat
/-- What a returning operation pushes that is not performed, where the manual states no value (R327, R441), by
State.fresh; log entry 20. -/
opaque unstated : Nat → BitVec 64
/-- A field of a log entry that the manual does not name for its event (R488), by log, number of the entry, its ACYC and
field; log entry 20. -/
opaque logField : Nat → Nat → BitVec 64 → Nat → BitVec 64
/-- The die half of another package that serves an offset of its partitioned space (R320), by endpoint and offset: the
home's export table decides it, and the sender holds no copy; log entry 18. -/
opaque farHalf : Nat → Nat → BitVec 1

/-- A byte of a message that the manual does not give (R315, R320): of its 24-byte header, or of data whose form it leaves open,
by its sender's name for it and its place, log entry 77. -/
opaque msgByte : Nat → Msg → Nat → Byte
/-- The kind in the header of a flit (R315), by its message and its place in it, log entry 77. -/
opaque flitKind : Msg → Nat → BitVec 8
/-- The bytes of a die's snapshot area behind a capture's header, by the latched registers (R483 gives no layout), log entry
13. -/
opaque snapBytes : List (BitVec 64) → List Byte

/-- The words of a context's control block that R128 names without a place, as bytes (R128), log entry 13. -/
opaque ctlBytes : List (BitVec 64) → List Byte
/-- The 64 bytes of a nest level in an image frame (R128), log entry 13. -/
opaque nestBytes : List (BitVec 64) → List Byte
/-- The 16 bytes of a landing descriptor: queue, slot, remaining count, value (R128), log entry 13. -/
opaque landBytes : Nat → Nat → Nat → BitVec 64 → List Byte

end Sys2Proof.Config
end

