-- ==== Sys2Proof/WellFormed.lean ====
section
/-!
DEFINITION. Well-formed instructions: the reserved field values of R39 condition 5 that the types of Syntax.lean do
not already exclude (R30, R158, R170, R185, R186, R203, R205, R211, R212, R236, R401, R433, R468).
-/

namespace Sys2Proof

/-- G = 0 with N = 1 is reserved (R30). -/
def Guard.ok (g : Guard) : Bool := g.p != 0 || !g.inv

/-- RM = 0 in the float form (R205). -/
def VTy.noRm : VTy → Bool
  | .flt _ rm => rm == .rne
  | .int .. => true
/-- No SAT in the integer form (R205). -/
def VTy.noSat : VTy → Bool
  | .flt .. => true
  | .int _ _ sat => !sat
/-- The integer form (R205: the shifts have no float form). -/
def VTy.isInt : VTy → Bool
  | .flt .. => false
  | .int .. => true

/-- NSTRIDE: B is zero with CLR and a direct code 16 to 47 without (R186). -/
def StrideB.okFor (s : StrideB) (clr : Bool) : Bool :=
  match s with
  | .clr => clr
  | .reg _ => !clr

/-- Width in bits of a VCVT format (R211). -/
def CvtFmt.width : CvtFmt → Nat
  | .f32 | .s32 => 32
  | .bf16 | .f16 | .s16 => 16
  | .e4m3 | .e5m2 | .s8 => 8
/-- An integer format of VCVT (R211). -/
def CvtFmt.isInt : CvtFmt → Bool
  | .s32 | .s16 | .s8 => true
  | _ => false
/-- The ratio of the two widths (R211). -/
def CvtB.ratio (f : CvtB) : Nat :=
  max f.src.width f.dst.width / min f.src.width f.dst.width
/-- P below the ratio; RM = 0 between integers (R211). -/
def cvtOk (f : CvtB) (p : BitVec 2) (rm : Rm) : Bool :=
  p.toNat < f.ratio && (!(f.src.isInt && f.dst.isInt) || rm == .rne)
/-- P at most 3, or 7 for mxf4 (R212). -/
def mxPartOk (f : MxFmt) (p : BitVec 3) : Bool := f == .mxf4 || p.toNat ≤ 3

/-- The control-register numbers a chapter assigns (R158, R159, R246, R278, R311, R347, R378, R411, R429, R445, R470, R494). -/
def csrAssigned (n : BitVec 12) : Bool :=
  let x := n.toNat
  x ≤ 0x0A || (0x10 ≤ x && x ≤ 0x13) || (0x18 ≤ x && x ≤ 0x1F) || (0x100 ≤ x && x ≤ 0x111) || x == 0x140 ||
  (0x180 ≤ x && x ≤ 0x182) || x == 0x1C0 || x == 0x1C1 || (0x200 ≤ x && x ≤ 0x203) || (0x280 ≤ x && x ≤ 0x285) ||
  (0x2C0 ≤ x && x ≤ 0x2C6) || (0x300 ≤ x && x ≤ 0x302) || x == 0x340 || x == 0x341 || (0x380 ≤ x && x ≤ 0x384) ||
  (0x3C0 ≤ x && x ≤ 0x3C3)

/-- Well-formed: no reserved field value (R39, condition 5). -/
def Instr.wf : Instr → Bool
  | .nop => true
  | .add g _ _ _ _ _ => g.ok
  | .sub g _ _ _ _ _ => g.ok
  | .addi _ _ _ => true
  | .mul g _ _ _ _ _ => g.ok
  | .mulh g _ _ _ _ => g.ok
  | .div g _ _ _ _ _ => g.ok
  | .rem g _ _ _ _ => g.ok
  | .and g _ _ _ _ => g.ok
  | .or g _ _ _ _ => g.ok
  | .xor g _ _ _ _ => g.ok
  | .andi _ _ _ => true
  | .shl g _ _ _ _ => g.ok
  | .shr g _ _ _ _ => g.ok
  | .shli _ _ _ _ _ => true
  | .shri _ _ _ _ _ => true
  | .movi _ _ => true
  | .shori _ _ _ => true
  | .min g _ _ _ _ => g.ok
  | .max g _ _ _ _ => g.ok
  | .clz g _ _ => g.ok
  | .popc g _ _ => g.ok
  | .bfx g _ _ _ => g.ok
  | .bfi g _ _ _ => g.ok
  | .sext g _ _ _ => g.ok
  | .sel g _ _ _ => g.ok
  | .cmp g _ _ _ d => g.ok && (d != 0)
  | .plog g _ _ _ d => g.ok && (d != 0)
  | .put g _ _ => g.ok
  | .putx g _ _ => g.ok
  | .xaddi _ _ _ => true
  | .fence g _ => g.ok
  | .ld g _ _ _ _ _ => g.ok
  | .st g _ _ _ _ => g.ok
  | .ldw g _ _ _ _ _ => g.ok
  | .stw g _ _ _ _ => g.ok
  | .ldg g _ _ _ _ => g.ok
  | .stg g _ _ _ _ => g.ok
  | .lda g _ _ _ _ _ => g.ok
  | .strl g _ _ _ _ => g.ok
  | .br _ _ => true
  | .brme _ _ _ => true
  | .jmp _ => true
  | .call _ => true
  | .jmpr g _ => g.ok
  | .callr g _ => g.ok
  | .ret g _ => g.ok
  | .nest g a bs _ => g.ok && (bs.stages != 0 && (!bs.cq || a == .q 0))
  | .nstride g a k clr _ _ => g.ok && (k.okFor clr && (!clr || a == .q 0))
  | .nestmask g _ _ _ => g.ok
  | .cqpush g _ => g.ok
  | .cqclr => true
  | .live g _ _ => g.ok
  | .phase g _ => g.ok
  | .csrr _ n => (csrAssigned n)
  | .csrw _ _ n => (csrAssigned n)
  | .trap _ _ => true
  | .rte => true
  | .waitcy _ _ => true
  | .snap g _ => g.ok
  | .exit g _ => g.ok
  | .vaddA g _ _ _ => g.ok
  | .vaddB g _ _ _ => g.ok
  | .vsubA g _ _ _ => g.ok
  | .vsubB g _ _ _ => g.ok
  | .vmulA g _ _ _ => g.ok
  | .vmulB g _ _ _ => g.ok
  | .vfmaA g _ _ _ _ => g.ok
  | .vfmaB g _ _ _ _ => g.ok
  | .vfmsA g _ _ _ _ => g.ok
  | .vfmsB g _ _ _ _ => g.ok
  | .vaddminA g _ _ _ _ => g.ok
  | .vaddminB g _ _ _ _ => g.ok
  | .vminA g _ _ ty => g.ok && (ty.noRm && ty.noSat)
  | .vminB g _ _ ty => g.ok && (ty.noRm && ty.noSat)
  | .vmaxA g _ _ ty => g.ok && (ty.noRm && ty.noSat)
  | .vmaxB g _ _ ty => g.ok && (ty.noRm && ty.noSat)
  | .vabsA g _ ty => g.ok && (ty.noRm)
  | .vabsB g _ ty => g.ok && (ty.noRm)
  | .vnegA g _ ty => g.ok && (ty.noRm)
  | .vnegB g _ ty => g.ok && (ty.noRm)
  | .vandA g _ _ => g.ok
  | .vandB g _ _ => g.ok
  | .vorA g _ _ => g.ok
  | .vorB g _ _ => g.ok
  | .vxorA g _ _ => g.ok
  | .vxorB g _ _ => g.ok
  | .vshlA g _ _ ty => g.ok && (ty.isInt && ty.noSat)
  | .vshlB g _ _ ty => g.ok && (ty.isInt && ty.noSat)
  | .vshrA g _ _ ty => g.ok && (ty.isInt && ty.noSat)
  | .vshrB g _ _ ty => g.ok && (ty.isInt && ty.noSat)
  | .vcmpA g _ _ _ d => g.ok && (d != 0)
  | .vcmpB g _ _ _ d => g.ok && (d != 0)
  | .vselA g _ _ _ => g.ok
  | .vselB g _ _ _ => g.ok
  | .vplogA g _ _ _ d => g.ok && (d != 0)
  | .vplogB g _ _ _ d => g.ok && (d != 0)
  | .vcvtA g _ ft p _ rm => g.ok && (cvtOk ft p rm)
  | .vcvtB g _ ft p _ rm => g.ok && (cvtOk ft p rm)
  | .vmxqA g _ ft p => g.ok && (mxPartOk ft p)
  | .vmxqB g _ ft p => g.ok && (mxPartOk ft p)
  | .vmxdA g _ _ ft p => g.ok && (mxPartOk ft p)
  | .vmxdB g _ _ ft p => g.ok && (mxPartOk ft p)
  | .vrcpA g _ _ => g.ok
  | .vrcpB g _ _ => g.ok
  | .vrsqA g _ _ => g.ok
  | .vrsqB g _ _ => g.ok
  | .vexpA g _ _ => g.ok
  | .vexpB g _ _ => g.ok
  | .vlogA g _ _ => g.ok
  | .vlogB g _ _ => g.ok
  | .vtanhA g _ _ => g.ok
  | .vtanhB g _ _ => g.ok
  | .vmoviA _ _ => true
  | .vmoviB _ _ => true
  | .vputA g _ _ => g.ok
  | .vputB g _ _ => g.ok
  | .vputxA g _ _ => g.ok
  | .vputxB g _ _ => g.ok
  | .vxmovA g _ => g.ok
  | .vxmovB g _ => g.ok
  | .vmpushA _ _ => true
  | .vminvA => true
  | .vmpopA => true
  | .vmpushB _ _ => true
  | .vminvB => true
  | .vmpopB => true
  | .vldA g _ _ _ => g.ok
  | .vldB g _ _ _ => g.ok
  | .vstA g _ _ _ => g.ok
  | .vstB g _ _ _ => g.ok
  | .vldwA g _ _ _ => g.ok
  | .vldwB g _ _ _ => g.ok
  | .vstwA g _ _ _ => g.ok
  | .vstwB g _ _ _ => g.ok
  | .vldgA g _ _ _ => g.ok
  | .vldgB g _ _ _ => g.ok
  | .vstgA g _ _ _ => g.ok
  | .vstgB g _ _ _ => g.ok
  | .vgathA g _ _ _ _ _ => g.ok
  | .vgathB g _ _ _ _ _ => g.ok
  | .vscatA g _ _ _ _ => g.ok
  | .vscatB g _ _ _ _ => g.ok
  | .vlshuA g _ _ _ => g.ok
  | .vlshuB g _ _ _ => g.ok
  | .vlshdA g _ _ _ => g.ok
  | .vlshdB g _ _ _ => g.ok
  | .vbcastA g _ _ => g.ok
  | .vbcastB g _ _ => g.ok
  | .viotaA g _ _ => g.ok
  | .viotaB g _ _ => g.ok
  | .vpermA g _ _ => g.ok
  | .vpermB g _ _ => g.ok
  | .vredA g _ _ => g.ok
  | .vredB g _ _ => g.ok
  | .mwld g _ _ => g.ok
  | .mwsel g _ => g.ok
  | .mpush g _ _ _ _ _ => g.ok
  | .mshift g _ _ _ => g.ok
  | .macc g _ => g.ok
  | .mdrn g _ _ _ _ _ => g.ok
  | .mzero g _ _ => g.ok
  | .msweep g _ _ => g.ok
  | .mend g => g.ok
  | .mswap g _ => g.ok
  | .mfmt g _ => g.ok
  | .mstat g => g.ok
  | .cnest g _ _ => g.ok
  | .cstride g _ _ _ => g.ok
  | .cbase g _ _ _ => g.ok
  | .ccopy g _ _ _ => g.ok
  | .cacc g _ _ _ _ => g.ok
  | .caccr g _ _ _ _ => g.ok
  | .ccas g _ _ _ _ _ => g.ok
  | .csync g _ _ _ => g.ok
  | .cswait g _ _ => g.ok
  | .cfeset g _ _ _ => g.ok
  | .cring g _ _ _ => g.ok
  | .crsub g _ _ _ _ => g.ok
  | .crunsub g _ => g.ok
  | .crfin g _ => g.ok
  | .cwait g => g.ok
  | .stream g _ _ => g.ok
  | .sclose g _ _ => g.ok
  | .clred g _ => g.ok
  | .clbc g _ => g.ok
  | .cla2a g _ => g.ok
  | .clvir g _ => g.ok
  | .clrowDisp g _ => g.ok
  | .clrowComb g _ => g.ok
  | .clwait g _ => g.ok
  | .fbstat g _ _ => g.ok
  | .kvld g _ _ => g.ok
  | .kvst g _ _ => g.ok
  | .psel g _ _ => g.ok
  | .pmapRead g _ _ => g.ok
  | .pmapReadref g _ _ => g.ok
  | .pmapMapnew g _ _ => g.ok
  | .pmapRevoke g _ _ => g.ok
  | .pmapEvict g _ _ => g.ok
  | .pmapPrefetch g _ _ => g.ok
  | .psref g _ _ _ _ => g.ok
  | .psdrop g _ _ => g.ok
  | .spawn g _ _ _ _ => g.ok
  | .spawnb g _ _ _ => g.ok
  | .cancel g _ => g.ok
  | .reprio g _ _ => g.ok
  | .join g a any => g.ok && (!any || a == .q 0)
  | .tkdone g => g.ok
  | .tstat g => g.ok
  | .phreg g _ _ => g.ok
  | .phdrop g _ => g.ok
  | .pharr g _ _ => g.ok
  | .phwait g _ _ => g.ok
  | .phaw g _ _ => g.ok
  | .phrd g _ => g.ok
  | .nsvl g _ _ _ => g.ok
  | .nsback g _ _ _ _ => g.ok
  | .nssel g _ _ _ => g.ok
  | .nsrd g _ b _ ft => g.ok && (ft == .sp || b == .q 0)
  | .nswr g _ _ _ _ => g.ok
  | .nsalloc g _ _ _ => g.ok
  | .nsallocFree g _ _ => g.ok
  | .gscfg g a clr _ => g.ok && (!clr || a == .q 0)
  | .gsocc g _ => g.ok
  | .gsdlen g _ => g.ok
  | .gsseed g _ => g.ok
  | .gsiterStart g _ => g.ok
  | .gsiterLayer g _ _ => g.ok
  | .gsiterEnd g _ => g.ok
  | .gsnoise g _ _ _ => g.ok
  | .gssamp g _ => g.ok
  | .gsacc g _ _ => g.ok
  | .gswait g _ b lay => g.ok && (lay || b == .q 0)
  | .cxs g _ _ _ _ => g.ok
  | .thrc g _ _ _ _ _ => g.ok
  | .hist g _ _ _ _ => g.ok
  | .ttnew g _ _ => g.ok
  | .ttadd g _ _ _ => g.ok
  | .ttpos g _ _ _ => g.ok
  | .ttmask g _ _ _ form blk => g.ok && (form != .bits || blk == 0)
  | .ttpath g _ _ _ _ => g.ok
  | .ttprune g _ _ _ => g.ok
  | .ttfree g _ => g.ok
  | .ttrd g _ _ => g.ok
  | .expchkWrite => true
  | .trappcWrite => true
  | .rxringWrite => true
  | .ftgcfgWrite => true
  | .tteageWrite => true
  | .bfcfgWrite => true
  | .bftabWrite => true
  | .gsctlWrite => true
  | .snapcfgWrite => true
  | .gscurRead => true
  | .mergeIssueCycle => true
  | .asyncCauseTaken => true
  | .resultLanding => true
  | .regcacheFill => true
  | .waitExpiry => true
  | .rteResume => true
  | .phaseDrainComplete => true
  | .replayIterationEnd => true
  | .contextPark => true
  | .contextResume => true
  | .priorityPark => true
  | .taskStart => true
  | .waveFormation => true
  | .ticketRetire => true
  | .batchClose => true
  | .batchTaskEnd => true
  | .phaserOpApply => true
  | .copyGranule => true
  | .commandComplete => true
  | .spoutTileTransfer => true
  | .spoutDepthUpdate => true
  | .mwldComplete => true
  | .arrayFill => true
  | .sweepRollback => true
  | .pageWalk => true
  | .directoryAccess => true
  | .cacheEviction => true
  | .releasePerform => true
  | .remoteResponse => true
  | .weirArrival => true
  | .ackReceive => true
  | .flitReceive => true
  | .retransmitTimeout => true
  | .endpointUnreachable => true
  | .linkStateChange => true
  | .flitSeal => true
  | .lendWindow => true
  | .lendReceive => true
  | .fifoDelivery => true
  | .resumeNotice => true
  | .remoteRetryResend => true
  | .wavedone => true
  | .waveClose => true
  | .collectiveArrival => true
  | .collectiveComplete => true
  | .ualinkRefused => true
  | .flashFill => true
  | .evictComplete => true
  | .setBuildComplete => true
  | .nodeWalkStep => true
  | .gsqOpArrival => true
  | .coreGrant => true
  | .entryTaskCreate => true
  | .launchComplete => true
  | .watchdogStage1 => true
  | .watchdogStage2 => true
  | .watchdogStage3 => true
  | .clapperCapture => true
  | .clapperMessage => true
  | .patrolScrub => true
  | .fetchAheadFault => true
  | .powerGood => true
  | .finalCutStepDone => true
  | .throttleStep => true
  | .trip => true
  | .qpEstablish => true
  | .rdmaWrite => true
  | .rdmaRead => true
  | .plohusDrop => true
  | .plohusUnknown => true
  | .launch => true
  | .kill => true
  | .resume => true
  | .finalcut => true
  | .reset => true
  | .setroot => true
  | .setprio => true
  | .setexp => true
  | .xlinv => true
  | .mrreg => true
  | .mrdereg => true
  | .reach => true
  | .kekset => true
  | .keyset => true
  | .fencerel => true
  | .pwrcap => true
  | .attest => true
  | .certread => true
  | .snapcmd => true
  | .snapread => true
  | .logread => true
  | .basinApply => true
  | .bundleFetch => true
  | .qpTeardown => true
  | .rdmaAtomicOrUd => true
  | .captureDone => true

end Sys2Proof
end

