-- ==== Sys2Proof/Machine/Arith.lean ====
section
/-!
DEFINITION. Number formats and arithmetic (R58-R82, R214): integers, floating-point codes with one rounding, MX blocks,
the fixed orders of summation, and the elementary functions as integer arithmetic.
-/

namespace Sys2Proof.Arith

/-! ### Integers (R58, R59, R70, R162) -/

/-- sat_s of a value into w bits (R70), as an integer. -/
def clampS (v : Int) (w : Nat) : Int := max (-(2 ^ (w - 1) : Int)) (min v (2 ^ (w - 1) - 1))
/-- sat_n of a value into w bits (R70), as an integer. -/
def clampN (v : Int) (w : Nat) : Int := max 0 (min v (2 ^ w - 1))
/-- sx of a pattern (R70). -/
def sx (x : Nat) (w : Nat) : Int := let y := x % 2 ^ w; if y < 2 ^ (w - 1) then y else (y : Int) - 2 ^ w
/-- zx of a pattern (R70). -/
def zx (x : Nat) (w : Nat) : Nat := x % 2 ^ w
/-- wrap to a w-bit pattern (R70). -/
def wrap (v : Int) (w : Nat) : Nat := (v % (2 ^ w : Int)).toNat

/-- int_in (R162). -/
def intIn (x w : Nat) (u : Bool) : Int := if u then zx x w else sx x w
/-- The w-bit pattern of a result: wrapped, or clamped under SAT (R59). -/
def intPat (v : Int) (w : Nat) (u sat : Bool) : Nat :=
  wrap (if sat then (if u then clampN v w else clampS v w) else v) w
/-- int_out (R162): the 64-bit pattern pushed. -/
def intOut (v : Int) (w : Nat) (u sat : Bool) : W64 :=
  let p := intPat v w u sat
  if u then BitVec.ofNat 64 p else BitVec.ofInt 64 (sx p w)

/-- Width in bits (R161). -/
def bits : Width → Nat
  | .w64 => 64 | .w32 => 32 | .w16 => 16 | .w8 => 8

/-- DIV and REM (R165): quotient and remainder. -/
def divRem (a b : Int) (w : Nat) (u sat : Bool) : Int × Int :=
  if b = 0 then (if u then (2 ^ w : Int) - 1 else -1, a)
  else if !u && a = -(2 ^ (w - 1) : Int) && b = -1 then (if sat then (2 ^ (w - 1) : Int) - 1 else a, 0)
  else (a.tdiv b, a.tmod b)

/-- Shift left and right of R164 and R205: `a` read by int_in, `s` the unsigned amount. -/
def shl (a : Int) (s w : Nat) : Int := if s < w then a * 2 ^ s else 0
/-- Arithmetic or logical shift right, by the sign of `a` (R164). -/
def shr (a : Int) (s w : Nat) : Int := if s < w then a / (2 ^ s : Int) else if a < 0 then -1 else 0

/-- Leading zeros of the w-bit pattern (R167). -/
def clz (x w : Nat) : Nat := let y := x % 2 ^ w; if y = 0 then w else w - 1 - Nat.log2 y
/-- Number of one bits among the low w bits (R167). -/
def popc (x : Nat) : Nat → Nat
  | 0 => 0
  | w + 1 => (if x.testBit w then 1 else 0) + popc x w

/-- f of R171. -/
def plog : PlogOp → Bool → Bool → Bool
  | .and, x, y => x && y
  | .or, x, y => x || y
  | .xor, x, y => x != y
  | .andn, x, y => x && !y
  | .orn, x, y => x || !y
  | .nand, x, y => !(x && y)
  | .nor, x, y => !(x || y)
  | .xnor, x, y => x == y

/-! ### Floating-point codes (R60-R64) -/

/-- A floating-point format: widths of E and M, bias, and the greatest finite code (R60). -/
structure Fmt where
  ew : Nat
  mw : Nat
  bias : Nat
  maxCode : Nat
  hasInf : Bool
deriving DecidableEq, Repr

/-- R60. -/
def f32 : Fmt := ⟨8, 23, 127, 0x7F7FFFFF, true⟩
/-- R60. -/
def f16 : Fmt := ⟨5, 10, 15, 0x7BFF, true⟩
/-- R60. -/
def bf16 : Fmt := ⟨8, 7, 127, 0x7F7F, true⟩
/-- R60. -/
def e4m3 : Fmt := ⟨4, 3, 7, 0x7E, false⟩
/-- R60. -/
def e5m2 : Fmt := ⟨5, 2, 15, 0x7B, true⟩
/-- R60. -/
def e2m1 : Fmt := ⟨2, 1, 1, 0x7, false⟩

/-- Width of a code. -/
def Fmt.width (f : Fmt) : Nat := 1 + f.ew + f.mw
/-- The sign bit of a code. -/
def Fmt.neg (f : Fmt) (x : Nat) : Bool := x.testBit (f.ew + f.mw)
/-- The code without its sign. -/
def Fmt.mag (f : Fmt) (x : Nat) : Nat := x % 2 ^ (f.ew + f.mw)
/-- The code of a magnitude and a sign. -/
def Fmt.signed (f : Fmt) (s : Bool) (m : Nat) : Nat := (if s then 2 ^ (f.ew + f.mw) else 0) + m
/-- The magnitude code of infinity, in a format that has one. -/
def Fmt.infMag (f : Fmt) : Nat := f.maxCode + 1
/-- Infinity (R60). -/
def Fmt.isInf (f : Fmt) (x : Nat) : Bool := f.hasInf && f.mag x == f.infMag
/-- NaN (R60). -/
def Fmt.isNan (f : Fmt) (x : Nat) : Bool := f.mag x > (if f.hasInf then f.infMag else f.maxCode)
/-- The canonical NaN (R62). -/
def Fmt.canon (f : Fmt) : Nat :=
  if f.hasInf then f.infMag + 2 ^ (f.mw - 1) else if f.mw = 1 then 0 else f.maxCode + 1

/-- A NaN of one format quieted and carried to another (R61, R63). -/
def nanTo (src dst : Fmt) (x : Nat) : Nat :=
  let s := src.neg x
  if !dst.hasInf then (if dst.mw = 1 then 0 else dst.signed s (dst.maxCode + 1))
  else
    let p := (x % 2 ^ src.mw) ||| 2 ^ (src.mw - 1)
    let q := if dst.mw ≥ src.mw then p <<< (dst.mw - src.mw) else p >>> (src.mw - dst.mw)
    dst.signed s (dst.infMag + q)

/-- An exact real with the sign of zero, or an infinity: (-1)^neg × m × 2^e. -/
inductive Ext where
  | fin (neg : Bool) (m : Nat) (e : Int)
  | inf (neg : Bool)
deriving DecidableEq, Repr

/-- The value of a code that is not a NaN (R60). -/
def Fmt.val (f : Fmt) (x : Nat) : Ext :=
  let s := f.neg x
  if f.isInf x then .inf s
  else
    let g := f.mag x
    let e := g >>> f.mw
    let m := g % 2 ^ f.mw
    if e = 0 then .fin s m (1 - (f.bias : Int) - f.mw)
    else .fin s (m + 2 ^ f.mw) ((e : Int) - f.bias - f.mw)

/-- round_int of m / 2^k (R68). -/
def roundShift (m k : Nat) (rm : Rm) (neg : Bool) : Nat :=
  let q := m >>> k
  let r := m % 2 ^ k
  let up : Bool :=
    match rm with
    | .rne => 2 * r > 2 ^ k || (2 * r == 2 ^ k && q % 2 == 1)
    | .rna => r != 0 && 2 * r ≥ 2 ^ k
    | .rtz => false
    | .rup => r != 0 && !neg
    | .rdn => r != 0 && neg
  if up then q + 1 else q

/-- round_int of m × 2^e (R68). -/
def roundInt (m : Nat) (e : Int) (rm : Rm) (neg : Bool) : Nat :=
  if e ≥ 0 then m <<< e.toNat else roundShift m (-e).toNat rm neg

/-- overflow (R68). -/
def overflow (f : Fmt) (s : Bool) (rm : Rm) (sat : Bool) : Nat :=
  let big := rm == .rne || rm == .rna || (rm == .rup && !s) || (rm == .rdn && s)
  if sat || f.mw = 1 || !big then f.signed s f.maxCode
  else f.signed s (f.maxCode + 1)

/-- round_fmt (R68). -/
def roundFmt (f : Fmt) (v : Ext) (rm : Rm := .rne) (sat : Bool := false) (fz : Bool := false) : Nat :=
  match v with
  | .inf s => if sat || !f.hasInf then f.signed s f.maxCode else f.signed s f.infMag
  | .fin s m e =>
    if m = 0 then f.signed s 0
    else
      let emin : Int := 1 - f.bias
      let ex := max ((Nat.log2 m : Int) + e) emin
      let q := roundInt m (e - (ex - f.mw)) rm s
      let g := (ex - emin).toNat * 2 ^ f.mw + q
      if g > f.maxCode then overflow f s rm sat
      else if fz && g < 2 ^ f.mw then f.signed s 0
      else f.signed s g

/-! ### Exact sums and products (R62, R68, R71) -/

/-- The exact sum of two finite values, with the sign of a zero sum (R68). -/
def addFin (rm : Rm) (s1 : Bool) (m1 : Nat) (e1 : Int) (s2 : Bool) (m2 : Nat) (e2 : Int) : Ext :=
  let e := min e1 e2
  let a : Int := (m1 <<< (e1 - e).toNat : Nat)
  let b : Int := (m2 <<< (e2 - e).toNat : Nat)
  let t := (if s1 then -a else a) + (if s2 then -b else b)
  if t = 0 then .fin (if m1 = 0 && m2 = 0 && s1 == s2 then s1 else rm == .rdn) 0 0
  else .fin (t < 0) t.natAbs e

/-- The exact sum; none where it is ∞ − ∞ (R62). -/
def addExt (rm : Rm) : Ext → Ext → Option Ext
  | .fin s1 m1 e1, .fin s2 m2 e2 => some (addFin rm s1 m1 e1 s2 m2 e2)
  | .inf s, .fin .. => some (.inf s)
  | .fin .., .inf s => some (.inf s)
  | .inf s, .inf t => if s == t then some (.inf s) else none

/-- The exact product; none where it is 0 × ∞ (R62). -/
def mulExt : Ext → Ext → Option Ext
  | .fin s1 m1 e1, .fin s2 m2 e2 => some (.fin (s1 != s2) (m1 * m2) (e1 + e2))
  | .inf s, .fin t m _ => if m = 0 then none else some (.inf (s != t))
  | .fin t m _, .inf s => if m = 0 then none else some (.inf (s != t))
  | .inf s, .inf t => some (.inf (s != t))

/-- The value negated. -/
def negExt : Ext → Ext
  | .fin s m e => .fin (!s) m e
  | .inf s => .inf (!s)

/-- Less-than of exact values; −0 below +0 only where `z` asks for it (R71). -/
def ltExt (z : Bool) : Ext → Ext → Bool
  | .inf s, .inf t => s && !t
  | .inf s, .fin .. => s
  | .fin .., .inf t => !t
  | .fin s1 m1 e1, .fin s2 m2 e2 =>
    let e := min e1 e2
    let a : Int := (m1 <<< (e1 - e).toNat : Nat)
    let b : Int := (m2 <<< (e2 - e).toNat : Nat)
    let x := if s1 then -a else a
    let y := if s2 then -b else b
    x < y || (z && x = 0 && y = 0 && s1 && !s2)

/-- A result from a value or an invalid operation (R62, R68). -/
def finish (f : Fmt) (rm : Rm) : Option Ext → Nat
  | none => f.canon
  | some v => roundFmt f v rm

/-- nan_pick over the operands in order (R63): the first NaN, quieted. -/
def nanPick (f : Fmt) : List Nat → Option Nat
  | [] => none
  | x :: r => if f.isNan x then some (nanTo f f x) else nanPick f r

/-- f_add (R71). -/
def fAdd (f : Fmt) (rm : Rm) (a b : Nat) : Nat :=
  (nanPick f [a, b]).getD (finish f rm (addExt rm (f.val a) (f.val b)))
/-- f_sub (R71): a NaN b is carried with its own sign. -/
def fSub (f : Fmt) (rm : Rm) (a b : Nat) : Nat :=
  (nanPick f [a, b]).getD (finish f rm (addExt rm (f.val a) (negExt (f.val b))))
/-- f_mul (R71). -/
def fMul (f : Fmt) (rm : Rm) (a b : Nat) : Nat :=
  (nanPick f [a, b]).getD (finish f rm (mulExt (f.val a) (f.val b)))
/-- f_fma, or with `sub` the form a × b − c (R71, R207). -/
def fFma (f : Fmt) (sub : Bool) (a b c : Nat) : Nat :=
  (nanPick f [a, b, c]).getD (finish f .rne
    ((mulExt (f.val a) (f.val b)).bind fun p => addExt .rne p (if sub then negExt (f.val c) else f.val c)))
/-- fmin_num (R71). -/
def fMin (f : Fmt) (a b : Nat) : Nat :=
  if f.isNan a then (if f.isNan b then nanTo f f a else b)
  else if f.isNan b then a else if ltExt true (f.val b) (f.val a) then b else a
/-- fmax_num (R71). -/
def fMax (f : Fmt) (a b : Nat) : Nat :=
  if f.isNan a then (if f.isNan b then nanTo f f a else b)
  else if f.isNan b then a else if ltExt true (f.val a) (f.val b) then b else a
/-- VADDMIN on floats (R207). -/
def fAddMin (f : Fmt) (a b c : Nat) : Nat :=
  (nanPick f [a, b, c]).getD
    (match addExt .rne (f.val a) (f.val b) with
     | none => f.canon
     | some s => roundFmt f (if ltExt true s (f.val c) then s else f.val c))
/-- VABS and VNEG on floats (R205). -/
def fAbs (f : Fmt) (a : Nat) : Nat := if f.isNan a then nanTo f f a else f.mag a
/-- VNEG on floats (R205). -/
def fNeg (f : Fmt) (a : Nat) : Nat := if f.isNan a then nanTo f f a else f.signed (!f.neg a) (f.mag a)

/-- feq, flt, fle of f32 codes (R208). -/
def fEq (a b : Nat) : Bool :=
  !f32.isNan a && !f32.isNan b && !ltExt false (f32.val a) (f32.val b) && !ltExt false (f32.val b) (f32.val a)
/-- flt of f32 codes (R208). -/
def fLt (a b : Nat) : Bool := !f32.isNan a && !f32.isNan b && ltExt false (f32.val a) (f32.val b)
/-- fle of f32 codes (R208). -/
def fLe (a b : Nat) : Bool := !f32.isNan a && !f32.isNan b && !ltExt false (f32.val b) (f32.val a)

/-- total_key (R72). -/
def totalKey (x : W32) : Nat :=
  if f32.isNan x.toNat then 0 else if x.getLsbD 31 then (~~~x).toNat else x.toNat + 2 ^ 31

/-! ### Conversions (R69, R74, R211) -/

/-- An integer as an exact value. -/
def ofInt (v : Int) : Ext := .fin (v < 0) v.natAbs 0
/-- Float to integer under RM, not yet clamped; infinities become out-of-range values (R69). -/
def toInt (v : Ext) (rm : Rm) : Int :=
  match v with
  | .inf s => if s then -(2 ^ 200 : Int) else 2 ^ 200
  | .fin s m e => let q : Int := roundInt m e rm s; if s then -q else q
/-- Float to float (R69). SAT clamps an infinity also where the formats are one (R211, log entry 86). -/
def cvtFF (src dst : Fmt) (rm : Rm) (sat : Bool) (x : Nat) : Nat :=
  if src.isNan x then nanTo src dst x else roundFmt dst (src.val x) rm sat
/-- Float to a w-bit integer (R69). -/
def cvtFI (src : Fmt) (w : Nat) (u : Bool) (rm : Rm) (x : Nat) : Nat :=
  if src.isNan x then 0 else intPat (toInt (src.val x) rm) w u true
/-- A w-bit integer to float (R69). -/
def cvtIF (w : Nat) (u : Bool) (dst : Fmt) (rm : Rm) (x : Nat) : Nat := roundFmt dst (ofInt (intIn x w u)) rm

/-- to_fx64 (R74). -/
def toFx64 (x : W32) : W64 :=
  if f32.isNan x.toNat then 0
  else BitVec.ofInt 64 (clampS (match f32.val x.toNat with
    | .inf s => if s then -(2 ^ 80 : Int) else 2 ^ 80
    | .fin s m e => let q : Int := roundInt m (e + 32) .rne s; if s then -q else q) 64)
/-- fx64_to_f32 (R74). -/
def fx64ToF32 (v : W64) : W32 :=
  BitVec.ofNat 32 (roundFmt f32 (.fin (v.toInt < 0) v.toInt.natAbs (-32)))

/-- The float format of a lane format (R203). -/
def fmtOf : FFmt → Fmt
  | .f32 => f32 | .bf16 => bf16 | .f16 => f16
/-- The float format of a conversion code (R211); f32 for the integer codes, which do not use it. -/
def cvtFmt : CvtFmt → Fmt
  | .f32 => f32 | .bf16 => bf16 | .f16 => f16 | .e4m3 => e4m3 | .e5m2 => e5m2
  | .s32 | .s16 | .s8 => f32
/-- conv of R211. -/
def cvt (f : CvtB) (su : Bool) (rm : Rm) (x : Nat) : Nat :=
  match f.src.isInt, f.dst.isInt with
  | false, false => cvtFF (cvtFmt f.src) (cvtFmt f.dst) rm su x
  | false, true => cvtFI (cvtFmt f.src) f.dst.width su rm x
  | true, false => cvtIF f.src.width su (cvtFmt f.dst) rm x
  | true, true => intPat (intIn x f.src.width su) f.dst.width su true

/-! ### MX blocks (R65, R75-R79) -/

/-- The element format of a float block format; e4m3 for mxi8, which does not use it. -/
def mxElem : MxFmt → Fmt
  | .mxf8 => e4m3 | .mxf8b => e5m2 | .mxf4 => e2m1 | .mxi8 => e4m3
/-- emax (R75). -/
def mxEmax : MxFmt → Int
  | .mxf8 => 8 | .mxf8b => 15 | .mxf4 => 2 | .mxi8 => 0
/-- Width of an element (R75). -/
def mxWidth : MxFmt → Nat
  | .mxf4 => 4 | _ => 8

/-- mx_value (R79): none where it is NaN. -/
def mxValue (f : MxFmt) (x8 e : Nat) : Option Ext :=
  if x8 = 255 then none
  else
    let k : Int := (x8 : Int) - 127
    match f with
    | .mxi8 => let v := sx e 8; some (.fin (v < 0) v.natAbs (k - 6))
    | f =>
      if (mxElem f).isNan e then none
      else match (mxElem f).val e with
        | .inf s => some (.inf s)
        | .fin s m x => some (.fin s m (x + k))

/-- Dequantisation to f32 (R79, R213). -/
def mxDequant (f : MxFmt) (x8 e : Nat) : Nat :=
  match mxValue f x8 e with
  | none => f32.canon
  | some v => roundFmt f32 v

/-- floor_log2 of the greatest finite magnitude of f32 codes, none where all are zero (R78). -/
def maxLog2 (xs : List Nat) : Option Int :=
  xs.foldl (fun r x => if f32.isNan x || f32.isInf x then r else
    match f32.val x with
    | .fin _ m e => if m = 0 then r else
        let l := (Nat.log2 m : Int) + e
        match r with | none => some l | some k => some (max k l)
    | .inf _ => r) none

/-- One element of mx_quant (R78), X the block exponent. -/
def mxQElem (f : MxFmt) (X : Int) (x : Nat) : Nat :=
  match f, f32.val x with
  | .mxf8b, .inf s => e5m2.signed s e5m2.infMag
  | .mxi8, .fin s m e =>
    let q : Int := min (roundInt m (e - X + 6) .rne false) 127
    wrap (if s then -q else q) 8
  | f, .fin s m e => roundFmt (mxElem f) (.fin s m (e - X)) .rne true
  | _, .inf _ => 0

/-- mx_quant (R78): scale byte and element codes. -/
def mxQuant (f : MxFmt) (xs : List Nat) : Nat × List Nat :=
  if xs.any (fun x => f32.isNan x || (f32.isInf x && f != .mxf8b)) then (255, xs.map fun _ => 0)
  else
    let X : Int := match maxLog2 xs with
      | none => -127
      | some l => min (max (l - mxEmax f) (-127)) 127
    ((X + 127).toNat, xs.map (mxQElem f X))

/-! ### Exact sums of many terms (R68, R81, R82) -/

/-- A running sum: NaN, an infinity, or an exact sum that remembers which zeros and signs it has met (R68, R82). -/
inductive Sum where
  | nan
  | inf (neg : Bool)
  | fin (num : Int) (e : Int) (zneg zpos nz : Bool)
deriving DecidableEq, Repr

/-- The empty sum. -/
def Sum.zero : Sum := .fin 0 0 false false false
/-- Adds one term; none is a NaN term (R82). -/
def Sum.add (s : Sum) (t : Option Ext) : Sum :=
  match s, t with
  | .nan, _ => .nan
  | _, none => .nan
  | .inf a, some (.inf b) => if a == b then .inf a else .nan
  | .inf a, some (.fin ..) => .inf a
  | .fin .., some (.inf b) => .inf b
  | .fin n e zn zp nz, some (.fin sg m x) =>
    if m = 0 then .fin n e (zn || sg) (zp || !sg) nz
    else
      let k := if nz then min e x else x
      let a : Int := n * 2 ^ (e - k).toNat
      let b : Int := (m <<< (x - k).toNat : Nat)
      .fin (a + (if sg then -b else b)) k zn zp true
/-- The exact sum as a value, with the zero rule of R68; none where it is NaN. -/
def Sum.val (rm : Rm) : Sum → Option Ext
  | .nan => none
  | .inf s => some (.inf s)
  | .fin n e zn zp nz =>
    if n = 0 then
      some (.fin (if !nz && !zp then true else if !nz && !zn then false else rm == .rdn) 0 0)
    else some (.fin (n < 0) n.natAbs e)
/-- The exact sum of a list of terms. -/
def sum (ts : List (Option Ext)) : Sum := ts.foldl Sum.add Sum.zero

/-! ### The reduction tree (R80) -/

/-- One level of reduce_tree. -/
def pairUp (op : Nat → Nat → Nat) : List Nat → List Nat
  | a :: b :: r => op a b :: pairUp op r
  | l => l
/-- reduce_tree over 2^k values (R80). -/
def reduceTree (op : Nat → Nat → Nat) : Nat → List Nat → Nat
  | 0, l => l.headD 0
  | k + 1, l => reduceTree op k (pairUp op l)

/-! ### Elementary functions (R214)

Fixed-point integers with 256 fraction bits; the low bit of a result is sticky, so one rounding by round_fmt gives the
correctly rounded value unless the true value lies within 2^-200 of a rounding boundary. -/

/-- Fraction bits of the fixed-point values. -/
def fxp : Nat := 256
/-- One, in fixed point. -/
def one : Nat := 2 ^ fxp

/-- Square root, rounded down, of x given as k pairs of bits (restoring method). -/
def isqrtGo (x : Nat) : Nat → Nat → Nat
  | 0, r => r
  | k + 1, r => let c := r + 2 ^ k; isqrtGo x k (if c * c ≤ x then c else r)
/-- Integer square root, rounded down. -/
def isqrt (x : Nat) : Nat := isqrtGo x (Nat.log2 x / 2 + 1) 0

/-- Sum of the series 1 + x + x²/2! + … from the term t of index n, for fuel terms (fixed point). -/
def expGo (x : Nat) : Nat → Nat → Nat → Nat
  | 0, _, _ => 0
  | fuel + 1, n, t => t + expGo x fuel (n + 1) (t * x / (one * (n + 1)))
/-- e^x for 0 ≤ x < 1, in fixed point. -/
def expFx (x : Nat) : Nat := expGo x 70 0 one
/-- Sum t^(2n+1) / (2n+1), fixed point; `p` is the current odd power. -/
def atanhGo (t2 : Nat) : Nat → Nat → Nat → Nat
  | 0, _, _ => 0
  | fuel + 1, n, p => p / (2 * n + 1) + atanhGo t2 fuel (n + 1) (p * t2 / one)
/-- atanh of num/den with 0 ≤ num/den ≤ 1/3, in fixed point. -/
def atanhFx (num den : Nat) : Nat := let t := num * one / den; atanhGo (t * t / one) 90 0 t
/-- ln 2 in fixed point: 2 atanh(1/3). -/
def ln2 : Nat := 2 * atanhFx 1 3
/-- ln of m / 2^k for a value in [3/4, 3/2], as sign and magnitude in fixed point. -/
def lnFx (m k : Nat) : Bool × Nat :=
  let d := 2 ^ k
  if m ≥ d then (false, 2 * atanhFx (m - d) (m + d)) else (true, 2 * atanhFx (d - m) (m + d))
/-- ln of the positive dyadic m × 2^e as an integer in fixed point. -/
def lnDyadic (m : Nat) (e : Int) : Int :=
  let l := Nat.log2 m
  let k := if 2 * m ≥ 3 * 2 ^ l then l + 1 else l
  let r := lnFx m k
  (if r.1 then -(r.2 : Int) else r.2) + (e + k) * ln2

/-- A fixed-point magnitude as a value with its sticky bit set. -/
def sticky (neg : Bool) (x : Nat) : Ext := .fin neg (2 * x + 1) (-(fxp : Int) - 1)

/-- 1 / a (R214). -/
def rcpExt : Ext → Ext
  | .inf s => .fin s 0 0
  | .fin s m e =>
    if m = 0 then .inf s
    else
      let l := Nat.log2 m + 70
      let q := 2 ^ l / m
      if 2 ^ l % m = 0 then .fin s q (-e - l) else .fin s (2 * q + 1) (-e - l - 1)
/-- a / b; none where it is 0/0 or ∞/∞, and the result a NaN: R62 names no quotient of two infinities, which an infinite gate of
R343 gives (DESIGN CHOICE, log entry 97). Bits below 64 quotient bits are kept as one. -/
def divExt : Ext → Ext → Option Ext
  | .inf s, .fin t _ _ => some (.inf (s != t))
  | .fin s _ _, .inf t => some (.fin (s != t) 0 0)
  | .inf _, .inf _ => none
  | .fin s m e, .fin t k f =>
    if k = 0 then (if m = 0 then none else some (.inf (s != t)))
    else
      let l := Nat.log2 k + 70
      let q := m * 2 ^ l / k
      if m * 2 ^ l % k = 0 then some (.fin (s != t) q (e - f - l)) else some (.fin (s != t) (2 * q + 1) (e - f - l - 1))
/-- The quotient of two codes, rounded once (R62, R63, R68). -/
def fDiv (f : Fmt) (a b : Nat) : Nat := (nanPick f [a, b]).getD (finish f .rne (divExt (f.val a) (f.val b)))
/-- √(m × 2^e), with the bits below 64 of its root kept as one (R437). -/
def sqrtFin (m : Nat) (e : Int) : Ext :=
  let k : Nat := if e % 2 = 0 then 128 else 129
  let y := m * 2 ^ k
  let r := isqrt y
  let h : Int := (e - k) / 2
  if r * r = y then .fin false r h else .fin false (2 * r + 1) (h - 1)
/-- √a for a that is not negative, rounded once. -/
def fSqrt (f : Fmt) (a : Nat) : Nat :=
  match f.val a with
  | .fin _ m e => if m = 0 then 0 else roundFmt f (sqrtFin m e)
  | .inf _ => f.infMag
/-- 1 / √a for a > 0 (R214). -/
def rsqFin (m : Nat) (e : Int) : Ext :=
  -- an even exponent, then √(2^(2k) / m)
  let m' := if e % 2 = 0 then m else 2 * m
  let e' := if e % 2 = 0 then e else e - 1
  let l := Nat.log2 m'
  let h := -(e' / 2)
  if m' = 2 ^ l && l % 2 = 0 then .fin false 1 (h - l / 2)
  else
    let k := l + 70
    .fin false (2 * isqrt (2 ^ (2 * k) / m') + 1) (h - k - 1)
/-- 2^a (R214): exact at integers. -/
def exp2Fin (s : Bool) (m : Nat) (e : Int) : Ext :=
  if m = 0 then .fin false 1 0
  else if (Nat.log2 m : Int) + e ≥ 12 then (if s then .fin false 1 (-5000) else .fin false 1 5000)
  else
    -- a in fixed point, exact: no lane format has a value below 2^-149
    let a : Int := (m <<< (e + fxp).toNat : Nat)
    let v : Int := if s then -a else a
    let n := v / (one : Int)
    let f := (v % (one : Int)).toNat
    if f = 0 then .fin false 1 n
    else .fin false (2 * expFx (f * ln2 / one) + 1) (n - fxp - 1)
/-- log2 of a > 0 (R214). -/
def log2Fin (m : Nat) (e : Int) : Ext :=
  let l := Nat.log2 m
  if m = 2 ^ l then ofInt (e + l)
  else
    let v := lnDyadic m e
    sticky (v < 0) (v.natAbs * one / ln2)
/-- e^-y for 0 ≤ y < 64 in fixed point: the 64th power of e^-(y/64). -/
def expNeg (y : Nat) : Nat :=
  let sq := fun x : Nat => x * x / one
  let t := one * one / expFx (y / 64)
  sq (sq (sq (sq (sq (sq t)))))
/-- tanh of a nonzero finite value (R214): below 2^-14 it rounds to the operand itself, from 16 up to 1. -/
def tanhFin (s : Bool) (m : Nat) (e : Int) : Ext :=
  let l := (Nat.log2 m : Int) + e
  if l < -14 then .fin s m e
  else if l ≥ 4 then .fin s 1 0
  else
    let y := if e + 1 + fxp ≥ 0 then m <<< (e + 1 + fxp).toNat else m >>> (-(e + 1 + fxp)).toNat
    let u := expNeg y
    sticky s ((one - u) * one / (one + u))

/-- VRCP (R214). -/
def fRcp (f : Fmt) (a : Nat) : Nat := (nanPick f [a]).getD (roundFmt f (rcpExt (f.val a)))
/-- VRSQ (R214). -/
def fRsq (f : Fmt) (a : Nat) : Nat :=
  (nanPick f [a]).getD (match f.val a with
    | .inf s => if s then f.canon else f.signed false 0
    | .fin s m e => if m = 0 then f.signed s f.infMag else if s then f.canon else roundFmt f (rsqFin m e))
/-- VEXP (R214). -/
def fExp (f : Fmt) (a : Nat) : Nat :=
  (nanPick f [a]).getD (match f.val a with
    | .inf s => if s then 0 else f.infMag
    | .fin s m e => roundFmt f (exp2Fin s m e))
/-- VLOG (R214). -/
def fLog (f : Fmt) (a : Nat) : Nat :=
  (nanPick f [a]).getD (match f.val a with
    | .inf s => if s then f.canon else f.infMag
    | .fin s m e =>
      if m = 0 then f.signed true f.infMag else if s then f.canon else roundFmt f (log2Fin m e))
/-- VTANH (R214). -/
def fTanh (f : Fmt) (a : Nat) : Nat :=
  (nanPick f [a]).getD (match f.val a with
    | .inf s => roundFmt f (.fin s 1 0)
    | .fin s m e => if m = 0 then f.signed s 0 else roundFmt f (tanhFin s m e))

end Sys2Proof.Arith
end

