-- ==== Sys2Proof/Decode.lean ====
section
/-!
DEFINITION. Decoding and encoding of instruction words (R28-R50): total on any word, rejecting by name; the encoder
is written from the same tables.
-/

namespace Sys2Proof

/-- Why a word holds no instruction: conditions 2, 4 and 5 of R39. -/
inductive DecErr where
  | cls | opcode | field
deriving DecidableEq, Repr

/-- The fields of an instruction word (R28); `m` is MINOR with N in bit 6. -/
structure Fields where
  cls : BitVec 3
  op : BitVec 6
  g : BitVec 3
  a : BitVec 6
  b : BitVec 6
  m : BitVec 7
deriving DecidableEq, Repr

/-- The fields of a word. -/
def Fields.ofWord (w : W32) : Fields :=
  { cls := w.extractLsb' 28 3, op := w.extractLsb' 22 6, g := w.extractLsb' 19 3, a := w.extractLsb' 13 6,
    b := w.extractLsb' 7 6, m := w.extractLsb' 0 7 }
/-- The word with these fields and E = e. -/
def Fields.toWord (e : Bool) (f : Fields) : W32 := BitVec.ofBool e ++ f.cls ++ f.op ++ f.g ++ f.a ++ f.b ++ f.m
/-- IMM13 (R29). -/
def Fields.imm (f : Fields) : BitVec 13 := f.b ++ f.m
/-- OFF22 (R29). -/
def Fields.off (f : Fields) : BitVec 22 := f.g ++ f.a ++ f.b ++ f.m
/-- The guard of an operand-form word (R30). -/
def Fields.guard (f : Fields) : Guard := { p := f.g, inv := f.m.getLsbD 6 }
/-- A field that must be zero (R33). -/
def z {n : Nat} (x : BitVec n) : Option Unit := if x = 0 then some () else none

/-- Code of Width. -/
def Width.enc : Width → BitVec 2
  | .w64 => 0
  | .w32 => 1
  | .w16 => 2
  | .w8 => 3
/-- Width of a code; none where reserved. -/
def Width.dec (x : BitVec 2) : Option Width :=
  match x.toNat with
  | 0 => some .w64
  | 1 => some .w32
  | 2 => some .w16
  | 3 => some .w8
  | _ => none
/-- Code of CmpCond. -/
def CmpCond.enc : CmpCond → BitVec 3
  | .eq => 0
  | .ne => 1
  | .lt => 2
  | .ge => 3
  | .ltu => 4
  | .geu => 5
  | .tst => 6
  | .ntst => 7
/-- CmpCond of a code; none where reserved. -/
def CmpCond.dec (x : BitVec 3) : Option CmpCond :=
  match x.toNat with
  | 0 => some .eq
  | 1 => some .ne
  | 2 => some .lt
  | 3 => some .ge
  | 4 => some .ltu
  | 5 => some .geu
  | 6 => some .tst
  | 7 => some .ntst
  | _ => none
/-- Code of PlogOp. -/
def PlogOp.enc : PlogOp → BitVec 3
  | .and => 0
  | .or => 1
  | .xor => 2
  | .andn => 3
  | .orn => 4
  | .nand => 5
  | .nor => 6
  | .xnor => 7
/-- PlogOp of a code; none where reserved. -/
def PlogOp.dec (x : BitVec 3) : Option PlogOp :=
  match x.toNat with
  | 0 => some .and
  | 1 => some .or
  | 2 => some .xor
  | 3 => some .andn
  | 4 => some .orn
  | 5 => some .nand
  | 6 => some .nor
  | 7 => some .xnor
  | _ => none
/-- Code of IdxReg. -/
def IdxReg.enc : IdxReg → BitVec 2
  | .xs => 0
  | .xa => 1
  | .xb => 2
/-- IdxReg of a code; none where reserved. -/
def IdxReg.dec (x : BitVec 2) : Option IdxReg :=
  match x.toNat with
  | 0 => some .xs
  | 1 => some .xa
  | 2 => some .xb
  | _ => none
/-- Code of FeL. -/
def FeL.enc : FeL → BitVec 3
  | .plain => 0
  | .wf => 1
  | .wfe => 2
/-- FeL of a code; none where reserved. -/
def FeL.dec (x : BitVec 3) : Option FeL :=
  match x.toNat with
  | 0 => some .plain
  | 1 => some .wf
  | 2 => some .wfe
  | _ => none
/-- Code of FeS. -/
def FeS.enc : FeS → BitVec 3
  | .plain => 0
  | .sf => 1
  | .se => 2
  | .wesf => 3
/-- FeS of a code; none where reserved. -/
def FeS.dec (x : BitVec 3) : Option FeS :=
  match x.toNat with
  | 0 => some .plain
  | 1 => some .sf
  | 2 => some .se
  | 3 => some .wesf
  | _ => none
/-- Code of Size. -/
def Size.enc : Size → BitVec 2
  | .b8 => 0
  | .b4 => 1
  | .b2 => 2
  | .b1 => 3
/-- Size of a code; none where reserved. -/
def Size.dec (x : BitVec 2) : Option Size :=
  match x.toNat with
  | 0 => some .b8
  | 1 => some .b4
  | 2 => some .b2
  | 3 => some .b1
  | _ => none
/-- Code of Scope. -/
def Scope.enc : Scope → BitVec 3
  | .ctx => 0
  | .core => 1
  | .clus => 2
  | .die => 3
  | .pkg => 4
  | .fab => 5
/-- Scope of a code; none where reserved. -/
def Scope.dec (x : BitVec 3) : Option Scope :=
  match x.toNat with
  | 0 => some .ctx
  | 1 => some .core
  | 2 => some .clus
  | 3 => some .die
  | 4 => some .pkg
  | 5 => some .fab
  | _ => none
/-- Code of Clu. -/
def Clu.enc : Clu → BitVec 1
  | .a => 0
  | .b => 1
/-- Clu of a code; none where reserved. -/
def Clu.dec (x : BitVec 1) : Option Clu :=
  match x.toNat with
  | 0 => some .a
  | 1 => some .b
  | _ => none
/-- Code of Cl3. -/
def Cl3.enc : Cl3 → BitVec 6
  | .a => 0
  | .b => 1
  | .ab => 2
/-- Cl3 of a code; none where reserved. -/
def Cl3.dec (x : BitVec 6) : Option Cl3 :=
  match x.toNat with
  | 0 => some .a
  | 1 => some .b
  | 2 => some .ab
  | _ => none
/-- Code of File3. -/
def File3.enc : File3 → BitVec 2
  | .k => 0
  | .va => 1
  | .vb => 2
/-- File3 of a code; none where reserved. -/
def File3.dec (x : BitVec 2) : Option File3 :=
  match x.toNat with
  | 0 => some .k
  | 1 => some .va
  | 2 => some .vb
  | _ => none
/-- Code of FFmt. -/
def FFmt.enc : FFmt → BitVec 2
  | .f32 => 0
  | .bf16 => 1
  | .f16 => 2
/-- FFmt of a code; none where reserved. -/
def FFmt.dec (x : BitVec 2) : Option FFmt :=
  match x.toNat with
  | 0 => some .f32
  | 1 => some .bf16
  | 2 => some .f16
  | _ => none
/-- Code of Rm. -/
def Rm.enc : Rm → BitVec 3
  | .rne => 0
  | .rtz => 1
  | .rdn => 2
  | .rup => 3
  | .rna => 4
/-- Rm of a code; none where reserved. -/
def Rm.dec (x : BitVec 3) : Option Rm :=
  match x.toNat with
  | 0 => some .rne
  | 1 => some .rtz
  | 2 => some .rdn
  | 3 => some .rup
  | 4 => some .rna
  | _ => none
/-- Code of VW. -/
def VW.enc : VW → BitVec 2
  | .w32 => 0
  | .w16 => 1
  | .w8 => 2
/-- VW of a code; none where reserved. -/
def VW.dec (x : BitVec 2) : Option VW :=
  match x.toNat with
  | 0 => some .w32
  | 1 => some .w16
  | 2 => some .w8
  | _ => none
/-- Code of MinTy. -/
def MinTy.enc : MinTy → BitVec 2
  | .f32 => 0
  | .bf16 => 1
  | .s32 => 2
  | .n32 => 3
/-- MinTy of a code; none where reserved. -/
def MinTy.dec (x : BitVec 2) : Option MinTy :=
  match x.toNat with
  | 0 => some .f32
  | 1 => some .bf16
  | 2 => some .s32
  | 3 => some .n32
  | _ => none
/-- Code of VCmpCond. -/
def VCmpCond.enc : VCmpCond → BitVec 3
  | .eq => 0
  | .ne => 1
  | .lt => 2
  | .ltu => 3
  | .feq => 4
  | .flt => 5
  | .fle => 6
  | .fun_ => 7
/-- VCmpCond of a code; none where reserved. -/
def VCmpCond.dec (x : BitVec 3) : Option VCmpCond :=
  match x.toNat with
  | 0 => some .eq
  | 1 => some .ne
  | 2 => some .lt
  | 3 => some .ltu
  | 4 => some .feq
  | 5 => some .flt
  | 6 => some .fle
  | 7 => some .fun_
  | _ => none
/-- Code of CvtFmt. -/
def CvtFmt.enc : CvtFmt → BitVec 3
  | .f32 => 0
  | .bf16 => 1
  | .f16 => 2
  | .e4m3 => 3
  | .e5m2 => 4
  | .s32 => 5
  | .s16 => 6
  | .s8 => 7
/-- CvtFmt of a code; none where reserved. -/
def CvtFmt.dec (x : BitVec 3) : Option CvtFmt :=
  match x.toNat with
  | 0 => some .f32
  | 1 => some .bf16
  | 2 => some .f16
  | 3 => some .e4m3
  | 4 => some .e5m2
  | 5 => some .s32
  | 6 => some .s16
  | 7 => some .s8
  | _ => none
/-- Code of MxFmt. -/
def MxFmt.enc : MxFmt → BitVec 2
  | .mxf8 => 0
  | .mxf8b => 1
  | .mxf4 => 2
  | .mxi8 => 3
/-- MxFmt of a code; none where reserved. -/
def MxFmt.dec (x : BitVec 2) : Option MxFmt :=
  match x.toNat with
  | 0 => some .mxf8
  | 1 => some .mxf8b
  | 2 => some .mxf4
  | 3 => some .mxi8
  | _ => none
/-- Code of GSpace. -/
def GSpace.enc : GSpace → BitVec 2
  | .sp => 0
  | .win => 1
/-- GSpace of a code; none where reserved. -/
def GSpace.dec (x : BitVec 2) : Option GSpace :=
  match x.toNat with
  | 0 => some .sp
  | 1 => some .win
  | _ => none
/-- Code of GSize. -/
def GSize.enc : GSize → BitVec 2
  | .b4 => 0
  | .b2 => 1
  | .b1 => 2
/-- GSize of a code; none where reserved. -/
def GSize.dec (x : BitVec 2) : Option GSize :=
  match x.toNat with
  | 0 => some .b4
  | 1 => some .b2
  | 2 => some .b1
  | _ => none
/-- Code of AFmt. -/
def AFmt.enc : AFmt → BitVec 3
  | .bf16 => 0
  | .mxf8 => 1
  | .mxf8b => 2
  | .mxi8 => 3
  | .mxf4 => 4
/-- AFmt of a code; none where reserved. -/
def AFmt.dec (x : BitVec 3) : Option AFmt :=
  match x.toNat with
  | 0 => some .bf16
  | 1 => some .mxf8
  | 2 => some .mxf8b
  | 3 => some .mxi8
  | 4 => some .mxf4
  | _ => none
/-- Code of Gw. -/
def Gw.enc : Gw → BitVec 3
  | .normal => 0
  | .g8 => 1
  | .g16 => 2
  | .g32 => 3
  | .g64 => 4
  | .g128 => 5
/-- Gw of a code; none where reserved. -/
def Gw.dec (x : BitVec 3) : Option Gw :=
  match x.toNat with
  | 0 => some .normal
  | 1 => some .g8
  | 2 => some .g16
  | 3 => some .g32
  | 4 => some .g64
  | 5 => some .g128
  | _ => none
/-- Code of DrainFmt. -/
def DrainFmt.enc : DrainFmt → BitVec 3
  | .f32lo => 0
  | .f32hi => 1
  | .bf16 => 2
  | .mxf8 => 3
  | .mxf8b => 4
  | .mxi8 => 5
  | .mxf4 => 6
/-- DrainFmt of a code; none where reserved. -/
def DrainFmt.dec (x : BitVec 3) : Option DrainFmt :=
  match x.toNat with
  | 0 => some .f32lo
  | 1 => some .f32hi
  | 2 => some .bf16
  | 3 => some .mxf8
  | 4 => some .mxf8b
  | 5 => some .mxi8
  | 6 => some .mxf4
  | _ => none
/-- Code of Lvl. -/
def Lvl.enc : Lvl → BitVec 3
  | .l0 => 0
  | .l1 => 1
  | .l2 => 2
  | .l3 => 3
  | .l4 => 4
  | .l5 => 5
/-- Lvl of a code; none where reserved. -/
def Lvl.dec (x : BitVec 3) : Option Lvl :=
  match x.toNat with
  | 0 => some .l0
  | 1 => some .l1
  | 2 => some .l2
  | 3 => some .l3
  | 4 => some .l4
  | 5 => some .l5
  | _ => none
/-- Code of AccOp. -/
def AccOp.enc : AccOp → BitVec 5
  | .addS32 => 0
  | .addS64 => 1
  | .addF32 => 2
  | .addBf16 => 3
  | .minS32 => 4
  | .maxS32 => 5
  | .minN32 => 6
  | .maxN32 => 7
  | .minS64 => 8
  | .maxS64 => 9
  | .minN64 => 10
  | .maxN64 => 11
  | .minF32 => 12
  | .maxF32 => 13
  | .andB32 => 14
  | .orB32 => 15
  | .xorB32 => 16
  | .andB64 => 17
  | .orB64 => 18
  | .xorB64 => 19
  | .swapB32 => 20
  | .swapB64 => 21
/-- AccOp of a code; none where reserved. -/
def AccOp.dec (x : BitVec 5) : Option AccOp :=
  match x.toNat with
  | 0 => some .addS32
  | 1 => some .addS64
  | 2 => some .addF32
  | 3 => some .addBf16
  | 4 => some .minS32
  | 5 => some .maxS32
  | 6 => some .minN32
  | 7 => some .maxN32
  | 8 => some .minS64
  | 9 => some .maxS64
  | 10 => some .minN64
  | 11 => some .maxN64
  | 12 => some .minF32
  | 13 => some .maxF32
  | 14 => some .andB32
  | 15 => some .orB32
  | 16 => some .xorB32
  | 17 => some .andB64
  | 18 => some .orB64
  | 19 => some .xorB64
  | 20 => some .swapB32
  | 21 => some .swapB64
  | _ => none
/-- Code of SpoutDir. -/
def SpoutDir.enc : SpoutDir → BitVec 2
  | .in_ => 0
  | .out => 1
/-- SpoutDir of a code; none where reserved. -/
def SpoutDir.dec (x : BitVec 2) : Option SpoutDir :=
  match x.toNat with
  | 0 => some .in_
  | 1 => some .out
  | _ => none
/-- Code of PhMode. -/
def PhMode.enc : PhMode → BitVec 2
  | .sig => 0
  | .wait => 1
  | .sw => 2
/-- PhMode of a code; none where reserved. -/
def PhMode.dec (x : BitVec 2) : Option PhMode :=
  match x.toNat with
  | 0 => some .sig
  | 1 => some .wait
  | 2 => some .sw
  | _ => none
/-- Code of ThrTy. -/
def ThrTy.enc : ThrTy → BitVec 2
  | .f32 => 0
  | .s32 => 1
  | .n32 => 2
/-- ThrTy of a code; none where reserved. -/
def ThrTy.dec (x : BitVec 2) : Option ThrTy :=
  match x.toNat with
  | 0 => some .f32
  | 1 => some .s32
  | 2 => some .n32
  | _ => none
/-- Code of MaskForm. -/
def MaskForm.enc : MaskForm → BitVec 2
  | .word => 0
  | .bias => 1
  | .bits => 2
/-- MaskForm of a code; none where reserved. -/
def MaskForm.dec (x : BitVec 2) : Option MaskForm :=
  match x.toNat with
  | 0 => some .word
  | 1 => some .bias
  | 2 => some .bits
  | _ => none
/-- Code of PathFld. -/
def PathFld.enc : PathFld → BitVec 2
  | .node => 0
  | .tok => 1
  | .slot => 2
/-- PathFld of a code; none where reserved. -/
def PathFld.dec (x : BitVec 2) : Option PathFld :=
  match x.toNat with
  | 0 => some .node
  | 1 => some .tok
  | 2 => some .slot
  | _ => none
/-- Code of TtWhat. -/
def TtWhat.enc : TtWhat → BitVec 2
  | .node => 0
  | .desc => 1
  | .pos => 2
/-- TtWhat of a code; none where reserved. -/
def TtWhat.dec (x : BitVec 2) : Option TtWhat :=
  match x.toNat with
  | 0 => some .node
  | 1 => some .desc
  | 2 => some .pos
  | _ => none
/-- Code of NsField. -/
def NsField.enc : NsField → BitVec 3
  | .n => 0
  | .vl => 1
  | .w => 2
  | .p => 3
  | .flags => 4
  | .user => 5
  | .parent => 6
  | .link => 7
/-- NsField of a code; none where reserved. -/
def NsField.dec (x : BitVec 3) : Option NsField :=
  match x.toNat with
  | 0 => some .n
  | 1 => some .vl
  | 2 => some .w
  | 3 => some .p
  | 4 => some .flags
  | 5 => some .user
  | 6 => some .parent
  | 7 => some .link
  | _ => none

/-- Code of a scalar selector (R32). -/
def SSel.enc : SSel → BitVec 6
  | .q n => n.setWidth 6
  | .k r => r.setWidth 6 + 16
  | .kx j => j.setWidth 6 + 48
  | .zero => 56 | .one => 57 | .core => 58 | .fin => 59 | .cq => 60
/-- Scalar selector of a code (R32). -/
def SSel.dec (x : BitVec 6) : Option SSel :=
  if x.toNat < 16 then some (.q (x.setWidth 4))
  else if x.toNat < 48 then some (.k ((x - 16).setWidth 5))
  else if x.toNat < 56 then some (.kx ((x - 48).setWidth 3))
  else match x.toNat with
    | 56 => some .zero | 57 => some .one | 58 => some .core | 59 => some .fin | 60 => some .cq
    | _ => none
/-- Code of a vector selector (R32). -/
def VSel.enc : VSel → BitVec 6
  | .q n => n.setWidth 6
  | .v r => r.setWidth 6 + 16
  | .vx j => j.setWidth 6 + 48
  | .zero => 56 | .one => 57 | .lane => 58 | .xq => 61 | .sq => 62
/-- Vector selector of a code (R32). -/
def VSel.dec (x : BitVec 6) : Option VSel :=
  if x.toNat < 16 then some (.q (x.setWidth 4))
  else if x.toNat < 48 then some (.v ((x - 16).setWidth 5))
  else if x.toNat < 56 then some (.vx ((x - 48).setWidth 3))
  else match x.toNat with
    | 56 => some .zero | 57 => some .one | 58 => some .lane | 61 => some .xq | 62 => some .sq
    | _ => none
/-- Code of a PUT destination (R35). -/
def KDst.enc : KDst → BitVec 6
  | .k r => r.setWidth 6 + 16 | .kx j => j.setWidth 6 + 48 | .fout => 59
/-- PUT destination of a code (R35). -/
def KDst.dec (x : BitVec 6) : Option KDst :=
  if x.toNat < 16 then none
  else if x.toNat < 48 then some (.k ((x - 16).setWidth 5))
  else if x.toNat < 56 then some (.kx ((x - 48).setWidth 3))
  else if x = 59 then some .fout else none
/-- Code of a VPUT destination (R202). -/
def VDst.enc : VDst → BitVec 6
  | .v r => r.setWidth 6 + 16 | .vx j => j.setWidth 6 + 48
/-- VPUT destination of a code (R202). -/
def VDst.dec (x : BitVec 6) : Option VDst :=
  if x.toNat < 16 then none
  else if x.toNat < 48 then some (.v ((x - 16).setWidth 5))
  else if x.toNat < 56 then some (.vx ((x - 48).setWidth 3))
  else none
/-- A predicate number in a selector field (R171). -/
def P6.enc (x : BitVec 3) : BitVec 6 := x.setWidth 6
/-- Bits 5:3 must be zero (R171). -/
def P6.dec (x : BitVec 6) : Option (BitVec 3) := if x.toNat < 8 then some (x.setWidth 3) else none
/-- Field A of XADDI (R174). -/
def IdxSel.enc : IdxReg → BitVec 6
  | .xs => 0 | .xa => 1 | .xb => 2
/-- Codes 3 to 63 are reserved (R174). -/
def IdxSel.dec (x : BitVec 6) : Option IdxReg :=
  match x.toNat with
  | 0 => some .xs | 1 => some .xa | 2 => some .xb | _ => none
/-- Field B of VXMOV (R202). -/
def VRegNo.enc (r : BitVec 5) : BitVec 6 := r.setWidth 6 + 16
/-- A direct code 16 to 47 (R202). -/
def VRegNo.dec (x : BitVec 6) : Option (BitVec 5) :=
  if 16 ≤ x.toNat ∧ x.toNat < 48 then some ((x - 16).setWidth 5) else none
/-- Field B of NEST (R185). -/
def NestB.enc (x : NestB) : BitVec 6 := (0 : BitVec 2) ++ BitVec.ofBool x.cq ++ x.stages
/-- B[5:4] must be zero (R185). -/
def NestB.dec (x : BitVec 6) : Option NestB :=
  if x.toNat < 16 then some { cq := x.getLsbD 3, stages := x.setWidth 3 } else none
/-- Field B of NSTRIDE (R186). -/
def StrideB.enc : StrideB → BitVec 6
  | .clr => 0 | .reg r => r.setWidth 6 + 16
/-- Zero, or a direct code 16 to 47 (R186). -/
def StrideB.dec (x : BitVec 6) : Option StrideB :=
  if x = 0 then some .clr
  else if 16 ≤ x.toNat ∧ x.toNat < 48 then some (.reg ((x - 16).setWidth 5)) else none
/-- Field B of VCVT (R211). -/
def CvtB.enc (x : CvtB) : BitVec 6 := x.src.enc ++ x.dst.enc
/-- SRC and DST (R211). -/
def CvtB.dec (x : BitVec 6) : Option CvtB := do
  let s ← CvtFmt.dec (x.extractLsb' 3 3)
  let d ← CvtFmt.dec (x.extractLsb' 0 3)
  some { src := s, dst := d }
/-- Format field of lane-wise arithmetic (R203). -/
def VTy.enc : VTy → BitVec 6
  | .flt f rm => (0 : BitVec 1) ++ f.enc ++ rm.enc
  | .int w u sat => (1 : BitVec 1) ++ w.enc ++ BitVec.ofBool u ++ BitVec.ofBool sat ++ (0 : BitVec 1)
/-- Format field of lane-wise arithmetic (R203). -/
def VTy.dec (x : BitVec 6) : Option VTy :=
  if x.getLsbD 5 then
    if x.getLsbD 0 then none
    else (VW.dec (x.extractLsb' 3 2)).map (fun w => .int w (x.getLsbD 2) (x.getLsbD 1))
  else do
    let f ← FFmt.dec (x.extractLsb' 3 2)
    let r ← Rm.dec (x.extractLsb' 0 3)
    some (.flt f r)
/-- OPR and TY of VRED (R225). -/
def RedOp.enc : RedOp → BitVec 5
  | .fadd f => (0 : BitVec 3) ++ f.enc
  | .fmin f => (1 : BitVec 3) ++ f.enc
  | .fmax f => (2 : BitVec 3) ++ f.enc
  | .add u => (3 : BitVec 3) ++ (0 : BitVec 1) ++ BitVec.ofBool u
  | .min u => (4 : BitVec 3) ++ (0 : BitVec 1) ++ BitVec.ofBool u
  | .max u => (5 : BitVec 3) ++ (0 : BitVec 1) ++ BitVec.ofBool u
  | .and => (6 : BitVec 3) ++ (0 : BitVec 2)
  | .or => (7 : BitVec 3) ++ (0 : BitVec 2)
/-- OPR and TY of VRED (R225). -/
def RedOp.dec (x : BitVec 5) : Option RedOp :=
  let ty := x.extractLsb' 0 2
  let u := x.getLsbD 0
  match (x.extractLsb' 2 3).toNat with
  | 0 => (FFmt.dec ty).map .fadd
  | 1 => (FFmt.dec ty).map .fmin
  | 2 => (FFmt.dec ty).map .fmax
  | 3 => if ty.toNat < 2 then some (.add u) else none
  | 4 => if ty.toNat < 2 then some (.min u) else none
  | 5 => if ty.toNat < 2 then some (.max u) else none
  | 6 => if ty = 0 then some .and else none
  | _ => if ty = 0 then some .or else none
/-- SP and WORD of NSRD (R433). -/
def NsRd.enc : NsRd → BitVec 3
  | .word w => w.setWidth 3
  | .sp => 4
/-- SP = 1 with WORD not 0 is reserved (R433). -/
def NsRd.dec (x : BitVec 3) : Option NsRd :=
  if x.toNat < 4 then some (.word (x.setWidth 2)) else if x = 4 then some .sp else none
/-- Stage code of CXS (R229). -/
def Stg.enc (x : Stg) : BitVec 5 := BitVec.ofNat 5 x.val
/-- Codes 22 to 31 are reserved (R229). -/
def Stg.dec (x : BitVec 5) : Option Stg := if h : x.toNat < 22 then some ⟨x.toNat, h⟩ else none

/-- Class 0, S slot (R44): none for an unassigned opcode, some none for a reserved field. -/
def decodeS (f : Fields) : Option (Option Instr) :=
  match f.op.toNat with
  | 0x00 => some (do z f.g; z f.a; z f.b; z f.m; some (.nop))
  | 0x01 => some (do let a ← SSel.dec f.a; let b ← SSel.dec f.b; z (f.m.extractLsb' 4 2); let w ← Width.dec (f.m.extractLsb' 0 2); some (.add f.guard a b (f.m.getLsbD 3) (f.m.getLsbD 2) w))
  | 0x02 => some (do let a ← SSel.dec f.a; let b ← SSel.dec f.b; z (f.m.extractLsb' 4 2); let w ← Width.dec (f.m.extractLsb' 0 2); some (.sub f.guard a b (f.m.getLsbD 3) (f.m.getLsbD 2) w))
  | 0x03 => some (do let a ← SSel.dec f.a; some (.addi f.g a f.imm))
  | 0x04 => some (do let a ← SSel.dec f.a; let b ← SSel.dec f.b; z (f.m.extractLsb' 4 2); let w ← Width.dec (f.m.extractLsb' 0 2); some (.mul f.guard a b (f.m.getLsbD 3) (f.m.getLsbD 2) w))
  | 0x05 => some (do let a ← SSel.dec f.a; let b ← SSel.dec f.b; z (f.m.extractLsb' 3 3); let w ← Width.dec (f.m.extractLsb' 0 2); some (.mulh f.guard a b (f.m.getLsbD 2) w))
  | 0x06 => some (do let a ← SSel.dec f.a; let b ← SSel.dec f.b; z (f.m.extractLsb' 4 2); let w ← Width.dec (f.m.extractLsb' 0 2); some (.div f.guard a b (f.m.getLsbD 3) (f.m.getLsbD 2) w))
  | 0x07 => some (do let a ← SSel.dec f.a; let b ← SSel.dec f.b; z (f.m.extractLsb' 3 3); let w ← Width.dec (f.m.extractLsb' 0 2); some (.rem f.guard a b (f.m.getLsbD 2) w))
  | 0x08 => some (do let a ← SSel.dec f.a; let b ← SSel.dec f.b; z (f.m.extractLsb' 3 3); let w ← Width.dec (f.m.extractLsb' 0 2); some (.and f.guard a b (f.m.getLsbD 2) w))
  | 0x09 => some (do let a ← SSel.dec f.a; let b ← SSel.dec f.b; z (f.m.extractLsb' 3 3); let w ← Width.dec (f.m.extractLsb' 0 2); some (.or f.guard a b (f.m.getLsbD 2) w))
  | 0x0A => some (do let a ← SSel.dec f.a; let b ← SSel.dec f.b; z (f.m.extractLsb' 3 3); let w ← Width.dec (f.m.extractLsb' 0 2); some (.xor f.guard a b (f.m.getLsbD 2) w))
  | 0x0B => some (do let a ← SSel.dec f.a; some (.andi f.g a f.imm))
  | 0x0C => some (do let a ← SSel.dec f.a; let b ← SSel.dec f.b; z (f.m.extractLsb' 3 3); let w ← Width.dec (f.m.extractLsb' 0 2); some (.shl f.guard a b (f.m.getLsbD 2) w))
  | 0x0D => some (do let a ← SSel.dec f.a; let b ← SSel.dec f.b; z (f.m.extractLsb' 3 3); let w ← Width.dec (f.m.extractLsb' 0 2); some (.shr f.guard a b (f.m.getLsbD 2) w))
  | 0x0E => some (do let a ← SSel.dec f.a; z (f.imm.extractLsb' 9 4); let w ← Width.dec (f.imm.extractLsb' 6 2); some (.shli f.g a (f.imm.getLsbD 8) w (f.imm.extractLsb' 0 6)))
  | 0x0F => some (do let a ← SSel.dec f.a; z (f.imm.extractLsb' 9 4); let w ← Width.dec (f.imm.extractLsb' 6 2); some (.shri f.g a (f.imm.getLsbD 8) w (f.imm.extractLsb' 0 6)))
  | 0x10 => some (do z f.a; some (.movi f.g f.imm))
  | 0x11 => some (do let a ← SSel.dec f.a; some (.shori f.g a f.imm))
  | 0x12 => some (do let a ← SSel.dec f.a; let b ← SSel.dec f.b; z (f.m.extractLsb' 3 3); let w ← Width.dec (f.m.extractLsb' 0 2); some (.min f.guard a b (f.m.getLsbD 2) w))
  | 0x13 => some (do let a ← SSel.dec f.a; let b ← SSel.dec f.b; z (f.m.extractLsb' 3 3); let w ← Width.dec (f.m.extractLsb' 0 2); some (.max f.guard a b (f.m.getLsbD 2) w))
  | 0x14 => some (do let a ← SSel.dec f.a; z f.b; z (f.m.extractLsb' 2 4); let w ← Width.dec (f.m.extractLsb' 0 2); some (.clz f.guard a w))
  | 0x15 => some (do let a ← SSel.dec f.a; z f.b; z (f.m.extractLsb' 2 4); let w ← Width.dec (f.m.extractLsb' 0 2); some (.popc f.guard a w))
  | 0x16 => some (do let a ← SSel.dec f.a; let b ← SSel.dec f.b; z (f.m.extractLsb' 3 3); z (f.m.extractLsb' 0 2); some (.bfx f.guard a b (f.m.getLsbD 2)))
  | 0x17 => some (do let a ← SSel.dec f.a; let b ← SSel.dec f.b; z (f.m.extractLsb' 4 2); some (.bfi f.guard a b (f.m.extractLsb' 0 4)))
  | 0x18 => some (do let a ← SSel.dec f.a; z f.b; z (f.m.extractLsb' 3 3); let w ← Width.dec (f.m.extractLsb' 0 2); some (.sext f.guard a (f.m.getLsbD 2) w))
  | 0x19 => some (do let a ← SSel.dec f.a; let b ← SSel.dec f.b; z (f.m.extractLsb' 3 3); some (.sel f.guard a b (f.m.extractLsb' 0 3)))
  | 0x1A => some (do let a ← SSel.dec f.a; let b ← SSel.dec f.b; let cond ← CmpCond.dec (f.m.extractLsb' 3 3); some (.cmp f.guard a b cond (f.m.extractLsb' 0 3)))
  | 0x1B => some (do let x ← P6.dec f.a; let y ← P6.dec f.b; let op ← PlogOp.dec (f.m.extractLsb' 3 3); some (.plog f.guard x y op (f.m.extractLsb' 0 3)))
  | 0x1C => some (do let a ← SSel.dec f.a; let d ← KDst.dec f.b; z (f.m.extractLsb' 0 6); some (.put f.guard a d))
  | 0x1D => some (do let a ← SSel.dec f.a; z f.b; z (f.m.extractLsb' 2 4); let x ← IdxReg.dec (f.m.extractLsb' 0 2); some (.putx f.guard a x))
  | 0x1E => some (do let x ← IdxSel.dec f.a; some (.xaddi f.g x f.imm))
  | 0x1F => some (do z f.a; z f.b; z (f.m.extractLsb' 3 3); let sc ← Scope.dec (f.m.extractLsb' 0 3); some (.fence f.guard sc))
  | 0x20 => some (do let a ← SSel.dec f.a; let b ← SSel.dec f.b; let fe ← FeL.dec (f.m.extractLsb' 3 3); let sz ← Size.dec (f.m.extractLsb' 0 2); some (.ld f.guard a b fe (f.m.getLsbD 2) sz))
  | 0x21 => some (do let a ← SSel.dec f.a; let b ← SSel.dec f.b; let fe ← FeS.dec (f.m.extractLsb' 3 3); z (f.m.extractLsb' 2 1); let sz ← Size.dec (f.m.extractLsb' 0 2); some (.st f.guard a b fe sz))
  | 0x22 => some (do let a ← SSel.dec f.a; let b ← SSel.dec f.b; let fe ← FeL.dec (f.m.extractLsb' 3 3); let sz ← Size.dec (f.m.extractLsb' 0 2); some (.ldw f.guard a b fe (f.m.getLsbD 2) sz))
  | 0x23 => some (do let a ← SSel.dec f.a; let b ← SSel.dec f.b; let fe ← FeS.dec (f.m.extractLsb' 3 3); z (f.m.extractLsb' 2 1); let sz ← Size.dec (f.m.extractLsb' 0 2); some (.stw f.guard a b fe sz))
  | 0x24 => some (do let a ← SSel.dec f.a; let b ← SSel.dec f.b; z (f.m.extractLsb' 3 3); let sz ← Size.dec (f.m.extractLsb' 0 2); some (.ldg f.guard a b (f.m.getLsbD 2) sz))
  | 0x25 => some (do let a ← SSel.dec f.a; let b ← SSel.dec f.b; let sz ← Size.dec (f.m.extractLsb' 0 2); some (.stg f.guard a b (f.m.extractLsb' 2 4) sz))
  | 0x26 => some (do let a ← SSel.dec f.a; let b ← SSel.dec f.b; let sc ← Scope.dec (f.m.extractLsb' 3 3); let sz ← Size.dec (f.m.extractLsb' 0 2); some (.lda f.guard a b sc (f.m.getLsbD 2) sz))
  | 0x27 => some (do let a ← SSel.dec f.a; let b ← SSel.dec f.b; let sc ← Scope.dec (f.m.extractLsb' 0 3); some (.strl f.guard a b (f.m.extractLsb' 3 3) sc))
  | 0x28 => some (do z f.a; some (.br f.g f.imm))
  | 0x29 => some (do let cl ← Cl3.dec f.a; some (.brme f.g cl f.imm))
  | 0x2A => some (some (.jmp f.off))
  | 0x2B => some (some (.call f.off))
  | 0x2C => some (do let a ← SSel.dec f.a; z f.b; z (f.m.extractLsb' 0 6); some (.jmpr f.guard a))
  | 0x2D => some (do let a ← SSel.dec f.a; z f.b; z (f.m.extractLsb' 0 6); some (.callr f.guard a))
  | 0x2E => some (do let a ← SSel.dec f.a; z f.b; z (f.m.extractLsb' 0 6); some (.ret f.guard a))
  | 0x30 => some (do let a ← SSel.dec f.a; let bs ← NestB.dec f.b; some (.nest f.guard a bs (f.m.extractLsb' 0 6)))
  | 0x31 => some (do let a ← SSel.dec f.a; let k ← StrideB.dec f.b; let l ← Lvl.dec (f.m.extractLsb' 0 3); some (.nstride f.guard a k (f.m.getLsbD 5) (f.m.extractLsb' 3 2) l))
  | 0x32 => some (do let a ← SSel.dec f.a; let b ← SSel.dec f.b; z (f.m.extractLsb' 3 3); let l ← Lvl.dec (f.m.extractLsb' 0 3); some (.nestmask f.guard a b l))
  | 0x33 => some (do let a ← SSel.dec f.a; z f.b; z (f.m.extractLsb' 0 6); some (.cqpush f.guard a))
  | 0x34 => some (do z f.g; z f.a; z f.b; z (f.m.extractLsb' 6 1); z (f.m.extractLsb' 0 6); some (.cqclr))
  | 0x35 => some (do let a ← SSel.dec f.a; z f.b; z (f.m.extractLsb' 2 4); let ft ← File3.dec (f.m.extractLsb' 0 2); some (.live f.guard a ft))
  | 0x36 => some (do let a ← SSel.dec f.a; z f.b; z (f.m.extractLsb' 0 6); some (.phase f.guard a))
  | 0x38 => some (do z f.a; z (f.imm.extractLsb' 12 1); some (.csrr f.g (f.imm.extractLsb' 0 12)))
  | 0x39 => some (do let a ← SSel.dec f.a; z (f.imm.extractLsb' 12 1); some (.csrw f.g a (f.imm.extractLsb' 0 12)))
  | 0x3A => some (do z f.a; z (f.imm.extractLsb' 8 5); some (.trap f.g (f.imm.extractLsb' 0 8)))
  | 0x3B => some (do z f.g; z f.a; z f.b; z (f.m.extractLsb' 6 1); z (f.m.extractLsb' 0 6); some (.rte))
  | 0x3C => some (do z f.a; some (.waitcy f.g f.imm))
  | 0x3D => some (do let a ← SSel.dec f.a; z f.b; z (f.m.extractLsb' 0 6); some (.snap f.guard a))
  | 0x3E => some (do let a ← SSel.dec f.a; z f.b; z (f.m.extractLsb' 0 6); some (.exit f.guard a))
  | _ => none

/-- Class 1, VA slot (R45): none for an unassigned opcode, some none for a reserved field. -/
def decodeVA (f : Fields) : Option (Option Instr) :=
  match f.op.toNat with
  | 0x01 => some (do let a ← VSel.dec f.a; let b ← VSel.dec f.b; let ty ← VTy.dec (f.m.extractLsb' 0 6); some (.vaddA f.guard a b ty))
  | 0x02 => some (do let a ← VSel.dec f.a; let b ← VSel.dec f.b; let ty ← VTy.dec (f.m.extractLsb' 0 6); some (.vsubA f.guard a b ty))
  | 0x03 => some (do let a ← VSel.dec f.a; let b ← VSel.dec f.b; let ty ← VTy.dec (f.m.extractLsb' 0 6); some (.vmulA f.guard a b ty))
  | 0x04 => some (do let a ← VSel.dec f.a; let b ← VSel.dec f.b; let ty ← FFmt.dec (f.m.extractLsb' 4 2); some (.vfmaA f.guard a b ty (f.m.extractLsb' 0 4)))
  | 0x05 => some (do let a ← VSel.dec f.a; let b ← VSel.dec f.b; let ty ← FFmt.dec (f.m.extractLsb' 4 2); some (.vfmsA f.guard a b ty (f.m.extractLsb' 0 4)))
  | 0x06 => some (do let a ← VSel.dec f.a; let b ← VSel.dec f.b; let ty ← MinTy.dec (f.m.extractLsb' 4 2); some (.vaddminA f.guard a b ty (f.m.extractLsb' 0 4)))
  | 0x07 => some (do let a ← VSel.dec f.a; let b ← VSel.dec f.b; let ty ← VTy.dec (f.m.extractLsb' 0 6); some (.vminA f.guard a b ty))
  | 0x08 => some (do let a ← VSel.dec f.a; let b ← VSel.dec f.b; let ty ← VTy.dec (f.m.extractLsb' 0 6); some (.vmaxA f.guard a b ty))
  | 0x09 => some (do let a ← VSel.dec f.a; z f.b; let ty ← VTy.dec (f.m.extractLsb' 0 6); some (.vabsA f.guard a ty))
  | 0x0A => some (do let a ← VSel.dec f.a; z f.b; let ty ← VTy.dec (f.m.extractLsb' 0 6); some (.vnegA f.guard a ty))
  | 0x0B => some (do let a ← VSel.dec f.a; let b ← VSel.dec f.b; z (f.m.extractLsb' 0 6); some (.vandA f.guard a b))
  | 0x0C => some (do let a ← VSel.dec f.a; let b ← VSel.dec f.b; z (f.m.extractLsb' 0 6); some (.vorA f.guard a b))
  | 0x0D => some (do let a ← VSel.dec f.a; let b ← VSel.dec f.b; z (f.m.extractLsb' 0 6); some (.vxorA f.guard a b))
  | 0x0E => some (do let a ← VSel.dec f.a; let b ← VSel.dec f.b; let ty ← VTy.dec (f.m.extractLsb' 0 6); some (.vshlA f.guard a b ty))
  | 0x0F => some (do let a ← VSel.dec f.a; let b ← VSel.dec f.b; let ty ← VTy.dec (f.m.extractLsb' 0 6); some (.vshrA f.guard a b ty))
  | 0x10 => some (do let a ← VSel.dec f.a; let b ← VSel.dec f.b; let cond ← VCmpCond.dec (f.m.extractLsb' 3 3); some (.vcmpA f.guard a b cond (f.m.extractLsb' 0 3)))
  | 0x11 => some (do let a ← VSel.dec f.a; let b ← VSel.dec f.b; z (f.m.extractLsb' 3 3); some (.vselA f.guard a b (f.m.extractLsb' 0 3)))
  | 0x12 => some (do let x ← P6.dec f.a; let y ← P6.dec f.b; let op ← PlogOp.dec (f.m.extractLsb' 3 3); some (.vplogA f.guard x y op (f.m.extractLsb' 0 3)))
  | 0x13 => some (do let a ← VSel.dec f.a; let ft ← CvtB.dec f.b; let rm ← Rm.dec (f.m.extractLsb' 0 3); some (.vcvtA f.guard a ft (f.m.extractLsb' 4 2) (f.m.getLsbD 3) rm))
  | 0x14 => some (do let a ← VSel.dec f.a; z f.b; z (f.m.extractLsb' 5 1); let ft ← MxFmt.dec (f.m.extractLsb' 3 2); some (.vmxqA f.guard a ft (f.m.extractLsb' 0 3)))
  | 0x15 => some (do let a ← VSel.dec f.a; let b ← VSel.dec f.b; z (f.m.extractLsb' 5 1); let ft ← MxFmt.dec (f.m.extractLsb' 3 2); some (.vmxdA f.guard a b ft (f.m.extractLsb' 0 3)))
  | 0x16 => some (do let a ← VSel.dec f.a; z f.b; let ft ← FFmt.dec (f.m.extractLsb' 4 2); z (f.m.extractLsb' 0 4); some (.vrcpA f.guard a ft))
  | 0x17 => some (do let a ← VSel.dec f.a; z f.b; let ft ← FFmt.dec (f.m.extractLsb' 4 2); z (f.m.extractLsb' 0 4); some (.vrsqA f.guard a ft))
  | 0x18 => some (do let a ← VSel.dec f.a; z f.b; let ft ← FFmt.dec (f.m.extractLsb' 4 2); z (f.m.extractLsb' 0 4); some (.vexpA f.guard a ft))
  | 0x19 => some (do let a ← VSel.dec f.a; z f.b; let ft ← FFmt.dec (f.m.extractLsb' 4 2); z (f.m.extractLsb' 0 4); some (.vlogA f.guard a ft))
  | 0x1A => some (do let a ← VSel.dec f.a; z f.b; let ft ← FFmt.dec (f.m.extractLsb' 4 2); z (f.m.extractLsb' 0 4); some (.vtanhA f.guard a ft))
  | 0x1B => some (do z f.a; some (.vmoviA f.g f.imm))
  | 0x1C => some (do let a ← VSel.dec f.a; let d ← VDst.dec f.b; z (f.m.extractLsb' 0 6); some (.vputA f.guard a d))
  | 0x1D => some (do let a ← VSel.dec f.a; z f.b; some (.vputxA f.guard a (f.m.extractLsb' 0 6)))
  | 0x1E => some (do z f.a; let r ← VRegNo.dec f.b; z (f.m.extractLsb' 0 6); some (.vxmovA f.guard r))
  | 0x1F => some (do z f.g; z f.a; z f.b; z (f.m.extractLsb' 6 1); z (f.m.extractLsb' 4 2); some (.vmpushA (f.m.getLsbD 3) (f.m.extractLsb' 0 3)))
  | 0x20 => some (do z f.g; z f.a; z f.b; z (f.m.extractLsb' 6 1); z (f.m.extractLsb' 0 6); some (.vminvA))
  | 0x21 => some (do z f.g; z f.a; z f.b; z (f.m.extractLsb' 6 1); z (f.m.extractLsb' 0 6); some (.vmpopA))
  | 0x28 => some (do let a ← VSel.dec f.a; let b ← VSel.dec f.b; let fe ← FeL.dec (f.m.extractLsb' 3 3); z (f.m.extractLsb' 0 3); some (.vldA f.guard a b fe))
  | 0x29 => some (do let a ← VSel.dec f.a; let b ← VSel.dec f.b; let fe ← FeS.dec (f.m.extractLsb' 3 3); z (f.m.extractLsb' 0 3); some (.vstA f.guard a b fe))
  | 0x2A => some (do let a ← VSel.dec f.a; let b ← VSel.dec f.b; let fe ← FeL.dec (f.m.extractLsb' 3 3); z (f.m.extractLsb' 0 3); some (.vldwA f.guard a b fe))
  | 0x2B => some (do let a ← VSel.dec f.a; let b ← VSel.dec f.b; let fe ← FeS.dec (f.m.extractLsb' 3 3); z (f.m.extractLsb' 0 3); some (.vstwA f.guard a b fe))
  | 0x2C => some (do let a ← VSel.dec f.a; let b ← VSel.dec f.b; let h ← VSel.dec (f.m.extractLsb' 0 6); some (.vldgA f.guard a b h))
  | 0x2D => some (do let a ← VSel.dec f.a; let b ← VSel.dec f.b; let h ← VSel.dec (f.m.extractLsb' 0 6); some (.vstgA f.guard a b h))
  | 0x2E => some (do let a ← VSel.dec f.a; let b ← VSel.dec f.b; let gsp ← GSpace.dec (f.m.extractLsb' 4 2); let sz ← GSize.dec (f.m.extractLsb' 2 2); z (f.m.extractLsb' 0 1); some (.vgathA f.guard a b gsp sz (f.m.getLsbD 1)))
  | 0x2F => some (do let a ← VSel.dec f.a; let b ← VSel.dec f.b; let gsp ← GSpace.dec (f.m.extractLsb' 4 2); let sz ← GSize.dec (f.m.extractLsb' 2 2); z (f.m.extractLsb' 0 2); some (.vscatA f.guard a b gsp sz))
  | 0x30 => some (do let a ← VSel.dec f.a; let b ← VSel.dec f.b; some (.vlshuA f.guard a b (f.m.extractLsb' 0 6)))
  | 0x31 => some (do let a ← VSel.dec f.a; let b ← VSel.dec f.b; some (.vlshdA f.guard a b (f.m.extractLsb' 0 6)))
  | 0x32 => some (do let a ← VSel.dec f.a; z f.b; some (.vbcastA f.guard a (f.m.extractLsb' 0 6)))
  | 0x33 => some (do let a ← VSel.dec f.a; z f.b; some (.viotaA f.guard a (f.m.extractLsb' 0 6)))
  | 0x34 => some (do let a ← VSel.dec f.a; let b ← VSel.dec f.b; z (f.m.extractLsb' 0 6); some (.vpermA f.guard a b))
  | 0x35 => some (do let a ← VSel.dec f.a; z f.b; let op ← RedOp.dec (f.m.extractLsb' 1 5); z (f.m.extractLsb' 0 1); some (.vredA f.guard a op))
  | _ => none

/-- Class 2, VB slot (R45): none for an unassigned opcode, some none for a reserved field. -/
def decodeVB (f : Fields) : Option (Option Instr) :=
  match f.op.toNat with
  | 0x01 => some (do let a ← VSel.dec f.a; let b ← VSel.dec f.b; let ty ← VTy.dec (f.m.extractLsb' 0 6); some (.vaddB f.guard a b ty))
  | 0x02 => some (do let a ← VSel.dec f.a; let b ← VSel.dec f.b; let ty ← VTy.dec (f.m.extractLsb' 0 6); some (.vsubB f.guard a b ty))
  | 0x03 => some (do let a ← VSel.dec f.a; let b ← VSel.dec f.b; let ty ← VTy.dec (f.m.extractLsb' 0 6); some (.vmulB f.guard a b ty))
  | 0x04 => some (do let a ← VSel.dec f.a; let b ← VSel.dec f.b; let ty ← FFmt.dec (f.m.extractLsb' 4 2); some (.vfmaB f.guard a b ty (f.m.extractLsb' 0 4)))
  | 0x05 => some (do let a ← VSel.dec f.a; let b ← VSel.dec f.b; let ty ← FFmt.dec (f.m.extractLsb' 4 2); some (.vfmsB f.guard a b ty (f.m.extractLsb' 0 4)))
  | 0x06 => some (do let a ← VSel.dec f.a; let b ← VSel.dec f.b; let ty ← MinTy.dec (f.m.extractLsb' 4 2); some (.vaddminB f.guard a b ty (f.m.extractLsb' 0 4)))
  | 0x07 => some (do let a ← VSel.dec f.a; let b ← VSel.dec f.b; let ty ← VTy.dec (f.m.extractLsb' 0 6); some (.vminB f.guard a b ty))
  | 0x08 => some (do let a ← VSel.dec f.a; let b ← VSel.dec f.b; let ty ← VTy.dec (f.m.extractLsb' 0 6); some (.vmaxB f.guard a b ty))
  | 0x09 => some (do let a ← VSel.dec f.a; z f.b; let ty ← VTy.dec (f.m.extractLsb' 0 6); some (.vabsB f.guard a ty))
  | 0x0A => some (do let a ← VSel.dec f.a; z f.b; let ty ← VTy.dec (f.m.extractLsb' 0 6); some (.vnegB f.guard a ty))
  | 0x0B => some (do let a ← VSel.dec f.a; let b ← VSel.dec f.b; z (f.m.extractLsb' 0 6); some (.vandB f.guard a b))
  | 0x0C => some (do let a ← VSel.dec f.a; let b ← VSel.dec f.b; z (f.m.extractLsb' 0 6); some (.vorB f.guard a b))
  | 0x0D => some (do let a ← VSel.dec f.a; let b ← VSel.dec f.b; z (f.m.extractLsb' 0 6); some (.vxorB f.guard a b))
  | 0x0E => some (do let a ← VSel.dec f.a; let b ← VSel.dec f.b; let ty ← VTy.dec (f.m.extractLsb' 0 6); some (.vshlB f.guard a b ty))
  | 0x0F => some (do let a ← VSel.dec f.a; let b ← VSel.dec f.b; let ty ← VTy.dec (f.m.extractLsb' 0 6); some (.vshrB f.guard a b ty))
  | 0x10 => some (do let a ← VSel.dec f.a; let b ← VSel.dec f.b; let cond ← VCmpCond.dec (f.m.extractLsb' 3 3); some (.vcmpB f.guard a b cond (f.m.extractLsb' 0 3)))
  | 0x11 => some (do let a ← VSel.dec f.a; let b ← VSel.dec f.b; z (f.m.extractLsb' 3 3); some (.vselB f.guard a b (f.m.extractLsb' 0 3)))
  | 0x12 => some (do let x ← P6.dec f.a; let y ← P6.dec f.b; let op ← PlogOp.dec (f.m.extractLsb' 3 3); some (.vplogB f.guard x y op (f.m.extractLsb' 0 3)))
  | 0x13 => some (do let a ← VSel.dec f.a; let ft ← CvtB.dec f.b; let rm ← Rm.dec (f.m.extractLsb' 0 3); some (.vcvtB f.guard a ft (f.m.extractLsb' 4 2) (f.m.getLsbD 3) rm))
  | 0x14 => some (do let a ← VSel.dec f.a; z f.b; z (f.m.extractLsb' 5 1); let ft ← MxFmt.dec (f.m.extractLsb' 3 2); some (.vmxqB f.guard a ft (f.m.extractLsb' 0 3)))
  | 0x15 => some (do let a ← VSel.dec f.a; let b ← VSel.dec f.b; z (f.m.extractLsb' 5 1); let ft ← MxFmt.dec (f.m.extractLsb' 3 2); some (.vmxdB f.guard a b ft (f.m.extractLsb' 0 3)))
  | 0x16 => some (do let a ← VSel.dec f.a; z f.b; let ft ← FFmt.dec (f.m.extractLsb' 4 2); z (f.m.extractLsb' 0 4); some (.vrcpB f.guard a ft))
  | 0x17 => some (do let a ← VSel.dec f.a; z f.b; let ft ← FFmt.dec (f.m.extractLsb' 4 2); z (f.m.extractLsb' 0 4); some (.vrsqB f.guard a ft))
  | 0x18 => some (do let a ← VSel.dec f.a; z f.b; let ft ← FFmt.dec (f.m.extractLsb' 4 2); z (f.m.extractLsb' 0 4); some (.vexpB f.guard a ft))
  | 0x19 => some (do let a ← VSel.dec f.a; z f.b; let ft ← FFmt.dec (f.m.extractLsb' 4 2); z (f.m.extractLsb' 0 4); some (.vlogB f.guard a ft))
  | 0x1A => some (do let a ← VSel.dec f.a; z f.b; let ft ← FFmt.dec (f.m.extractLsb' 4 2); z (f.m.extractLsb' 0 4); some (.vtanhB f.guard a ft))
  | 0x1B => some (do z f.a; some (.vmoviB f.g f.imm))
  | 0x1C => some (do let a ← VSel.dec f.a; let d ← VDst.dec f.b; z (f.m.extractLsb' 0 6); some (.vputB f.guard a d))
  | 0x1D => some (do let a ← VSel.dec f.a; z f.b; some (.vputxB f.guard a (f.m.extractLsb' 0 6)))
  | 0x1E => some (do z f.a; let r ← VRegNo.dec f.b; z (f.m.extractLsb' 0 6); some (.vxmovB f.guard r))
  | 0x1F => some (do z f.g; z f.a; z f.b; z (f.m.extractLsb' 6 1); z (f.m.extractLsb' 4 2); some (.vmpushB (f.m.getLsbD 3) (f.m.extractLsb' 0 3)))
  | 0x20 => some (do z f.g; z f.a; z f.b; z (f.m.extractLsb' 6 1); z (f.m.extractLsb' 0 6); some (.vminvB))
  | 0x21 => some (do z f.g; z f.a; z f.b; z (f.m.extractLsb' 6 1); z (f.m.extractLsb' 0 6); some (.vmpopB))
  | 0x28 => some (do let a ← VSel.dec f.a; let b ← VSel.dec f.b; let fe ← FeL.dec (f.m.extractLsb' 3 3); z (f.m.extractLsb' 0 3); some (.vldB f.guard a b fe))
  | 0x29 => some (do let a ← VSel.dec f.a; let b ← VSel.dec f.b; let fe ← FeS.dec (f.m.extractLsb' 3 3); z (f.m.extractLsb' 0 3); some (.vstB f.guard a b fe))
  | 0x2A => some (do let a ← VSel.dec f.a; let b ← VSel.dec f.b; let fe ← FeL.dec (f.m.extractLsb' 3 3); z (f.m.extractLsb' 0 3); some (.vldwB f.guard a b fe))
  | 0x2B => some (do let a ← VSel.dec f.a; let b ← VSel.dec f.b; let fe ← FeS.dec (f.m.extractLsb' 3 3); z (f.m.extractLsb' 0 3); some (.vstwB f.guard a b fe))
  | 0x2C => some (do let a ← VSel.dec f.a; let b ← VSel.dec f.b; let h ← VSel.dec (f.m.extractLsb' 0 6); some (.vldgB f.guard a b h))
  | 0x2D => some (do let a ← VSel.dec f.a; let b ← VSel.dec f.b; let h ← VSel.dec (f.m.extractLsb' 0 6); some (.vstgB f.guard a b h))
  | 0x2E => some (do let a ← VSel.dec f.a; let b ← VSel.dec f.b; let gsp ← GSpace.dec (f.m.extractLsb' 4 2); let sz ← GSize.dec (f.m.extractLsb' 2 2); z (f.m.extractLsb' 0 1); some (.vgathB f.guard a b gsp sz (f.m.getLsbD 1)))
  | 0x2F => some (do let a ← VSel.dec f.a; let b ← VSel.dec f.b; let gsp ← GSpace.dec (f.m.extractLsb' 4 2); let sz ← GSize.dec (f.m.extractLsb' 2 2); z (f.m.extractLsb' 0 2); some (.vscatB f.guard a b gsp sz))
  | 0x30 => some (do let a ← VSel.dec f.a; let b ← VSel.dec f.b; some (.vlshuB f.guard a b (f.m.extractLsb' 0 6)))
  | 0x31 => some (do let a ← VSel.dec f.a; let b ← VSel.dec f.b; some (.vlshdB f.guard a b (f.m.extractLsb' 0 6)))
  | 0x32 => some (do let a ← VSel.dec f.a; z f.b; some (.vbcastB f.guard a (f.m.extractLsb' 0 6)))
  | 0x33 => some (do let a ← VSel.dec f.a; z f.b; some (.viotaB f.guard a (f.m.extractLsb' 0 6)))
  | 0x34 => some (do let a ← VSel.dec f.a; let b ← VSel.dec f.b; z (f.m.extractLsb' 0 6); some (.vpermB f.guard a b))
  | 0x35 => some (do let a ← VSel.dec f.a; z f.b; let op ← RedOp.dec (f.m.extractLsb' 1 5); z (f.m.extractLsb' 0 1); some (.vredB f.guard a op))
  | _ => none

/-- Class 3, M slot (R46): none for an unassigned opcode, some none for a reserved field. -/
def decodeM (f : Fields) : Option (Option Instr) :=
  match f.op.toNat with
  | 0x01 => some (do let a ← SSel.dec f.a; z f.b; z (f.m.extractLsb' 1 5); some (.mwld f.guard a (f.m.extractLsb' 0 1)))
  | 0x02 => some (do z f.a; z f.b; z (f.m.extractLsb' 1 5); some (.mwsel f.guard (f.m.extractLsb' 0 1)))
  | 0x03 => some (do let a ← VSel.dec f.a; let b ← SSel.dec f.b; let cl ← Clu.dec (f.m.extractLsb' 5 1); some (.mpush f.guard a b cl (f.m.getLsbD 4) (f.m.extractLsb' 0 4)))
  | 0x04 => some (do z f.a; let b ← SSel.dec f.b; z (f.m.extractLsb' 5 1); some (.mshift f.guard b (f.m.getLsbD 4) (f.m.extractLsb' 0 4)))
  | 0x05 => some (do let a ← SSel.dec f.a; z f.b; z (f.m.extractLsb' 0 6); some (.macc f.guard a))
  | 0x06 => some (do let a ← SSel.dec f.a; let b ← SSel.dec f.b; let cl ← Clu.dec (f.m.extractLsb' 5 1); let df ← DrainFmt.dec (f.m.extractLsb' 2 3); z (f.m.extractLsb' 0 1); some (.mdrn f.guard a b cl df (f.m.getLsbD 1)))
  | 0x07 => some (do let a ← SSel.dec f.a; z f.b; some (.mzero f.guard a (f.m.extractLsb' 0 6)))
  | 0x08 => some (do let a ← SSel.dec f.a; z f.b; some (.msweep f.guard a (f.m.extractLsb' 0 6)))
  | 0x09 => some (do z f.a; z f.b; z (f.m.extractLsb' 0 6); some (.mend f.guard))
  | 0x0A => some (do z f.a; z f.b; z (f.m.extractLsb' 3 3); let gw ← Gw.dec (f.m.extractLsb' 0 3); some (.mswap f.guard gw))
  | 0x0B => some (do z f.a; z f.b; z (f.m.extractLsb' 3 3); let ft ← AFmt.dec (f.m.extractLsb' 0 3); some (.mfmt f.guard ft))
  | 0x0C => some (do z f.a; z f.b; z (f.m.extractLsb' 0 6); some (.mstat f.guard))
  | _ => none

/-- Class 4, C slot (R47): none for an unassigned opcode, some none for a reserved field. -/
def decodeC (f : Fields) : Option (Option Instr) :=
  match f.op.toNat with
  | 0x01 => some (do let a ← SSel.dec f.a; z f.b; z (f.m.extractLsb' 3 3); let l ← Lvl.dec (f.m.extractLsb' 0 3); some (.cnest f.guard a l))
  | 0x02 => some (do let a ← SSel.dec f.a; let b ← SSel.dec f.b; z (f.m.extractLsb' 3 3); let l ← Lvl.dec (f.m.extractLsb' 0 3); some (.cstride f.guard a b l))
  | 0x03 => some (do let a ← SSel.dec f.a; let b ← SSel.dec f.b; z (f.m.extractLsb' 4 2); some (.cbase f.guard a b (f.m.extractLsb' 0 4)))
  | 0x04 => some (do let a ← SSel.dec f.a; let b ← SSel.dec f.b; z (f.m.extractLsb' 0 5); some (.ccopy f.guard a b (f.m.getLsbD 5)))
  | 0x05 => some (do let a ← SSel.dec f.a; let b ← SSel.dec f.b; let op ← AccOp.dec (f.m.extractLsb' 0 5); some (.cacc f.guard a b (f.m.getLsbD 5) op))
  | 0x06 => some (do let a ← SSel.dec f.a; let b ← SSel.dec f.b; let op ← AccOp.dec (f.m.extractLsb' 0 5); some (.caccr f.guard a b (f.m.getLsbD 5) op))
  | 0x07 => some (do let a ← SSel.dec f.a; let b ← SSel.dec f.b; some (.ccas f.guard a b (f.m.getLsbD 5) (f.m.getLsbD 4) (f.m.extractLsb' 0 4)))
  | 0x08 => some (do let a ← SSel.dec f.a; let b ← SSel.dec f.b; z (f.m.extractLsb' 1 5); some (.csync f.guard a b (f.m.getLsbD 0)))
  | 0x09 => some (do let a ← SSel.dec f.a; let b ← SSel.dec f.b; z (f.m.extractLsb' 0 6); some (.cswait f.guard a b))
  | 0x0A => some (do let a ← SSel.dec f.a; let b ← SSel.dec f.b; z (f.m.extractLsb' 1 5); some (.cfeset f.guard a b (f.m.getLsbD 0)))
  | 0x0B => some (do let a ← SSel.dec f.a; let b ← SSel.dec f.b; z (f.m.extractLsb' 3 3); some (.cring f.guard a b (f.m.extractLsb' 0 3)))
  | 0x0C => some (do let a ← SSel.dec f.a; let b ← SSel.dec f.b; z (f.m.extractLsb' 5 1); let dir ← SpoutDir.dec (f.m.extractLsb' 3 2); some (.crsub f.guard a b dir (f.m.extractLsb' 0 3)))
  | 0x0D => some (do z f.a; z f.b; z (f.m.extractLsb' 3 3); some (.crunsub f.guard (f.m.extractLsb' 0 3)))
  | 0x0E => some (do z f.a; z f.b; z (f.m.extractLsb' 3 3); some (.crfin f.guard (f.m.extractLsb' 0 3)))
  | 0x0F => some (do z f.a; z f.b; z (f.m.extractLsb' 0 6); some (.cwait f.guard))
  | 0x18 => some (do let a ← SSel.dec f.a; z f.b; z (f.m.extractLsb' 4 2); some (.stream f.guard a (f.m.extractLsb' 0 4)))
  | 0x19 => some (do z f.a; z f.b; z (f.m.extractLsb' 4 1); some (.sclose f.guard (f.m.getLsbD 5) (f.m.extractLsb' 0 4)))
  | 0x1A => some (do let a ← SSel.dec f.a; z f.b; z (f.m.extractLsb' 0 6); some (.clred f.guard a))
  | 0x1B => some (do let a ← SSel.dec f.a; z f.b; z (f.m.extractLsb' 0 6); some (.clbc f.guard a))
  | 0x1C => some (do let a ← SSel.dec f.a; z f.b; z (f.m.extractLsb' 0 6); some (.cla2a f.guard a))
  | 0x1D => some (do let a ← SSel.dec f.a; z f.b; z (f.m.extractLsb' 0 6); some (.clvir f.guard a))
  | 0x1E => some (match (f.m.extractLsb' 0 1).toNat with
    | 0 => do let a ← SSel.dec f.a; z f.b; z (f.m.extractLsb' 1 5); some (.clrowDisp f.guard a)
    | 1 => do let a ← SSel.dec f.a; z f.b; z (f.m.extractLsb' 1 5); some (.clrowComb f.guard a)
    | _ => none)
  | 0x1F => some (do let a ← SSel.dec f.a; z f.b; z (f.m.extractLsb' 0 6); some (.clwait f.guard a))
  | 0x20 => some (do let a ← SSel.dec f.a; z f.b; z (f.m.extractLsb' 1 5); some (.fbstat f.guard a (f.m.getLsbD 0)))
  | 0x28 => some (do let a ← SSel.dec f.a; let b ← SSel.dec f.b; z (f.m.extractLsb' 0 6); some (.kvld f.guard a b))
  | 0x29 => some (do let a ← SSel.dec f.a; let b ← SSel.dec f.b; z (f.m.extractLsb' 0 6); some (.kvst f.guard a b))
  | 0x2A => some (do let a ← SSel.dec f.a; let b ← SSel.dec f.b; z (f.m.extractLsb' 0 6); some (.psel f.guard a b))
  | 0x2B => some (match (f.m.extractLsb' 0 3).toNat with
    | 0 => do let a ← SSel.dec f.a; let b ← SSel.dec f.b; z (f.m.extractLsb' 3 3); some (.pmapRead f.guard a b)
    | 1 => do let a ← SSel.dec f.a; let b ← SSel.dec f.b; z (f.m.extractLsb' 3 3); some (.pmapReadref f.guard a b)
    | 2 => do let a ← SSel.dec f.a; let b ← SSel.dec f.b; z (f.m.extractLsb' 3 3); some (.pmapMapnew f.guard a b)
    | 3 => do let a ← SSel.dec f.a; let b ← SSel.dec f.b; z (f.m.extractLsb' 3 3); some (.pmapRevoke f.guard a b)
    | 4 => do let a ← SSel.dec f.a; let b ← SSel.dec f.b; z (f.m.extractLsb' 3 3); some (.pmapEvict f.guard a b)
    | 5 => do let a ← SSel.dec f.a; let b ← SSel.dec f.b; z (f.m.extractLsb' 3 3); some (.pmapPrefetch f.guard a b)
    | _ => none)
  | 0x2C => some (do let a ← SSel.dec f.a; let b ← SSel.dec f.b; z (f.m.extractLsb' 2 4); some (.psref f.guard a b (f.m.getLsbD 1) (f.m.getLsbD 0)))
  | 0x2D => some (do let a ← SSel.dec f.a; z f.b; z (f.m.extractLsb' 2 4); z (f.m.extractLsb' 0 1); some (.psdrop f.guard a (f.m.getLsbD 1)))
  | _ => none

/-- Class 5, Q slot (R48): none for an unassigned opcode, some none for a reserved field. -/
def decodeQ (f : Fields) : Option (Option Instr) :=
  match f.op.toNat with
  | 0x01 => some (do let a ← SSel.dec f.a; let b ← SSel.dec f.b; z (f.m.extractLsb' 0 4); some (.spawn f.guard a b (f.m.getLsbD 5) (f.m.getLsbD 4)))
  | 0x02 => some (do let a ← SSel.dec f.a; let b ← SSel.dec f.b; some (.spawnb f.guard a b (f.m.extractLsb' 0 6)))
  | 0x03 => some (do let a ← SSel.dec f.a; z f.b; z (f.m.extractLsb' 0 6); some (.cancel f.guard a))
  | 0x04 => some (do let a ← SSel.dec f.a; let b ← SSel.dec f.b; z (f.m.extractLsb' 0 6); some (.reprio f.guard a b))
  | 0x05 => some (do let a ← SSel.dec f.a; z f.b; z (f.m.extractLsb' 1 5); some (.join f.guard a (f.m.getLsbD 0)))
  | 0x06 => some (do z f.a; z f.b; z (f.m.extractLsb' 0 6); some (.tkdone f.guard))
  | 0x07 => some (do z f.a; z f.b; z (f.m.extractLsb' 0 6); some (.tstat f.guard))
  | 0x10 => some (do let a ← SSel.dec f.a; z f.b; let mode ← PhMode.dec (f.m.extractLsb' 4 2); z (f.m.extractLsb' 0 4); some (.phreg f.guard a mode))
  | 0x11 => some (do let a ← SSel.dec f.a; z f.b; z (f.m.extractLsb' 0 6); some (.phdrop f.guard a))
  | 0x12 => some (do let a ← SSel.dec f.a; z f.b; z (f.m.extractLsb' 3 3); let sc ← Scope.dec (f.m.extractLsb' 0 3); some (.pharr f.guard a sc))
  | 0x13 => some (do let a ← SSel.dec f.a; z f.b; z (f.m.extractLsb' 3 3); let sc ← Scope.dec (f.m.extractLsb' 0 3); some (.phwait f.guard a sc))
  | 0x14 => some (do let a ← SSel.dec f.a; z f.b; z (f.m.extractLsb' 3 3); let sc ← Scope.dec (f.m.extractLsb' 0 3); some (.phaw f.guard a sc))
  | 0x15 => some (do let a ← SSel.dec f.a; z f.b; z (f.m.extractLsb' 0 6); some (.phrd f.guard a))
  | 0x20 => some (do let a ← SSel.dec f.a; let b ← SSel.dec f.b; z (f.m.extractLsb' 0 5); some (.nsvl f.guard a b (f.m.getLsbD 5)))
  | 0x21 => some (do let a ← SSel.dec f.a; let b ← SSel.dec f.b; z (f.m.extractLsb' 0 4); some (.nsback f.guard a b (f.m.getLsbD 5) (f.m.getLsbD 4)))
  | 0x22 => some (do let a ← SSel.dec f.a; let b ← SSel.dec f.b; z (f.m.extractLsb' 0 5); some (.nssel f.guard a b (f.m.getLsbD 5)))
  | 0x23 => some (do let a ← SSel.dec f.a; let b ← SSel.dec f.b; z (f.m.extractLsb' 3 2); let ft ← NsRd.dec (f.m.extractLsb' 0 3); some (.nsrd f.guard a b (f.m.getLsbD 5) ft))
  | 0x24 => some (do let a ← SSel.dec f.a; let b ← SSel.dec f.b; z (f.m.extractLsb' 3 2); let ft ← NsField.dec (f.m.extractLsb' 0 3); some (.nswr f.guard a b (f.m.getLsbD 5) ft))
  | 0x25 => some (match (f.m.extractLsb' 0 1).toNat with
    | 0 => do let a ← SSel.dec f.a; let b ← SSel.dec f.b; z (f.m.extractLsb' 1 4); some (.nsalloc f.guard a b (f.m.getLsbD 5))
    | 1 => do let a ← SSel.dec f.a; z f.b; z (f.m.extractLsb' 1 4); some (.nsallocFree f.guard a (f.m.getLsbD 5))
    | _ => none)
  | 0x30 => some (do let a ← SSel.dec f.a; z f.b; z (f.m.extractLsb' 4 1); some (.gscfg f.guard a (f.m.getLsbD 5) (f.m.extractLsb' 0 4)))
  | 0x31 => some (do let a ← SSel.dec f.a; z f.b; z (f.m.extractLsb' 0 6); some (.gsocc f.guard a))
  | 0x32 => some (do let a ← SSel.dec f.a; z f.b; z (f.m.extractLsb' 0 6); some (.gsdlen f.guard a))
  | 0x33 => some (do let a ← SSel.dec f.a; z f.b; z (f.m.extractLsb' 0 6); some (.gsseed f.guard a))
  | 0x34 => some (match (f.m.extractLsb' 0 2).toNat with
    | 0 => do let a ← SSel.dec f.a; z f.b; z (f.m.extractLsb' 2 4); some (.gsiterStart f.guard a)
    | 1 => do let a ← SSel.dec f.a; let b ← SSel.dec f.b; z (f.m.extractLsb' 2 4); some (.gsiterLayer f.guard a b)
    | 2 => do z f.a; let b ← SSel.dec f.b; z (f.m.extractLsb' 2 4); some (.gsiterEnd f.guard b)
    | _ => none)
  | 0x35 => some (do let a ← SSel.dec f.a; let b ← SSel.dec f.b; let cl ← Clu.dec (f.m.extractLsb' 5 1); z (f.m.extractLsb' 0 5); some (.gsnoise f.guard a b cl))
  | 0x36 => some (do let a ← SSel.dec f.a; z f.b; z (f.m.extractLsb' 0 6); some (.gssamp f.guard a))
  | 0x37 => some (do let a ← SSel.dec f.a; let b ← SSel.dec f.b; z (f.m.extractLsb' 0 6); some (.gsacc f.guard a b))
  | 0x38 => some (do let a ← SSel.dec f.a; let b ← SSel.dec f.b; z (f.m.extractLsb' 1 5); some (.gswait f.guard a b (f.m.getLsbD 0)))
  | _ => none

/-- Class 6, X slot (R49): none for an unassigned opcode, some none for a reserved field. -/
def decodeX (f : Fields) : Option (Option Instr) :=
  match f.op.toNat with
  | 0x01 => some (do let a ← VSel.dec f.a; let b ← VSel.dec f.b; let cl ← Clu.dec (f.m.extractLsb' 5 1); let sg ← Stg.dec (f.m.extractLsb' 0 5); some (.cxs f.guard a b cl sg))
  | 0x02 => some (do let a ← VSel.dec f.a; let b ← VSel.dec f.b; let cl ← Clu.dec (f.m.extractLsb' 5 1); let ty ← ThrTy.dec (f.m.extractLsb' 3 2); z (f.m.extractLsb' 0 2); some (.thrc f.guard a b cl ty (f.m.getLsbD 2)))
  | 0x03 => some (do let a ← VSel.dec f.a; let b ← VSel.dec f.b; let cl ← Clu.dec (f.m.extractLsb' 5 1); z (f.m.extractLsb' 0 4); some (.hist f.guard a b cl (f.m.getLsbD 4)))
  | 0x04 => some (do let a ← SSel.dec f.a; let b ← SSel.dec f.b; z (f.m.extractLsb' 0 6); some (.ttnew f.guard a b))
  | 0x05 => some (do let a ← SSel.dec f.a; let b ← SSel.dec f.b; some (.ttadd f.guard a b (f.m.extractLsb' 0 6)))
  | 0x06 => some (do let a ← SSel.dec f.a; z f.b; let cl ← Clu.dec (f.m.extractLsb' 5 1); z (f.m.extractLsb' 2 3); some (.ttpos f.guard a cl (f.m.extractLsb' 0 2)))
  | 0x07 => some (do let a ← SSel.dec f.a; z f.b; let cl ← Clu.dec (f.m.extractLsb' 5 1); let form ← MaskForm.dec (f.m.extractLsb' 2 2); some (.ttmask f.guard a cl (f.m.getLsbD 4) form (f.m.extractLsb' 0 2)))
  | 0x08 => some (do let a ← SSel.dec f.a; z f.b; let cl ← Clu.dec (f.m.extractLsb' 5 1); let fld ← PathFld.dec (f.m.extractLsb' 3 2); z (f.m.extractLsb' 2 1); some (.ttpath f.guard a cl fld (f.m.extractLsb' 0 2)))
  | 0x09 => some (do let a ← SSel.dec f.a; let b ← SSel.dec f.b; z (f.m.extractLsb' 1 5); some (.ttprune f.guard a b (f.m.getLsbD 0)))
  | 0x0A => some (do let a ← SSel.dec f.a; z f.b; z (f.m.extractLsb' 0 6); some (.ttfree f.guard a))
  | 0x0B => some (do let a ← SSel.dec f.a; z f.b; z (f.m.extractLsb' 2 4); let what ← TtWhat.dec (f.m.extractLsb' 0 2); some (.ttrd f.guard a what))
  | _ => none

/-- The instruction of a word's fields: rejected by class, opcode or field (R39). -/
def decodeFields (f : Fields) : Except DecErr Instr :=
  let r := match f.cls.toNat with
    | 0 => some (decodeS f) | 1 => some (decodeVA f) | 2 => some (decodeVB f) | 3 => some (decodeM f)
    | 4 => some (decodeC f) | 5 => some (decodeQ f) | 6 => some (decodeX f)
    | _ => none
  match r with
  | none => .error .cls
  | some none => .error .opcode
  | some (some none) => .error .field
  | some (some (some i)) => if i.wf then .ok i else .error .field

/-- E of a word (R28). -/
def endsBundle (w : W32) : Bool := w.getLsbD 31
/-- The instruction a word holds, whatever its E bit. -/
def decodeWord (w : W32) : Except DecErr Instr := decodeFields (Fields.ofWord w)

/-- Fields of an immediate-form word (R29). -/
def immFields (cls : BitVec 3) (op : BitVec 6) (g : BitVec 3) (a : BitVec 6) (i : BitVec 13) : Fields :=
  ⟨cls, op, g, a, i.extractLsb' 7 6, i.extractLsb' 0 7⟩
/-- Fields of a jump-form word (R29). -/
def jmpFields (op : BitVec 6) (off : BitVec 22) : Fields :=
  ⟨0, op, off.extractLsb' 19 3, off.extractLsb' 13 6, off.extractLsb' 7 6, off.extractLsb' 0 7⟩

/-- The fields of an instruction; none for a step without a word. -/
def Instr.fields : Instr → Option Fields
  | .nop => some ⟨0, 0, 0, 0, 0, 0⟩
  | .add g a b sat u w => some ⟨0, 1, g.p, SSel.enc a, SSel.enc b, BitVec.ofBool g.inv ++ (0 : BitVec 2) ++ (BitVec.ofBool sat) ++ (BitVec.ofBool u) ++ (Width.enc w)⟩
  | .sub g a b sat u w => some ⟨0, 2, g.p, SSel.enc a, SSel.enc b, BitVec.ofBool g.inv ++ (0 : BitVec 2) ++ (BitVec.ofBool sat) ++ (BitVec.ofBool u) ++ (Width.enc w)⟩
  | .addi g a i => some (immFields 0 3 g (SSel.enc a) ((i)))
  | .mul g a b sat u w => some ⟨0, 4, g.p, SSel.enc a, SSel.enc b, BitVec.ofBool g.inv ++ (0 : BitVec 2) ++ (BitVec.ofBool sat) ++ (BitVec.ofBool u) ++ (Width.enc w)⟩
  | .mulh g a b u w => some ⟨0, 5, g.p, SSel.enc a, SSel.enc b, BitVec.ofBool g.inv ++ (0 : BitVec 3) ++ (BitVec.ofBool u) ++ (Width.enc w)⟩
  | .div g a b sat u w => some ⟨0, 6, g.p, SSel.enc a, SSel.enc b, BitVec.ofBool g.inv ++ (0 : BitVec 2) ++ (BitVec.ofBool sat) ++ (BitVec.ofBool u) ++ (Width.enc w)⟩
  | .rem g a b u w => some ⟨0, 7, g.p, SSel.enc a, SSel.enc b, BitVec.ofBool g.inv ++ (0 : BitVec 3) ++ (BitVec.ofBool u) ++ (Width.enc w)⟩
  | .and g a b u w => some ⟨0, 8, g.p, SSel.enc a, SSel.enc b, BitVec.ofBool g.inv ++ (0 : BitVec 3) ++ (BitVec.ofBool u) ++ (Width.enc w)⟩
  | .or g a b u w => some ⟨0, 9, g.p, SSel.enc a, SSel.enc b, BitVec.ofBool g.inv ++ (0 : BitVec 3) ++ (BitVec.ofBool u) ++ (Width.enc w)⟩
  | .xor g a b u w => some ⟨0, 10, g.p, SSel.enc a, SSel.enc b, BitVec.ofBool g.inv ++ (0 : BitVec 3) ++ (BitVec.ofBool u) ++ (Width.enc w)⟩
  | .andi g a i => some (immFields 0 11 g (SSel.enc a) ((i)))
  | .shl g a b u w => some ⟨0, 12, g.p, SSel.enc a, SSel.enc b, BitVec.ofBool g.inv ++ (0 : BitVec 3) ++ (BitVec.ofBool u) ++ (Width.enc w)⟩
  | .shr g a b u w => some ⟨0, 13, g.p, SSel.enc a, SSel.enc b, BitVec.ofBool g.inv ++ (0 : BitVec 3) ++ (BitVec.ofBool u) ++ (Width.enc w)⟩
  | .shli g a u w sh => some (immFields 0 14 g (SSel.enc a) ((0 : BitVec 4) ++ (BitVec.ofBool u) ++ (Width.enc w) ++ (sh)))
  | .shri g a u w sh => some (immFields 0 15 g (SSel.enc a) ((0 : BitVec 4) ++ (BitVec.ofBool u) ++ (Width.enc w) ++ (sh)))
  | .movi g i => some (immFields 0 16 g (0) ((i)))
  | .shori g a i => some (immFields 0 17 g (SSel.enc a) ((i)))
  | .min g a b u w => some ⟨0, 18, g.p, SSel.enc a, SSel.enc b, BitVec.ofBool g.inv ++ (0 : BitVec 3) ++ (BitVec.ofBool u) ++ (Width.enc w)⟩
  | .max g a b u w => some ⟨0, 19, g.p, SSel.enc a, SSel.enc b, BitVec.ofBool g.inv ++ (0 : BitVec 3) ++ (BitVec.ofBool u) ++ (Width.enc w)⟩
  | .clz g a w => some ⟨0, 20, g.p, SSel.enc a, 0, BitVec.ofBool g.inv ++ (0 : BitVec 4) ++ (Width.enc w)⟩
  | .popc g a w => some ⟨0, 21, g.p, SSel.enc a, 0, BitVec.ofBool g.inv ++ (0 : BitVec 4) ++ (Width.enc w)⟩
  | .bfx g a b u => some ⟨0, 22, g.p, SSel.enc a, SSel.enc b, BitVec.ofBool g.inv ++ (0 : BitVec 3) ++ (BitVec.ofBool u) ++ (0 : BitVec 2)⟩
  | .bfi g a b m => some ⟨0, 23, g.p, SSel.enc a, SSel.enc b, BitVec.ofBool g.inv ++ (0 : BitVec 2) ++ (m)⟩
  | .sext g a u w => some ⟨0, 24, g.p, SSel.enc a, 0, BitVec.ofBool g.inv ++ (0 : BitVec 3) ++ (BitVec.ofBool u) ++ (Width.enc w)⟩
  | .sel g a b p => some ⟨0, 25, g.p, SSel.enc a, SSel.enc b, BitVec.ofBool g.inv ++ (0 : BitVec 3) ++ (p)⟩
  | .cmp g a b cond d => some ⟨0, 26, g.p, SSel.enc a, SSel.enc b, BitVec.ofBool g.inv ++ (CmpCond.enc cond) ++ (d)⟩
  | .plog g x y op d => some ⟨0, 27, g.p, P6.enc x, P6.enc y, BitVec.ofBool g.inv ++ (PlogOp.enc op) ++ (d)⟩
  | .put g a d => some ⟨0, 28, g.p, SSel.enc a, KDst.enc d, BitVec.ofBool g.inv ++ (0 : BitVec 6)⟩
  | .putx g a x => some ⟨0, 29, g.p, SSel.enc a, 0, BitVec.ofBool g.inv ++ (0 : BitVec 4) ++ (IdxReg.enc x)⟩
  | .xaddi g x i => some (immFields 0 30 g (IdxSel.enc x) ((i)))
  | .fence g sc => some ⟨0, 31, g.p, 0, 0, BitVec.ofBool g.inv ++ (0 : BitVec 3) ++ (Scope.enc sc)⟩
  | .ld g a b fe u sz => some ⟨0, 32, g.p, SSel.enc a, SSel.enc b, BitVec.ofBool g.inv ++ (FeL.enc fe) ++ (BitVec.ofBool u) ++ (Size.enc sz)⟩
  | .st g a b fe sz => some ⟨0, 33, g.p, SSel.enc a, SSel.enc b, BitVec.ofBool g.inv ++ (FeS.enc fe) ++ (0 : BitVec 1) ++ (Size.enc sz)⟩
  | .ldw g a b fe u sz => some ⟨0, 34, g.p, SSel.enc a, SSel.enc b, BitVec.ofBool g.inv ++ (FeL.enc fe) ++ (BitVec.ofBool u) ++ (Size.enc sz)⟩
  | .stw g a b fe sz => some ⟨0, 35, g.p, SSel.enc a, SSel.enc b, BitVec.ofBool g.inv ++ (FeS.enc fe) ++ (0 : BitVec 1) ++ (Size.enc sz)⟩
  | .ldg g a b u sz => some ⟨0, 36, g.p, SSel.enc a, SSel.enc b, BitVec.ofBool g.inv ++ (0 : BitVec 3) ++ (BitVec.ofBool u) ++ (Size.enc sz)⟩
  | .stg g a b slot sz => some ⟨0, 37, g.p, SSel.enc a, SSel.enc b, BitVec.ofBool g.inv ++ (slot) ++ (Size.enc sz)⟩
  | .lda g a b sc u sz => some ⟨0, 38, g.p, SSel.enc a, SSel.enc b, BitVec.ofBool g.inv ++ (Scope.enc sc) ++ (BitVec.ofBool u) ++ (Size.enc sz)⟩
  | .strl g a b slot sc => some ⟨0, 39, g.p, SSel.enc a, SSel.enc b, BitVec.ofBool g.inv ++ (slot) ++ (Scope.enc sc)⟩
  | .br g i => some (immFields 0 40 g (0) ((i)))
  | .brme g cl i => some (immFields 0 41 g (Cl3.enc cl) ((i)))
  | .jmp off => some (jmpFields 42 off)
  | .call off => some (jmpFields 43 off)
  | .jmpr g a => some ⟨0, 44, g.p, SSel.enc a, 0, BitVec.ofBool g.inv ++ (0 : BitVec 6)⟩
  | .callr g a => some ⟨0, 45, g.p, SSel.enc a, 0, BitVec.ofBool g.inv ++ (0 : BitVec 6)⟩
  | .ret g a => some ⟨0, 46, g.p, SSel.enc a, 0, BitVec.ofBool g.inv ++ (0 : BitVec 6)⟩
  | .nest g a bs len => some ⟨0, 48, g.p, SSel.enc a, NestB.enc bs, BitVec.ofBool g.inv ++ (len)⟩
  | .nstride g a k clr j l => some ⟨0, 49, g.p, SSel.enc a, StrideB.enc k, BitVec.ofBool g.inv ++ (BitVec.ofBool clr) ++ (j) ++ (Lvl.enc l)⟩
  | .nestmask g a b l => some ⟨0, 50, g.p, SSel.enc a, SSel.enc b, BitVec.ofBool g.inv ++ (0 : BitVec 3) ++ (Lvl.enc l)⟩
  | .cqpush g a => some ⟨0, 51, g.p, SSel.enc a, 0, BitVec.ofBool g.inv ++ (0 : BitVec 6)⟩
  | .cqclr => some ⟨0, 52, 0, 0, 0, (0 : BitVec 1) ++ (0 : BitVec 6)⟩
  | .live g a ft => some ⟨0, 53, g.p, SSel.enc a, 0, BitVec.ofBool g.inv ++ (0 : BitVec 4) ++ (File3.enc ft)⟩
  | .phase g a => some ⟨0, 54, g.p, SSel.enc a, 0, BitVec.ofBool g.inv ++ (0 : BitVec 6)⟩
  | .csrr g n => some (immFields 0 56 g (0) ((0 : BitVec 1) ++ (n)))
  | .csrw g a n => some (immFields 0 57 g (SSel.enc a) ((0 : BitVec 1) ++ (n)))
  | .trap g i => some (immFields 0 58 g (0) ((0 : BitVec 5) ++ (i)))
  | .rte => some ⟨0, 59, 0, 0, 0, (0 : BitVec 1) ++ (0 : BitVec 6)⟩
  | .waitcy g i => some (immFields 0 60 g (0) ((i)))
  | .snap g a => some ⟨0, 61, g.p, SSel.enc a, 0, BitVec.ofBool g.inv ++ (0 : BitVec 6)⟩
  | .exit g a => some ⟨0, 62, g.p, SSel.enc a, 0, BitVec.ofBool g.inv ++ (0 : BitVec 6)⟩
  | .vaddA g a b ty => some ⟨1, 1, g.p, VSel.enc a, VSel.enc b, BitVec.ofBool g.inv ++ (VTy.enc ty)⟩
  | .vaddB g a b ty => some ⟨2, 1, g.p, VSel.enc a, VSel.enc b, BitVec.ofBool g.inv ++ (VTy.enc ty)⟩
  | .vsubA g a b ty => some ⟨1, 2, g.p, VSel.enc a, VSel.enc b, BitVec.ofBool g.inv ++ (VTy.enc ty)⟩
  | .vsubB g a b ty => some ⟨2, 2, g.p, VSel.enc a, VSel.enc b, BitVec.ofBool g.inv ++ (VTy.enc ty)⟩
  | .vmulA g a b ty => some ⟨1, 3, g.p, VSel.enc a, VSel.enc b, BitVec.ofBool g.inv ++ (VTy.enc ty)⟩
  | .vmulB g a b ty => some ⟨2, 3, g.p, VSel.enc a, VSel.enc b, BitVec.ofBool g.inv ++ (VTy.enc ty)⟩
  | .vfmaA g a b ty m => some ⟨1, 4, g.p, VSel.enc a, VSel.enc b, BitVec.ofBool g.inv ++ (FFmt.enc ty) ++ (m)⟩
  | .vfmaB g a b ty m => some ⟨2, 4, g.p, VSel.enc a, VSel.enc b, BitVec.ofBool g.inv ++ (FFmt.enc ty) ++ (m)⟩
  | .vfmsA g a b ty m => some ⟨1, 5, g.p, VSel.enc a, VSel.enc b, BitVec.ofBool g.inv ++ (FFmt.enc ty) ++ (m)⟩
  | .vfmsB g a b ty m => some ⟨2, 5, g.p, VSel.enc a, VSel.enc b, BitVec.ofBool g.inv ++ (FFmt.enc ty) ++ (m)⟩
  | .vaddminA g a b ty m => some ⟨1, 6, g.p, VSel.enc a, VSel.enc b, BitVec.ofBool g.inv ++ (MinTy.enc ty) ++ (m)⟩
  | .vaddminB g a b ty m => some ⟨2, 6, g.p, VSel.enc a, VSel.enc b, BitVec.ofBool g.inv ++ (MinTy.enc ty) ++ (m)⟩
  | .vminA g a b ty => some ⟨1, 7, g.p, VSel.enc a, VSel.enc b, BitVec.ofBool g.inv ++ (VTy.enc ty)⟩
  | .vminB g a b ty => some ⟨2, 7, g.p, VSel.enc a, VSel.enc b, BitVec.ofBool g.inv ++ (VTy.enc ty)⟩
  | .vmaxA g a b ty => some ⟨1, 8, g.p, VSel.enc a, VSel.enc b, BitVec.ofBool g.inv ++ (VTy.enc ty)⟩
  | .vmaxB g a b ty => some ⟨2, 8, g.p, VSel.enc a, VSel.enc b, BitVec.ofBool g.inv ++ (VTy.enc ty)⟩
  | .vabsA g a ty => some ⟨1, 9, g.p, VSel.enc a, 0, BitVec.ofBool g.inv ++ (VTy.enc ty)⟩
  | .vabsB g a ty => some ⟨2, 9, g.p, VSel.enc a, 0, BitVec.ofBool g.inv ++ (VTy.enc ty)⟩
  | .vnegA g a ty => some ⟨1, 10, g.p, VSel.enc a, 0, BitVec.ofBool g.inv ++ (VTy.enc ty)⟩
  | .vnegB g a ty => some ⟨2, 10, g.p, VSel.enc a, 0, BitVec.ofBool g.inv ++ (VTy.enc ty)⟩
  | .vandA g a b => some ⟨1, 11, g.p, VSel.enc a, VSel.enc b, BitVec.ofBool g.inv ++ (0 : BitVec 6)⟩
  | .vandB g a b => some ⟨2, 11, g.p, VSel.enc a, VSel.enc b, BitVec.ofBool g.inv ++ (0 : BitVec 6)⟩
  | .vorA g a b => some ⟨1, 12, g.p, VSel.enc a, VSel.enc b, BitVec.ofBool g.inv ++ (0 : BitVec 6)⟩
  | .vorB g a b => some ⟨2, 12, g.p, VSel.enc a, VSel.enc b, BitVec.ofBool g.inv ++ (0 : BitVec 6)⟩
  | .vxorA g a b => some ⟨1, 13, g.p, VSel.enc a, VSel.enc b, BitVec.ofBool g.inv ++ (0 : BitVec 6)⟩
  | .vxorB g a b => some ⟨2, 13, g.p, VSel.enc a, VSel.enc b, BitVec.ofBool g.inv ++ (0 : BitVec 6)⟩
  | .vshlA g a b ty => some ⟨1, 14, g.p, VSel.enc a, VSel.enc b, BitVec.ofBool g.inv ++ (VTy.enc ty)⟩
  | .vshlB g a b ty => some ⟨2, 14, g.p, VSel.enc a, VSel.enc b, BitVec.ofBool g.inv ++ (VTy.enc ty)⟩
  | .vshrA g a b ty => some ⟨1, 15, g.p, VSel.enc a, VSel.enc b, BitVec.ofBool g.inv ++ (VTy.enc ty)⟩
  | .vshrB g a b ty => some ⟨2, 15, g.p, VSel.enc a, VSel.enc b, BitVec.ofBool g.inv ++ (VTy.enc ty)⟩
  | .vcmpA g a b cond d => some ⟨1, 16, g.p, VSel.enc a, VSel.enc b, BitVec.ofBool g.inv ++ (VCmpCond.enc cond) ++ (d)⟩
  | .vcmpB g a b cond d => some ⟨2, 16, g.p, VSel.enc a, VSel.enc b, BitVec.ofBool g.inv ++ (VCmpCond.enc cond) ++ (d)⟩
  | .vselA g a b p => some ⟨1, 17, g.p, VSel.enc a, VSel.enc b, BitVec.ofBool g.inv ++ (0 : BitVec 3) ++ (p)⟩
  | .vselB g a b p => some ⟨2, 17, g.p, VSel.enc a, VSel.enc b, BitVec.ofBool g.inv ++ (0 : BitVec 3) ++ (p)⟩
  | .vplogA g x y op d => some ⟨1, 18, g.p, P6.enc x, P6.enc y, BitVec.ofBool g.inv ++ (PlogOp.enc op) ++ (d)⟩
  | .vplogB g x y op d => some ⟨2, 18, g.p, P6.enc x, P6.enc y, BitVec.ofBool g.inv ++ (PlogOp.enc op) ++ (d)⟩
  | .vcvtA g a ft p su rm => some ⟨1, 19, g.p, VSel.enc a, CvtB.enc ft, BitVec.ofBool g.inv ++ (p) ++ (BitVec.ofBool su) ++ (Rm.enc rm)⟩
  | .vcvtB g a ft p su rm => some ⟨2, 19, g.p, VSel.enc a, CvtB.enc ft, BitVec.ofBool g.inv ++ (p) ++ (BitVec.ofBool su) ++ (Rm.enc rm)⟩
  | .vmxqA g a ft p => some ⟨1, 20, g.p, VSel.enc a, 0, BitVec.ofBool g.inv ++ (0 : BitVec 1) ++ (MxFmt.enc ft) ++ (p)⟩
  | .vmxqB g a ft p => some ⟨2, 20, g.p, VSel.enc a, 0, BitVec.ofBool g.inv ++ (0 : BitVec 1) ++ (MxFmt.enc ft) ++ (p)⟩
  | .vmxdA g a b ft p => some ⟨1, 21, g.p, VSel.enc a, VSel.enc b, BitVec.ofBool g.inv ++ (0 : BitVec 1) ++ (MxFmt.enc ft) ++ (p)⟩
  | .vmxdB g a b ft p => some ⟨2, 21, g.p, VSel.enc a, VSel.enc b, BitVec.ofBool g.inv ++ (0 : BitVec 1) ++ (MxFmt.enc ft) ++ (p)⟩
  | .vrcpA g a ft => some ⟨1, 22, g.p, VSel.enc a, 0, BitVec.ofBool g.inv ++ (FFmt.enc ft) ++ (0 : BitVec 4)⟩
  | .vrcpB g a ft => some ⟨2, 22, g.p, VSel.enc a, 0, BitVec.ofBool g.inv ++ (FFmt.enc ft) ++ (0 : BitVec 4)⟩
  | .vrsqA g a ft => some ⟨1, 23, g.p, VSel.enc a, 0, BitVec.ofBool g.inv ++ (FFmt.enc ft) ++ (0 : BitVec 4)⟩
  | .vrsqB g a ft => some ⟨2, 23, g.p, VSel.enc a, 0, BitVec.ofBool g.inv ++ (FFmt.enc ft) ++ (0 : BitVec 4)⟩
  | .vexpA g a ft => some ⟨1, 24, g.p, VSel.enc a, 0, BitVec.ofBool g.inv ++ (FFmt.enc ft) ++ (0 : BitVec 4)⟩
  | .vexpB g a ft => some ⟨2, 24, g.p, VSel.enc a, 0, BitVec.ofBool g.inv ++ (FFmt.enc ft) ++ (0 : BitVec 4)⟩
  | .vlogA g a ft => some ⟨1, 25, g.p, VSel.enc a, 0, BitVec.ofBool g.inv ++ (FFmt.enc ft) ++ (0 : BitVec 4)⟩
  | .vlogB g a ft => some ⟨2, 25, g.p, VSel.enc a, 0, BitVec.ofBool g.inv ++ (FFmt.enc ft) ++ (0 : BitVec 4)⟩
  | .vtanhA g a ft => some ⟨1, 26, g.p, VSel.enc a, 0, BitVec.ofBool g.inv ++ (FFmt.enc ft) ++ (0 : BitVec 4)⟩
  | .vtanhB g a ft => some ⟨2, 26, g.p, VSel.enc a, 0, BitVec.ofBool g.inv ++ (FFmt.enc ft) ++ (0 : BitVec 4)⟩
  | .vmoviA g i => some (immFields 1 27 g (0) ((i)))
  | .vmoviB g i => some (immFields 2 27 g (0) ((i)))
  | .vputA g a d => some ⟨1, 28, g.p, VSel.enc a, VDst.enc d, BitVec.ofBool g.inv ++ (0 : BitVec 6)⟩
  | .vputB g a d => some ⟨2, 28, g.p, VSel.enc a, VDst.enc d, BitVec.ofBool g.inv ++ (0 : BitVec 6)⟩
  | .vputxA g a l => some ⟨1, 29, g.p, VSel.enc a, 0, BitVec.ofBool g.inv ++ (l)⟩
  | .vputxB g a l => some ⟨2, 29, g.p, VSel.enc a, 0, BitVec.ofBool g.inv ++ (l)⟩
  | .vxmovA g r => some ⟨1, 30, g.p, 0, VRegNo.enc r, BitVec.ofBool g.inv ++ (0 : BitVec 6)⟩
  | .vxmovB g r => some ⟨2, 30, g.p, 0, VRegNo.enc r, BitVec.ofBool g.inv ++ (0 : BitVec 6)⟩
  | .vmpushA inv p => some ⟨1, 31, 0, 0, 0, (0 : BitVec 1) ++ (0 : BitVec 2) ++ (BitVec.ofBool inv) ++ (p)⟩
  | .vminvA => some ⟨1, 32, 0, 0, 0, (0 : BitVec 1) ++ (0 : BitVec 6)⟩
  | .vmpopA => some ⟨1, 33, 0, 0, 0, (0 : BitVec 1) ++ (0 : BitVec 6)⟩
  | .vmpushB inv p => some ⟨2, 31, 0, 0, 0, (0 : BitVec 1) ++ (0 : BitVec 2) ++ (BitVec.ofBool inv) ++ (p)⟩
  | .vminvB => some ⟨2, 32, 0, 0, 0, (0 : BitVec 1) ++ (0 : BitVec 6)⟩
  | .vmpopB => some ⟨2, 33, 0, 0, 0, (0 : BitVec 1) ++ (0 : BitVec 6)⟩
  | .vldA g a b fe => some ⟨1, 40, g.p, VSel.enc a, VSel.enc b, BitVec.ofBool g.inv ++ (FeL.enc fe) ++ (0 : BitVec 3)⟩
  | .vldB g a b fe => some ⟨2, 40, g.p, VSel.enc a, VSel.enc b, BitVec.ofBool g.inv ++ (FeL.enc fe) ++ (0 : BitVec 3)⟩
  | .vstA g a b fe => some ⟨1, 41, g.p, VSel.enc a, VSel.enc b, BitVec.ofBool g.inv ++ (FeS.enc fe) ++ (0 : BitVec 3)⟩
  | .vstB g a b fe => some ⟨2, 41, g.p, VSel.enc a, VSel.enc b, BitVec.ofBool g.inv ++ (FeS.enc fe) ++ (0 : BitVec 3)⟩
  | .vldwA g a b fe => some ⟨1, 42, g.p, VSel.enc a, VSel.enc b, BitVec.ofBool g.inv ++ (FeL.enc fe) ++ (0 : BitVec 3)⟩
  | .vldwB g a b fe => some ⟨2, 42, g.p, VSel.enc a, VSel.enc b, BitVec.ofBool g.inv ++ (FeL.enc fe) ++ (0 : BitVec 3)⟩
  | .vstwA g a b fe => some ⟨1, 43, g.p, VSel.enc a, VSel.enc b, BitVec.ofBool g.inv ++ (FeS.enc fe) ++ (0 : BitVec 3)⟩
  | .vstwB g a b fe => some ⟨2, 43, g.p, VSel.enc a, VSel.enc b, BitVec.ofBool g.inv ++ (FeS.enc fe) ++ (0 : BitVec 3)⟩
  | .vldgA g a b h => some ⟨1, 44, g.p, VSel.enc a, VSel.enc b, BitVec.ofBool g.inv ++ (VSel.enc h)⟩
  | .vldgB g a b h => some ⟨2, 44, g.p, VSel.enc a, VSel.enc b, BitVec.ofBool g.inv ++ (VSel.enc h)⟩
  | .vstgA g a b h => some ⟨1, 45, g.p, VSel.enc a, VSel.enc b, BitVec.ofBool g.inv ++ (VSel.enc h)⟩
  | .vstgB g a b h => some ⟨2, 45, g.p, VSel.enc a, VSel.enc b, BitVec.ofBool g.inv ++ (VSel.enc h)⟩
  | .vgathA g a b gsp sz u => some ⟨1, 46, g.p, VSel.enc a, VSel.enc b, BitVec.ofBool g.inv ++ (GSpace.enc gsp) ++ (GSize.enc sz) ++ (BitVec.ofBool u) ++ (0 : BitVec 1)⟩
  | .vgathB g a b gsp sz u => some ⟨2, 46, g.p, VSel.enc a, VSel.enc b, BitVec.ofBool g.inv ++ (GSpace.enc gsp) ++ (GSize.enc sz) ++ (BitVec.ofBool u) ++ (0 : BitVec 1)⟩
  | .vscatA g a b gsp sz => some ⟨1, 47, g.p, VSel.enc a, VSel.enc b, BitVec.ofBool g.inv ++ (GSpace.enc gsp) ++ (GSize.enc sz) ++ (0 : BitVec 2)⟩
  | .vscatB g a b gsp sz => some ⟨2, 47, g.p, VSel.enc a, VSel.enc b, BitVec.ofBool g.inv ++ (GSpace.enc gsp) ++ (GSize.enc sz) ++ (0 : BitVec 2)⟩
  | .vlshuA g a b n => some ⟨1, 48, g.p, VSel.enc a, VSel.enc b, BitVec.ofBool g.inv ++ (n)⟩
  | .vlshuB g a b n => some ⟨2, 48, g.p, VSel.enc a, VSel.enc b, BitVec.ofBool g.inv ++ (n)⟩
  | .vlshdA g a b n => some ⟨1, 49, g.p, VSel.enc a, VSel.enc b, BitVec.ofBool g.inv ++ (n)⟩
  | .vlshdB g a b n => some ⟨2, 49, g.p, VSel.enc a, VSel.enc b, BitVec.ofBool g.inv ++ (n)⟩
  | .vbcastA g a l => some ⟨1, 50, g.p, VSel.enc a, 0, BitVec.ofBool g.inv ++ (l)⟩
  | .vbcastB g a l => some ⟨2, 50, g.p, VSel.enc a, 0, BitVec.ofBool g.inv ++ (l)⟩
  | .viotaA g a step => some ⟨1, 51, g.p, VSel.enc a, 0, BitVec.ofBool g.inv ++ (step)⟩
  | .viotaB g a step => some ⟨2, 51, g.p, VSel.enc a, 0, BitVec.ofBool g.inv ++ (step)⟩
  | .vpermA g a b => some ⟨1, 52, g.p, VSel.enc a, VSel.enc b, BitVec.ofBool g.inv ++ (0 : BitVec 6)⟩
  | .vpermB g a b => some ⟨2, 52, g.p, VSel.enc a, VSel.enc b, BitVec.ofBool g.inv ++ (0 : BitVec 6)⟩
  | .vredA g a op => some ⟨1, 53, g.p, VSel.enc a, 0, BitVec.ofBool g.inv ++ (RedOp.enc op) ++ (0 : BitVec 1)⟩
  | .vredB g a op => some ⟨2, 53, g.p, VSel.enc a, 0, BitVec.ofBool g.inv ++ (RedOp.enc op) ++ (0 : BitVec 1)⟩
  | .mwld g a h => some ⟨3, 1, g.p, SSel.enc a, 0, BitVec.ofBool g.inv ++ (0 : BitVec 5) ++ (h)⟩
  | .mwsel g h => some ⟨3, 2, g.p, 0, 0, BitVec.ofBool g.inv ++ (0 : BitVec 5) ++ (h)⟩
  | .mpush g a b cl acc seg => some ⟨3, 3, g.p, VSel.enc a, SSel.enc b, BitVec.ofBool g.inv ++ (Clu.enc cl) ++ (BitVec.ofBool acc) ++ (seg)⟩
  | .mshift g b acc seg => some ⟨3, 4, g.p, 0, SSel.enc b, BitVec.ofBool g.inv ++ (0 : BitVec 1) ++ (BitVec.ofBool acc) ++ (seg)⟩
  | .macc g a => some ⟨3, 5, g.p, SSel.enc a, 0, BitVec.ofBool g.inv ++ (0 : BitVec 6)⟩
  | .mdrn g a b cl df clr => some ⟨3, 6, g.p, SSel.enc a, SSel.enc b, BitVec.ofBool g.inv ++ (Clu.enc cl) ++ (DrainFmt.enc df) ++ (BitVec.ofBool clr) ++ (0 : BitVec 1)⟩
  | .mzero g a n => some ⟨3, 7, g.p, SSel.enc a, 0, BitVec.ofBool g.inv ++ (n)⟩
  | .msweep g a n => some ⟨3, 8, g.p, SSel.enc a, 0, BitVec.ofBool g.inv ++ (n)⟩
  | .mend g => some ⟨3, 9, g.p, 0, 0, BitVec.ofBool g.inv ++ (0 : BitVec 6)⟩
  | .mswap g gw => some ⟨3, 10, g.p, 0, 0, BitVec.ofBool g.inv ++ (0 : BitVec 3) ++ (Gw.enc gw)⟩
  | .mfmt g ft => some ⟨3, 11, g.p, 0, 0, BitVec.ofBool g.inv ++ (0 : BitVec 3) ++ (AFmt.enc ft)⟩
  | .mstat g => some ⟨3, 12, g.p, 0, 0, BitVec.ofBool g.inv ++ (0 : BitVec 6)⟩
  | .cnest g a l => some ⟨4, 1, g.p, SSel.enc a, 0, BitVec.ofBool g.inv ++ (0 : BitVec 3) ++ (Lvl.enc l)⟩
  | .cstride g a b l => some ⟨4, 2, g.p, SSel.enc a, SSel.enc b, BitVec.ofBool g.inv ++ (0 : BitVec 3) ++ (Lvl.enc l)⟩
  | .cbase g a b slot => some ⟨4, 3, g.p, SSel.enc a, SSel.enc b, BitVec.ofBool g.inv ++ (0 : BitVec 2) ++ (slot)⟩
  | .ccopy g a b t => some ⟨4, 4, g.p, SSel.enc a, SSel.enc b, BitVec.ofBool g.inv ++ (BitVec.ofBool t) ++ (0 : BitVec 5)⟩
  | .cacc g a b t op => some ⟨4, 5, g.p, SSel.enc a, SSel.enc b, BitVec.ofBool g.inv ++ (BitVec.ofBool t) ++ (AccOp.enc op)⟩
  | .caccr g a b t op => some ⟨4, 6, g.p, SSel.enc a, SSel.enc b, BitVec.ofBool g.inv ++ (BitVec.ofBool t) ++ (AccOp.enc op)⟩
  | .ccas g a b t sz m => some ⟨4, 7, g.p, SSel.enc a, SSel.enc b, BitVec.ofBool g.inv ++ (BitVec.ofBool t) ++ (BitVec.ofBool sz) ++ (m)⟩
  | .csync g a b rgen => some ⟨4, 8, g.p, SSel.enc a, SSel.enc b, BitVec.ofBool g.inv ++ (0 : BitVec 5) ++ (BitVec.ofBool rgen)⟩
  | .cswait g a b => some ⟨4, 9, g.p, SSel.enc a, SSel.enc b, BitVec.ofBool g.inv ++ (0 : BitVec 6)⟩
  | .cfeset g a b ft => some ⟨4, 10, g.p, SSel.enc a, SSel.enc b, BitVec.ofBool g.inv ++ (0 : BitVec 5) ++ (BitVec.ofBool ft)⟩
  | .cring g a b r => some ⟨4, 11, g.p, SSel.enc a, SSel.enc b, BitVec.ofBool g.inv ++ (0 : BitVec 3) ++ (r)⟩
  | .crsub g a b dir r => some ⟨4, 12, g.p, SSel.enc a, SSel.enc b, BitVec.ofBool g.inv ++ (0 : BitVec 1) ++ (SpoutDir.enc dir) ++ (r)⟩
  | .crunsub g r => some ⟨4, 13, g.p, 0, 0, BitVec.ofBool g.inv ++ (0 : BitVec 3) ++ (r)⟩
  | .crfin g r => some ⟨4, 14, g.p, 0, 0, BitVec.ofBool g.inv ++ (0 : BitVec 3) ++ (r)⟩
  | .cwait g => some ⟨4, 15, g.p, 0, 0, BitVec.ofBool g.inv ++ (0 : BitVec 6)⟩
  | .stream g a q => some ⟨4, 24, g.p, SSel.enc a, 0, BitVec.ofBool g.inv ++ (0 : BitVec 2) ++ (q)⟩
  | .sclose g fill q => some ⟨4, 25, g.p, 0, 0, BitVec.ofBool g.inv ++ (BitVec.ofBool fill) ++ (0 : BitVec 1) ++ (q)⟩
  | .clred g a => some ⟨4, 26, g.p, SSel.enc a, 0, BitVec.ofBool g.inv ++ (0 : BitVec 6)⟩
  | .clbc g a => some ⟨4, 27, g.p, SSel.enc a, 0, BitVec.ofBool g.inv ++ (0 : BitVec 6)⟩
  | .cla2a g a => some ⟨4, 28, g.p, SSel.enc a, 0, BitVec.ofBool g.inv ++ (0 : BitVec 6)⟩
  | .clvir g a => some ⟨4, 29, g.p, SSel.enc a, 0, BitVec.ofBool g.inv ++ (0 : BitVec 6)⟩
  | .clrowDisp g a => some ⟨4, 30, g.p, SSel.enc a, 0, BitVec.ofBool g.inv ++ (0 : BitVec 5) ++ (0 : BitVec 1)⟩
  | .clrowComb g a => some ⟨4, 30, g.p, SSel.enc a, 0, BitVec.ofBool g.inv ++ (0 : BitVec 5) ++ (1 : BitVec 1)⟩
  | .clwait g a => some ⟨4, 31, g.p, SSel.enc a, 0, BitVec.ofBool g.inv ++ (0 : BitVec 6)⟩
  | .fbstat g a what => some ⟨4, 32, g.p, SSel.enc a, 0, BitVec.ofBool g.inv ++ (0 : BitVec 5) ++ (BitVec.ofBool what)⟩
  | .kvld g a b => some ⟨4, 40, g.p, SSel.enc a, SSel.enc b, BitVec.ofBool g.inv ++ (0 : BitVec 6)⟩
  | .kvst g a b => some ⟨4, 41, g.p, SSel.enc a, SSel.enc b, BitVec.ofBool g.inv ++ (0 : BitVec 6)⟩
  | .psel g a b => some ⟨4, 42, g.p, SSel.enc a, SSel.enc b, BitVec.ofBool g.inv ++ (0 : BitVec 6)⟩
  | .pmapRead g a b => some ⟨4, 43, g.p, SSel.enc a, SSel.enc b, BitVec.ofBool g.inv ++ (0 : BitVec 3) ++ (0 : BitVec 3)⟩
  | .pmapReadref g a b => some ⟨4, 43, g.p, SSel.enc a, SSel.enc b, BitVec.ofBool g.inv ++ (0 : BitVec 3) ++ (1 : BitVec 3)⟩
  | .pmapMapnew g a b => some ⟨4, 43, g.p, SSel.enc a, SSel.enc b, BitVec.ofBool g.inv ++ (0 : BitVec 3) ++ (2 : BitVec 3)⟩
  | .pmapRevoke g a b => some ⟨4, 43, g.p, SSel.enc a, SSel.enc b, BitVec.ofBool g.inv ++ (0 : BitVec 3) ++ (3 : BitVec 3)⟩
  | .pmapEvict g a b => some ⟨4, 43, g.p, SSel.enc a, SSel.enc b, BitVec.ofBool g.inv ++ (0 : BitVec 3) ++ (4 : BitVec 3)⟩
  | .pmapPrefetch g a b => some ⟨4, 43, g.p, SSel.enc a, SSel.enc b, BitVec.ofBool g.inv ++ (0 : BitVec 3) ++ (5 : BitVec 3)⟩
  | .psref g a b pin new => some ⟨4, 44, g.p, SSel.enc a, SSel.enc b, BitVec.ofBool g.inv ++ (0 : BitVec 4) ++ (BitVec.ofBool pin) ++ (BitVec.ofBool new)⟩
  | .psdrop g a pin => some ⟨4, 45, g.p, SSel.enc a, 0, BitVec.ofBool g.inv ++ (0 : BitVec 4) ++ (BitVec.ofBool pin) ++ (0 : BitVec 1)⟩
  | .spawn g a b desc nj => some ⟨5, 1, g.p, SSel.enc a, SSel.enc b, BitVec.ofBool g.inv ++ (BitVec.ofBool desc) ++ (BitVec.ofBool nj) ++ (0 : BitVec 4)⟩
  | .spawnb g a b wsid => some ⟨5, 2, g.p, SSel.enc a, SSel.enc b, BitVec.ofBool g.inv ++ (wsid)⟩
  | .cancel g a => some ⟨5, 3, g.p, SSel.enc a, 0, BitVec.ofBool g.inv ++ (0 : BitVec 6)⟩
  | .reprio g a b => some ⟨5, 4, g.p, SSel.enc a, SSel.enc b, BitVec.ofBool g.inv ++ (0 : BitVec 6)⟩
  | .join g a any => some ⟨5, 5, g.p, SSel.enc a, 0, BitVec.ofBool g.inv ++ (0 : BitVec 5) ++ (BitVec.ofBool any)⟩
  | .tkdone g => some ⟨5, 6, g.p, 0, 0, BitVec.ofBool g.inv ++ (0 : BitVec 6)⟩
  | .tstat g => some ⟨5, 7, g.p, 0, 0, BitVec.ofBool g.inv ++ (0 : BitVec 6)⟩
  | .phreg g a mode => some ⟨5, 16, g.p, SSel.enc a, 0, BitVec.ofBool g.inv ++ (PhMode.enc mode) ++ (0 : BitVec 4)⟩
  | .phdrop g a => some ⟨5, 17, g.p, SSel.enc a, 0, BitVec.ofBool g.inv ++ (0 : BitVec 6)⟩
  | .pharr g a sc => some ⟨5, 18, g.p, SSel.enc a, 0, BitVec.ofBool g.inv ++ (0 : BitVec 3) ++ (Scope.enc sc)⟩
  | .phwait g a sc => some ⟨5, 19, g.p, SSel.enc a, 0, BitVec.ofBool g.inv ++ (0 : BitVec 3) ++ (Scope.enc sc)⟩
  | .phaw g a sc => some ⟨5, 20, g.p, SSel.enc a, 0, BitVec.ofBool g.inv ++ (0 : BitVec 3) ++ (Scope.enc sc)⟩
  | .phrd g a => some ⟨5, 21, g.p, SSel.enc a, 0, BitVec.ofBool g.inv ++ (0 : BitVec 6)⟩
  | .nsvl g a b t => some ⟨5, 32, g.p, SSel.enc a, SSel.enc b, BitVec.ofBool g.inv ++ (BitVec.ofBool t) ++ (0 : BitVec 5)⟩
  | .nsback g a b t alt => some ⟨5, 33, g.p, SSel.enc a, SSel.enc b, BitVec.ofBool g.inv ++ (BitVec.ofBool t) ++ (BitVec.ofBool alt) ++ (0 : BitVec 4)⟩
  | .nssel g a b t => some ⟨5, 34, g.p, SSel.enc a, SSel.enc b, BitVec.ofBool g.inv ++ (BitVec.ofBool t) ++ (0 : BitVec 5)⟩
  | .nsrd g a b t ft => some ⟨5, 35, g.p, SSel.enc a, SSel.enc b, BitVec.ofBool g.inv ++ (BitVec.ofBool t) ++ (0 : BitVec 2) ++ (NsRd.enc ft)⟩
  | .nswr g a b t ft => some ⟨5, 36, g.p, SSel.enc a, SSel.enc b, BitVec.ofBool g.inv ++ (BitVec.ofBool t) ++ (0 : BitVec 2) ++ (NsField.enc ft)⟩
  | .nsalloc g a b t => some ⟨5, 37, g.p, SSel.enc a, SSel.enc b, BitVec.ofBool g.inv ++ (BitVec.ofBool t) ++ (0 : BitVec 4) ++ (0 : BitVec 1)⟩
  | .nsallocFree g a t => some ⟨5, 37, g.p, SSel.enc a, 0, BitVec.ofBool g.inv ++ (BitVec.ofBool t) ++ (0 : BitVec 4) ++ (1 : BitVec 1)⟩
  | .gscfg g a clr n => some ⟨5, 48, g.p, SSel.enc a, 0, BitVec.ofBool g.inv ++ (BitVec.ofBool clr) ++ (0 : BitVec 1) ++ (n)⟩
  | .gsocc g a => some ⟨5, 49, g.p, SSel.enc a, 0, BitVec.ofBool g.inv ++ (0 : BitVec 6)⟩
  | .gsdlen g a => some ⟨5, 50, g.p, SSel.enc a, 0, BitVec.ofBool g.inv ++ (0 : BitVec 6)⟩
  | .gsseed g a => some ⟨5, 51, g.p, SSel.enc a, 0, BitVec.ofBool g.inv ++ (0 : BitVec 6)⟩
  | .gsiterStart g a => some ⟨5, 52, g.p, SSel.enc a, 0, BitVec.ofBool g.inv ++ (0 : BitVec 4) ++ (0 : BitVec 2)⟩
  | .gsiterLayer g a b => some ⟨5, 52, g.p, SSel.enc a, SSel.enc b, BitVec.ofBool g.inv ++ (0 : BitVec 4) ++ (1 : BitVec 2)⟩
  | .gsiterEnd g b => some ⟨5, 52, g.p, 0, SSel.enc b, BitVec.ofBool g.inv ++ (0 : BitVec 4) ++ (2 : BitVec 2)⟩
  | .gsnoise g a b cl => some ⟨5, 53, g.p, SSel.enc a, SSel.enc b, BitVec.ofBool g.inv ++ (Clu.enc cl) ++ (0 : BitVec 5)⟩
  | .gssamp g a => some ⟨5, 54, g.p, SSel.enc a, 0, BitVec.ofBool g.inv ++ (0 : BitVec 6)⟩
  | .gsacc g a b => some ⟨5, 55, g.p, SSel.enc a, SSel.enc b, BitVec.ofBool g.inv ++ (0 : BitVec 6)⟩
  | .gswait g a b lay => some ⟨5, 56, g.p, SSel.enc a, SSel.enc b, BitVec.ofBool g.inv ++ (0 : BitVec 5) ++ (BitVec.ofBool lay)⟩
  | .cxs g a b cl sg => some ⟨6, 1, g.p, VSel.enc a, VSel.enc b, BitVec.ofBool g.inv ++ (Clu.enc cl) ++ (Stg.enc sg)⟩
  | .thrc g a b cl ty ge => some ⟨6, 2, g.p, VSel.enc a, VSel.enc b, BitVec.ofBool g.inv ++ (Clu.enc cl) ++ (ThrTy.enc ty) ++ (BitVec.ofBool ge) ++ (0 : BitVec 2)⟩
  | .hist g a b cl dir => some ⟨6, 3, g.p, VSel.enc a, VSel.enc b, BitVec.ofBool g.inv ++ (Clu.enc cl) ++ (BitVec.ofBool dir) ++ (0 : BitVec 4)⟩
  | .ttnew g a b => some ⟨6, 4, g.p, SSel.enc a, SSel.enc b, BitVec.ofBool g.inv ++ (0 : BitVec 6)⟩
  | .ttadd g a b fl => some ⟨6, 5, g.p, SSel.enc a, SSel.enc b, BitVec.ofBool g.inv ++ (fl)⟩
  | .ttpos g a cl blk => some ⟨6, 6, g.p, SSel.enc a, 0, BitVec.ofBool g.inv ++ (Clu.enc cl) ++ (0 : BitVec 3) ++ (blk)⟩
  | .ttmask g a cl col form blk => some ⟨6, 7, g.p, SSel.enc a, 0, BitVec.ofBool g.inv ++ (Clu.enc cl) ++ (BitVec.ofBool col) ++ (MaskForm.enc form) ++ (blk)⟩
  | .ttpath g a cl fld blk => some ⟨6, 8, g.p, SSel.enc a, 0, BitVec.ofBool g.inv ++ (Clu.enc cl) ++ (PathFld.enc fld) ++ (0 : BitVec 1) ++ (blk)⟩
  | .ttprune g a b sf => some ⟨6, 9, g.p, SSel.enc a, SSel.enc b, BitVec.ofBool g.inv ++ (0 : BitVec 5) ++ (BitVec.ofBool sf)⟩
  | .ttfree g a => some ⟨6, 10, g.p, SSel.enc a, 0, BitVec.ofBool g.inv ++ (0 : BitVec 6)⟩
  | .ttrd g a what => some ⟨6, 11, g.p, SSel.enc a, 0, BitVec.ofBool g.inv ++ (0 : BitVec 4) ++ (TtWhat.enc what)⟩
  | .expchkWrite => none
  | .trappcWrite => none
  | .rxringWrite => none
  | .ftgcfgWrite => none
  | .tteageWrite => none
  | .bfcfgWrite => none
  | .bftabWrite => none
  | .gsctlWrite => none
  | .snapcfgWrite => none
  | .gscurRead => none
  | .mergeIssueCycle => none
  | .asyncCauseTaken => none
  | .resultLanding => none
  | .regcacheFill => none
  | .waitExpiry => none
  | .rteResume => none
  | .phaseDrainComplete => none
  | .replayIterationEnd => none
  | .contextPark => none
  | .contextResume => none
  | .priorityPark => none
  | .taskStart => none
  | .waveFormation => none
  | .ticketRetire => none
  | .batchClose => none
  | .batchTaskEnd => none
  | .phaserOpApply => none
  | .copyGranule => none
  | .commandComplete => none
  | .spoutTileTransfer => none
  | .spoutDepthUpdate => none
  | .mwldComplete => none
  | .arrayFill => none
  | .sweepRollback => none
  | .pageWalk => none
  | .directoryAccess => none
  | .cacheEviction => none
  | .releasePerform => none
  | .remoteResponse => none
  | .weirArrival => none
  | .ackReceive => none
  | .flitReceive => none
  | .retransmitTimeout => none
  | .endpointUnreachable => none
  | .linkStateChange => none
  | .flitSeal => none
  | .lendWindow => none
  | .lendReceive => none
  | .fifoDelivery => none
  | .resumeNotice => none
  | .remoteRetryResend => none
  | .wavedone => none
  | .waveClose => none
  | .collectiveArrival => none
  | .collectiveComplete => none
  | .ualinkRefused => none
  | .flashFill => none
  | .evictComplete => none
  | .setBuildComplete => none
  | .nodeWalkStep => none
  | .gsqOpArrival => none
  | .coreGrant => none
  | .entryTaskCreate => none
  | .launchComplete => none
  | .watchdogStage1 => none
  | .watchdogStage2 => none
  | .watchdogStage3 => none
  | .clapperCapture => none
  | .clapperMessage => none
  | .patrolScrub => none
  | .fetchAheadFault => none
  | .powerGood => none
  | .finalCutStepDone => none
  | .throttleStep => none
  | .trip => none
  | .qpEstablish => none
  | .rdmaWrite => none
  | .rdmaRead => none
  | .plohusDrop => none
  | .plohusUnknown => none
  | .launch => none
  | .kill => none
  | .resume => none
  | .finalcut => none
  | .reset => none
  | .setroot => none
  | .setprio => none
  | .setexp => none
  | .xlinv => none
  | .mrreg => none
  | .mrdereg => none
  | .reach => none
  | .kekset => none
  | .keyset => none
  | .fencerel => none
  | .pwrcap => none
  | .attest => none
  | .certread => none
  | .snapcmd => none
  | .snapread => none
  | .logread => none
  | .basinApply => none
  | .bundleFetch => none
  | .qpTeardown => none
  | .rdmaAtomicOrUd => none
  | .captureDone => none

/-- The word of an instruction with E = e; none for a step without a word (R28). -/
def encode (e : Bool) (i : Instr) : Option W32 := i.fields.map (Fields.toWord e)

/-- The instruction the decoder reads from a table word of nbits bits: one 32-bit word, whatever its E bit. -/
def decodeTableWord (nbits w : Nat) : Option Instr :=
  if nbits ≤ 32 then
    match decodeWord (BitVec.ofNat 32 (w % 2 ^ nbits)) with
    | .ok i => some i
    | .error _ => none
  else none

end Sys2Proof
end

