-- ==== Sys2Proof/Machine/State.lean ====
section
/-!
DEFINITION. The state of one AD-1 module as plain data (INVENTORY.md '## State' names each part and its rule), the
faults and refusals a step can end in, and the state after reset.
-/

namespace Sys2Proof.Machine

/-- Why the machine stops. -/
inductive Fault where
  /-- A slot instruction or a control-register step executed while no context is issuing (`State.cur` names none).
  Raised by the slot meanings; safe: the spec gives such a step no context to act on. -/
  | noContext
deriving DecidableEq, Repr

/-- Why the model gives no meaning. -/
inductive Refusal where
  /-- An instruction rejected by name: no meaning is modelled. Raised by Dispatch.lean only; safe. -/
  | notModelled (mnemonic : String)
deriving DecidableEq, Repr

/-! ### Contexts (R125-R137, R141-R150) -/

/-- A result queue: qs, qa or qb. -/
inductive Qn where
  | s | a | b
deriving DecidableEq, Repr

/-- The value of a pushed result. -/
inductive QVal where
  | s (v : W64)
  | v (x : VReg)
deriving DecidableEq, Repr

/-- A pending result (R136): its queue and slot, the context cycle it lands at, its value once it has arrived, the name
a late answer finds it by, and whether a later push of the same slot has landed before it (R36, R129). -/
structure Pend where
  q : Qn
  slot : Fin 16
  land : Nat
  val : Option QVal
  id : Nat
  dead : Bool
deriving DecidableEq, Repr

/-- A queue ring: 16 physical slots and the head (R129). -/
structure Ring (α : Type) where
  slots : Vector α 16
  head : Fin 16
deriving DecidableEq, Repr

/-- An empty scalar ring (R126). -/
def Ring.emptyS : Ring W64 := ⟨Vector.replicate 16 0, 0⟩
/-- An empty vector ring (R126). -/
def Ring.emptyV : Ring VReg := ⟨Vector.replicate 16 VReg.zero, 0⟩

/-- Settings of a nest level: masks and strides (R186). -/
structure NestSet where
  first : W64 := 0
  last : W64 := 0
  stride : Vector (Option (BitVec 5 × W64)) 4 := Vector.replicate 4 none
deriving DecidableEq, Repr

/-- An active nest level (R142): trip, stages, address and length of its body in bundles, the place of its body's first
bundle in the outermost body, and the current iteration. -/
structure Level where
  trip : Nat
  stages : Nat
  start : W64
  len : Nat
  base : Nat
  iter : Nat
deriving DecidableEq, Repr

/-- The replay nest (R141, R142): settings of the six levels, active levels (innermost first), the place of the next
bundle in the outermost body, and the captured bundles by place (address and words). -/
structure Nest where
  set : Vector NestSet 6 := Vector.replicate 6 {}
  act : List Level := []
  pos : Nat := 0
  buf : SMap (W64 × List W32) := []
deriving DecidableEq, Repr

/-- What a trap freezes (R150): queues, predicates, index registers, mask stacks, nest and landing buffer. -/
structure Frame where
  qs : Ring W64 := Ring.emptyS
  qa : Ring VReg := Ring.emptyV
  qb : Ring VReg := Ring.emptyV
  pend : List Pend := []          -- newest first
  ps : BitVec 8 := 1
  pa : Vector W64 8 := (Vector.replicate 8 0).set 0 (BitVec.allOnes 64)
  pb : Vector W64 8 := (Vector.replicate 8 0).set 0 (BitVec.allOnes 64)
  xs : W32 := 0
  xa : W32 := 0
  xb : W32 := 0
  ma : List W64 := []             -- mask stack A, top first
  mb : List W64 := []
  nest : Nest := {}
deriving DecidableEq, Repr

/-- The trap record by field (R149). -/
structure TrapRec where
  cause : BitVec 8 := 0
  sub : BitVec 8 := 0
  slots : BitVec 8 := 0
  flags : BitVec 8 := 0
  core : BitVec 16 := 0
  ctx : BitVec 8 := 0
  pc : W64 := 0
  addr : W64 := 0
  ccyc : W64 := 0
  acyc : W64 := 0
  info : W64 := 0
  ticket : W64 := 0
deriving DecidableEq, Repr

/-- A cause as it is raised (R148): code, subcode, address and INFO. -/
structure Cause where
  code : Nat
  sub : Nat := 0
  addr : W64 := 0
  info : W64 := 0
  aux : Nat := 0                        -- LOADFAIL: the half
  fetch : Bool := false                 -- raised by an operation of a sweep's operand fetch (R274)
deriving DecidableEq, Repr

/-- A store that takes effect at the end of its bundle (R113, R121): bytes of a core's pool with the full/empty
actions of its lines (R102); the lines a WFE load takes; the plain local stores of a slot by virtual and physical
address, each with its NC; a remote write on a stream slot; a release, with the bytes it names. -/
inductive Write where
  | pool (core : Nat) (bytes : List (Nat × Byte)) (fe : Option (Bool × List Nat))
  | wfe (core : Nat) (lines : List Nat)
  | glob (task : Nat) (accs : List (W64 × Nat × List Byte × Bool))
  | rem (task slot : Nat) (va : W64) (body : StreamBody)
  | strl (task slot : Nat) (va val : W64) (scope : Scope) (span : List (Nat × Nat))
deriving DecidableEq, Repr

/-- What an access that waits behind earlier accesses of its context does (R112, R114): a release, with the stream and
number a remote one has taken and whether it has been sent (R181, R324); an acquire (R180); plain local loads by physical
address and NC, and remote ones, of a scalar or of the lanes of a row, with the entry each has pushed; plain local stores;
a remote write on a number it has taken. -/
inductive LaterAcc where
  | release (val : W64) (scope : Scope) (seq : Option (Nat × Nat)) (sent : Bool)
  | acquire (scope : Scope) (size : Nat) (u : Bool) (pend : Nat)
  | load (pa : Nat) (nc : Bool) (size : Nat) (u : Bool) (pend : Nat)
  | row (lanes : List (Nat × W64 × Nat × Bool)) (mask : W64) (base : VReg) (pend : Nat)
  | rload (size : Nat) (u : Bool) (pend : Nat)
  | rrow (mask : W64) (base : VReg) (pend : Nat)
  | store (accs : List (W64 × Nat × List Byte × Bool))
  | rstore (strm seq : Nat) (tick : Option RTicket) (body : StreamBody)
deriving DecidableEq, Repr
/-- An access of a context that is to be performed in its turn: its name, its address, the bytes it names (R112), the
stream numbers of the context that must be acknowledged before it, and the loads that must have their values before a
release, by the entries they push. -/
structure Later where
  name : Nat
  va : W64
  span : List (Nat × Nat) := []
  acc : LaterAcc
  acks : List (Nat × Nat) := []
  pends : List Nat := []
deriving DecidableEq, Repr

/-- A bucket's schedule (R448). -/
structure Bucket where
  entry : W64
  occMax : Nat
  dlMax : Nat
  depthp : Nat
deriving DecidableEq, Repr

/-- A generation operation as it reaches its instance (R446): the instructions', and a participant's leaving (R452). -/
inductive GsAct where
  | bucket (n : Fin 16) (b : Option Bucket)
  | occ (v : Nat)
  | dlen (v : Nat)
  | seed (v : W64)
  | start (word : W64)
  | layer (l : Nat) (itn : W32)
  | fin (itn : W32)
  | acc (itn : W32) (n : Nat) (t : W32)
  | noise (seq pos base : W32) (id : Nat)
  | left (killed : Bool)
deriving DecidableEq, Repr

/-- What holds later bundles of a context: an LDA or FENCE (R180, R182) and an arrival still to be sent, at phaser n of
core c (R422), a generation operation still to be sent (R457), the ordered ones; a PHAW that waits on phaser n (R424),
every one. -/
inductive Hold where
  | lda (id : Nat)
  | fence (s : Scope)
  | arrive (s : Scope) (c n : Nat)
  | phaw (s : Scope) (n : Nat)
  | gs (a : GsAct)
deriving DecidableEq, Repr

/-- A context (R125). `ccyc` is the context cycle of its next bundle; `npc` the bundle that follows while one issues. -/
structure Context where
  core : Nat                               -- the core it belongs to
  num : Nat := 0                           -- its context number while resident
  launch : Nat := 0
  nks : Nat := 1                           -- declared register counts (R20)
  nva : Nat := 0
  nvb : Nat := 0
  pc : W64
  npc : W64
  jump : Option W64 := none                -- target of a transfer taken by the issuing bundle (R184)
  opening : Option (Nat × Nat × Nat) := none  -- level opened by the issuing bundle: trip, stages, body (R185)
  ccyc : Nat := 0
  fr : Frame := {}
  frozen : Option (Frame × Nat) := none   -- main state and remaining wait, in trap mode (R147, R150)
  k : Vector W64 32 := Vector.replicate 32 0
  va : Vector VReg 32 := Vector.replicate 32 VReg.zero
  vb : Vector VReg 32 := Vector.replicate 32 VReg.zero
  liveK : W32 := 0
  liveA : W32 := 0
  liveB : W32 := 0
  trapMode : Bool := false
  tvec : W64 := 0
  trappc : W64 := 0
  trec : TrapRec := {}
  expchk : Bool := false
  fetched : Option (W64 × List W32) := none -- the next bundle where it has been fetched ahead (R138)
  ffault : Option (W64 × W64) := none      -- a bundle whose fetch ahead faulted, and where (R153)
  wait : Nat := 0                          -- context cycles left of an explicit wait (R134)
  mrgwait : Nat := 0
  rte : Bool := false                      -- RTE waits for handler results (R151)
  holds : List Hold := []
  rels : List Later := []                  -- accesses that wait for their turn, in order (R112, R114, R181)
  asyncs : List Cause := []
  park : Bool := false                     -- a park is requested (R155)
  strm : Vector (Option Nat) 16 := Vector.replicate 16 none   -- stream numbers by slot (R323)
  tkiss : Nat := 0                         -- ticketed instructions issued (R123, R311)
  tkapp : Nat := 0                         -- those applied or committed (R311)
  nextId : Nat := 0                        -- names of pending results
  exit : Option W64 := none                -- the result of an EXIT whose bundle has committed (R195)
  dead : Bool := false                     -- killed; its stores in `rels` are still to be performed (R15)
deriving DecidableEq, Repr

/-- What one bundle holds while its slots execute: the context before it, the position of the executing slot, the
entries the bundle pushes, what its slots do to the count queue, the causes raised so far by slot, and its stores. -/
structure Latch where
  ctx : Context
  pos : Nat := 0
  total : Nat := 0
  cqPop : Bool := false
  cqClr : Bool := false
  cqPush : List W32 := []
  causes : List (Nat × Cause) := []
  held : Bool := false
  writes : List Write := []
  fresh0 : Nat := 0                     -- names below it were given before the bundle
  want : Option (Nat × Nat) := none     -- half and segment a held beat waits for (R260)
  ce : Bool := false                    -- the executing C slot is the second of its bundle (R14)
  cwrites : List Write := []            -- scratchpad writes of the rank of a copy engine (R121)
  csrw : Option (Nat × W64) := none     -- the control register its CSRW writes at its end (R190)
  far : List Nat := []                  -- stream slots of its remote stores so far (R324)
deriving DecidableEq, Repr

/-! ### Cores -/

/-- A line of the data cache (R108): its bytes, which of them are dirty, and whether it holds an uncorrectable error
(R485). -/
structure DLine where
  data : Vector Byte 128
  dirty : Vector Bool 128
  bad : Bool := false
  pois : Bool := false            -- filled from a poisoned granule: its bytes that are not dirty are lost (R486)
deriving DecidableEq, Repr

/-- A TLB entry (R97): the root it was found under, its level, the virtual page number at that level, and the leaf. -/
structure TlbE where
  root : Nat
  lvl : Nat
  vpn : Nat
  leaf : W64
deriving DecidableEq, Repr

/-- A draft-tree node (R232). -/
structure TtNode where
  token : W32
  parent : Nat
  depth : Nat
  flags : BitVec 6
  bad : Bool := false                 -- an uncorrectable error (R485)
deriving DecidableEq, Repr

/-- A tree descriptor (R232): open trees hold their owner, capacity, bases and nodes. -/
structure TtDesc where
  gen : BitVec 4 := 0
  tree : Option (Nat × Nat) := none   -- owning task, CAP
  basePos : W32 := 0
  kvBase : W32 := 0
  nodes : List TtNode := []
deriving DecidableEq, Repr

/-- The fabric send FIFO of a core (R334): complete messages with their owners, then the words of an incomplete message,
its owner and the words it still lacks. -/
structure TxFifo where
  full : List (Nat × List W64) := []
  words : List W64 := []
  owner : Option Nat := none
  need : Nat := 0
deriving DecidableEq, Repr

/-- A FIFO message in a core's retransmit buffer (R335): its name, owner, destination and words. -/
structure OutFifo where
  id : Nat
  task : Nat
  dst : Nat
  msg : FifoMsg
  sent : Bool := false
  refused : Bool := false
deriving DecidableEq, Repr

/-- A PHASE drain (R145): the issuing task and the new DCBANK. -/
structure Drain where
  task : Nat
  d : Nat
deriving DecidableEq, Repr

/-- The command registers of a copy engine (R280). -/
structure CeRegs where
  src : W64 := 0
  dst : W64 := 0
  ext : Vector Nat 6 := Vector.replicate 6 1
  sstr : Vector W64 6 := Vector.replicate 6 0
  dstr : Vector W64 6 := Vector.replicate 6 0
  slot : Nat := 0
  wt : Option Nat := none
  claim : Bool := false
deriving DecidableEq, Repr

/-- What comes before an engine operation (R111): the accesses of its issuer that wait for their turn, by name; its remote
writes, by stream and number; its loads that have no value, by the entries they push. -/
structure Fork where
  waits : List Nat := []
  acks : List (Nat × Nat) := []
  pends : List Nat := []
deriving DecidableEq, Repr
/-- A part of an element that lies in one line (R88): in memory, in a core's pool, or in another package. -/
inductive Spot where
  | mem (pa : Nat)
  | pool (core a : Nat)
  | far (va : W64)
deriving DecidableEq, Repr

/-- What a command of a copy engine does (R282, R299, R336). -/
inductive CmdKind where
  | copy (sz : Nat)
  | acc (op : AccOp)
  | accr (op : AccOp) (addr v : W64) (pend : Nat)
  | cas (size : Nat) (addr cmp new : W64) (pend : Nat)
  | coll (cid : Nat)
  | kvld (list npg t0 nt part form : Nat)
  | kvst (h t off : Nat)
  | psel (desc : Nat)
  | pmap (op h : Nat) (b : W64) (pend : Nat)
  | psref (set n hdc : Nat) (new : Bool) (va : W64) (holder : Option Nat)
  | psdrop (set : Nat) (pin : Bool)
deriving DecidableEq, Repr

/-- A stream message of a command that has not been acknowledged (R285, R291): stream and number, bytes it writes,
address of its first element, granule, bytes from its first to its last. -/
structure SentMsg where
  strm : Nat
  seq : Nat
  bytes : Nat
  addr : W64
  gran : Nat
  span : Nat := 0
deriving DecidableEq, Repr

/-- A PSEL in progress (R366-R368): its descriptor, query and list, and what it has scored: score, handle, place. -/
structure SelSt where
  hdc : Nat
  list : List Nat
  k : Nat
  flags : Nat
  out : Nat
  q : List W32
  scored : List (W32 × Nat × Nat) := []
deriving DecidableEq, Repr

/-- A command held by a copy engine (R282, R291, R295, R296). -/
structure Cmd where
  id : Nat
  task : Nat
  launch : Nat
  kind : CmdKind
  slot : Nat := 0                 -- the SLOT it bears (R296)
  tick : Option Nat := none       -- issue index of a ticketed command (R301)
  obj : Option (Nat × Nat) := none -- completion object: core and scratchpad offset (R282)
  ck : Nat := 0
  split : Nat := 0
  perm : Bool := false
  list : Nat := 0
  src : W64 := 0
  dst : W64 := 0
  ext : Vector Nat 6 := Vector.replicate 6 1
  sstr : Vector W64 6 := Vector.replicate 6 0
  dstr : Vector W64 6 := Vector.replicate 6 0
  gran : Nat := 0                 -- granules completed
  elem : Nat := 0                 -- elements performed
  words : List W32 := []          -- list words of the granule in progress (R291)
  busy : Bool := false            -- inside a granule
  asked : Option Nat := none      -- request of a remote element that is out (R283, R299)
  got : Option RemoteResp := none -- its answer
  open_ : Option (W64 × Nat × List (Nat × Byte)) := none  -- write message being formed: its start, the bytes its elements span, those it writes (R320)
  resv : List Nat := []           -- numbers reserved and not yet sent (R326)
  owed : Nat := 0                 -- numbers of a granule of more than 4,096 messages that are still to be reserved
  plan : List (List (Spot × Nat) × List (Spot × Nat)) := []  -- where the next elements of the granule lie, source and destination (R291)
  seq : Option Nat := none        -- number a remote CACCR or CCAS took at issue (R324)
  sent : List SentMsg := []
  missed : List Nat := []         -- elements that were not performed (R285, R291)
  full : Bool := false            -- waits for commit-buffer entries (R303)
  issued : Bool := false          -- every granule has been performed; outstanding operations remain
  stop : Bool := false            -- killed: stops at its next granule boundary (R294)
  pause : Bool := false           -- paused by a park (R294, R362)
  sweep : Bool := false           -- of the operand fetch of the open sweep (R273)
  strm : Nat := 0                 -- the stream its reserved numbers are of (R326)
  page : Option Nat := none       -- the filling page it stopped on (R362)
  pgfail : Bool := false          -- that fill has failed (R363)
  lines : List (Nat × Nat) := []  -- lines a KVLD has written and not signalled, by core (R358)
  told : Nat := 0                 -- elements whose full lines have been signalled (R285, CK 2)
  fork : Fork := {}               -- what comes before it (R111)
  sel : Option SelSt := none
deriving DecidableEq, Repr

/-- A subscription of a stage ring (R307): direction, tile 0, tile count and stride, the next tile. -/
structure RingSub where
  dir : SpoutDir
  base : W64
  ntile : Nat
  stride : W64
  next : Nat := 0
  fork : Fork := {}               -- what comes before its transfers (R111)
deriving DecidableEq, Repr

/-- A stage ring (R306-R310). `fins` counts the CRFINs of the current window. -/
structure StageRing where
  owner : Option Nat := none
  slotl : Nat := 0
  base : Nat := 0
  dmax : Nat := 0
  dmin : Nat := 0
  depth : Nat := 0
  fin : Nat := 0
  done : Nat := 0
  fins : Nat := 0
  tiles : Nat := 0                -- tiles completed in the current window, and the cycles they took (R310)
  cycles : Nat := 0
  sub : Option RingSub := none
deriving DecidableEq, Repr

/-- State of a weight-buffer half (R255). -/
inductive HalfSt where
  | empty | loading | ready | failed
deriving DecidableEq, Repr

/-- A weight-buffer half (R248, R252): its image's fields and slices, or its transfer, or why it failed. -/
structure Half where
  st : HalfSt := .empty
  bfmt : AFmt := .bf16
  sparse : Nat := 0
  nslice : Nat := 0
  sliceb : Nat := 0
  bytes : List Byte := []
  bad : Bool := false             -- an uncorrectable error (R485)
  fork : Fork := {}               -- what comes before its transfer (R111)
  detail : Nat := 0
  addr : W64 := 0
  src : W64 := 0
  task : Nat := 0
  launch : Nat := 0
  fetch : Bool := false           -- its MWLD belongs to the open sweep's operand fetch
  hdr : List Byte := []           -- header of a remote image that has arrived
  asked : Option Nat := none      -- outstanding request of a remote image
deriving DecidableEq, Repr

/-- An open sweep with its shadow (R272); `roll` once a rollback is due: the trap that follows it with its slots, or
none for a park (R274). -/
structure Sweep where
  owner : Nat
  wbase : Nat
  wlen : Nat
  rows : List Byte
  slots : SMap VReg
  sel : Nat
  selv : Bool
  gw : Gw
  afmt : AFmt
  pc : W64
  roll : Option (Option (Cause × BitVec 8 × Bool)) := none
deriving DecidableEq, Repr

/-- The matrix engine of a core (R248). `filling` is a fill in progress and the ACLK count it ends at (R260). -/
structure MatrixEng where
  h0 : Half := {}
  h1 : Half := {}
  sel : Nat := 0
  selv : Bool := false
  afmt : AFmt := .bf16
  gw : Gw := .normal
  inRow : VReg := VReg.zero
  inv : Bool := false
  slots : SMap VReg := []
  out : List (Option Arith.Ext) := []
  outv : Bool := false
  filled : Option (Nat × Nat) := none
  filling : Option (Nat × Nat × W64) := none
  sweep : Option Sweep := none
  beats : W64 := 0
  replays : W64 := 0
deriving DecidableEq, Repr

/-- A member of a phaser (R414); `early` counts the arrivals held for later phases (R422). -/
structure PhMember where
  task : Nat
  mode : PhMode
  arrived : Bool := false
  early : Nat := 0
  wph : W32
deriving DecidableEq, Repr

/-- A phaser (R414); `moved` once an arrival or a drop took place since its last advance, `lone` from an advance without a
signaller until one has arrived (R416). -/
structure Phaser where
  ph : W32 := 0
  brk : Bool := false
  mem : List PhMember := []
  moved : Bool := false
  lone : Bool := false
deriving DecidableEq, Repr

/-- A core (R13). -/
structure Core where
  part : W32 := 0x8408
  trroot : W64 := 0
  launch : Option Nat := none
  fenced : Bool := false
  pool : Memory := []
  full : List Nat := []                       -- scratchpad lines whose full/empty bit is full
  was : SMap (Byte × Nat) := []               -- pool bytes written in this cycle: the value before it, the rank that stands (R121)
  wasFull : SMap (Bool × Nat) := []           -- full/empty bits acted on in this cycle, likewise (R103, R104)
  wfe : List Nat := []                        -- lines a WFE load has taken in this cycle (R104)
  bad : List Nat := []                        -- 64-bit words of the pool that hold an uncorrectable error (R485)
  rcBad : List (Nat × RcBlock) := []          -- register blocks that hold one, by task
  dc : SMap DLine := []
  tlb : List TlbE := []
  cq : List W32 := []
  res : Vector (Option Nat) 16 := Vector.replicate 16 none   -- task of each context number
  frames : Vector (Option Nat) 64 := Vector.replicate 64 none -- task of each image frame (R127)
  rc : List (Nat × RcBlock) := []             -- cached register blocks by task (R132)
  drain : Option Drain := none
  rank1 : Option Nat := none                  -- who was second in rank (R139)
  ttf : Vector TtDesc 16 := Vector.replicate 16 {}
  tx : TxFifo := {}
  rx : List W64 := []
  rxRing : W64 := 0
  ringRd : Nat := 0
  ringN : Nat := 0
  refused : BitVec 16 := 0
  rtx : List (OutFifo) := []                  -- FIFO messages sent and not delivered, in order (R335)
  wantRx : List (Nat × Nat × Nat) := []       -- senders refused: endpoint, core, words (R335)
  ce0 : CeRegs := {}
  ce1 : CeRegs := {}
  cq0 : List Cmd := []                        -- commands of CE0, oldest first
  cq1 : List Cmd := []
  rings : Vector StageRing 8 := Vector.replicate 8 {}
  orphans : List StageRing := []              -- OUT rings of exited tasks with slots still to be written back (R309)
  me : MatrixEng := {}
  phs : Vector Phaser 32 := Vector.replicate 32 {}
  nextT : Option W64 := none                  -- the task a priority park made room for, by its handle (R387)
deriving DecidableEq, Repr

/-! ### The package -/

/-- The directory state of a line other than I (R118): dirty for a context of a core, at core scope, or under a
released variable (its physical address). -/
inductive DirSt where
  | d (core task : Nat)
  | k (core : Nat)
  | p (core : Nat) (var : Nat)
deriving DecidableEq, Repr

/-- States of a task record (R383). -/
inductive TState where
  | free | waiting | ready | chosen | running | parked | batched | inbatch | ended
deriving DecidableEq, Repr

/-- How a task ended (R379). -/
inductive TEnd where
  | exited | killed | revoked
deriving DecidableEq, Repr

/-- A task record (R379). `rank` and `spidx` break ties of KEY (R384): the ticket in scope 0, the parent's ticket in a
DET scope; a batch task takes those of its first leaf. `at_` is the cycle count when it became startable, `endSeq` the place of its end among all
ends, `resumable` that its park has ended, `cancelAt` the cycle of the CANCEL (R394). -/
structure Task where
  st : TState := .free
  gen : BitVec 12 := 0
  launch : Nat := 0
  grp : Nat := 0
  entry : W64 := 0
  dcyc : Nat := 0
  key : W32 := 0
  oldKey : Option W32 := none           -- its KEY before a REPRIO of this cycle (R406)
  ticket : Option W64 := none
  parent : Option W64 := none
  spidx : Nat := 0
  rank : W64 := 0
  spawned : Nat := 0
  arg : W64 := 0
  k1 : W64 := 0
  aff : Nat := 0
  sem : List (Nat × Nat × W32) := []
  cancel : Bool := false
  cancelAt : W64 := 0
  nj : Bool := false
  leaf : Bool := false
  batch : Bool := false
  retired : Bool := false
  closed : Bool := false                -- its retirement has taken effect (R302)
  result : W64 := 0
  how : Option TEnd := none
  refs : List Nat := []                 -- page sets it holds a task reference on (R371)
  tvec : W64 := 0
  expchk : Bool := false
  at_ : W64 := 0
  endSeq : Nat := 0
  resumable : Bool := false
  qidx : Nat := 0                       -- Q-slot instructions issued (R391)
  wsid : Nat := 0                       -- a leaf's weight set
  core : Option Nat := none             -- where it was started
  nserr : W64 := 0                      -- R445
  pgpark : W64 := 0                     -- R378
  pages : List Nat := []                -- filling pages its commands have stopped on (R362)
deriving DecidableEq, Repr

/-- A wave's deferred act (R391, R394, R406): ticket and issue index of the issuer, then what to do. -/
structure Deferred where
  ticket : W64
  idx : Nat
  revoke : Bool
  target : Nat
  gen : BitVec 12 := 0                  -- the target's (R382)
  key : W32
deriving DecidableEq, Repr

/-- An open ticket scope (R17, R391, R411). -/
structure TScope where
  launch : Nat
  wave : Nat := 0
  width : Nat := 1
  dlost : Bool := false
  void : Nat := 0
  deferred : List Deferred := []
deriving DecidableEq, Repr

/-- A batch of leaves (R397-R399): open while `task` is none; `full` once later leaves open the next batch. -/
structure Batch where
  launch : Nat
  wsid : Nat
  leaves : List Nat := []
  first : W64 := 0
  full : Bool := false
  task : Option Nat := none
  buf : Nat := 0
  addr : W64 := 0
deriving DecidableEq, Repr

/-- The progress of a launch (R22). -/
inductive LState where
  | queued | granting | running | done
deriving DecidableEq, Repr

/-- Completion status (R22). -/
inductive LStatus where
  | ok | error | killed | fenced
deriving DecidableEq, Repr

/-- A launch (R20, R22, R400, R411). -/
structure Launch where
  st : LState := .queued
  qp : Nat := 0
  msgid : W32 := 0
  hq : Nat := 0
  det : Bool := false
  renorm : Bool := false
  chk : Bool := false
  serial : Bool := false
  nks : Nat := 1
  nva : Nat := 0
  nvb : Nat := 0
  part : W32 := 0x8408
  entry : W64 := 0
  ecyc : Nat := 0
  prio : W32 := 0
  groups : List Nat := []               -- its entries of the package group table, in order
  wavew : Nat := 0
  entgrp : Nat := 0
  aff : W64 := 0
  arg : W64 := 0
  arglen : W32 := 0
  wd1 : Nat := 0
  wd2 : Nat := 0
  wd3 : Nat := 0
  cookie : W64 := 0
  raw : List Byte := []                 -- the launch record, until it is admitted
  cores : List Nat := []
  granted : List Nat := []
  readyAt : W64 := 0                    -- die-0 count at which the last granted core has run R19
  scope : Nat := 0
  entryTask : Option Nat := none
  wdFrom : W64 := 0                     -- die-0 count the watchdog counts from
  stage1 : Bool := false
  stage2 : Bool := false
  status : LStatus := .ok
  err : Option W64 := none
  dlost : Bool := false
  voids : Nat := 0
  tteage : W32 := 4096
  bfcfg : W64 := 0x4000000000
  bftab : W64 := 0
  snapcfg : W64 := 0
  ftgcfg : W64 := 0
  ftgUsed : Bool := false
deriving DecidableEq, Repr

/-- What a ticketed operation does when it is applied (R297, R300, R303, R442). -/
inductive TOp where
  | write (bytes : List (Nat × Byte))
  | acc (op : AccOp) (pa : Nat) (v : W64)
  | cas (size pa : Nat) (cmp new : W64)
  | zero
  | node (id : W32) (op : NsOp)
deriving DecidableEq, Repr

/-- A record of a Basin that is in use (R430); `owner` is the endpoint and the launch it was allocated to (R432), `bad`
that it holds an uncorrectable error (R485). -/
structure NodeRec where
  n : W32 := 0
  vl : BitVec 16 := 0
  exp : Bool := false
  term : Bool := false
  uf : BitVec 8 := 0
  w : W64 := 0
  parent : W32 := 0xFFFFFFFF
  first : W32 := 0xFFFFFFFF
  nch : BitVec 16 := 0
  p : BitVec 16 := 0
  user : W32 := 0
  owner : Nat × Nat
  bad : Bool := false
deriving DecidableEq, Repr

/-- A node operation on a local identifier that has been issued and is not done (R435, R442): its issuer, its operation,
the entry it pushes, the issue index of a ticketed one; once a walk has begun, where it stands (R436). -/
structure NodeOp where
  id : Nat
  task : Nat
  launch : Nat
  core : Nat
  node : W32
  op : NsOp
  pend : Option Nat := none
  tick : Option Nat := none
  begun : Bool := false
  cur : W32
  neg : Bool := false
  visited : Nat := 0
  fin : Option W64 := none          -- applied, its record written (R438): the value that lands in a later cycle
  fork : Fork := {}                 -- what comes before it (R111)
deriving DecidableEq, Repr

/-- A ticketed operation that waits at a commit buffer (R303) or, by stack 8 and 9, at a node commit stage (R442): its
home stack, scope, ticket, issue index, element, and the command and task it is of. `peer` names the origin, the fabric
group and the wave of a remote one (R329), whose `cmd` is its stream's Weir entry and `task` its number there. -/
structure CbOp where
  stack : Nat
  scope : Nat
  ticket : W64
  idx : Nat
  elem : Nat
  cmd : Nat
  task : Nat
  op : TOp
  peer : Option (Nat × Nat × Nat) := none   -- origin, fabric group, wave
deriving DecidableEq, Repr

/-- A stream of this package (R323, R324). -/
structure Strm where
  task : Nat
  slot : Nat
  ep : Nat
  core : Nat := 0
  next : Nat := 0
  unacked : List Nat := []
  mine : List (Nat × List (Nat × Nat)) := []   -- those of S- and V-slot stores, with the bytes they write (R112, R115)
  holes : List Nat := []
  failed : Bool := false
  closing : Bool := false          -- CLOSE has been sent; the slot is UNBOUND
  dying : Bool := false            -- its task has ended; CLOSE follows its last command (R195, R323)
deriving DecidableEq, Repr

/-- A Weir entry (R325): expected number, messages held, voids, the numbers of ticketed messages that no group of this
package admits (R327), and of what it has refused the number, the subcode and the offset, for its sender may ask again. -/
structure Weir where
  x : Nat := 0
  held : List StreamMsg := []
  voids : List Nat := []
  refused : List Nat := []
  errs : List (Nat × Nat × Nat) := []
  closeId : Nat := 0                    -- the name of its CLOSE, once that has arrived
deriving DecidableEq, Repr

/-- What the answer of a remote access is for (R99, R117, R283). -/
inductive ReqKind where
  | scal (task id size : Nat) (u acq : Bool) (scope : Scope)
  | row (task id : Nat) (mask : W64) (base : VReg)
  | word (task id size core : Nat) (e : Bool) (cmd : Nat)
  | copySrc (core : Nat) (e : Bool) (cmd : Nat)
  | half (core h : Nat)
  | node (task id core off : Nat) (sp : Bool)
deriving DecidableEq, Repr

/-- An outstanding request to another package. -/
structure Req where
  dst : Nat
  addr : W64
  launch : Nat
  kind : ReqKind
deriving DecidableEq, Repr

/-- A message formed for another package: sealed ones wait for their acknowledgement (R317). `at_` is the cycle of its
last sending, `accepted` that its home holds it (R328, R331). -/
structure OutMsg where
  dst : Nat
  msg : Msg
  task : Nat
  addr : W64
  id : Nat := 0
  tries : Nat := 0
  at_ : W64 := 0
  half : BitVec 1 := 0
  accepted : Bool := false
deriving DecidableEq, Repr

/-- A sending direction (R315, R316): its epoch, next counter, whether a key is installed, rekey requested, stopped. -/
structure SendDir where
  epoch : BitVec 4 := 0
  ctr : Nat := 0
  key : Option (List Byte) := none
  rekey : Bool := false
  stopped : Bool := false
deriving DecidableEq, Repr

/-- A receiving direction (R317): current epoch, whether a previous one stands, its key, the accepted counters of each, and
the flits accepted of messages that are not complete, by message, sending and place. -/
structure RecvDir where
  epoch : BitVec 4 := 0
  key : Option (List Byte) := none
  prev : Option (BitVec 4) := none
  keyPrev : Option (List Byte) := none
  seen : List Nat := []
  seenPrev : List Nat := []
  part : List (Nat × Nat × Nat) := []
deriving DecidableEq, Repr

/-- A collective instance issued at this package (R337-R344, R462-R465). -/
structure Coll where
  key : CollKey
  inst : Nat
  task : Nat
  launch : Nat
  core : Nat
  cmd : Option (Bool × Nat) := none     -- its command; none for GSSAMP
  src : W64 := 0
  dst : W64 := 0
  sync : Option Nat := none
  pos : List W32 := []                  -- GSSAMP: positions of the rows
  seed : W64 := 0
  vlo : W32 := 0
  vn : Nat := 0
  lstr : Nat := 0
  pass : Option (Nat × Nat) := none     -- GSSAMP: group and pass
  fork : Fork := {}                     -- what comes before its reads (R111)
  started : Bool := false               -- its contributions have been formed
  farFault : Bool := false              -- another member's logit reads have faulted (R464)
  dests : List Nat := []                -- destinations of the records dispatched (R342)
  got : SMap (CollKey × List Byte) := [] -- contributions by member endpoint
  dones : SMap Nat := []                -- DONE by member, with its absent rows
  wrote : Bool := false                 -- its DST writes are performed, DONE is sent
  fin : Bool := false
  bits : BitVec 10 := 0                 -- status bits 9:0 (R340)
  rows : Nat := 0
  absent : Nat := 0
deriving DecidableEq, Repr

/-- A log entry (R488): none for what the manual does not name of the event. -/
structure LogE where
  acyc : W64
  kind : Option Nat
  core : Nat
  ctx : Nat
  src : Option Nat
  addr : Option W64
  info : Option W64
deriving DecidableEq, Repr

/-- A log of a die (R488): its newest 1,024 entries, newest first, and the count of all. -/
structure Log where
  es : List LogE := []
  n : Nat := 0
deriving DecidableEq, Repr

/-- The fabric engine (R313-R347). -/
structure Fab where
  ep : Nat := 0
  domHi : Nat := 0
  nplane : Nat := 0
  up : W32 := 0                         -- stations whose link is up
  rr : Nat := 0                         -- next station
  unreach : List Nat := []              -- endpoints unreachable from here (R318)
  sends : SMap SendDir := []
  recvs : SMap RecvDir := []
  out : List OutMsg := []               -- formed, not yet sealed
  sent : List OutMsg := []              -- sealed, not acknowledged
  wire : List (Nat × Nat × Flit) := []  -- what has left: station, destination, the flit that completes the message
  strms : SMap Strm := []
  weir : SMap Weir := []                -- by source endpoint × 65,536 + stream number
  gone : SMap (Nat × List (Nat × Nat × Nat)) := []  -- streams closed here, likewise: the name of the CLOSE, what was refused
  reqs : SMap Req := []
  retry : List OutMsg := []             -- refused ticketed messages awaiting their resend, since `at_` (R330)
  closedTo : List (Nat × Nat × Nat) := []   -- WAVEDONE received: group, peer, wave (R329)
  doneSent : List (Nat × Nat) := []     -- last WAVEDONE sent: group, wave (R328)
  ranges : SMap (Nat × Nat) := []       -- LO and HI of a group whose launch here has completed, by its ID (R329)
  errResp : List (Nat × BitVec 1) := [] -- error responses to UALink requests, by endpoint and half (R314)
  colls : List Coll := []
  early : List CollMsg := []            -- collective messages that arrived before the instance was issued here
  past : List (CollKey × Nat) := []     -- instances that have ended here, by number (R337)
  ncoll : SMap Nat := []                -- instances issued here by CID
  expect : List ((Nat × Nat) × List (Nat × Nat)) := []  -- TOKEN and SLOT dispatched, by launch and round (R342)
  fifoIds : SMap Nat := []              -- last FIFO message delivered, by (source endpoint × 512 + source core) × 512 + destination core
  lendU : SMap Nat := []                -- bytes received by half × 1,024 + source in the window (R331)
  limit : SMap Nat := []                -- receive limits by half × 1,024 + source
  mine : SMap Nat := []                 -- limits this sender holds, by half × 1,024 + destination
deriving DecidableEq, Repr

/-- States of a page (R354). -/
inductive PgState where
  | absent | resident | cold | filling | revoked
deriving DecidableEq, Repr

/-- A page-map entry (R354): `slot` is the flash slot of a COLD or FILLING page; `frame` the frame of a RESIDENT page
and of a FILLING one that has taken it; a pending eviction's flash and header slots and whether a KVST has been applied
since it began (R370); `dead` that REF fell to 0 meanwhile. -/
structure PgEntry where
  st : PgState := .absent
  hdc : Nat := 0
  frame : Option Nat := none
  slot : Nat := 0
  hslot : Nat := 0
  ref : Nat := 0
  evict : Option (Nat × Nat × Bool) := none
  dead : Bool := false
deriving DecidableEq, Repr

/-- A page set that is not FREE (R371): the handles it lists, those it counted, its pins, and why its build fails. -/
structure PageSet where
  live : Bool := false
  hdc : Nat
  handles : List Nat := []
  counted : List Nat := []
  sref : Nat := 1
  pins : Nat := 0
  fail : Option (Nat × W64) := none
  cmd : Nat := 0                        -- the command that builds it
  holder : Option Nat := none           -- task record of its first reference
deriving DecidableEq, Repr

/-- The page engines and the flash pager (R349-R378). The map is keyed by handle. -/
structure Pages where
  mapn : Nat := 0
  frames : Nat := 0                     -- frames of each die
  fslots : Nat := 0
  hslots : Nat := 0
  base0 : Nat := 0
  base1 : Nat := 0
  hbase : Nat := 0                      -- header-slot region
  mbase : Nat := 0                      -- page-map region
  map : SMap PgEntry := []
  used0 : List Nat := []                -- frames taken, rising
  used1 : List Nat := []
  usedS : List Nat := []                -- flash slots taken, rising
  usedH : List Nat := []                -- header slots taken, rising
  flash : Memory := []                  -- slot × 0x9000 + offset
  demand : List Nat := []               -- queued fills, by handle
  pre : List Nat := []
  filling : Option Nat := none          -- the fill in progress
  sets : SMap PageSet := []
deriving DecidableEq, Repr

/-- What a phaser operation does when it is applied (R417). -/
inductive PhAct where
  | reg (m : PhMode)
  | drop
  | arrive
  | brk                                 -- a member has been killed (R420)
deriving DecidableEq, Repr

/-- A phaser operation that has been sent (R417): the cycle it is applied in, the issuing core, the phaser, the task. -/
structure PhOp where
  due : W64
  src : Nat
  core : Nat
  n : Nat
  task : Nat
  act : PhAct
deriving DecidableEq, Repr

/-- A generation operation that has been sent (R446): the cycle it arrives in, the issuing core and task, the group
table entry of its instance. -/
structure GsOp where
  due : W64
  core : Nat
  task : Nat
  inst : Nat
  act : GsAct
deriving DecidableEq, Repr

/-- A pass (R450-R453): its number among the instance's openings, the captured assumption word, whether it is
speculative, its bucket with its ENTRY, the captured OCC and DLEN, the acceptance, the participants that joined it and
ended it, and the highest layer each has reported. -/
structure Pass where
  k : Nat
  word : W64
  aspec : Bool
  bkt : Option Nat
  entry : W64
  occ : Nat
  dlen : Nat
  acc : Option (Nat × W32) := none
  drained : Bool
  closed : Bool := false
  joined : List Nat := []
  ended : List Nat := []
  marks : SMap Nat := []
deriving DecidableEq, Repr

/-- A GSQ instance (R446): its buckets, registers, enrolled participants with the starts each has made, its pass table,
newest first, and the passes opened so far. -/
structure Gsq where
  buckets : Vector (Option Bucket) 16 := Vector.replicate 16 none
  occ : Nat := 1
  dlen : Nat := 0
  seed : W64 := 0
  npart : Nat := 1
  parts : SMap Nat := []
  passes : List Pass := []
  opened : Nat := 0
deriving DecidableEq, Repr

/-! ### The device (R471-R494) -/

/-- States of the module (R471). -/
inductive DevMode where
  | off | rough | finalising | ready | tripped
deriving DecidableEq, Repr

/-- A registered region (R479). -/
structure Region where
  idx : Nat
  gen : Nat
  base : W64
  len : Nat
  rd : Bool
  wr : Bool
  hq : Nat
deriving DecidableEq, Repr

/-- What an RDMA request is answered with. -/
inductive RdmaAns where
  | ack
  | data (bs : List Byte)
  | nak
deriving DecidableEq, Repr

/-- Clock and temperature of a die (R492, R494). `part` is the part of a cycle it has run, in MHz of 850. -/
structure DieClk where
  mhz : Nat := 850
  tj : BitVec 8 := 0
  hot : Bool := false
  cap : Bool := false
  part : Nat := 0
deriving DecidableEq, Repr

/-- SNAPSEQ of a die, the count at which its capture in progress ends, and what that capture has latched (R483, R494). -/
structure SnapSt where
  seq : W32 := 0
  drop : W32 := 0
  busy : Option W64 := none
  words : List W64 := []
deriving DecidableEq, Repr

/-- The module as the host sees it: its state, queue pairs (the established ones, the management one, whether there has
been one), messages and RDMA answers sent, key-encryption key, power cap, accepted FINALCUT payload, reports made,
regions with the generation of each index, a Final Cut in progress (queue pair, host queue, MSGID, step), the commands
that wait for it, station delays and DSW. -/
structure Dev where
  mode : DevMode := .off
  qps : List Nat := []
  mqp : Option Nat := none
  mqpSeen : Bool := false
  sent : List (Nat × List Byte) := []
  rdma : List (Nat × RdmaAns) := []
  kek : Option (List Byte) := none
  pwrcap : Nat := 1900
  payload : Option (List Byte) := none
  attests : Nat := 0
  regions : List Region := []
  gens : SMap Nat := []
  fc : Option (Nat × Nat × W32 × Nat) := none
  waiting : List (Instr × Ev) := []
  port1 : Bool := false
  delays : List Nat := []
  dsw : Nat := 0
  clk : Vector DieClk 2 := Vector.replicate 2 {}
  snaps : Vector SnapSt 2 := Vector.replicate 2 {}
deriving DecidableEq, Repr

/-- The state of the module. -/
structure State where
  agenda : List (Instr × Ev) := []     -- steps that move next, with their operands (the model's own)
  ev : Ev := {}                        -- operands of the step without a word that executes
  cur : Option Nat := none             -- the issuing task
  latch : Option Latch := none
  fresh : Nat := 0                     -- counter for free values and names (the model's own)
  cores : SMap Core := []
  ctxs : SMap Context := []            -- contexts by task record
  ctlb : SMap (List TlbE) := []        -- cluster TLBs (R97)
  mem : Memory := []                   -- HBM by physical address (R91)
  dir : SMap DirSt := []               -- LLC directory by line (R118); unlisted lines are I
  acyc : Vector W64 2 := Vector.replicate 2 0   -- ACYC of each die (R159)
  tasks : SMap Task := []              -- task records that are or were in use (R379)
  taken : Nat := 0                     -- records taken since Final Cut (R389)
  ends : Nat := 0                      -- ends of tasks so far
  scopes : SMap TScope := []
  launches : SMap Launch := []
  nlaunch : Nat := 0
  batches : SMap Batch := []
  cb : List CbOp := []                 -- commit buffers and node commit stages (R303, R442)
  fab : Fab := {}
  viol : Vector Log 2 := Vector.replicate 2 {}
  ras : Vector Log 2 := Vector.replicate 2 {}
  rascnt : Vector (Nat × Nat) 2 := Vector.replicate 2 (0, 0)   -- corrected, uncorrected (R494)
  poison : List Nat := []              -- poisoned 128-byte granules (R486)
  root : Vector W64 64 := Vector.replicate 64 0      -- translation root of each host queue (R96, R476)
  prio : Vector W32 64 := Vector.replicate 64 0      -- priority of each host queue
  exproot : W64 := 0                   -- R90
  recBase : W64 := 0                   -- base of the task records (R379, R477)
  pg : Pages := {}
  gtab : SMap (BitVec 320) := []       -- package group table: members by entry (R412)
  phops : List PhOp := []              -- phaser operations sent and not applied
  basin : Vector (SMap NodeRec) 2 := Vector.replicate 2 []   -- records in use of each die by index (R430)
  nops : List NodeOp := []             -- local node operations not done, in issue order (R435)
  gsq : SMap Gsq := []                 -- generation instances by group table entry (R446)
  gsops : List GsOp := []              -- generation operations sent and not applied
  dev : Dev := {}
deriving DecidableEq, Repr

/-- The module as power reaches it: OFF, every register at its reset value, memory and flash unlisted (R471). -/
def State.reset : State := {}

end Sys2Proof.Machine
end

