-- ==== Sys2Proof/Machine/Base.lean ====
section
/-!
DEFINITION. Plain operations on the parts of the state: sparse maps, bytes of memory, cores and contexts, the count of
ACLK cycles, and the causes of R148.
-/

namespace Sys2Proof.Machine

/-! ### Sparse maps and bytes -/

/-- The value at a key. -/
def look {α : Type} : SMap α → Nat → Option α
  | [], _ => none
  | (a, v) :: r, k => if a = k then some v else look r k
/-- Sets the value at a key, keeping the keys rising. -/
def put {α : Type} : SMap α → Nat → α → SMap α
  | [], k, v => [(k, v)]
  | (a, w) :: r, k, v => if k < a then (k, v) :: (a, w) :: r else if a = k then (k, v) :: r else (a, w) :: put r k v
/-- Removes a key. -/
def del {α : Type} (m : SMap α) (k : Nat) : SMap α := m.filter fun p => p.1 != k

/-- The byte at an address; an unlisted address reads as zero. -/
def rd8 : Memory → Nat → Byte
  | [], _ => 0
  | (a, v) :: r, k => if a = k then v else rd8 r k
/-- Writes a byte; writing zero removes the entry. -/
def wr8 : Memory → Nat → Byte → Memory
  | [], k, v => if v = 0 then [] else [(k, v)]
  | (a, w) :: r, k, v =>
    if k < a then (if v = 0 then (a, w) :: r else (k, v) :: (a, w) :: r)
    else if a = k then (if v = 0 then r else (k, v) :: r)
    else (a, w) :: wr8 r k v
/-- The canonical form: addresses strictly rising from `lo`, no zero byte listed. -/
def wfFrom : Nat → Memory → Bool
  | _, [] => true
  | lo, (a, v) :: r => decide (lo ≤ a) && v != 0 && wfFrom (a + 1) r
/-- The memory is in canonical form. -/
def Mem.wf (m : Memory) : Bool := wfFrom 0 m
/-- Writes a list of bytes in order. -/
def wrBytes (m : Memory) (bs : List (Nat × Byte)) : Memory := bs.foldl (fun m p => wr8 m p.1 p.2) m
/-- n bytes from an address. -/
def rdBytes (m : Memory) (a : Nat) : Nat → List Byte
  | 0 => []
  | n + 1 => rd8 m a :: rdBytes m (a + 1) n
/-- The little-endian number of bytes (R3). -/
def leNat : List Byte → Nat
  | [] => 0
  | b :: r => b.toNat + 256 * leNat r
/-- The n low bytes of a number, least significant first (R3). -/
def leBytes (v : Nat) : Nat → List Byte
  | 0 => []
  | n + 1 => BitVec.ofNat 8 v :: leBytes (v / 256) n
/-- Bytes placed from an address on. -/
def place (a : Nat) : List Byte → List (Nat × Byte)
  | [] => []
  | b :: r => (a, b) :: place (a + 1) r
/-- The bytes of a 64-lane row, lane 0 first (R216). -/
def rowBytes (v : VReg) : List Byte := v.toList.flatMap fun x => leBytes x.toNat 4
/-- The lane value of four bytes. -/
def laneOf (bs : List Byte) : W32 := BitVec.ofNat 32 (leNat bs)
/-- Inserts a number into a rising list without repeats. -/
def insN : List Nat → Nat → List Nat
  | [], k => [k]
  | a :: r, k => if k < a then k :: a :: r else if a = k then a :: r else a :: insN r k

/-- Inserts an element ahead of the first that it may stand before. -/
def insBy {α : Type} (before : α → α → Bool) (a : α) : List α → List α
  | [] => [a]
  | b :: r => if before a b then a :: b :: r else b :: insBy before a r
/-- A list put in order. -/
def sortBy {α : Type} (before : α → α → Bool) (l : List α) : List α := l.foldr (insBy before) []

/-! ### Cores, contexts, the issuing context -/

/-- The die of a core (R11). -/
def dieOf (c : Nat) : Fin 2 := if c < 160 then 0 else 1
/-- The state of a core. -/
def State.core (s : State) (c : Nat) : Core := (look s.cores c).getD {}
/-- Sets the state of a core. -/
def State.setCore (s : State) (c : Nat) (v : Core) : State := { s with cores := put s.cores c v }
/-- Changes the state of a core. -/
def State.modCore (s : State) (c : Nat) (f : Core → Core) : State := s.setCore c (f (s.core c))
/-- The context of a task. -/
def State.ctx? (s : State) (t : Nat) : Option Context := look s.ctxs t
/-- Sets the context of a task. -/
def State.setCtx (s : State) (t : Nat) (x : Context) : State := { s with ctxs := put s.ctxs t x }
/-- Changes the context of a task, where it has one. -/
def State.modCtx (s : State) (t : Nat) (f : Context → Context) : State :=
  match s.ctx? t with
  | some x => s.setCtx t (f x)
  | none => s
/-- Changes the latch of the issuing bundle. -/
def State.modLatch (s : State) (f : Latch → Latch) : State := { s with latch := s.latch.map f }
/-- The next name for a free value or an outstanding operation. -/
def State.tick (s : State) : State := { s with fresh := s.fresh + 1 }

/-- Adds a step that moves after those already due. -/
def State.due (s : State) (i : Instr) (e : Ev) : State := { s with agenda := s.agenda ++ [(i, e)] }
/-- One of several free resources: which one the manual leaves open (log entry 4). -/
def pickOf (s : State) (l : List Nat) : Option Nat := if l.isEmpty then none else l[Config.pick s.fresh % l.length]?

/-- Why a meaning does not complete: it takes a trap, holds its bundle back, or stops the machine. -/
inductive Stop where
  | trap (c : Cause)
  | hold
  | fault (f : Fault)
deriving DecidableEq, Repr

/-- The result of a meaning's body. -/
abbrev Res (α : Type) := Except Stop α

/-- The issuing task and its context as the bundle found it (R36, R39, R113). -/
def State.issuer (s : State) : Res (Nat × Context) :=
  match s.cur with
  | none => .error (.fault .noContext)
  | some t =>
    match s.latch with
    | some l => .ok (t, l.ctx)
    | none =>
      match s.ctx? t with
      | some x => .ok (t, x)
      | none => .error (.fault .noContext)

/-- Position of the executing slot in its bundle; zero for a slot executed alone. -/
def State.pos (s : State) : Nat := (s.latch.map (·.pos)).getD 0

/-! ### Causes (R146, R148) -/

/-- Codes of R148. -/
def cIllegal : Nat := 0x01
/-- R148. -/
def cIndex : Nat := 0x02
/-- R148. -/
def cMemory : Nat := 0x03
/-- R148. -/
def cExposed : Nat := 0x04
/-- R148. -/
def cCqEmpty : Nat := 0x05
/-- R148. -/
def cCqFull : Nat := 0x06
/-- R148. -/
def cLandFull : Nat := 0x07
/-- R148. -/
def cSoft : Nat := 0x08
/-- R148. -/
def cOperand : Nat := 0x09
/-- R148. -/
def cPriv : Nat := 0x0A
/-- R148. -/
def cFetch : Nat := 0x0B
/-- R148. -/
def cDataEcc : Nat := 0x0C
/-- R148. -/
def cCopy : Nat := 0x0D
/-- R148. -/
def cPhaser : Nat := 0x0E
/-- R148. -/
def cFabric : Nat := 0x0F
/-- R148. -/
def cMatrix : Nat := 0x10
/-- R148. -/
def cTask : Nat := 0x11
/-- R148. -/
def cGen : Nat := 0x12
/-- R148. -/
def cStats : Nat := 0x13

/-- The place of a cause in the reporting order of R146; the engine causes stand after SOFTTRAP in code order. -/
def causeRank (code : Nat) : Nat :=
  match code with
  | 0x0B => 0 | 0x01 => 1 | 0x02 => 2 | 0x04 => 3 | 0x0A => 4 | 0x07 => 5 | 0x05 => 6 | 0x06 => 7 | 0x09 => 8
  | 0x03 => 9 | 0x0C => 10 | 0x08 => 11 | n => n

/-- The subcodes of R101; `ecc` stands for a translation table that holds an uncorrectable error (R486). -/
inductive MM where
  | addr | align | window | spbound | unreach | notmapped | malformed | perm | race | ecc
deriving DecidableEq, Repr
/-- Subcode number (R101); 16 stands for an uncorrectable error. -/
def MM.code : MM → Nat
  | .addr => 1 | .align => 2 | .window => 3 | .spbound => 4 | .unreach => 5 | .notmapped => 6 | .malformed => 7
  | .perm => 8 | .race => 9 | .ecc => 16
/-- The COPY subcode of an engine access that fails so (R292, R293). -/
def MM.eng (m : MM) : Nat := if m = .ecc then 0x13 else m.code
/-- What a failed check raises for an S- or V-slot access: MEMORY, or DATAECC (R101, R148, R486). -/
def mmCause (m : MM) (addr : W64) (aux : Nat := 0) : Cause :=
  if m = .ecc then { code := cDataEcc, sub := 4, addr := addr } else { code := cMemory, sub := m.code, addr := addr, aux := aux }

/-- Raises a cause. -/
def trapWith {α : Type} (code : Nat) (sub : Nat := 0) (info addr : W64 := 0) : Res α :=
  .error (.trap { code := code, sub := sub, info := info, addr := addr })
/-- Raises what a failed check raises (R101). -/
def memTrap {α : Type} (m : MM) (addr : W64) : Res α := .error (.trap (mmCause m addr))
/-- Raises OPERAND with the opcode as subcode and the offending value in INFO (R148, R149). -/
def operand {α : Type} (op : Nat) (info : W64) : Res α := trapWith cOperand op info
/-- Requires a condition. -/
def need (b : Bool) (e : Res Unit) : Res Unit := if b then .ok () else e

end Sys2Proof.Machine
end

