-- ==== Sys2Proof/Machine/Operands.lean ====
section
/-!
DEFINITION. Operand forms: guards and lane masks (R30, R31, R198, R199), selectors of both files (R32-R35), queue
entries with their write windows (R129, R135), the checks every slot makes before it acts, in the order of R146, and
the pushes of results (R36, R136).
-/

namespace Sys2Proof.Machine

/-! ### Result queues (R129, R135, R136) -/

/-- Entry n of a ring lies n places behind the head. -/
def slotOf (h : Fin 16) (n : BitVec 4) : Fin 16 := h - n.toFin
/-- The head of a queue. -/
def Frame.head (f : Frame) : Qn → Fin 16
  | .s => f.qs.head
  | .a => f.qa.head
  | .b => f.qb.head
/-- The value a physical slot holds, landed pushes aside. -/
def Frame.slot (f : Frame) (q : Qn) (i : Fin 16) : QVal :=
  match q with
  | .s => .s f.qs.slots[i]
  | .a => .v f.qa.slots[i]
  | .b => .v f.qb.slots[i]
/-- The pending pushes of one slot that a later landing has not displaced, newest first. -/
def Frame.pendOf (f : Frame) (q : Qn) (i : Fin 16) : List Pend :=
  f.pend.filter fun p => p.q == q && p.slot == i && !p.dead
/-- Context cycles left of the write window of an entry (R135); zero outside it. -/
def Frame.rem (f : Frame) (cc : Nat) (q : Qn) (n : BitVec 4) : Nat :=
  match f.pendOf q (slotOf (f.head q) n) with
  | [] => 0
  | p :: _ => p.land - cc
/-- What a read of an entry returns at context cycle cc (R129): the newest push of its slot that has passed its landing
cycle, else what the slot held; none while that value has not arrived (R99). -/
def Frame.entry (f : Frame) (cc : Nat) (q : Qn) (n : BitVec 4) : Option QVal :=
  let i := slotOf (f.head q) n
  match (f.pendOf q i).find? (fun p => p.land ≤ cc) with
  | some p => p.val
  | none => some (f.slot q i)
/-- Pending results (R136). -/
def Frame.pending (f : Frame) (cc : Nat) : Nat := (f.pend.filter fun p => cc < p.land || p.val.isNone).length

/-- Advances the head of a queue. -/
def Frame.bump (f : Frame) : Qn → Frame
  | .s => { f with qs := { f.qs with head := f.qs.head + 1 } }
  | .a => { f with qa := { f.qa with head := f.qa.head + 1 } }
  | .b => { f with qb := { f.qb with head := f.qb.head + 1 } }
/-- A push (R36, R129): the head advances and the entry is pending until it lands. -/
def Frame.push (f : Frame) (q : Qn) (land : Nat) (v : Option QVal) (id : Nat) : Frame :=
  let g := f.bump q
  { g with pend := { q := q, slot := g.head q, land := land, val := v, id := id, dead := false } :: g.pend }
/-- Writes a landed value into its slot. -/
def Frame.store (f : Frame) (q : Qn) (i : Fin 16) : QVal → Frame
  | .s v => match q with
    | .s => { f with qs := { f.qs with slots := f.qs.slots.set i v } }
    | _ => f
  | .v x => match q with
    | .s => f
    | .a => { f with qa := { f.qa with slots := f.qa.slots.set i x } }
    | .b => { f with qb := { f.qb with slots := f.qb.slots.set i x } }
/-- Lands one pending result if it is due and has arrived; older pending pushes of its slot are displaced (R36). -/
def landOne (cc : Nat) (p : Pend) (r : Frame) : Frame :=
  match p.val with
  | some v =>
    if p.land ≤ cc then
      let r := if p.dead then r else r.store p.q p.slot v
      { r with pend := r.pend.map fun o => if o.q == p.q && o.slot == p.slot then { o with dead := true } else o }
    else { r with pend := p :: r.pend }
  | none => { r with pend := p :: r.pend }
/-- Lands every result that is due and has arrived, oldest first (R129). -/
def Frame.land (f : Frame) (cc : Nat) : Frame := f.pend.foldr (landOne cc) { f with pend := [] }
/-- The value of a pending result arrives (R99). -/
def Frame.arrive (f : Frame) (id : Nat) (v : QVal) : Frame :=
  { f with pend := f.pend.map fun p => if p.id == id && p.val.isNone then { p with val := some v } else p }

/-! ### Guards and masks -/

/-- The scalar guard of an operand-form slot (R30). -/
def gTrue (g : Guard) (x : Context) : Bool := x.fr.ps.getLsbD g.p.toNat != g.inv
/-- The scalar guard of an immediate-form slot (R30). -/
def gOn (g : BitVec 3) (x : Context) : Bool := x.fr.ps.getLsbD g.toNat
/-- The result queue of a cluster. -/
def cluQ : Clu → Qn
  | .a => .a
  | .b => .b
/-- The top of a cluster's mask stack; all ones at depth 0 (R198). -/
def topMask (x : Context) : Clu → W64
  | .a => x.fr.ma.headD (BitVec.allOnes 64)
  | .b => x.fr.mb.headD (BitVec.allOnes 64)
/-- A lane predicate of a cluster. -/
def lanePred (x : Context) (c : Clu) (p : BitVec 3) : W64 :=
  match c with
  | .a => x.fr.pa[p.toFin]
  | .b => x.fr.pb[p.toFin]
/-- The lane mask of a vector slot (R198). -/
def laneMask (x : Context) (c : Clu) (g : Guard) : W64 :=
  (if g.inv then ~~~(lanePred x c g.p) else lanePred x c g.p) &&& topMask x c

/-! ### Named registers -/

/-- k register r; a dead register reads as zero (R133). -/
def Context.kReg (x : Context) (r : Nat) : W64 := if x.liveK.getLsbD r then x.k.getD r 0 else 0
/-- A register of a cluster's file; a dead register reads as zero (R133). -/
def Context.vReg (x : Context) (c : Clu) (r : Nat) : VReg :=
  match c with
  | .a => if x.liveA.getLsbD r then x.va.getD r VReg.zero else VReg.zero
  | .b => if x.liveB.getLsbD r then x.vb.getD r VReg.zero else VReg.zero
/-- The index register of a cluster. -/
def Context.xv (x : Context) : Clu → W32
  | .a => x.fr.xa
  | .b => x.fr.xb
/-- The declared registers of a file (R20). -/
def Context.declared (x : Context) : File3 → Nat
  | .k => x.nks
  | .va => x.nva
  | .vb => x.nvb

/-- What a slot reads or writes through a selector: a scalar or vector selector, a destination of PUT or VPUT, or a
register of a cluster named directly (VXMOV). -/
inductive Opd where
  | s (a : SSel)
  | v (c : Clu) (a : VSel)
  | d (a : KDst)
  | vd (c : Clu) (a : VDst)
  | vr (c : Clu) (r : BitVec 5)
deriving DecidableEq, Repr

/-- The file of a cluster's named registers. -/
def cluF : Clu → File3
  | .a => .va
  | .b => .vb
/-- The named register an operand resolves to (R34), with its file. -/
def Opd.reg (x : Context) : Opd → Option (File3 × Int)
  | .s (.k r) | .d (.k r) => some (.k, r.toNat)
  | .s (.kx j) | .d (.kx j) => some (.k, x.fr.xs.toInt + j.toNat)
  | .v c (.v r) | .vd c (.v r) | .vr c r => some (cluF c, r.toNat)
  | .v c (.vx j) | .vd c (.vx j) => some (cluF c, (x.xv c).toInt + j.toNat)
  | _ => none
/-- The queue entry an operand reads, with its selector code. -/
def Opd.entry? : Opd → Option (Qn × BitVec 4 × Nat)
  | .s (.q n) => some (.s, n, n.toNat)
  | .v c (.q n) => some (cluQ c, n, n.toNat)
  | .v .a .xq => some (.b, 0, 61)
  | .v .b .xq => some (.a, 0, 61)
  | .v _ .sq => some (.s, 0, 62)
  | _ => none

/-! ### Checks before a slot acts, in the order of R146 -/

/-- INDEX of one operand (R34). -/
def idxStop (x : Context) (o : Opd) : Option Stop :=
  match o.reg x with
  | some (f, r) =>
    if 0 ≤ r ∧ r < x.declared f then none
    else some (.trap { code := cIndex, info := BitVec.ofInt 64 r })
  | none => none
/-- EXPOSED of one operand in check mode (R135, R149). -/
def expoStop (pos : Nat) (x : Context) (o : Opd) : Option Stop :=
  match o.entry? with
  | some (q, n, code) =>
    let r := x.fr.rem x.ccyc q n
    if x.expchk && r != 0 then
      some (.trap { code := cExposed, info := BitVec.ofNat 64 (pos % 8 + code * 2 ^ 8 + (r % 256) * 2 ^ 16) })
    else none
  | none => none
/-- An operand whose value has not arrived holds its bundle (R99). -/
def heldStop (x : Context) (o : Opd) : Option Stop :=
  match o.entry? with
  | some (q, n, _) => if (x.fr.entry x.ccyc q n).isNone then some .hold else none
  | none => none
/-- The limit of pending results (R136). -/
def landLimit (x : Context) : Nat := if x.trapMode then 8 else 24
/-- LANDFULL (R136): the entries of the whole bundle count. -/
def roomStop (s : State) (x : Context) (n : Nat) : Option Stop :=
  let tot := (s.latch.map (·.total)).getD n
  if n != 0 && decide (landLimit x < x.fr.pending x.ccyc + tot) then some (.trap { code := cLandFull }) else none
/-- A pop of an empty count queue (R38), by an X or an M slot too, whose lists in R247 and R277 do not name it (log entry 87). -/
def cqStop (s : State) (x : Context) (on : Bool) (os : List Opd) : Option Stop :=
  if on && os.contains (.s .cq) && (s.core x.core).cq.isEmpty then some (.trap { code := cCqEmpty }) else none
/-- A pop of an empty receive FIFO holds the bundle (R38). -/
def finStop (s : State) (x : Context) (on : Bool) (os : List Opd) : Option Stop :=
  if on && os.contains (.s .fin) && (s.core x.core).rx.isEmpty then some .hold else none
/-- The register block an operand reads, where the register is live (R132). -/
def Opd.reads (x : Context) (o : Opd) : Option RcBlock :=
  match o with
  | .d _ | .vd _ _ => none
  | o =>
    match o.reg x with
    | some (.k, r) => if x.liveK.getLsbD r.toNat then some .k else none
    | some (.va, r) => if x.liveA.getLsbD r.toNat then some (.va (BitVec.ofInt 5 r)) else none
    | some (.vb, r) => if x.liveB.getLsbD r.toNat then some (.vb (BitVec.ofInt 5 r)) else none
    | none => none
/-- DATAECC of a register block an operand reads (R148, R485). -/
def rcStop (s : State) (x : Context) (os : List Opd) : Option Stop :=
  let bad := (s.core x.core).rcBad
  if bad.isEmpty then none
  else if os.any fun o => ((o.reads x).map fun b => bad.any fun p => s.cur == some p.1 && p.2 == b).getD false then
    some (.trap { code := cDataEcc, sub := 1 })
  else none
/-- Every check a slot makes on its operands and pushes, first failure first (R146). `on` says whether its guard is true (for
a vector slot, in some lane), `n` how many entries it pushes, `priv` whether it raises PRIV. In a bundle DATAECC of a
register block comes behind the causes of the slot's own effect (`runSlot`); a slot executed alone takes it here. -/
def check (s : State) (x : Context) (on : Bool) (os : List Opd) (n : Nat) (priv : Bool := false) : Option Stop :=
  (os.findSome? (idxStop x)).or <|
  (os.findSome? (expoStop s.pos x)).or <|
  (if priv then some (.trap { code := cPriv }) else none : Option Stop).or <|
  (roomStop s x n).or <| (cqStop s x on os).or <| (if on && s.latch.isNone then rcStop s x os else none).or <|
  (os.findSome? (heldStop x)).or (finStop s x on os)
/-- `check` as a step of a meaning. -/
def guardOps (s : State) (x : Context) (on : Bool) (os : List Opd) (n : Nat) (priv : Bool := false) : Res Unit :=
  match check s x on os n priv with
  | some e => .error e
  | none => .ok ()
/-- PRIV of a slot class that trap mode does not permit, ahead of its operands (R146, R150). -/
def noTrapMode (x : Context) : Res Unit := need (!x.trapMode) (trapWith cPriv)

/-! ### Operand values -/

/-- The scalar part of a queue value. -/
def QVal.sc : QVal → W64
  | .s a => a
  | .v _ => 0
/-- The vector part of a queue value. -/
def QVal.ve : QVal → VReg
  | .s _ => VReg.zero
  | .v a => a
/-- The scalar entry of an age. -/
def Context.qsAt (x : Context) (n : BitVec 4) : W64 := ((x.fr.entry x.ccyc .s n).map QVal.sc).getD 0
/-- The value a scalar selector reads (R32); codes 59 and 60 deliver zero where the guard is false (R31). -/
def sVal (s : State) (x : Context) (on : Bool) : SSel → W64
  | .q n => x.qsAt n
  | .k r => x.kReg r.toNat
  | .kx j => x.kReg (x.fr.xs.toInt + j.toNat).toNat
  | .zero => 0
  | .one => 1
  | .core => BitVec.ofNat 64 x.core
  | .fin => if on then (s.core x.core).rx.headD 0 else 0
  | .cq => if on then ((s.core x.core).cq.headD 0).setWidth 64 else 0

/-- How an instruction reads the elements of a lane, for codes 57 and 58 (R32, R197); `act` is an activation row, whose
lanes from 32 on hold scales (R256). -/
inductive EF where
  | i32 | i16 | i8 | flt (f : FFmt) | fp8 (e5 : Bool) | mx (f : MxFmt) | act (f : MxFmt)
deriving DecidableEq, Repr
/-- A narrow float code of an integer: exact, or left open. -/
def narrowFlt (k : Nat) (f : Arith.Fmt) (n : Nat) : Nat :=
  let c := Arith.roundFmt f (.fin false n 0)
  if Arith.toInt (f.val c) .rtz = n then c else (Config.narrowConst k n).toNat % 2 ^ f.width
/-- An MX element code of an integer; an element of mxi8 is an s8, an integer format (R75). -/
def mxConst (f : MxFmt) (n : Nat) : Nat :=
  match f with
  | .mxf8 => narrowFlt 0 Arith.e4m3 n
  | .mxf8b => narrowFlt 1 Arith.e5m2 n
  | .mxf4 => narrowFlt 2 Arith.e2m1 n
  | .mxi8 => n % 256
/-- An element in every place of a lane. -/
def spread (w v : Nat) : W32 := BitVec.ofNat 32 ((List.range (32 / w)).foldl (fun a i => a + v % 2 ^ w * 2 ^ (w * i)) 0)
/-- An integer in every element of lane l, converted to the element format (R197). -/
def EF.const (e : EF) (l n : Nat) : W32 :=
  match e with
  | .i32 => BitVec.ofNat 32 n
  | .i16 => spread 16 n
  | .i8 => spread 8 n
  | .flt f => spread (Arith.fmtOf f).width (Arith.roundFmt (Arith.fmtOf f) (.fin false n 0))
  | .fp8 e5 => spread 8 (if e5 then narrowFlt 1 Arith.e5m2 n else narrowFlt 0 Arith.e4m3 n)
  | .mx f => spread (Arith.mxWidth f) (mxConst f n)
  | .act f => if l < 32 then spread (Arith.mxWidth f) (mxConst f n) else BitVec.ofNat 32 n
/-- The element reading of a lane format (R203). -/
def vtyEf : VTy → EF
  | .flt f _ => .flt f
  | .int .w32 _ _ => .i32
  | .int .w16 _ _ => .i16
  | .int .w8 _ _ => .i8
/-- The vector entry of an age of a cluster's queue. -/
def Context.qvAt (x : Context) (q : Qn) (n : BitVec 4) : VReg := ((x.fr.entry x.ccyc q n).map QVal.ve).getD VReg.zero
/-- The queue of the other cluster. -/
def otherQ : Clu → Qn
  | .a => .b
  | .b => .a
/-- The value a vector selector reads (R32, R197). -/
def vVal (x : Context) (c : Clu) (e : EF) : VSel → VReg
  | .q n => x.qvAt (cluQ c) n
  | .v r => x.vReg c r.toNat
  | .vx j => x.vReg c ((x.xv c).toInt + j.toNat).toNat
  | .zero => VReg.zero
  | .one => VReg.of fun l => e.const l 1
  | .lane => VReg.of fun l => e.const l l
  | .xq => x.qvAt (otherQ c) 0
  | .sq => VReg.of fun _ => (x.qsAt 0).setWidth 32

/-! ### Ports of the pool (R121) -/

/-- The rank of a write in R121, the least the highest: a core's own sources S, VA, VB, X, CE0, CE1, Spout, fabric,
generation sequencer stand before its cluster neighbours, whose numbers ascend; within a neighbour its own order stands
(R113). -/
def rankAt (src target own : Nat) : Nat := if src = target then own else 16 * (src + 1) + own
/-- R121. -/
def rkS : Nat := 1
/-- R121. -/
def rkX : Nat := 4
/-- The rank of a copy engine (R121). -/
def rkCe (e : Bool) : Nat := if e then 6 else 5
/-- R121. -/
def rkSpout : Nat := 7
/-- R121. -/
def rkFabric : Nat := 8
/-- R121. -/
def rkGsq : Nat := 9

/-- Ranks from here on are of accumulates and arrivals at sync words: they apply one after another, and every plain write
of the cycle stands over them (R286, R298). -/
def rkAcc : Nat := 2 ^ 20
/-- A pool byte as it stood before the cycle's writes (R121). -/
def Core.port (k : Core) (a : Nat) : Byte :=
  match look k.was a with
  | some (b, _) => b
  | none => rd8 k.pool a
/-- n bytes of the pool as they stood before the cycle's writes (R121). -/
def Core.ports (k : Core) (a : Nat) : Nat → List Byte
  | 0 => []
  | n + 1 => k.port a :: k.ports (a + 1) n
/-- A pool byte as a source of a rank finds it that makes several accesses one after another in the model's one cycle:
its own writes and accumulates, and else what stood before the cycle (R121, R283; log entry 3). -/
def Core.portOf (k : Core) (rk a : Nat) : Byte :=
  match look k.was a with
  | some (b, r) => if r = rk ∨ r = rkAcc + rk then rd8 k.pool a else b
  | none => rd8 k.pool a
/-- n bytes of it. -/
def Core.portsOf (k : Core) (rk a : Nat) : Nat → List Byte
  | 0 => []
  | n + 1 => k.portOf rk a :: k.portsOf rk (a + 1) n

/-! ### Pops and pushes -/

/-- The receive FIFO refilled from the overflow ring, in order (R335); the pool holds the ring, read as the fabric engine finds it. -/
def Core.refillRx (c : Core) : Nat → Core
  | 0 => c
  | n + 1 =>
    if c.rx.length < 64 ∧ 0 < c.ringN then
      let lines := (c.rxRing.extractLsb' 32 16).toNat
      let base := (c.rxRing.extractLsb' 0 22).toNat + 65536 * ((c.part.extractLsb' 0 6).toNat + (c.part.extractLsb' 6 6).toNat)
      let w := BitVec.ofNat 64 (leNat (c.portsOf rkFabric (base + 8 * c.ringRd) 8))
      Core.refillRx { c with rx := c.rx ++ [w], ringRd := (c.ringRd + 1) % (16 * lines), ringN := c.ringN - 1 } n
    else c
/-- The pops of a slot: the receive FIFO at once, the count queue with the bundle (R38, R187). -/
def popOps (s : State) (x : Context) (on : Bool) (os : List Opd) : State :=
  let s := if on && os.contains (.s .fin) then
    s.modCore x.core fun c => Core.refillRx { c with rx := c.rx.drop 1 } 64 else s
  if on && os.contains (.s .cq) then
    match s.latch with
    | some _ => s.modLatch fun l => { l with cqPop := true }
    | none => s.modCore x.core fun c => { c with cq := c.cq.drop 1 }
  else s
/-- Pushes an entry for the issuing task: it lands `lat` context cycles after the bundle (R135). -/
def pushQ (s : State) (t : Nat) (q : Qn) (lat : Nat) (v : Option QVal) : State :=
  s.modCtx t fun x => { x with fr := x.fr.push q (x.ccyc + lat) v x.nextId, nextId := x.nextId + 1 }
/-- Pushes onto qs. -/
def pushS (s : State) (t : Nat) (lat : Nat) (v : W64) : State := pushQ s t .s lat (some (.s v))
/-- Active lanes from `v`, the others from `base` (R199). -/
def mergeLanes (m : W64) (v base : VReg) : VReg := VReg.of fun l => if m.getLsbD l then v.lane l else base.lane l
/-- Pushes onto a cluster's queue under a lane mask. -/
def pushV (s : State) (t : Nat) (c : Clu) (lat : Nat) (m : W64) (v base : VReg) : State :=
  pushQ s t (cluQ c) lat (some (.v (mergeLanes m v base)))
/-- Pushes a whole vector, or zero where a scalar guard is false (R31). -/
def pushAll (s : State) (t : Nat) (c : Clu) (lat : Nat) (on : Bool) (v : VReg) : State :=
  pushQ s t (cluQ c) lat (some (.v (if on then v else VReg.zero)))

/-! ### Register writes at the end of a bundle -/

/-- Writes k register r and sets its live bit (R131, R133, R172). -/
def wrK (s : State) (t : Nat) (r : Nat) (v : W64) : State :=
  s.modCtx t fun x => { x with k := x.k.setIfInBounds r v, liveK := x.liveK ||| BitVec.ofNat 32 (2 ^ r) }
/-- A vector register that is written whole no longer holds an error (R485). -/
def healV (s : State) (t : Nat) (c : Clu) (r : Nat) : State :=
  match s.ctx? t with
  | none => s
  | some x =>
    if (s.core x.core).rcBad.isEmpty then s
    else
      let b : RcBlock := match c with
        | .a => .va (BitVec.ofNat 5 r)
        | .b => .vb (BitVec.ofNat 5 r)
      s.modCore x.core fun k => { k with rcBad := k.rcBad.filter fun p => !(p.1 == t && p.2 == b) }
/-- Writes the active lanes of a vector register; a write of any lane sets its live bit (R202). -/
def wrV (s : State) (t : Nat) (c : Clu) (r : Nat) (m : W64) (v : VReg) : State :=
  if m = 0 then s
  else
    (if m = BitVec.allOnes 64 then healV s t c r else s).modCtx t fun x =>
      let w := mergeLanes m v (x.vReg c r)
      let bit : W32 := BitVec.ofNat 32 (2 ^ r)
      match c with
      | .a => { x with va := x.va.setIfInBounds r w, liveA := x.liveA ||| bit }
      | .b => { x with vb := x.vb.setIfInBounds r w, liveB := x.liveB ||| bit }
/-- Writes an index register (R130). -/
def wrX (s : State) (t : Nat) (r : IdxReg) (v : W32) : State :=
  s.modCtx t fun x =>
    match r with
    | .xs => { x with fr := { x.fr with xs := v } }
    | .xa => { x with fr := { x.fr with xa := v } }
    | .xb => { x with fr := { x.fr with xb := v } }
/-- The value of an index register. -/
def Context.xReg (x : Context) : IdxReg → W32
  | .xs => x.fr.xs
  | .xa => x.fr.xa
  | .xb => x.fr.xb

/-- What a slot does to the count queue (R187): at once where it executes alone, else with its bundle. -/
def cqPush (s : State) (c : Nat) (vs : List W32) : State :=
  match s.latch with
  | some _ => s.modLatch fun l => { l with cqPush := l.cqPush ++ vs }
  | none => s.modCore c fun k => { k with cq := k.cq ++ vs }
/-- Entries the count queue holds after the bundle's pops, the executing slot's own among them, and CQCLR (R38, R187,
R231). -/
def cqHeld (s : State) (c : Nat) (pop : Bool) : Nat :=
  let n := (s.core c).cq.length
  match s.latch with
  | some l => if l.cqClr then 0 else n - (if l.cqPop || pop then 1 else 0)
  | none => n - (if pop then 1 else 0)

end Sys2Proof.Machine
end

