-- ==== Sys2Proof/Machine/Global.lean ====
section
/-!
DEFINITION. Memory: the pool of a core and its address forms (R84-R88), page tables and TLBs (R89-R97), the data cache
and the LLC directory (R107, R108, R115-R119), the logs (R488), and accesses to other packages (R90, R320, R324).
-/

namespace Sys2Proof.Machine

/-! ### Logs and errors -/

/-- Adds an entry to a log (R488). -/
def Log.add (l : Log) (e : LogE) : Log := { es := (e :: l.es).take 1024, n := l.n + 1 }
/-- An entry of the violation log of a die (R487, R488). -/
def logViol (s : State) (d : Fin 2) (kind : Option Nat) (core ctx : Nat) (src : Option Nat) (addr : Option W64) : State :=
  { s with viol := s.viol.set d ((s.viol[d]).add ⟨s.acyc[d], kind, core, ctx, src, addr, none⟩) }
/-- An entry of the RAS log of a die (R488). -/
def logRas (s : State) (d : Fin 2) (kind core ctx : Nat) (src : Option Nat) (addr info : Option W64) : State :=
  { s with ras := s.ras.set d ((s.ras[d]).add ⟨s.acyc[d], some kind, core, ctx, src, addr, info⟩) }
/-- Marks a launch ERROR with its first error address (R15, R22). -/
def launchErr (s : State) (l : Nat) (addr : W64) : State :=
  match look s.launches l with
  | some r =>
    let st := match r.status with | .ok => LStatus.error | o => o
    { s with launches := put s.launches l { r with status := st, err := r.err.or (some addr) } }
  | none => s
/-- An uncorrectable error met on a die: counted and logged (R488, R494). -/
def noteUe (s : State) (d : Fin 2) (core ctx : Nat) (addr : W64) : State :=
  let s := { s with rascnt := s.rascnt.set d ((s.rascnt[d]).1, min 65535 ((s.rascnt[d]).2 + 1)) }
  logRas s d 0x101 core ctx none (some addr) none
/-- An asynchronous cause (R147): pending in the context, or charged to the launch of a task that has ended (R15). -/
def postAsync (s : State) (t : Nat) (c : Cause) : State :=
  match s.ctx? t with
  | some x => if x.dead then launchErr s x.launch c.addr else s.setCtx t { x with asyncs := x.asyncs ++ [c] }
  | none =>
    match look s.tasks t with
    | some k => launchErr s k.launch c.addr
    | none => s

/-- The home stack of a physical address (R91). -/
def stackOf (pa : Nat) : Nat := (pa / 2 ^ 12 % 8) ^^^ (pa / 2 ^ 15 % 8) ^^^ (pa / 2 ^ 18 % 8)
/-- The die that serves a physical address (R91, R320). -/
def dieOfPa (pa : Nat) : Fin 2 := if stackOf pa < 4 then 0 else 1
/-- The race detector refuses a local access of a task (R119): logged at the home's die under a KIND that R488 does not
give (log entry 20), and MM_RACE pending. -/
def raceAt (s : State) (t c pa : Nat) (va : W64) : State :=
  let num := ((s.ctx? t).map (·.num)).getD 0xFF
  let s := logViol s (dieOfPa pa) none c num none (some va)
  postAsync s t { code := cMemory, sub := MM.race.code, addr := va }

/-- A bundle whose fetch ahead faulted and that does not issue: its line is dropped and the event logged (R153, R488). -/
def aheadFault (s : State) (x : Context) : State :=
  match x.ffault with
  | some (_, a) => logRas s (dieOf x.core) 0x102 x.core x.num none (some a) none
  | none => s
/-- A failure found at a Basin (R443, R445): counted in the task's NSERR, its launch marked ERROR with the identifier. -/
def nsFail (s : State) (t sub : Nat) (node : W32) : State :=
  match look s.tasks t with
  | some k =>
    let c := (k.nserr.extractLsb' 48 16).toNat
    let low := if c = 0 then sub * 2 ^ 32 + node.toNat else (k.nserr.extractLsb' 0 48).toNat
    let s := { s with tasks := put s.tasks t { k with nserr := BitVec.ofNat 64 (min (c + 1) 0xFFFF * 2 ^ 48 + low) } }
    launchErr s k.launch (node.setWidth 64)
  | none => s
/-- A Basin failure as the error code of an answer. -/
def nsCode (sub : Nat) (node : W32) : Nat := 2 ^ 40 + sub * 2 ^ 32 + node.toNat
/-- Records the Basin failure an answer reports. -/
def nsReport (s : State) (t err : Nat) : State :=
  if err < 2 ^ 40 then s else nsFail s t (err / 2 ^ 32 % 256) (BitVec.ofNat 32 err)

/-! ### The pool of a core (R18, R85-R88) -/

/-- RCBANK. -/
def rcBank (p : W32) : Nat := (p.extractLsb' 0 6).toNat
/-- ACBANK. -/
def acBank (p : W32) : Nat := (p.extractLsb' 6 6).toNat
/-- DCBANK. -/
def dcBank (p : W32) : Nat := (p.extractLsb' 12 6).toNat
/-- SPBANK (R18). -/
def spBank (p : W32) : Nat := 48 - rcBank p - acBank p
/-- First pool byte of the scratchpad (R85). -/
def spBase (p : W32) : Nat := 65536 * (rcBank p + acBank p)
/-- Bytes of directly addressed scratchpad (R84). -/
def spExt (p : W32) : Nat := 65536 * (spBank p - dcBank p)
/-- First pool byte of the accumulator store (R18). -/
def acBase (p : W32) : Nat := 65536 * rcBank p
/-- Bytes of the accumulator store (R87). -/
def acExt (p : W32) : Nat := 65536 * acBank p

/-- Lines touched by n bytes from an offset (R102). -/
def linesOf (o n : Nat) : List Nat := if n = 0 then [] else List.range' (o / 128) ((o + n - 1) / 128 + 1 - o / 128)
/-- n bytes from an address, cut at 128-byte lines. -/
def pieces (a n : Nat) : List (Nat × Nat) :=
  (linesOf a n).map fun l => (max a (128 * l), min (a + n) (128 * l + 128) - max a (128 * l))
/-- The target core and offset of a window address (R86): the checks in their order. A target outside the launch
answers with its core so that the attempt can be logged. -/
def window (s : State) (c : Nat) (launch : Nat) (a : W64) (n : Nat) : Except (MM × Bool) (Nat × Nat) :=
  if a.extractLsb' 25 39 ≠ 0 then .error (.window, false)
  else
    let t := 8 * (c / 8) + (a.extractLsb' 22 3).toNat
    let o := (a.extractLsb' 0 22).toNat
    if (s.core t).launch ≠ some launch then .error (.window, true)
    else if spExt (s.core t).part < o + n then .error (.spbound, false)
    else .ok (t, o)

/-- A byte written by a source of a rank: in one cycle the highest-priority source stands (R121). -/
def Core.write8 (rk : Nat) (k : Core) (p : Nat × Byte) : Core :=
  match look k.was p.1 with
  | some (old, r) => if r < rk ∧ r < rkAcc then k else { k with pool := wr8 k.pool p.1 p.2, was := put k.was p.1 (old, rk) }
  | none => { k with pool := wr8 k.pool p.1 p.2, was := put k.was p.1 (rd8 k.pool p.1, rk) }
/-- A full/empty bit set or cleared by a source of a rank, likewise (R104). -/
def Core.mark (rk : Nat) (v : Bool) (k : Core) (l : Nat) : Core :=
  let full := if v then insN k.full l else k.full.filter fun n => n != l
  match look k.wasFull l with
  | some (old, r) => if r < rk then k else { k with full := full, wasFull := put k.wasFull l (old, rk) }
  | none => { k with full := full, wasFull := put k.wasFull l (k.full.contains l, rk) }
/-- The 64-bit words all of whose bytes a write covers. -/
def fullWords (bs : List (Nat × Byte)) : List Nat :=
  (bs.map fun p => p.1 / 8).dedup.filter fun w => (List.range 8).all fun i => bs.any fun p => p.1 == 8 * w + i
/-- Applies a write of the pool by a source of a rank, with its full/empty action (R102, R104, R121); a word that is
written whole no longer holds an error (R485). -/
def poolWrite (s : State) (c rk : Nat) (bytes : List (Nat × Byte)) (fe : Option (Bool × List Nat)) : State :=
  s.modCore c fun k =>
    let k := bytes.foldl (Core.write8 rk) k
    let k := if k.bad.isEmpty then k else { k with bad := k.bad.filter fun w => !(fullWords bytes).contains w }
    match fe with
    | none => k
    | some (v, ls) => ls.foldl (Core.mark rk v) k
/-- Writes scratchpad bytes from an offset on. -/
def spWrite (s : State) (c rk o : Nat) (bs : List Byte) (fe : Option (Bool × List Nat) := none) : State :=
  poolWrite s c rk (place (spBase (s.core c).part + o) bs) fe
/-- n bytes of the pool as an accumulate finds them: before the cycle's plain writes, after its earlier accumulates
(R286, R298). -/
def Core.accs (k : Core) (a : Nat) : Nat → List Byte
  | 0 => []
  | n + 1 =>
    (match look k.was a with
      | some (b, r) => if rkAcc ≤ r then rd8 k.pool a else b
      | none => rd8 k.pool a) :: k.accs (a + 1) n
/-- Scratchpad bytes from an offset on, as they stood before the cycle's writes (R121). -/
def spRead (s : State) (c o n : Nat) : List Byte := (s.core c).ports (spBase (s.core c).part + o) n
/-- One of n pool bytes lies in a word that holds an uncorrectable error (R485). -/
def Core.badAt (k : Core) (a n : Nat) : Bool := k.bad.any fun w => decide (8 * w < a + n) && decide (a < 8 * w + 8)
/-- One of n scratchpad bytes does. -/
def spBad (s : State) (c o n : Nat) : Bool := (s.core c).badAt (spBase (s.core c).part + o) n
/-- A full/empty bit as it stood before the cycle (R103). -/
def Core.fullWas (k : Core) (l : Nat) : Bool :=
  match look k.wasFull l with
  | some (b, _) => b
  | none => k.full.contains l
/-- All lines of a core were full, or all empty, at the start of the cycle (R103). -/
def linesAre (s : State) (c : Nat) (full : Bool) (ls : List Nat) : Bool := ls.all fun l => (s.core c).fullWas l == full
/-- WFE loads take lines: emptied, and found by no other WFE of the cycle (R102, R104). -/
def wfeTake (s : State) (c rk : Nat) (ls : List Nat) : State :=
  (poolWrite s c rk [] (some (false, ls))).modCore c fun k => { k with wfe := ls ++ k.wfe }
/-- A new cycle: nothing has been written in it. -/
def Core.newCycle (k : Core) : Core := { k with was := [], wasFull := [], wfe := [] }

/-! ### Physical memory, poison and the data cache (R91, R108, R486) -/

/-- Lines all of whose bytes a write covers. -/
def fullLines (bs : List (Nat × Byte)) : List Nat :=
  (bs.map fun p => p.1 / 128).dedup.filter fun l => (List.range 128).all fun i => bs.any fun p => p.1 == 128 * l + i
/-- A write at the LLC: a write of a whole granule clears its poison (R486). -/
def memWrite (s : State) (bs : List (Nat × Byte)) : State :=
  let s := { s with mem := wrBytes s.mem bs }
  if s.poison.isEmpty then s
  else { s with poison := s.poison.filter fun l => !(fullLines bs).contains l }
/-- The data-cache line of a core. -/
def dcLine (s : State) (c ln : Nat) : Option DLine := look (s.core c).dc ln
/-- A clean line filled from the LLC. -/
def DLine.fill (m : Memory) (ln : Nat) : DLine :=
  { data := Vector.ofFn fun i => rd8 m (128 * ln + i.val), dirty := Vector.replicate 128 false, bad := false }
/-- The line holds a dirty byte. -/
def DLine.isDirty (d : DLine) : Bool := d.dirty.toList.contains true
/-- The dirty bytes of a line (R108). -/
def DLine.dirtyBytes (d : DLine) (ln : Nat) : List (Nat × Byte) :=
  (List.range 128).filterMap fun i => if d.dirty.getD i false then some (128 * ln + i, d.data.getD i 0) else none
/-- A line filled from a poisoned granule that has not been written whole (R486). -/
def DLine.poor (d : DLine) : Bool := d.pois && d.dirty.toList.contains false
/-- Writes bytes into a line. -/
def DLine.write (d : DLine) (o : Nat) : List Byte → DLine
  | [] => d
  | b :: r => DLine.write { d with data := d.data.setIfInBounds o b, dirty := d.dirty.setIfInBounds o true } (o + 1) r
/-- Poisons a line of memory (R486). -/
def poisonLine (s : State) (ln : Nat) : State := { s with poison := insN s.poison ln }
/-- Writes a line back and sets its directory state to I (R118); the copy stays clean. What a line with an uncorrectable
error writes back is poisoned (R485, R486). -/
def writeBack (s : State) (c ln : Nat) : State :=
  match dcLine s c ln with
  | none => { s with dir := del s.dir ln }
  | some d =>
    let s := memWrite s (d.dirtyBytes ln)
    let s := if d.bad then poisonLine s ln else s
    let s := s.modCore c fun k => { k with
      dc := if d.bad || d.poor then del k.dc ln else put k.dc ln { d with dirty := Vector.replicate 128 false, pois := false } }
    { s with dir := del s.dir ln }
/-- Evicts a line (R108). -/
def evictLine (s : State) (c ln : Nat) : State :=
  let s := match dcLine s c ln with
    | some d => if d.isDirty then writeBack s c ln else s
    | none => s
  s.modCore c fun k => { k with dc := del k.dc ln }
/-- Drops a clean copy of one line (R112, R120). -/
def dropLine (s : State) (c ln : Nat) : State :=
  s.modCore c fun k => { k with dc := k.dc.filter fun p => p.1 != ln || p.2.isDirty }
/-- Drops the clean lines of a core's data cache (R115, R117, R120). -/
def dropClean (s : State) (c : Nat) : State := s.modCore c fun k => { k with dc := k.dc.filter fun p => p.2.isDirty }
/-- Brings a line into the data cache, evicting the lowest line where it is full. -/
def fillLine (s : State) (c ln : Nat) : State :=
  match dcLine s c ln with
  | some _ => s
  | none =>
    let k := s.core c
    let s := if dcBank k.part * 512 ≤ k.dc.length then
        match k.dc with
        | (v, _) :: _ => evictLine s c v
        | [] => s
      else s
    s.modCore c fun k => { k with dc := put k.dc ln { DLine.fill s.mem ln with pois := s.poison.contains ln } }

/-- The core a line is dirty at. -/
def DirSt.core : DirSt → Nat
  | .d c _ => c
  | .k c => c
  | .p c _ => c
/-- A plain access at the directory (R118): the state for a context's load or store, none where the race detector
refuses it. -/
def dirPlain (st : Option DirSt) (c t : Nat) (store : Bool) : Option (Option DirSt) :=
  match st with
  | none => some (if store then some (.d c t) else none)
  | some (.d c' t') => if c' = c ∧ t' = t then some (some (.d c t)) else none
  | some (.k c') => if c' = c then some (some (if store then .d c t else .k c')) else none
  | some (.p c' v) => if c' = c then some (some (if store then .d c t else .p c' v)) else none
/-- Sets the directory state of a line; none is I. -/
def setDir (s : State) (ln : Nat) : Option DirSt → State
  | none => { s with dir := del s.dir ln }
  | some d => { s with dir := put s.dir ln d }

/-- What an access finds: bytes, a race, or an uncorrectable error with its subcode (R148). -/
inductive Got where
  | ok (bs : List Byte)
  | race
  | ecc (sub : Nat)
deriving DecidableEq, Repr

/-- A plain load of n bytes within a line (R107, R118, R485, R486). An uncached one leaves no clean copy that could be
older (R112). -/
def plainLoad (s : State) (c t pa n : Nat) (nc : Bool) : State × Got :=
  let ln := pa / 128
  match dirPlain (look s.dir ln) c t false with
  | none => (s, .race)
  | some st =>
    let unc := nc || dcBank (s.core c).part == 0
    let old := dcLine s c ln
    let here := match old with
      | some d => !unc || d.isDirty
      | none => false
    if !here && s.poison.contains ln then (s, .ecc 4)
    else if here && (old.map (·.bad)).getD false then (s, .ecc 3)
    else if here && (old.map DLine.poor).getD false then (s, .ecc 4)
    else if unc && !here then (dropLine (setDir s ln st) c ln, .ok (rdBytes s.mem pa n))
    else
      let s := fillLine s c ln
      let bs := match dcLine s c ln with
        | some d => (List.range n).map fun i => d.data.getD (pa % 128 + i) 0
        | none => rdBytes s.mem pa n
      (s, .ok bs)
/-- A plain store within a line (R107, R108, R118): none where the race detector refuses it. -/
def plainStore (s : State) (c t pa : Nat) (bs : List Byte) (nc : Bool) : Option State :=
  let ln := pa / 128
  let unc := nc || dcBank (s.core c).part == 0
  let old := look s.dir ln
  match dirPlain old c t true with
  | none => none
  | some st =>
    if unc && old.isNone then
      let s := memWrite s (place pa bs)
      some (match dcLine s c ln with
        | some d => s.modCore c fun k => { k with dc := put k.dc ln { d with data := (d.write (pa % 128) bs).data } }
        | none => s)
    else
      let s := setDir (fillLine s c ln) ln st
      some (match dcLine s c ln with
        | some d => s.modCore c fun k => { k with dc := put k.dc ln (d.write (pa % 128) bs) }
        | none => s)
/-- The first of a slot's stores that the race detector refuses (R118). -/
def storeRace (s : State) (c t : Nat) (accs : List (W64 × Nat × List Byte × Bool)) : Option (W64 × Nat) :=
  (accs.find? fun a => (dirPlain (look s.dir (a.2.1 / 128)) c t true).isNone).map fun a => (a.1, a.2.1)
/-- The stores of one slot: where the detector refuses one, MM_RACE, and the slot writes nothing (R119). -/
def storeAll (s : State) (c t : Nat) (accs : List (W64 × Nat × List Byte × Bool)) : State :=
  match storeRace s c t accs with
  | some (va, pa) => raceAt s t c pa va
  | none => accs.foldl (fun s a => (plainStore s c t a.2.1 a.2.2.1 a.2.2.2).getD s) s

/-- Engine accesses at the directory (R118): lines dirty at the issuing core are written back first; a line dirty at
another core refuses the access (false). -/
def engineLine (s : State) (c ln : Nat) : State × Bool :=
  match look s.dir ln with
  | none => (s, true)
  | some d => if d.core = c then (writeBack s c ln, true) else (s, false)
/-- The variable of a released line (R118). -/
def DirSt.released (v : Nat) : DirSt → Bool
  | .p _ w => w == v
  | _ => false
/-- Recall of an acquire of the variable at physical address v (R117). -/
def recallVar (s : State) (v : Nat) : State :=
  (s.dir.filter fun p => p.2.released v).foldl (fun s p => writeBack s p.2.core p.1) s
/-- Lines of a core that a fence or release by a context acts on (R115, R116). -/
def DirSt.mine (c t : Nat) : DirSt → Bool
  | .d c' t' => c' == c && t' == t
  | .k c' => c' == c
  | .p c' _ => c' == c
/-- Writes back the lines of D(c, x), K(c) and P(c, ·) (R115, R124). -/
def writeBackMine (s : State) (c t : Nat) : State :=
  (s.dir.filter fun p => p.2.mine c t).foldl (fun s p => writeBack s c p.1) s
/-- Writes back every dirty line of a core (R124, R145). -/
def writeBackCore (s : State) (c : Nat) : State :=
  (s.dir.filter fun p => p.2.core == c).foldl (fun s p => writeBack s c p.1) s
/-- Lines of D(c, x) become K(c) (R115, R116). -/
def releaseCore (s : State) (c t : Nat) : State :=
  { s with dir := s.dir.map fun p => match p.2 with
    | .d c' t' => if c' = c ∧ t' = t then (p.1, .k c) else p
    | _ => p }
/-- The scope reaches clus or wider (R115-R117). -/
def scWide : Scope → Bool
  | .ctx | .core => false
  | _ => true
/-- The release actions of R116, for a variable at physical address v; `away` where it is homed in another package. -/
def releaseActs (s : State) (c t v : Nat) (sc : Scope) (away : Bool) : State :=
  match sc with
  | .ctx => s
  | .core => releaseCore s c t
  | _ =>
    if away then writeBackMine s c t
    else
      let other := s.dir.filter fun p => match p.2 with
        | .p c' w => c' == c && w != v
        | _ => false
      let s := other.foldl (fun s p => writeBack s c p.1) s
      { s with dir := s.dir.map fun p => match p.2 with
        | .d c' t' => if c' = c ∧ t' = t then (p.1, .p c v) else p
        | .k c' => if c' = c then (p.1, .p c v) else p
        | .p _ _ => p }

/-! ### Page tables and TLBs (R92-R97) -/

/-- Lowest address bit a level indexes (R92); the leaf size at that level. -/
def lvlShift : Nat → Nat
  | 0 => 16
  | 1 => 21
  | 2 => 30
  | _ => 39
/-- The index of a level (R92). -/
def lvlIndex (va lvl : Nat) : Nat := va / 2 ^ lvlShift lvl % (if lvl = 0 then 32 else 512)
/-- An entry breaks the format of its level (R93, R94). -/
def malformed (e lvl : Nat) : Bool :=
  let lf := e.testBit 1
  e / 2 ^ 39 != 0 || e.testBit 7 || (!lf && e / 4 % 32 != 0) || (decide (lvl ≥ 3) && lf) || (lvl == 0 && !lf) ||
  (if lf then e / 2 ^ 8 % 2 ^ (lvlShift lvl - 8) != 0 else decide (lvl ≥ 2) && e / 2 ^ 8 % 16 != 0)
/-- The walk of R94 from the table at t, where `pz` are the poisoned granules (R486): level and entry of the leaf. -/
def walk (m : Memory) (pz : List Nat) (va : Nat) : Nat → Nat → Except MM (Nat × Nat)
  | 0, t =>
    let e := leNat (rdBytes m (t + 8 * lvlIndex va 0) 8)
    if pz.contains ((t + 8 * lvlIndex va 0) / 128) then .error .ecc
    else if !e.testBit 0 then .error .notmapped else if malformed e 0 then .error .malformed else .ok (0, e)
  | l + 1, t =>
    let e := leNat (rdBytes m (t + 8 * lvlIndex va (l + 1)) 8)
    if pz.contains ((t + 8 * lvlIndex va (l + 1)) / 128) then .error .ecc
    else if !e.testBit 0 then .error .notmapped
    else if malformed e (l + 1) then .error .malformed
    else if e.testBit 1 then .ok (l + 1, e)
    else walk m pz va l (e / 2 ^ 8 % 2 ^ 31 * 2 ^ 8)
/-- What an access needs of its leaf (R95). -/
inductive Need where
  | rd | wr | at_ | ex
deriving DecidableEq, Repr
/-- The leaf grants it (R93, R95). -/
def Need.ok (n : Need) (e : Nat) : Bool :=
  match n with
  | .rd => e.testBit 2
  | .wr => e.testBit 3
  | .at_ => e.testBit 2 && e.testBit 3 && e.testBit 5
  | .ex => e.testBit 4
/-- The physical address a leaf gives (R94). -/
def leafPa (e lvl va : Nat) : Nat := e / 2 ^ 8 % 2 ^ 31 * 2 ^ 8 + va % 2 ^ lvlShift lvl
/-- The image frames (R127), task records (R379), page maps (R354), header slots and frames (R355), which no address space
reaches. -/
def hidden (s : State) (pa : Nat) : Bool :=
  let within := fun (b n : Nat) => decide (b ≤ pa) && decide (pa < b + n)
  decide (0x7FD8000000 ≤ pa) || (s.recBase != 0 && within s.recBase.toNat 0x4000000) || within s.pg.mbase (32 * s.pg.mapn) ||
  within s.pg.hbase (1024 * s.pg.hslots) || within s.pg.base0 (0x9000 * s.pg.frames) || within s.pg.base1 (0x9000 * s.pg.frames)
/-- The leaf of an address in a TLB. -/
def tlbFind (root va : Nat) : List TlbE → Option TlbE
  | [] => none
  | e :: r => if e.root = root ∧ e.vpn = va / 2 ^ lvlShift e.lvl then some e else tlbFind root va r
/-- The leaf of a local address for a core: its TLB, its cluster's, or a walk that fills both (R97). -/
def findLeaf (s : State) (c va : Nat) : Except MM (State × Nat × Nat) :=
  let k := s.core c
  let root := (k.trroot.extractLsb' 12 27).toNat * 4096
  if !k.trroot.getLsbD 0 then .error .notmapped
  else
    match tlbFind root va k.tlb with
    | some e => .ok (s, e.lvl, e.leaf.toNat)
    | none =>
      let ct := (look s.ctlb (c / 8)).getD []
      let fill := fun (s : State) (e : TlbE) => s.modCore c fun k => { k with tlb := (e :: k.tlb).take 256 }
      match tlbFind root va ct with
      | some e => .ok (fill s e, e.lvl, e.leaf.toNat)
      | none =>
        match walk s.mem s.poison va 3 root with
        | .error m => .error m
        | .ok (lvl, w) =>
          let e : TlbE := { root := root, lvl := lvl, vpn := va / 2 ^ lvlShift lvl, leaf := BitVec.ofNat 64 w }
          .ok ({ fill s e with ctlb := put s.ctlb (c / 8) ((e :: ct).take 4096) }, lvl, w)
/-- Translation of a local address (R89, R94, R95, R127): state with its TLBs, physical address, NC. -/
def xlate (s : State) (c : Nat) (va : W64) (n : Need) : Except MM (State × Nat × Bool) :=
  if va.extractLsb' 48 16 ≠ 0 then .error .addr
  else
    match findLeaf s c va.toNat with
    | .error m => .error m
    | .ok (s', lvl, e) =>
      let pa := leafPa e lvl va.toNat
      if n.ok e && !hidden s pa then .ok (s', pa, e.testBit 6) else .error .perm
/-- Translation of an offset of the partitioned space at this package (R90, R92). -/
def xlateExp (s : State) (off : Nat) (n : Need) : Except MM Nat :=
  if !s.exproot.getLsbD 0 then .error .notmapped
  else
    match walk s.mem s.poison off 3 ((s.exproot.extractLsb' 12 27).toNat * 4096) with
    | .error m => .error m
    | .ok (lvl, e) =>
      let pa := leafPa e lvl off
      if n.ok e && !hidden s pa then .ok pa else .error .perm
/-- The physical address of an offset of the partitioned space here, whatever its leaf grants: where two accesses meet
(R112, R120), what a refused one names (R119). -/
def expPa (s : State) (off : Nat) : Option Nat :=
  if !s.exproot.getLsbD 0 then none
  else match walk s.mem s.poison off 3 ((s.exproot.extractLsb' 12 27).toNat * 4096) with
    | .error _ => none
    | .ok (lvl, e) => some (leafPa e lvl off)

/-- An engine read of local global memory, issued on core c (R88, R95, R118): the bytes, or the subcode of R101 with the
failing address; subcode 16 stands for a poisoned granule (R486). -/
def engRead (s : State) (c : Nat) (va : W64) (n : Nat) : State × Except (Nat × W64) (List Byte) :=
  (pieces va.toNat n).foldl (fun (r : State × Except (Nat × W64) (List Byte)) p =>
    match r.2 with
    | .error _ => r
    | .ok bs =>
      let a := BitVec.ofNat 64 p.1
      match xlate r.1 c a .rd with
      | .error m => (r.1, .error (m.code, a))
      | .ok (s, pa, _) =>
        let q := engineLine s c (pa / 128)
        if !q.2 then (q.1, .error (MM.race.code, a))
        else if q.1.poison.contains (pa / 128) then (q.1, .error (16, a))
        else (q.1, .ok (bs ++ rdBytes q.1.mem pa p.2))) (s, .ok [])

/-! ### The partitioned space (R89, R90, R318, R320) -/

/-- Bit 56. -/
def isRemote (va : W64) : Bool := va.getLsbD 56
/-- PKG (R89). -/
def pkgOf (va : W64) : Nat := (va.extractLsb' 48 8).toNat * 4 + (va.extractLsb' 46 2).toNat
/-- OFF (R89). -/
def offOf (va : W64) : Nat := (va.extractLsb' 0 46).toNat
/-- This package reaches an endpoint (R318). -/
def reaches (s : State) (p : Nat) : Bool :=
  p == s.fab.ep || (decide (p ≤ s.fab.domHi) && !s.fab.unreach.contains p && s.fab.up != 0 &&
    !((look s.fab.sends p).getD {}).stopped)
/-- Checks of a partitioned address at issue (R89, R90). -/
def remoteChk (s : State) (va : W64) : Except MM Unit :=
  if va.extractLsb' 57 7 ≠ 0 then .error .addr
  else if reaches s (pkgOf va) then .ok () else .error .unreach
/-- A message that accesses its home; FILL and CLOSE are the fabric engine's own. -/
def bodyAccess : StreamBody → Bool
  | .fill _ => false
  | .close _ => false
  | _ => true
/-- Forms a message (R320). -/
def formMsg (s : State) (m : OutMsg) : State := { s.tick with fab := { s.fab with out := s.fab.out ++ [{ m with id := s.fresh }] } }
/-- A load of another package's memory that waits for its turn: it holds its tag from its issue (R98). -/
def Later.farLoad (s : State) (e : Later) : Bool :=
  (match e.acc with
    | .acquire _ _ _ _ => isRemote e.va
    | .rload _ _ _ | .rrow _ _ _ => true
    | _ => false) && pkgOf e.va != s.fab.ep
/-- Request tags of a core (R98): its requests to other packages that have no answer or wait for their turn, its slots' remote writes and the
messages of its engines that have no acknowledgement. -/
def tagsOut (s : State) (c : Nat) : Nat :=
  let reqs := s.fab.reqs.filter fun p =>
    match p.2.kind with
    | .scal t _ _ _ _ _ | .row t _ _ _ => ((s.ctx? t).map (·.core)) == some c
    | .word _ _ _ c' _ _ => c' == c
    | .node _ _ c' _ _ => c' == c
    | .copySrc c' _ _ | .half c' _ => c' == c
  let waits := s.ctxs.filter fun p => p.2.core == c
  let mine := s.fab.strms.filter fun p => p.2.core == c
  let sent := (s.fab.out ++ s.fab.sent ++ s.fab.retry).filter fun o => match o.msg with
    | .strm m => bodyAccess m.body && (mine.any fun p => p.1 == m.strm && m.src == s.fab.ep && !(p.2.mine.any fun q => q.1 == m.seq))
    | _ => false
  reqs.length + (waits.map fun p => (p.2.rels.filter (Later.farLoad s)).length).sum + (mine.map fun p => p.2.mine.length).sum + sent.length
/-- Sends a load request and returns its name. -/
def sendReq (s : State) (va : W64) (size : Nat) (mask : W64) (acq : Option Scope) (launch task : Nat) (k : ReqKind) : State :=
  let id := s.fresh
  let s := formMsg s.tick { dst := pkgOf va, msg := .load id (offOf va) size mask acq, task := task, addr := va }
  { s with fab := { s.fab with reqs := put s.fab.reqs id { dst := pkgOf va, addr := va, launch := launch, kind := k } } }

/-- The asynchronous cause of a fault found at a home (R90); 16 is an uncorrectable error (R486). -/
def farCause (e : Nat) (a : W64) : Cause :=
  if e = 16 then { code := cDataEcc, sub := 4, addr := a } else { code := cMemory, sub := e, addr := a }
/-- The parts of a home access: the 4 bytes of each active lane of a row, or the lines of a run of bytes. -/
def reqParts (off size : Nat) (mask : W64) : List (Nat × Nat) :=
  if mask = 0 then pieces off size
  else (List.range 64).filterMap fun l => if mask.getLsbD l then some (off + 4 * l, 4) else none
/-- The failure of an access that is reported: the first check in the order of R101, of the lowest part that fails it
(R218). -/
def firstBad : List (Nat × Nat) → Option (Nat × Nat)
  | [] => none
  | p :: r =>
    match firstBad r with
    | none => some p
    | some q => if q.1 < p.1 then some q else some p
/-- What a part of a home access finds: its physical address, or the subcode of R101; 16 stands for a poisoned granule
(R486). -/
def partAt (s : State) (n : Need) (reads : Bool) (off : Nat) : Except Nat Nat :=
  match xlateExp s off n with
  | .error m => .error m.code
  | .ok pa =>
    if (look s.dir (pa / 128)).isSome then .error MM.race.code
    else if reads && s.poison.contains (pa / 128) then .error 16 else .ok pa
/-- The failing parts of an access, by subcode and offset. -/
def badParts (s : State) (n : Need) (reads : Bool) (offs : List Nat) : List (Nat × Nat) :=
  offs.filterMap fun o => match partAt s n reads o with
    | .error e => some (e, o)
    | .ok _ => none
/-- What a home logs of an access it refuses (R119, R486, R488). -/
def logBad (s : State) (src e off : Nat) : State :=
  match expPa s off with
  | none => s
  | some pa =>
    if e = MM.race.code then logViol s (dieOfPa pa) (some 3) 0xFFFF 0xFF (some src) (some (BitVec.ofNat 64 off))
    else if e = 16 ∧ src ≠ s.fab.ep then noteUe s (dieOfPa pa) 0xFFFF 0xFF (BitVec.ofNat 64 off) else s
/-- A load performed at its home (R90, R118, R119), or refused with the subcode and the offset that failed; `src` is the
requesting endpoint. -/
def homeLoad (s : State) (src off size : Nat) (mask : W64) (acq : Option Scope) : State × RemoteResp :=
  let parts := reqParts off size mask
  let s := match acq, xlateExp s off .rd with
    | some sc, .ok pa => if scWide sc then recallVar s pa else s
    | _, _ => s
  match firstBad (badParts s .rd true (parts.map (·.1))) with
  | some (e, o) => (logBad s src e o, ⟨[], e, o⟩)
  | none =>
    let bytes := fun (o n : Nat) => match xlateExp s o .rd with
      | .ok pa => rdBytes s.mem pa n
      | .error _ => []
    let data := if mask ≠ 0 then
        (List.range 64).flatMap fun l => if mask.getLsbD l then bytes (off + 4 * l) 4 else [0, 0, 0, 0]
      else parts.flatMap fun p => bytes p.1 p.2
    (s, ⟨data, 0, 0⟩)
/-- The clean copies a core holds of bytes it reads at this package's own LLC are dropped: a later access returns nothing
older (R112). -/
def dropFar (s : State) (c off n : Nat) : State :=
  (pieces off n).foldl (fun s p => match expPa s p.1 with
    | some pa => dropLine s c (pa / 128)
    | none => s) s
/-- The address of a failing offset of an access to address a. -/
def failAt (a : W64) (off : Nat) : W64 := (a &&& ~~~(0x3FFFFFFFFFFF : W64)) ||| BitVec.ofNat 64 (off % 2 ^ 46)

/-! ### Streams (R323, R324) -/

/-- A context's stream in a slot. -/
def strmOf (s : State) (x : Context) (slot : Nat) : Option (Nat × Strm) :=
  match x.strm.getD slot none with
  | some n => (look s.fab.strms n).map fun r => (n, r)
  | none => none
/-- The stream already holds 4,096 unacknowledged messages, those of the issuing bundle counted (R324), or its core has no
request tag free (R98). -/
def strmFull (s : State) (x : Context) (slot : Nat) : Bool :=
  let here := (s.latch.map (·.far)).getD []
  match strmOf s x slot with
  | some (_, r) => !r.failed && (decide (4096 ≤ r.unacked.length + (here.filter (· == slot)).length) ||
      decide (4096 ≤ tagsOut s x.core + here.length))
  | none => false
/-- FABRIC (R346). -/
def fabCause (sub : Nat) (addr info : W64) : Cause := { code := cFabric, sub := sub, addr := addr, info := info }
/-- Why a remote write on a slot is not performed (R323, R346). -/
def strmBad (s : State) (x : Context) (slot : Nat) (va : W64) : Option Cause :=
  match strmOf s x slot with
  | none => some (fabCause 1 va (BitVec.ofNat 64 slot))
  | some (_, r) =>
    if r.failed then some (fabCause 3 va (BitVec.ofNat 64 slot))
    else if r.ep ≠ pkgOf va then some (fabCause 2 va va) else none
/-- The bytes a remote access of an endpoint names (R112): those of this package by their physical address, which local
accesses name likewise. -/
def farSpan (s : State) (ep off n : Nat) : List (Nat × Nat) :=
  (pieces off n).map fun p =>
    let key := if ep = s.fab.ep then (expPa s p.1).getD (2 ^ 60 + p.1)
      else (ep + 2) * 2 ^ 60 + p.1
    (key, p.2)
/-- Two accesses touch a common byte. -/
def meets (a b : List (Nat × Nat)) : Bool := a.any fun p => b.any fun q => decide (p.1 < q.1 + q.2) && decide (q.1 < p.1 + p.2)
/-- The bytes a message writes, from the first to the last. -/
def bodySpan (s : State) (ep : Nat) : StreamBody → List (Nat × Nat)
  | .write bs => match bs.head?, bs.getLast? with
    | some a, some b => farSpan s ep a.1 (b.1 + 1 - a.1)
    | _, _ => []
  | _ => []
/-- The context has an access waiting that names a byte of these: one that follows it waits behind it (R112). -/
def behind (x : Context) (span : List (Nat × Nat)) : Bool := x.rels.any fun e => meets e.span span
/-- The context's remote writes that name a byte of these and are not acknowledged (R112). -/
def ownStores (s : State) (t : Nat) (span : List (Nat × Nat)) : List (Nat × Nat) :=
  s.fab.strms.flatMap fun p => if p.2.task = t then (p.2.mine.filter fun q => meets q.2 span).map fun q => (p.1, q.1) else []
/-- Every remote write of the context's slots that is not acknowledged. -/
def ownWrites (s : State) (t : Nat) : List (Nat × Nat) :=
  s.fab.strms.flatMap fun p => if p.2.task = t then p.2.mine.map fun q => (p.1, q.1) else []
/-- Loads of a context that have no value: those requested, and those that wait. -/
def loadsOut (s : State) (t : Nat) (x : Context) : List Nat :=
  (s.fab.reqs.filterMap fun p => match p.2.kind with
    | .scal u id _ _ _ _ | .row u id _ _ => if u = t then some id else none
    | _ => none) ++
  x.rels.filterMap fun e => match e.acc with
    | .acquire _ _ _ p | .load _ _ _ _ p | .row _ _ _ p | .rload _ _ p | .rrow _ _ p => some p
    | _ => none
/-- The context's remote loads that name a byte of these and have no value: an access of those bytes follows them (R112). -/
def ownLoads (s : State) (t : Nat) (span : List (Nat × Nat)) : List Nat :=
  let hit := fun (q : Req) (n : Nat) => meets (farSpan s (pkgOf q.addr) (offOf q.addr) n) span
  s.fab.reqs.filterMap fun p => match p.2.kind with
    | .scal u id n _ _ _ => if u = t ∧ hit p.2 n then some id else none
    | .row u id _ _ => if u = t ∧ hit p.2 256 then some id else none
    | _ => none
/-- Adds an access to those that wait. -/
def addLater (s : State) (t : Nat) (e : Later) : State :=
  s.tick.modCtx t fun x => { x with rels := x.rels ++ [{ e with name := s.fresh }] }
/-- Takes the next sequence number of a stream for a message of a slot; it stays unacknowledged (R324). -/
def takeNum (s : State) (n : Nat) (r : Strm) (span : List (Nat × Nat)) : State :=
  let r' : Strm := { r with next := (r.next + 1) % 2 ^ 32, unacked := r.unacked ++ [r.next], mine := r.mine ++ [(r.next, span)] }
  { s with fab := { s.fab with strms := put s.fab.strms n r' } }
/-- Takes the next sequence number of a stream for a message and forms it (R324). -/
def strmSend (s : State) (t n : Nat) (r : Strm) (va : W64) (tick : Option RTicket) (body : StreamBody) : State :=
  let m : StreamMsg := { src := s.fab.ep, strm := n, seq := r.next, tick := tick, body := body }
  formMsg (takeNum s n r (bodySpan s r.ep body)) { dst := r.ep, task := t, addr := va, msg := .strm m }
/-- The context's remote writes on other streams that name a byte of these and are not acknowledged: a write on this one
follows them, where its own stream does not order it (R112, R113). -/
def otherStores (s : State) (t n : Nat) (span : List (Nat × Nat)) : List (Nat × Nat) := (ownStores s t span).filter fun p => p.1 != n
/-- A remote write of a slot (R178, R221): sent on the stream of its slot, or not performed and FABRIC pending. One that
names a byte of an access that waits, of a load that has no value, or of a write of the context on another stream, keeps its
number and waits behind it (R112). -/
def remoteWrite (s : State) (t : Nat) (x : Context) (slot : Nat) (va : W64) (body : StreamBody) : State :=
  match strmBad s x slot va, strmOf s x slot with
  | some c, _ => postAsync s t c
  | none, some (n, r) =>
    let span := bodySpan s r.ep body
    let acks := otherStores s t n span
    let pends := ownLoads s t span
    if behind x span || !acks.isEmpty || !pends.isEmpty then
      addLater (takeNum s n r span) t { name := 0, va := va, span := span, acc := .rstore n r.next none body, acks := acks, pends := pends }
    else strmSend s t n r va none body
  | none, none => s
/-- A release takes its place behind the accesses of its bundle (R181): a remote one takes its number, or is not performed
and FABRIC pending (R178). -/
def addRelease (s : State) (t : Nat) (x : Context) (slot : Nat) (va val : W64) (sc : Scope) (span : List (Nat × Nat)) : State :=
  let e := fun (q : Option (Nat × Nat)) =>
    let acks := if sc = .fab then ownWrites s t else otherStores s t ((q.map (·.1)).getD (2 ^ 16)) span
    ({ name := 0, va := va, span := span, acc := .release val sc q false, acks := acks, pends := loadsOut s t x } : Later)
  if isRemote va then
    match strmBad s x slot va, strmOf s x slot with
    | some c, _ => postAsync s t c
    | none, some (n, r) => addLater (takeNum s n r span) t (e (some (n, r.next)))
    | none, none => s
  else addLater s t (e none)
/-- The physical bytes of plain stores. -/
def accSpan (accs : List (W64 × Nat × List Byte × Bool)) : List (Nat × Nat) := accs.map fun a => (a.2.1, a.2.2.1.length)
/-- Applies a store by a source of a rank of core src (R113, R121); plain stores that name a byte of an access of their
context that waits come behind it (R112). -/
def applyWrite (s : State) (src rk : Nat) : Write → State
  | .pool c bs fe => poolWrite s c (rankAt src c rk) bs fe
  | .wfe c ls => wfeTake s c (rankAt src c rk) ls
  | .glob t accs => match s.ctx? t with
    | some x =>
      if behind x (accSpan accs) then
        addLater s t { name := 0, va := (accs.head?.map (·.1)).getD 0, span := accSpan accs, acc := .store accs }
      else storeAll s x.core t accs
    | none => s
  | .rem t slot va body => match s.ctx? t with
    | some x => remoteWrite s t x slot va body
    | none => s
  | .strl t slot va val sc span => match s.ctx? t with
    | some x => addRelease s t x slot va val sc span
    | none => s
/-- The stream slot of a remote store. -/
def Write.farSlot : Write → List Nat
  | .rem _ q _ _ => [q]
  | .strl _ q va _ _ _ => if isRemote va then [q] else []
  | _ => []
/-- A store of a slot of core src: at once where it executes alone, else at the end of its bundle, where the stores of
earlier slots in the order S, VA, VB, X are applied last and so stand (R113, R121). -/
def deferWrite (s : State) (src : Nat) (w : Write) : State :=
  match s.latch with
  | some _ => s.modLatch fun l => { l with writes := w :: l.writes, far := w.farSlot ++ l.far }
  | none => applyWrite s src rkS w
/-- Every remote write of a context's slots has been acknowledged (R115). -/
def writesAcked (s : State) (t : Nat) : Bool := (ownWrites s t).isEmpty
/-- Every load of a context that has been requested has its value (R115). -/
def loadsDone (s : State) (t : Nat) : Bool :=
  s.fab.reqs.all fun p => match p.2.kind with
    | .scal u _ _ _ _ _ | .row u _ _ _ => u != t
    | _ => true

end Sys2Proof.Machine
end

