-- ==== Sys2Proof/Machine/Fetch.lean ====
section
/-!
DEFINITION. Fetching a bundle (R25, R28, R89, R95, R153) and the replay nest (R141-R143).
-/

namespace Sys2Proof.Machine

/-! ### Fetch -/

/-- What a fetch of a bundle finds: its words, a fault with its subcode and address, or eight words without E. -/
inductive Fetched where
  | ok (ws : List W32)
  | fault (sub : Nat) (addr : W64)
  | long (ws : List W32)
deriving DecidableEq, Repr

/-- Fetches one word: a local address with EX permission (R89, R95); subcode 16 is an uncorrectable error (R148). -/
def fetchWord (s : State) (c : Nat) (va : W64) : State × Except Nat W32 :=
  match xlate s c va .ex with
  | .error m => (s, .error m.code)
  | .ok (s, pa, _) => if s.poison.contains (pa / 128) then (s, .error 16) else (s, .ok (laneOf (rdBytes s.mem pa 4)))
/-- Fetches words from an address until one has E set, at most n (R25). -/
def fetchRun (s : State) (c : Nat) (va : W64) (ws : List W32) : Nat → State × Fetched
  | 0 => (s, .long ws)
  | n + 1 =>
    match fetchWord s c va with
    | (s, .error e) => (s, .fault e va)
    | (s, .ok w) => if endsBundle w then (s, .ok (ws ++ [w])) else fetchRun s c (va + 4) (ws ++ [w]) n
/-- The bundle of a context at an address and a place of its outermost body: from the instruction buffer where it was
captured there (R141), from what was fetched ahead, or from memory. -/
def bundleAt (s : State) (x : Context) (place : Nat) (va : W64) : State × Fetched :=
  let cap := if x.fr.nest.act.isEmpty then none else look x.fr.nest.buf place
  match cap with
  | some (a, ws) => if a = va then (s, .ok ws) else fetchRun s x.core va [] 8
  | none =>
    match x.fetched with
    | some (a, ws) => if a = va then (s, .ok ws) else fetchRun s x.core va [] 8
    | none => fetchRun s x.core va [] 8
/-- The address after a bundle. -/
def afterWords (va : W64) (ws : List W32) : W64 := va + BitVec.ofNat 64 (4 * ws.length)
/-- Captures the bundle at a place of an active nest (R141). -/
def capture (s : State) (t place : Nat) (va : W64) (ws : List W32) : State :=
  s.modCtx t fun x =>
    if x.fr.nest.act.isEmpty then x
    else { x with fr := { x.fr with nest := { x.fr.nest with buf := put x.fr.nest.buf place (va, ws) } } }

/-! ### The replay nest -/

/-- Iterations of a level, n = T + S - 1 (R142). -/
def Level.iters (l : Level) : Nat := l.trip + l.stages - 1
/-- Changes a context's nest. -/
def Context.modNest (x : Context) (f : Nest → Nest) : Context := { x with fr := { x.fr with nest := f x.fr.nest } }
/-- A bundle at a place is skipped: an enclosing level has trip 0, or masks it on this iteration (R142). -/
def masked (set : Vector NestSet 6) (place : Nat) : List Level → Bool
  | [] => false
  | l :: r =>
    let m := set.getD r.length {}
    let o := place - l.base
    l.trip == 0 || (decide (o < 64) && ((m.first.getLsbD o && l.iter != 0) || (m.last.getLsbD o && l.iter != l.iters - 1))) ||
      masked set place r
/-- Stage predicates of an iteration (R142). -/
def stagePreds (f : Frame) (l : Level) : Frame :=
  if l.stages < 2 then f
  else (List.range l.stages).foldl (fun f s =>
    let b := decide (s ≤ l.iter) && decide (l.iter < l.trip + s)
    let v : W64 := if b then BitVec.allOnes 64 else 0
    { f with ps := if b then f.ps ||| BitVec.ofNat 8 (2 ^ (s + 1)) else f.ps &&& ~~~(BitVec.ofNat 8 (2 ^ (s + 1))),
             pa := f.pa.setIfInBounds (s + 1) v, pb := f.pb.setIfInBounds (s + 1) v }) f
/-- Strides of a level after an iteration (R142, R133). -/
def applyStrides (x : Context) (m : NestSet) : Context :=
  m.stride.toList.foldl (fun x st =>
    match st with
    | some (r, amt) =>
      { x with k := x.k.setIfInBounds r.toNat (x.kReg r.toNat + amt), liveK := x.liveK ||| BitVec.ofNat 32 (2 ^ r.toNat) }
    | none => x) x
/-- Opens a level after the NEST bundle (R185); pos is the place of the bundle that follows. -/
def openLevel (x : Context) (trip stages len : Nat) : Context :=
  let n := x.fr.nest
  let first := n.act.isEmpty
  let pos := if first then 0 else n.pos
  let l : Level := { trip := trip, stages := stages, start := x.pc, len := len, base := pos, iter := 0 }
  let x := x.modNest fun n => { n with act := l :: n.act, pos := pos, buf := if first then [] else n.buf }
  if trip = 0 then x else { x with fr := stagePreds x.fr l }
/-- Closes the innermost level. -/
def closeLevel (x : Context) : Context :=
  x.modNest fun n => if n.act.length ≤ 1 then { n with act := [], pos := 0, buf := [] } else { n with act := n.act.drop 1 }
/-- Abandons every active level (R143). -/
def abandon (x : Context) : Context := x.modNest fun n => { n with act := [], pos := 0, buf := [] }
/-- Moves a context past masked bundles up to the next that issues, a bundle whose fetch fails, or the end of the
innermost body, where the end of the iteration becomes due (R142). -/
def nestSkip (s : State) (t : Nat) : Nat → State
  | 0 => s
  | n + 1 =>
    match s.ctx? t with
    | none => s
    | some x =>
      match x.fr.nest.act with
      | [] => s
      | l :: _ =>
        let pos := x.fr.nest.pos
        if l.base + l.len ≤ pos then
          if l.trip = 0 then nestSkip (s.setCtx t (closeLevel x)) t n
          else if s.agenda.contains (.replayIterationEnd, { task := t }) then s
          else { s with agenda := s.agenda ++ [(.replayIterationEnd, { task := t })] }
        else if masked x.fr.nest.set pos x.fr.nest.act then
          match bundleAt s x pos x.pc with
          | (s, .ok ws) =>
            let s := capture s t pos x.pc ws
            nestSkip (s.modCtx t fun x => { x.modNest fun n => { n with pos := n.pos + 1 } with pc := afterWords x.pc ws }) t n
          | (s, _) => s
        else s
/-- Steps a skip may take: a body of 64 bundles and six levels. -/
def skipFuel : Nat := 80
/-- The end of an iteration of the innermost level (R142): strides, then the next iteration or the end of the level. -/
def iterationEnd (s : State) (t : Nat) : State :=
  match s.ctx? t with
  | none => s
  | some x =>
    match x.fr.nest.act with
    | [] => s
    | l :: r =>
      if l.trip = 0 ∨ x.fr.nest.pos < l.base + l.len then s
      else
        let x := applyStrides x (x.fr.nest.set.getD r.length {})
        if l.iter + 1 < l.iters then
          let l := { l with iter := l.iter + 1 }
          let x := { x.modNest fun n => { n with act := l :: r, pos := l.base } with pc := l.start }
          nestSkip (s.setCtx t { x with fr := stagePreds x.fr l }) t skipFuel
        else nestSkip (s.setCtx t (closeLevel x)) t skipFuel
/-- The place of an address in the innermost body, looking from a bundle on (R143); a target inside a bundle has that
bundle's place. -/
def findPlace (s : State) (x : Context) (target : W64) (stop place : Nat) (va : W64) : Nat → Option Nat
  | 0 => none
  | n + 1 =>
    if stop ≤ place then none
    else
      match bundleAt s x place va with
      | (_, .ok ws) =>
        if va.toNat ≤ target.toNat ∧ target.toNat < va.toNat + 4 * ws.length then some place
        else findPlace s x target stop (place + 1) (afterWords va ws) n
      | _ => if va = target then some place else none
/-- A taken transfer from the bundle at `va` (R143): it continues the iteration where its target lies in the innermost
body at or after the bundle, and else abandons every level. -/
def goto (s : State) (x : Context) (va target : W64) : Context :=
  let x' := { x with pc := target, jump := none }
  match x.fr.nest.act with
  | [] => x'
  | l :: _ =>
    match findPlace s x target (l.base + l.len) x.fr.nest.pos va 64 with
    | some p => x'.modNest fun n => { n with pos := p }
    | none => abandon x'

end Sys2Proof.Machine
end

