-- ==== Sys2Proof/Machine/MemOps.lean ====
section
/-!
DEFINITION. The accesses of the S and V slots: scratchpad and window (R85, R86, R100-R104, R177), global (R89, R107,
R178), acquires, releases and fences (R115-R117, R180-R182).
-/

namespace Sys2Proof.Machine

/-! ### Scratchpad and window -/

/-- Where a scratchpad or window access goes. -/
inductive Space where
  | own | win
deriving DecidableEq, Repr
/-- Core and offset of an access of n bytes at a (R85, R86, R100), checked in the order of R101. -/
def target (s : State) (x : Context) (w : Space) (a : W64) (n al : Nat) : Res (Nat × Nat) := do
  need (decide (a.toNat % al = 0)) (memTrap .align a)
  match w with
  | .own => if spExt (s.core x.core).part < a.toNat + n then memTrap .spbound a else return (x.core, a.toNat)
  | .win =>
    match window s x.core x.launch a n with
    | .error (m, out) => .error (.trap (mmCause m a (if out then 1 else 0)))
    | .ok r => return r
/-- A PHASE drain of another context of the issuing core, or of the target core, holds the access (R145). -/
def drainHeld (s : State) (x : Context) (t c : Nat) : Bool :=
  ((s.core x.core).drain.map fun d => d.task != t).getD false || (c != x.core && (s.core c).drain.isSome)
/-- The lines an access must find full (empty), or the bundle is held (R103). -/
def feHold (s : State) (c : Nat) (want : Option Bool) (ls : List Nat) : Res Unit :=
  match want with
  | none => .ok ()
  | some f => need (linesAre s c f ls) (.error .hold)
/-- The condition of a load (R102). -/
def feLWant : FeL → Option Bool
  | .plain => none
  | _ => some true
/-- A local release of the context still waits for its turn. -/
def Later.localRel (e : Later) : Bool := match e.acc with
  | .release _ _ q _ => q.isNone
  | _ => false
/-- The condition of a store (R102). -/
def feSWant : FeS → Option Bool
  | .wesf => some false
  | _ => none
/-- The action of a store on its lines (R102). -/
def feSAct : FeS → Option Bool
  | .plain => none
  | .se => some false
  | _ => some true
/-- A store with a condition or an action (R103), where it may issue. One that sets its lines full is observed by others
(R110): the local releases before it are performed first (R109, R114; log entry 91). -/
def feSHold (s : State) (c : Nat) (x : Context) (fe : FeS) (ls : List Nat) : Res Unit := do
  feHold s c (feSWant fe) ls
  need (feSAct fe != some true || !(x.rels.any Later.localRel)) (.error .hold)
/-- A WFE load finds its lines taken by another one of the cycle: it waits (R104). -/
def wfeHold (s : State) (c : Nat) (fe : FeL) (ls : List Nat) : Res Unit :=
  need (fe != .wfe || !(ls.any fun l => (s.core c).wfe.contains l)) (.error .hold)
/-- DATAECC of a datum of a scratchpad (R148, R485). -/
def spEcc (s : State) (c o n : Nat) (a : W64) : Res Unit := need (!spBad s c o n) (trapWith cDataEcc 2 0 a)
/-- What a load with a condition does besides reading: WFE empties its lines, and a satisfied condition drops the clean
lines of the reader's data cache (R102, R120); `rc` is the reader. -/
def feLoaded (s : State) (c rc : Nat) (fe : FeL) (ls : List Nat) : State :=
  match fe with
  | .plain => s
  | .wf => dropClean s rc
  | .wfe => deferWrite (dropClean s rc) rc (.wfe c ls)
/-- A scratchpad store of core rc at the end of its bundle (R102, R120, R121). -/
def spStore (s : State) (c rc o : Nat) (fe : FeS) (bytes : List (Nat × Byte)) (ls : List Nat) : State :=
  let s := if fe = .wesf then dropClean s rc else s
  deferWrite s rc (.pool c (bytes.map fun p => (spBase (s.core c).part + o + p.1, p.2)) ((feSAct fe).map fun f => (f, ls)))

/-! ### Global accesses -/

/-- A failed translation as MEMORY. -/
def orTrap {α : Type} (a : W64) : Except MM α → Res α
  | .ok v => .ok v
  | .error m => memTrap m a
/-- Checks of an address that has bit 56 set, with its alignment (R89, R100, R101). -/
def remoteOk (s : State) (a : W64) (al : Nat) : Res Unit := do
  if a.extractLsb' 57 7 ≠ 0 then memTrap .addr a
  need (decide (a.toNat % al = 0)) (memTrap .align a)
  orTrap a (remoteChk s a)
/-- A request tag is free, the remote stores of the issuing bundle counted (R98). -/
def tagFree (s : State) (c : Nat) : Res Unit :=
  need (decide (tagsOut s c + ((s.latch.map (·.far)).getD []).length < 4096)) (.error .hold)
/-- Alignment and address bits of a local access (R101). -/
def localOk (a : W64) (al : Nat) : Res Unit := do
  if a.extractLsb' 48 16 ≠ 0 then memTrap .addr a
  need (decide (a.toNat % al = 0)) (memTrap .align a)
/-- The value of a loaded scalar (R176). -/
def extend (n : Nat) (u : Bool) (bs : List Byte) : W64 :=
  let v := leNat bs
  if u then BitVec.ofNat 64 v else BitVec.ofInt 64 (Arith.sx v (8 * n))
/-- Bytes of a size (R175). -/
def szBytes : Size → Nat
  | .b8 => 8 | .b4 => 4 | .b2 => 2 | .b1 => 1
/-- The name the next pushed result of a task takes. -/
def nextId (s : State) (t : Nat) : Nat := ((s.ctx? t).map (·.nextId)).getD 0
/-- What a remote access answers of a load at this package's own LLC: the state, and the value or the cause (R90). -/
def ownLoad (s : State) (x : Context) (a : W64) (n : Nat) (mask : W64) (acq : Option Scope) : State × Except Cause (List Byte) :=
  let r := homeLoad s s.fab.ep (offOf a) n mask acq
  let s := dropFar r.1 x.core (offOf a) n
  if r.2.err = 0 then (s, .ok r.2.data) else (s, .error (farCause r.2.err (failAt a r.2.off)))
/-- A remote scalar load of a task performed: at once at this package's own LLC, else requested, or lost where its package has
become unreachable (R319); `land` gives its value to its entry. -/
def scalarGo (s : State) (t : Nat) (x : Context) (a : W64) (n : Nat) (u : Bool) (acq : Option Scope) (id : Nat)
    (land : State → Option W64 → State) : State :=
  if pkgOf a = s.fab.ep then
    match ownLoad s x a n 0 acq with
    | (s, .ok bs) => land s (some (extend n u bs))
    | (s, .error c) => land (postAsync s t c) (some 0)
  else if !reaches s (pkgOf a) then land (postAsync s t (fabCause 4 a a)) (some 0)
  else land (sendReq s a n 0 acq x.launch t (.scal t id n u acq.isSome (acq.getD .ctx))) none
/-- A remote scalar load: performed at once at this package's own LLC, else requested and pushed without its value (R90). -/
def remoteScal (s : State) (t : Nat) (x : Context) (a : W64) (n : Nat) (u : Bool) (acq : Option Scope) (lat : Nat) : State :=
  scalarGo s t x a n u acq (nextId s t) fun s v => pushQ s t .s lat (v.map .s)
/-- DATAECC from a cache (R148, R485, R486). -/
def eccTrap {α : Type} (sub : Nat) (a : W64) : Res α := trapWith cDataEcc sub 0 a
/-- A load that waits for its turn: its entry is pushed without its value (R99, R112). -/
def pushLater (s : State) (t : Nat) (q : Qn) (a : W64) (span acks : List (Nat × Nat)) (acc : Nat → LaterAcc)
    (pends : List Nat := []) : State :=
  let id := nextId s t
  pushQ (addLater s t { name := 0, va := a, span := span, acc := acc id, acks := acks, pends := pends }) t q 14 none
/-- A plain scalar load (R112, R178). -/
def ldgAt (s : State) (t : Nat) (x : Context) (a : W64) (n : Nat) (u : Bool) : Res State := do
  if isRemote a then
    remoteOk s a n
    if drainHeld s x t x.core then .error .hold
    if pkgOf a ≠ s.fab.ep then tagFree s x.core
    let span := farSpan s (pkgOf a) (offOf a) n
    let acks := ownStores s t span
    let pends := ownLoads s t span
    if behind x span || !acks.isEmpty || !pends.isEmpty then
      return pushLater s t .s a span acks (fun id => .rload n u id) pends
    return remoteScal s t x a n u none 14
  else
    localOk a n
    if drainHeld s x t x.core then .error .hold
    let (s, pa, nc) ← orTrap a (xlate s x.core a .rd)
    let acks := ownStores s t [(pa, n)]
    if behind x [(pa, n)] || !acks.isEmpty then return pushLater s t .s a [(pa, n)] acks fun id => .load pa nc n u id
    match plainLoad s x.core t pa n nc with
    | (s, .ok bs) => return pushS s t 14 (extend n u bs)
    | (s, .race) => return pushS (raceAt s t x.core pa a) t 14 0
    | (_, .ecc sub) => eccTrap sub a
/-- A plain scalar store (R178). -/
def stgAt (s : State) (t : Nat) (x : Context) (a : W64) (slot n : Nat) (v : W64) : Res State := do
  if isRemote a then
    remoteOk s a n
    if drainHeld s x t x.core then .error .hold
    if strmFull s x slot then .error .hold
    return deferWrite s x.core (.rem t slot a (.write (place (offOf a) (leBytes v.toNat n))))
  else
    localOk a n
    if drainHeld s x t x.core then .error .hold
    let (s, pa, nc) ← orTrap a (xlate s x.core a .wr)
    return deferWrite s x.core (.glob t [(a, pa, leBytes v.toNat n, nc)])

/-! ### Rows of lanes in local memory (R119, R216-R221) -/

/-- The first lane of a local row whose line the race detector refuses to a load. -/
def rowRace (s : State) (c t : Nat) (ls : List (Nat × W64 × Nat × Bool)) : Option (W64 × Nat) :=
  (ls.find? fun p => (dirPlain (look s.dir (p.2.2.1 / 128)) c t false).isNone).map fun p => (p.2.1, p.2.2.1)
/-- Plain loads of the lanes of a local row: values, and the first address that meets an uncorrectable error, with its
subcode. -/
def loadLanes (s : State) (c t : Nat) (ls : List (Nat × W64 × Nat × Bool)) : State × List (Nat × W32) × Option (W64 × Nat) :=
  ls.foldl (fun (r : State × List (Nat × W32) × Option (W64 × Nat)) p =>
    match plainLoad r.1 c t p.2.2.1 4 p.2.2.2 with
    | (s, .ok bs) => (s, r.2.1 ++ [(p.1, laneOf bs)], r.2.2)
    | (s, .race) => (s, r.2.1, r.2.2)
    | (s, .ecc sub) => (s, r.2.1, r.2.2.or (some (p.2.1, sub)))) (s, [], none)
/-- The row a load has read, from `base` elsewhere. -/
def loaded (base : VReg) (vs : List (Nat × W32)) : VReg := VReg.of fun l => (look vs l).getD (base.lane l)
/-- The physical bytes of the lanes of a local row. -/
def rowSpan (ls : List (Nat × W64 × Nat × Bool)) : List (Nat × Nat) := ls.map fun p => (p.2.2.1, 4)
/-- The row of a remote load from its data (R90). -/
def farRow (mask : W64) (base : VReg) (bs : List Byte) : VReg :=
  mergeLanes mask (VReg.of fun l => laneOf ((bs.drop (4 * l)).take 4)) base
/-- A remote row load performed: at once at this package's own LLC, else requested; `land` gives its value to its entry. A
load that is not performed lands as zero (R90, R119; log entry 73). -/
def rowGo (s : State) (t : Nat) (x : Context) (a : W64) (mask : W64) (base : VReg) (id : Nat)
    (land : State → Option VReg → State) : State :=
  if pkgOf a = s.fab.ep then
    match ownLoad s x a 256 mask none with
    | (s, .ok bs) => land s (some (farRow mask base bs))
    | (s, .error c) => land (postAsync s t c) (some VReg.zero)
  else if !reaches s (pkgOf a) then land (postAsync s t (fabCause 4 a a)) (some VReg.zero)
  else land (sendReq s a 256 mask none x.launch t (.row t id mask base)) none

/-! ### Synchronising accesses (R114-R118) -/

/-- An acquire or release that meets a line dirty under another owner is refused (R118); `v` is the variable. -/
def syncRace (s : State) (c t pa : Nat) (acq : Bool) : Bool :=
  match look s.dir (pa / 128) with
  | none => false
  | some (.d c' t') => c' != c || t' != t
  | some (.k c') => c' != c
  | some (.p c' v) => c' != c && (!acq || v != pa)
/-- Bytes at the home slice as a core's context finds them: what its own core holds dirty there has been written by it
(R112, R118). -/
def homeBytes (s : State) (c pa n : Nat) : List Byte :=
  (List.range n).map fun i =>
    match dcLine s c ((pa + i) / 128) with
    | some d => if d.dirty.getD ((pa + i) % 128) false then d.data.getD ((pa + i) % 128) 0 else rd8 s.mem (pa + i)
    | none => rd8 s.mem (pa + i)
/-- A store performed at the home slice; a copy the core holds follows it. -/
def homeStore (s : State) (c pa : Nat) (bs : List Byte) : State :=
  let s := memWrite s (place pa bs)
  match dcLine s c (pa / 128) with
  | some d => s.modCore c fun k => { k with dc := put k.dc (pa / 128) { d with data := (d.write (pa % 128) bs).data } }
  | none => s
/-- An access that a fence need not wait for below fab scope: a remote write (R115). -/
def Later.isFar (e : Later) : Bool :=
  match e.acc with
  | .release _ _ q _ => q.isSome
  | .rstore _ _ _ _ => true
  | _ => false
/-- The accesses of a context that a fence or arrival of a scope waits for are done (R115). -/
def earlierDone (s : State) (t : Nat) (x : Context) (sc : Scope) : Bool :=
  (x.rels.all Later.isFar) && loadsDone s t && (sc != .fab || writesAcked s t)
/-- A local acquire of n bytes at a physical address, no race met (R117): the bytes, or an uncorrectable error. The
clean copy of the line is dropped with the value, so that nothing older is read after it (R112). -/
def acquireAt (s : State) (c pa n : Nat) (sc : Scope) : State × Option (List Byte) :=
  let s := if scWide sc then recallVar s pa else s
  if s.poison.contains (pa / 128) then (s, none)
  else
    let bs := homeBytes s c pa n
    (if scWide sc then dropClean s c else dropLine s c (pa / 128), some bs)
/-- The variable a release of scope clus or wider marks lines under: its physical address where it is homed in this
package (R116). -/
def relVar (s : State) (c : Nat) (va : W64) : Option Nat :=
  if isRemote va then
    if pkgOf va = s.fab.ep then (xlateExp s (offOf va) .wr).toOption else none
  else (xlate s c va .wr).toOption.map fun r => r.2.1
/-- Performs a local release (R116, R118, R181): its actions, then the store at the home slice. -/
def releaseHere (s : State) (t : Nat) (x : Context) (va val : W64) (sc : Scope) : State :=
  match xlate s x.core va .wr with
  | .error m => postAsync s t (mmCause m va)
  | .ok (s, pa, _) =>
    if syncRace s x.core t pa false then raceAt s t x.core pa va
    else homeStore (releaseActs s x.core t pa sc false) x.core pa (leBytes val.toNat 8)
/-- Sends a remote release on the number it has taken, after its actions (R116, R320). -/
def releaseSend (s : State) (t : Nat) (x : Context) (va val : W64) (sc : Scope) (n q : Nat) : State :=
  let s := releaseActs s x.core t ((relVar s x.core va).getD 0) sc (relVar s x.core va).isNone
  match look s.fab.strms n with
  | some st =>
    if st.failed then s
    else
      let m : StreamMsg := ⟨s.fab.ep, n, q, none, .write (place (offOf va) (leBytes val.toNat 8))⟩
      formMsg s { dst := st.ep, task := t, addr := va, msg := .strm m }
  | none => s
/-- The value of a load that waited lands with its context, wherever its entry stands (R99, R150). -/
def landVal (s : State) (t id : Nat) (v : QVal) : State :=
  s.modCtx t fun x => { x with fr := x.fr.arrive id v, frozen := x.frozen.map fun p => (p.1.arrive id v, p.2) }
/-- A load that waited meets an uncorrectable error after its bundle: it lands as zero, and DATAECC is taken at the next
boundary, as R90 has it of a home's faults (log entry 74). -/
def lateEcc (s : State) (t sub : Nat) (a : W64) : State := postAsync s t { code := cDataEcc, sub := sub, addr := a }
/-- The hold of an LDA ends (R180). -/
def ldaDone (s : State) (t id : Nat) : State := s.modCtx t fun y => { y with holds := y.holds.filter fun h => h != .lda id }
/-- A stream number has been acknowledged, or its stream has failed or is gone. -/
def numAcked (s : State) (p : Nat × Nat) : Bool := ((look s.fab.strms p.1).map fun r => !r.unacked.contains p.2).getD true
/-- What comes before an engine operation a context issues (R111): what its earlier bundles have left to be performed. -/
def forkOf (s : State) (t : Nat) (x : Context) : Fork :=
  { waits := x.rels.map (·.name), acks := ownWrites s t, pends := loadsOut s t x }
/-- All of it has been performed. -/
def forked (s : State) (t : Nat) (f : Fork) : Bool :=
  (f.acks.all (numAcked s)) &&
  (match s.ctx? t with
    | some x => !(x.rels.any fun e => f.waits.contains e.name) && !((loadsOut s t x).any fun n => f.pends.contains n)
    | none => true)
/-- The turn of a waiting access has come: what it waits for is acknowledged and has its value. -/
def Later.ready (s : State) (t : Nat) (e : Later) : Bool :=
  (e.acks.all (numAcked s)) && !((s.fab.reqs.any fun p => match p.2.kind with
    | .scal u id _ _ _ _ | .row u id _ _ => u == t && e.pends.contains id
    | _ => false))
/-- Performs a waiting access of a context other than a remote release, once its turn has come (R112, R114). -/
def performLater (s : State) (t : Nat) (x : Context) (e : Later) : State :=
  let c := x.core
  match e.acc with
  | .release val sc _ _ => releaseHere s t x e.va val sc
  | .acquire sc n u id =>
    if isRemote e.va then
      let s := scalarGo s t x e.va n u (some sc) id fun s v => match v with
        | some v => ldaDone (landVal s t id (.s v)) t id
        | none => s
      if pkgOf e.va = s.fab.ep && scWide sc then dropClean s c else s
    else match xlate s c e.va .rd with
      | .error m => ldaDone (landVal (postAsync s t (mmCause m e.va)) t id (.s 0)) t id
      | .ok (s, pa, _) =>
        if syncRace s c t pa true then ldaDone (landVal (raceAt s t c pa e.va) t id (.s 0)) t id
        else match acquireAt s c pa n sc with
          | (s, some bs) => ldaDone (landVal s t id (.s (extend n u bs))) t id
          | (s, none) => ldaDone (landVal (lateEcc s t 4 e.va) t id (.s 0)) t id
  | .load pa nc n u id =>
    match plainLoad s c t pa n nc with
    | (s, .ok bs) => landVal s t id (.s (extend n u bs))
    | (s, .race) => landVal (raceAt s t c pa e.va) t id (.s 0)
    | (s, .ecc sub) => landVal (lateEcc s t sub e.va) t id (.s 0)
  | .row ls mask base id =>
    match rowRace s c t ls with
    | some (a, pa) => landVal (raceAt s t c pa a) t id (.v VReg.zero)
    | none =>
      match loadLanes s c t ls with
      | (s, vs, none) => landVal s t id (.v (mergeLanes mask (loaded base vs) base))
      | (s, _, some (a, sub)) => landVal (lateEcc s t sub a) t id (.v VReg.zero)
  | .rload n u id => scalarGo s t x e.va n u none id fun s v => match v with
    | some v => landVal s t id (.s v)
    | none => s
  | .rrow mask base id => rowGo s t x e.va mask base id fun s v => match v with
    | some v => landVal s t id (.v v)
    | none => s
  | .store accs => storeAll s c t accs
  | .rstore n q tk body =>
    match look s.fab.strms n with
    | some st =>
      if st.failed then s
      else formMsg s { dst := st.ep, task := t, addr := e.va, msg := .strm ⟨s.fab.ep, n, q, tk, body⟩ }
    | none => s
/-- The first waiting access of a task takes its turn (R112, R114, R181): a remote release stays until its home has
committed it, so that a later synchronising access follows it. -/
def releaseStep (s : State) (t : Nat) : State :=
  match s.ctx? t with
  | some x =>
    match x.rels with
    | e :: q =>
      if !e.ready s t then s
      else match e.acc with
        | .release val sc (some (n, k)) sent =>
          if !sent then
            releaseSend (s.setCtx t { x with rels := { e with acc := .release val sc (some (n, k)) true } :: q }) t x e.va val sc n k
          else if numAcked s (n, k) then s.setCtx t { x with rels := q } else s
        | _ => performLater (s.setCtx t { x with rels := q }) t x e
    | [] => s
  | none => s
/-- Every waiting access that can be performed, in order; a remote release takes two turns. -/
def releaseAll (s : State) (t : Nat) : Nat → State
  | 0 => s
  | n + 1 => releaseAll (releaseStep s t) t n
/-- The actions of a FENCE (R115). -/
def fenceActs (s : State) (c t : Nat) (sc : Scope) : State :=
  match sc with
  | .ctx => s
  | .core => releaseCore s c t
  | _ => dropClean (writeBackMine s c t) c
/-- Sends a phaser operation (R417): a local one is applied in its cycle, another three cycles later. -/
def sendPh (s : State) (t src c n : Nat) (a : PhAct) : State :=
  let d : W64 := s.acyc[dieOf src] + (if c = src then 0 else 3)
  let s := { s with phops := s.phops ++ [{ due := d, src := src, core := c, n := n, task := t, act := a }] }
  if c = src then s.due .phaserOpApply {} else s
/-- The group table entry of a task's own group (R412, R413). -/
def groupEntry (s : State) (t : Nat) : Option Nat :=
  match look s.tasks t with
  | some k => (look s.launches k.launch).bind fun l => l.groups[k.grp]?
  | none => none
/-- The die of a group's lowest-numbered member (R446). -/
def groupHome (s : State) (e : Nat) : Fin 2 :=
  match (List.range 320).find? fun c => ((look s.gtab e).getD 0).getLsbD c with
  | some c => dieOf c
  | none => 0
/-- Sends a generation operation to the instance of its task's group (R446): its latency is counted in cycles of the
instance's die, whose count alone orders what reaches it (log entry 80). -/
def sendGs (s : State) (t c : Nat) (a : GsAct) : State :=
  match groupEntry s t with
  | some e =>
    let h := groupHome s e
    let d : W64 := s.acyc[h] + (if dieOf c = h then 4 else 12)
    { s with gsops := s.gsops ++ [{ due := d, core := c, task := t, inst := e, act := a }] }
  | none => s
/-- Fences, arrivals and generation operations of a context whose earlier accesses are done take effect; pending
releases come before them (R114, R182, R422, R457). -/
def settle (s : State) (t : Nat) : State :=
  match s.ctx? t with
  | none => s
  | some x =>
    let s := releaseAll s t (2 * x.rels.length)
    match s.ctx? t with
    | none => s
    | some x =>
      x.holds.foldl (fun s h =>
        match h with
        | .fence sc =>
          if earlierDone s t x sc then
            (fenceActs s x.core t sc).modCtx t fun y => { y with holds := y.holds.filter fun q => q != .fence sc }
          else s
        | .arrive sc c n =>
          if earlierDone s t x sc then
            let s := (fenceActs s x.core t sc).modCtx t fun y => { y with holds := y.holds.filter fun q => q != .arrive sc c n }
            sendPh s t x.core c n .arrive
          else s
        | .gs a =>
          if earlierDone s t x .pkg then
            let s := (fenceActs s x.core t .pkg).modCtx t fun y => { y with holds := y.holds.filter fun q => q != .gs a }
            sendGs s t x.core a
          else s
        | .lda _ => s
        | .phaw _ _ => s) s
/-- LDA at an address (R117, R180): performed at once, or in its turn behind the accesses of its context that it must follow
(R112, R114, R181). -/
def ldaAt (s : State) (t : Nat) (x : Context) (a : W64) (n : Nat) (u : Bool) (sc : Scope) : Res State := do
  let id := nextId s t
  let hold := fun (s : State) => s.modCtx t fun y => { y with holds := y.holds ++ [.lda id] }
  if isRemote a then
    remoteOk s a n
    if pkgOf a ≠ s.fab.ep then tagFree s x.core
    let span := farSpan s (pkgOf a) (offOf a) n
    let acks := ownStores s t span
    let pends := ownLoads s t span
    if !x.rels.isEmpty || !acks.isEmpty || !pends.isEmpty then
      return hold (pushLater s t .s a [] acks (fun id => .acquire sc n u id) pends)
    let s' := remoteScal s t x a n u (some sc) 14
    if pkgOf a = s.fab.ep then return if scWide sc then dropClean s' x.core else s'
    else return hold s'
  else
    localOk a n
    let (s, pa, _) ← orTrap a (xlate s x.core a .rd)
    let acks := ownStores s t [(pa, n)]
    if !x.rels.isEmpty || !acks.isEmpty then return hold (pushLater s t .s a [(pa, n)] acks fun id => .acquire sc n u id)
    if syncRace s x.core t pa true then
      return pushS (raceAt s t x.core pa a) t 14 0
    match acquireAt s x.core pa n sc with
    | (s, some bs) => return pushS s t 14 (extend n u bs)
    | (_, none) => eccTrap 4 a
/-- STRL at an address (R181): the release takes its place at the end of its bundle, behind its other accesses. -/
def strlAt (s : State) (t : Nat) (x : Context) (a v : W64) (slot : Nat) (sc : Scope) : Res State := do
  if isRemote a then
    remoteOk s a 8
    if strmFull s x slot then .error .hold
    return deferWrite s x.core (.strl t slot a v sc (farSpan s (pkgOf a) (offOf a) 8))
  else
    localOk a 8
    let (s, pa, _) ← orTrap a (xlate s x.core a .wr)
    return deferWrite s x.core (.strl t slot a v sc [(pa, 8)])

end Sys2Proof.Machine
end

