-- ==== Sys2Proof/Machine/CopyOps.lean ====
section
/-!
DEFINITION. The copy engines (R279-R305): tagged addresses, elements, granules, write messages, accumulate-on-write,
sync words, commit buffers, faults.
-/

namespace Sys2Proof.Machine

/-! ### Engines and their commands (R14, R280, R281, R295) -/

/-- The engine the executing C slot drives (R14). -/
def ceOf (s : State) : Bool := (s.latch.map (·.ce)).getD false
/-- The command registers of an engine. -/
def ceRegs (s : State) (c : Nat) (e : Bool) : CeRegs := if e then (s.core c).ce1 else (s.core c).ce0
/-- Changes the command registers of an engine. -/
def modCe (s : State) (c : Nat) (e : Bool) (f : CeRegs → CeRegs) : State :=
  s.modCore c fun k => if e then { k with ce1 := f k.ce1 } else { k with ce0 := f k.ce0 }
/-- The commands an engine holds, oldest first. -/
def cmds (s : State) (c : Nat) (e : Bool) : List Cmd := if e then (s.core c).cq1 else (s.core c).cq0
/-- Changes the commands an engine holds. -/
def modCmds (s : State) (c : Nat) (e : Bool) (f : List Cmd → List Cmd) : State :=
  s.modCore c fun k => if e then { k with cq1 := f k.cq1 } else { k with cq0 := f k.cq0 }
/-- A command by its name. -/
def cmdOf (s : State) (c : Nat) (e : Bool) (id : Nat) : Option Cmd := (cmds s c e).find? fun q => q.id == id
/-- Replaces a command. -/
def setCmd (s : State) (c : Nat) (e : Bool) (q : Cmd) : State :=
  modCmds s c e fun l => l.map fun r => if r.id = q.id then q else r
/-- Removes a command. -/
def dropCmd (s : State) (c : Nat) (e : Bool) (id : Nat) : State := modCmds s c e fun l => l.filter fun r => r.id != id
/-- The engine that holds a command. -/
def findCmd (s : State) (id : Nat) : Option (Nat × Bool × Cmd) :=
  s.cores.findSome? fun p =>
    match p.2.cq0.find? fun q => q.id == id with
    | some q => some (p.1, false, q)
    | none => (p.2.cq1.find? fun q => q.id == id).map fun q => (p.1, true, q)
/-- Another task has a claim on the registers (R281). -/
def claimed (s : State) (c : Nat) (e : Bool) (t : Nat) : Bool :=
  let r := ceRegs s c e
  r.claim && r.wt != some t
/-- The engine takes one more command of the task (R295). -/
def roomFor (s : State) (c : Nat) (e : Bool) (t : Nat) : Bool :=
  decide (((cmds s c e).filter fun q => q.task == t).length < 8) && decide ((cmds s c e).length < 64)
/-- Ends a task's claim on an engine (R281). -/
def unclaim (s : State) (c : Nat) (e : Bool) (t : Nat) : State :=
  modCe s c e fun r => if r.wt = some t then { r with claim := false } else r
/-- A scratchpad write of an engine's rank: with its bundle, after which stores of the other slots stand (R121). -/
def deferEng (s : State) (src : Nat) (w : Write) : State :=
  match s.latch with
  | some _ => s.modLatch fun l => { l with cwrites := w :: l.cwrites }
  | none => applyWrite s src (rkCe (ceOf s)) w
/-- The task has an open sweep on the core: what it issues belongs to its operand fetch (R273). -/
def inSweep (s : State) (c t : Nat) : Bool := ((s.core c).me.sweep.map fun w => w.owner == t).getD false

/-! ### Tickets (R17, R301-R303) -/

/-- The ticket scope of a task; 0 where its launch has none. -/
def scopeOf (s : State) (t : Nat) : Nat :=
  match look s.tasks t with
  | some k => ((look s.launches k.launch).map (·.scope)).getD 0
  | none => 0
/-- The ticket of a task. -/
def ticketOf (s : State) (t : Nat) : W64 := ((look s.tasks t).bind (·.ticket)).getD 0
/-- The head ticket of a scope (R302). -/
def headTicket (s : State) (sc : Nat) : Option W64 :=
  s.tasks.foldl (fun h p =>
    match p.2.ticket with
    | some v =>
      if p.2.closed || ((look s.launches p.2.launch).map (·.scope)).getD 0 != sc then h
      else match h with
        | none => some v
        | some w => some (if v.toNat < w.toNat then v else w)
    | none => h) none
/-- The task's ticket is the head of its scope. -/
def isHead (s : State) (t : Nat) : Bool := headTicket s (scopeOf s t) == some (ticketOf s t)
/-- Entries a commit buffer has in use (R303). -/
def cbUsed (s : State) (st : Nat) : Nat :=
  (s.cb.filter fun o => o.stack == st && (match o.op with | .node _ _ => false | _ => true)).length
/-- Whether T takes effect (R17), and what stops a ticketed instruction on a destination (R301): the issue index. -/
def ticketIdx (s : State) (x : Context) (t op : Nat) (tb : Bool) (dst : W64) : Res (Option Nat) := do
  if !tb || scopeOf s t == 0 then return none
  if dst.extractLsb' 61 3 ≠ 0 then operand op dst
  if ((look s.tasks t).map (·.retired)).getD false then operand op (ticketOf s t)
  return some (((s.ctx? t).map (·.tkiss)).getD x.tkiss)
/-- Counts a ticketed instruction at its issue. -/
def countTick (s : State) (t : Nat) (i : Option Nat) : State :=
  if i.isSome then s.modCtx t fun y => { y with tkiss := y.tkiss + 1 } else s
/-- Counts a ticketed instruction as applied (R311). -/
def tickApplied (s : State) (t : Nat) (i : Option Nat) : State :=
  if i.isSome then s.modCtx t fun y => { y with tkapp := y.tkapp + 1 } else s

/-! ### Tagged addresses (R88) -/

/-- One side of an element: its parts with their lengths, and the translation pages it touches. -/
structure Side where
  parts : List (Spot × Nat) := []
  pages : List (Nat × Nat) := []
deriving DecidableEq, Repr
/-- Nonzero bits that must be zero, or a reserved tag (R88, R89). -/
def badTag (a : W64) : Bool :=
  let tag := a.extractLsb' 61 3
  if tag = 0b000 then a.extractLsb' 57 4 != 0 || (!isRemote a && a.extractLsb' 48 8 != 0)
  else if tag = 0b100 || tag = 0b110 then a.extractLsb' 22 39 != 0
  else if tag = 0b101 then a.extractLsb' 25 36 != 0
  else true
/-- Address bits of the offset of a scratchpad or accumulator tag. -/
def tagOff (a : W64) : Nat := (a.extractLsb' 0 22).toNat
/-- Local memory of n bytes: its parts by line, translated for the engines of a core (R95). -/
def resolveMem (s : State) (c : Nat) (a : W64) (n : Nat) (nd : Need) : State × Except MM Side :=
  (pieces a.toNat n).foldl (fun (r : State × Except MM Side) p =>
    match r.2 with
    | .error _ => r
    | .ok sd =>
      match xlate r.1 c (BitVec.ofNat 64 p.1) nd with
      | .error m => (r.1, .error m)
      | .ok (s, pa, _) =>
        let pg := match findLeaf s c p.1 with
          | .ok (_, lvl, _) => (lvl, p.1 / 2 ^ lvlShift lvl)
          | .error _ => (0, p.1 / 2 ^ 16)
        (s, .ok { parts := sd.parts ++ [(.mem pa, p.2)], pages := if sd.pages.contains pg then sd.pages else sd.pages ++ [pg] })) (s, .ok {})
/-- Resolves n bytes at a tagged address in the order of R101; the flag marks a window target outside the launch. -/
def resolve (s : State) (c launch : Nat) (a : W64) (n al : Nat) (nd : Need) : State × Except (MM × Bool) Side :=
  let tag := a.extractLsb' 61 3
  if badTag a then (s, .error (.addr, false))
  else if a.toNat % al ≠ 0 then (s, .error (.align, false))
  else if tag = 0b100 then
    if spExt (s.core c).part < tagOff a + n then (s, .error (.spbound, false))
    else (s, .ok { parts := [(.pool c (spBase (s.core c).part + tagOff a), n)] })
  else if tag = 0b101 then
    match window s c launch (a.extractLsb' 0 25 |>.setWidth 64) n with
    | .error e => (s, .error e)
    | .ok (tc, o) => (s, .ok { parts := [(.pool tc (spBase (s.core tc).part + o), n)] })
  else if tag = 0b110 then
    if acExt (s.core c).part < tagOff a + n then (s, .error (.spbound, false))
    else (s, .ok { parts := [(.pool c (acBase (s.core c).part + tagOff a), n)] })
  else if isRemote a then
    match remoteChk s a with
    | .error m => (s, .error (m, false))
    | .ok _ => if 2 ^ 46 < offOf a + n then (s, .error (.addr, false)) else (s, .ok { parts := [(.far a, n)] })
  else
    match resolveMem s c a n nd with
    | (s, .error m) => (s, .error (m, false))
    | (s, .ok sd) => (s, .ok sd)
/-- The remote address of a side. -/
def Side.far? (d : Side) : Option W64 :=
  match d.parts with
  | (.far a, _) :: _ => some a
  | _ => none
/-- A part lies in a scratchpad whose banks a PHASE is moving (R145). -/
def Side.draining (s : State) (d : Side) : Bool :=
  d.parts.any fun p => match p.1 with
    | .pool c _ => (s.core c).drain.isSome
    | _ => false

/-! ### Engine reads and writes (R107, R118, R120, R486) -/

/-- Makes the lines of a side ready for an engine access of a core: 9 where the detector refuses one (R118). -/
def readyLines (s : State) (c : Nat) (d : Side) : State × Option Nat :=
  d.parts.foldl (fun (r : State × Option Nat) p =>
    match r.2, p.1 with
    | none, .mem pa => let q := engineLine r.1 c (pa / 128); if q.2 then (q.1, none) else (q.1, some 9)
    | _, _ => r) (s, none)
/-- A part of a side holds an uncorrectable error (R485, R486). -/
def partBad (s : State) (p : Spot × Nat) : Bool :=
  match p.1 with
  | .mem pa => s.poison.contains (pa / 128)
  | .pool k a => (s.core k).badAt a p.2
  | .far _ => false
/-- Reads a side that lies in this package, for a source of a rank on core c, or for an accumulate: its bytes, or 9, or
0x13 for an uncorrectable error (R121, R293, R298). -/
def readSide (s : State) (c rk : Nat) (d : Side) (acc : Bool := false) : State × Except Nat (List Byte) :=
  match readyLines s c d with
  | (s, some e) => (s, .error e)
  | (s, none) =>
    if d.parts.any (partBad s) then (s, .error 0x13)
    else (s, .ok (d.parts.flatMap fun p => match p.1 with
      | .mem pa => rdBytes s.mem pa p.2
      | .pool k a => if acc then (s.core k).accs a p.2 else (s.core k).portsOf (rankAt c k rk) a p.2
      | .far _ => []))
/-- An engine write of bytes within a line: the issuing core's clean copy is dropped (R120). -/
def engWrite (s : State) (c pa : Nat) (bs : List Byte) : State :=
  (memWrite s (place pa bs)).modCore c fun k => { k with dc := del k.dc (pa / 128) }
/-- Writes a side that lies in this package, for a source of a rank on core c, or for an accumulate (R121, R298). -/
def writeSide (s : State) (c rk : Nat) (d : Side) (bs : List Byte) (acc : Bool := false) : State × Option Nat :=
  match readyLines s c d with
  | (s, some e) => (s, some e)
  | (s, none) =>
    let r := d.parts.foldl (fun (r : State × List Byte) p =>
      let v := r.2.take p.2
      (match p.1 with
        | .mem pa => engWrite r.1 c pa v
        | .pool k a => poolWrite r.1 k ((if acc then rkAcc else 0) + rankAt c k rk) (place a v) none
        | .far _ => r.1, r.2.drop p.2)) (s, bs)
    (r.1, none)

/-! ### Accumulate-on-write (R297) -/

/-- Element size of an accumulate. -/
def accSize : AccOp → Nat
  | .addS64 | .minS64 | .maxS64 | .minN64 | .maxN64 | .andB64 | .orB64 | .xorB64 | .swapB64 => 8
  | .addBf16 => 2
  | _ => 4
/-- The lesser or greater of two codes as signed numbers. -/
def pickS (w : Nat) (less : Bool) (a b : Nat) : Nat :=
  if less then (if Arith.sx a w ≤ Arith.sx b w then a else b) else (if Arith.sx b w ≤ Arith.sx a w then a else b)
/-- The new destination value. -/
def accVal (op : AccOp) (old v : Nat) : Nat :=
  match op with
  | .addS32 => (old + v) % 2 ^ 32
  | .addS64 => (old + v) % 2 ^ 64
  | .addF32 => Arith.fAdd Arith.f32 .rne old v
  | .addBf16 => Arith.fAdd Arith.bf16 .rne old v
  | .minS32 => pickS 32 true old v
  | .maxS32 => pickS 32 false old v
  | .minN32 | .minN64 => min old v
  | .maxN32 | .maxN64 => max old v
  | .minS64 => pickS 64 true old v
  | .maxS64 => pickS 64 false old v
  | .minF32 => Arith.fMin Arith.f32 old v
  | .maxF32 => Arith.fMax Arith.f32 old v
  | .andB32 | .andB64 => old &&& v
  | .orB32 | .orB64 => old ||| v
  | .xorB32 | .xorB64 => old ^^^ v
  | .swapB32 | .swapB64 => v
/-- CCAS (R299): the value that stands after it. -/
def casVal (old cmp new : Nat) : Nat := if old = cmp then new else old
/-- A read-modify-write of n bytes of a side in this package by a source of a rank: the old value, or why it is refused
(R298). -/
def rmwSide (s : State) (c rk n : Nat) (d : Side) (f : Nat → Nat) : State × Except Nat Nat :=
  match readSide s c rk d true with
  | (s, .error e) => (s, .error e)
  | (s, .ok bs) =>
    let old := leNat bs
    match writeSide s c rk d (leBytes (f old) n) true with
    | (s, some e) => (s, .error e)
    | (s, none) => (s, .ok old)

/-! ### Sync words and completion objects (R285, R286) -/

/-- COUNT and GEN after an arrival: the loop of R286 takes every whole TARGET. -/
def syncStep (target count gen n : Nat) : Nat × Nat :=
  let c := (count + n) % 2 ^ 32
  if target = 0 then (c, gen) else (c % target, (gen + c / target) % 2 ^ 32)
/-- The three fields of a sync word. -/
def syncWord (s : State) (o : Nat × Nat) : Nat × Nat × Nat :=
  let b := spRead s o.1 o.2 12
  (leNat (b.take 4), leNat ((b.drop 4).take 4), leNat (b.drop 8))
/-- A sync word holds an uncorrectable error (R485). -/
def syncBad (s : State) (o : Nat × Nat) : Bool := spBad s o.1 o.2 12
/-- The tagged address of a scratchpad object of a core, as commands of core c name it. -/
def objAddr (c : Nat) (o : Nat × Nat) : W64 :=
  BitVec.ofNat 64 (2 ^ 63 + (if o.1 = c then 0 else 2 ^ 61 + o.1 % 8 * 2 ^ 22) + o.2)
/-- An arrival of n bytes at a sync word, after the others of its cycle; a store of the cycle stands over it (R286). -/
def syncArrive (s : State) (o : Nat × Nat) (n : Nat) : State :=
  let a := spBase (s.core o.1).part + o.2
  let b := (s.core o.1).accs a 12
  let (c, g) := syncStep (leNat (b.take 4)) (leNat ((b.drop 4).take 4)) (leNat (b.drop 8)) n
  poolWrite s o.1 rkAcc (place (a + 4) (leBytes c 4 ++ leBytes g 4)) none
/-- A command's next arrival would find an uncorrectable error in its sync word: COPY ECC at its address (R293, R485). -/
def arriveBad (s : State) (q : Cmd) : Option (Nat × Nat) :=
  q.obj.filter fun o => q.ck == 1 && !q.stop && syncBad s o
/-- A CK 1 arrival of a command; a write of no byte is none (R300). -/
def arrive (s : State) (q : Cmd) (n : Nat) : State :=
  match q.obj with
  | some o => if q.ck = 1 ∧ !q.stop ∧ n ≠ 0 ∧ !syncBad s o then syncArrive s o n else s
  | none => s
/-! ### Elements (R283) -/

/-- Points of the nest inside one point of levels 0 to l. -/
def radix (e : Vector Nat 6) (l : Nat) : Nat := (e.toList.drop (l + 1)).foldl (· * ·) 1
/-- Index i_l of element k. -/
def coord (e : Vector Nat 6) (k l : Nat) : Nat := k / radix e l % e.getD l 1
/-- Elements of a command. -/
def Cmd.total (q : Cmd) : Nat := q.ext.toList.foldl (· * ·) 1
/-- Elements of a granule (R282). -/
def Cmd.gsize (q : Cmd) : Nat := if q.split = 0 then q.total else radix q.ext (q.split - 1)
/-- An address from its base: the tag stands, the rest wraps at 61 bits. -/
def wrap61 (base off : W64) : W64 := (base.extractLsb' 61 3 ++ (base + off).extractLsb' 0 61 : BitVec 64)
/-- Destination of element k. -/
def Cmd.dstAt (q : Cmd) (k : Nat) : W64 :=
  wrap61 q.dst ((List.range 6).foldl (fun a l => a + BitVec.ofNat 64 (coord q.ext k l) * q.dstr.getD l 0) 0)
/-- Level-0 index of element k on the source side. -/
def Cmd.j0 (q : Cmd) (k : Nat) : Nat :=
  let i := coord q.ext k 0
  if q.perm then (q.words.getD (i - coord q.ext (q.gran * q.gsize) 0) 0).toNat else i
/-- Source of element k. -/
def Cmd.srcAt (q : Cmd) (k : Nat) : W64 :=
  wrap61 q.src ((List.range 6).foldl (fun a l =>
    a + BitVec.ofNat 64 (if l = 0 then q.j0 k else coord q.ext k l) * q.sstr.getD l 0) 0)
/-- Size of an element. -/
def Cmd.esize (q : Cmd) : Nat :=
  match q.kind with
  | .copy sz => 2 ^ sz
  | .acc op => accSize op
  | .accr op _ _ _ => accSize op
  | .cas n _ _ _ _ => n
  | _ => 1
/-- What a destination needs (R95), and its alignment (R297). -/
def Cmd.need (q : Cmd) : Need × Nat :=
  match q.kind with
  | .acc op => (.at_, accSize op)
  | .accr op _ _ _ => (.at_, accSize op)
  | .cas n _ _ _ _ => (.at_, n)
  | _ => (.wr, 1)

/-! ### Write messages (R284, R320, R324, R326) -/

/-- The stream of a task's slot for its engine operations, its task gone or not. -/
def engStrm (s : State) (t slot : Nat) : Option (Nat × Strm) :=
  s.fab.strms.find? fun p => p.2.task == t && p.2.slot == slot && !p.2.closing
/-- The stream a command sends on: the one it holds numbers of, though its slot has been closed since (R326), else that of its
slot. -/
def cmdStrm (s : State) (q : Cmd) : Option (Nat × Strm) :=
  if q.resv.isEmpty && q.seq.isNone then engStrm s q.task q.slot
  else (look s.fab.strms q.strm).map fun r => (q.strm, r)
/-- The launch's FTGCFG admits a home for its ticketed remote operations (R327). -/
def ftgAdmits (s : State) (launch ep : Nat) : Bool :=
  let f := ((look s.launches launch).map (·.ftgcfg)).getD 0
  f.getLsbD 63 && decide ((f.extractLsb' 32 10).toNat ≤ ep) && decide (ep ≤ (f.extractLsb' 48 10).toNat)
/-- A launch has issued a remote ticketed operation (R347). -/
def ftgUse (s : State) (launch : Nat) : State :=
  match look s.launches launch with
  | some l => { s with launches := put s.launches launch { l with ftgUsed := true } }
  | none => s
/-- The launch's FTGCFG admits the home of an address. -/
def ftgOk (s : State) (launch : Nat) (va : W64) : Bool := ftgAdmits s launch (pkgOf va)
/-- Why a remote write of a command is not performed (R323, R327, R346). -/
def farBad (s : State) (q : Cmd) (va : W64) : Option Cause :=
  match cmdStrm s q with
  | none => some (fabCause 1 va (BitVec.ofNat 64 q.slot))
  | some (_, r) =>
    if r.failed then some (fabCause 3 va (BitVec.ofNat 64 q.slot))
    else if r.ep ≠ pkgOf va then some (fabCause 2 va va)
    else if q.tick.isSome && !ftgOk s q.launch va then some (fabCause 8 va va) else none
/-- What a ticketed message of a task carries (R327). -/
def rticketOf (s : State) (launch t idx elem : Nat) : RTicket :=
  let f := ((look s.launches launch).map (·.ftgcfg)).getD 0
  let tk := ticketOf s t
  { id := f.extractLsb' 0 16, wave := (tk.extractLsb' 32 16).toNat, origin := s.fab.ep, ticket := tk, idx := idx, elem := elem }
/-- What a ticketed message of a command carries. -/
def rticket (s : State) (q : Cmd) (elem : Nat) : Option RTicket := q.tick.map fun i => rticketOf s q.launch q.task i elem
/-- Takes n numbers of a stream. -/
def takeNums (s : State) (n : Nat) (r : Strm) (k : Nat) : State × List Nat :=
  let ns := (List.range k).map fun i => (r.next + i) % 2 ^ 32
  ({ s with fab := { s.fab with strms := put s.fab.strms n { r with next := (r.next + k) % 2 ^ 32, unacked := r.unacked ++ ns } } }, ns)
/-- The element of a message of a command that holds a failing offset of its home (R291, R292). -/
def elemAddr (q : Cmd) (a : W64) (off : Nat) : W64 := a + BitVec.ofNat 64 ((off - offOf a) / max q.esize 1 * max q.esize 1)
/-- What stands for the answer of a request whose endpoint became unreachable (R319): FABRIC LOST has been posted. -/
def errLost : Nat := 0x99
/-- Forms a message of a command on a number it has taken. -/
def sendOn (s : State) (q : Cmd) (va : W64) (num bytes elem : Nat) (body : StreamBody) (span : Nat := bytes) : State × Cmd :=
  let n := q.strm
  match look s.fab.strms n with
  | none => (s, q)
  | some r =>
    if r.failed then (s, { q with missed := q.missed ++ [elem] }) else
    let m : StreamMsg := { src := s.fab.ep, strm := n, seq := num, tick := rticket s q elem, body := body }
    (formMsg s { dst := r.ep, task := q.task, addr := va, msg := .strm m },
     { q with sent := q.sent ++ [{ strm := n, seq := num, bytes := bytes, addr := va, gran := q.gran, span := span }] })
/-- A granule of more messages than a stream admits at once reserves the rest of its numbers as they become free (R324,
R326). -/
def topUp (s : State) (q : Cmd) : State × Cmd :=
  if q.resv.isEmpty && decide (0 < q.owed) then
    match engStrm s q.task q.slot with
    | some (n, r) =>
      let p := takeNums s n r (min q.owed (4096 - r.unacked.length))
      (p.1, { q with resv := p.2, strm := n, owed := q.owed - p.2.length })
    | none => (s, q)
  else (s, q)
/-- The command may form a message: a request tag is free (R98), and a number (R324). -/
def canSend (s : State) (c : Nat) (q : Cmd) : Bool :=
  decide (tagsOut s c < 4096) && (!q.resv.isEmpty || q.owed == 0 ||
    ((engStrm s q.task q.slot).map fun p => decide (p.2.unacked.length < 4096)).getD true)
/-- Sends the write message being formed on the next reserved number. -/
def flushMsg (s : State) (q : Cmd) : State × Cmd :=
  match q.open_ with
  | none => (s, q)
  | some (va, m, bs) =>
    let (s, q) := topUp s q
    match q.resv with
    | n :: r => sendOn s { q with open_ := none, resv := r } va n bs.length q.elem (.write bs) m
    | [] => (s, { q with open_ := none })
/-- An element at va of n bytes joins a message of m bytes at a (R320). -/
def joins (a : W64) (m : Nat) (va : W64) (n : Nat) : Bool :=
  va == a + BitVec.ofNat 64 m && decide (m + n ≤ 256) && decide (a.toNat / 256 = (va.toNat + n - 1) / 256)
/-- What the messages of a granule depend on, of one element: the package of a remote source, the bytes of memory its source
names, and its remote destination. -/
structure MsgElem where
  pkg : Option Nat := none
  src : List (Nat × Nat) := []
  dst : Option W64 := none
/-- An element of these must follow the write of the open message at a of m bytes (R283): it reads from the package it goes
to, or bytes it writes. -/
def mustFollow (s : State) (p : MsgElem) (a : W64) (m : Nat) : Bool :=
  p.pkg == some (pkgOf a) || meets p.src (farSpan s (pkgOf a) (offOf a) m)
/-- Messages the elements of a granule form (R320). A message also ends before an element that must follow it (R283). -/
def countMsgs (s : State) (n : Nat) (acc : Bool) : List MsgElem → Option (W64 × Nat) → Nat
  | [], _ => 0
  | p :: r, o =>
    let o := match o with
      | some (a, m) => if mustFollow s p a m then none else some (a, m)
      | none => none
    match p.dst with
    | none => countMsgs s n acc r o
    | some va =>
      if acc then 1 + countMsgs s n acc r none
      else match o with
        | some (a, m) =>
          if joins a m va n then countMsgs s n acc r (some (a, m + n)) else 1 + countMsgs s n acc r (some (va, n))
        | none => 1 + countMsgs s n acc r (some (va, n))

/-! ### Faults (R291-R293) -/

/-- The COPY record's INFO (R292). -/
def copyInfo (gran disc : Nat) (e src : Bool) (r101 : Nat := 0) : W64 :=
  BitVec.ofNat 64 (gran % 2 ^ 32 + (min disc 255) * 2 ^ 32 + (if e then 2 ^ 40 else 0) + (if src then 2 ^ 41 else 0) + r101 * 2 ^ 48)
/-- The numbers a command has taken and will not send become holes of its stream; one that has sent its CLOSE commits them as
voids, and is told of them (R326). -/
def leaveHoles (s : State) (q : Cmd) : State :=
  let ns := q.resv ++ q.seq.toList
  if ns.isEmpty then s
  else match look s.fab.strms q.strm with
    | some r =>
      if r.failed then s
      else if r.closing then
        formMsg s { dst := r.ep, task := r.task, addr := 0,
                    msg := .strm { src := s.fab.ep, strm := q.strm, seq := r.next, tick := none, body := .fill ns } }
      else { s with fab := { s.fab with strms := put s.fab.strms q.strm { r with holes := r.holes ++ ns } } }
    | none => s
/-- A command's pushed value lands as zero where it fails or is discarded (R299). -/
def landZero (s : State) (q : Cmd) : State :=
  match q.kind with
  | .accr _ _ _ p => landVal s q.task p (.s 0)
  | .cas _ _ _ _ p => landVal s q.task p (.s 0)
  | .pmap _ _ _ p => landVal s q.task p (.s 0)
  | _ => s
/-- Ends a command that is discarded or stopped: its operations in commit buffers go, its numbers become holes. -/
def abandonCmd (s : State) (c : Nat) (e : Bool) (q : Cmd) : State :=
  let (s, q) := flushMsg s q
  let s := landZero (leaveHoles s q) q
  let s := { s with cb := s.cb.filter fun o => o.peer.isSome || o.cmd != q.id, fab := { s.fab with reqs := s.fab.reqs.filter fun p => q.asked != some p.1 } }
  dropCmd s c e q.id
/-- A collective, which its engine holds beside its copy commands (R322). -/
def Cmd.isColl (q : Cmd) : Bool := match q.kind with | .coll _ => true | _ => false
/-- Later commands of the task on the engine are discarded (R292): what they have left at commit buffers goes; one that waits
only for acknowledgements ends without its signal, a collective in its next step. -/
def discardAfter (s : State) (c : Nat) (e : Bool) (q : Cmd) : State × Nat :=
  let l := ((cmds s c e).dropWhile fun r => r.id != q.id).drop 1
  let mine := l.filter fun r => r.task == q.task
  (mine.foldl (fun s r =>
      if r.issued || r.isColl then
        setCmd { s with cb := s.cb.filter fun o => o.peer.isSome || o.cmd != r.id } c e { r with stop := true }
      else abandonCmd s c e r) s,
   mine.length)
/-- A COPY cause of a command (R292): pending for its context, or charged to its launch. -/
def postCopy (s : State) (q : Cmd) (sub : Nat) (addr info : W64) : State :=
  postAsync s q.task { code := cCopy, sub := sub, addr := addr, info := info, fetch := q.sweep }
/-- A command that has failed at element k ends: what its earlier elements have left at commit buffers stands (R291), and the
command stays until that is applied (R296, R303). -/
def endFailed (s : State) (c : Nat) (e : Bool) (q : Cmd) (k : Nat) : State :=
  let gone := fun (o : CbOp) => o.peer.isNone && o.cmd == q.id && decide (k ≤ o.elem)
  if s.cb.any fun o => o.peer.isNone && o.cmd == q.id && decide (o.elem < k) then
    let (s, q) := flushMsg s q
    let s := leaveHoles s q
    let s := { s with cb := s.cb.filter fun o => !gone o, fab := { s.fab with reqs := s.fab.reqs.filter fun p => q.asked != some p.1 } }
    setCmd s c e { q with issued := true, stop := true, busy := false, full := false, resv := [], owed := 0, seq := none, plan := [], asked := none }
  else abandonCmd s c e q
/-- A command stops on a failure at element k and ends (R292). One that has failed before, of which earlier elements still
stood at commit buffers, reports no second failure (log entry 88). -/
def copyFault (s : State) (c : Nat) (e : Bool) (q : Cmd) (sub : Nat) (addr : W64) (src : Bool) (k : Nat := q.elem) : State :=
  if q.issued && q.stop then endFailed s c e q k
  else
    let (s, n) := discardAfter s c e q
    let s := if sub = 0x13 then noteUe s (dieOf c) c 0xFF addr else s
    postCopy (endFailed s c e q k) q sub addr (copyInfo q.gran n e src)
/-- A window target outside the launch is logged (R86). -/
def logOut (s : State) (c : Nat) (a : W64) (out : Bool) : State := if out then logViol s (dieOf c) (some 1) c 0xFF none (some a) else s
/-- A remote element refused at its home (R291): the command continues. -/
def copyRemote (s : State) (e : Bool) (q : Cmd) (addr : W64) (gran r101 : Nat) (src : Bool) : State :=
  postCopy s q 0x12 addr (copyInfo gran 0 e src r101)

/-! ### Ticketed operations at the commit buffers (R301, R303) -/

/-- Applies an operation at the LLC for a command of a core: its old value, or 9 or 0x13. -/
def applyTOp (s : State) (c : Nat) (op : TOp) : State × Except Nat Nat :=
  match op with
  | .write bs =>
    match bs with
    | (pa, _) :: _ =>
      match writeSide s c 0 { parts := [(.mem pa, bs.length)] } (bs.map (·.2)) with
      | (s, some e) => (s, .error e)
      | (s, none) => (s, .ok 0)
    | [] => (s, .ok 0)
  | .acc o pa v => rmwSide s c 0 (accSize o) { parts := [(.mem pa, accSize o)] } fun old => accVal o old (v.toNat % 2 ^ (8 * accSize o))
  | .cas n pa cmp new => rmwSide s c 0 n { parts := [(.mem pa, n)] } fun old => casVal old (cmp.toNat % 2 ^ (8 * n)) (new.toNat % 2 ^ (8 * n))
  | .zero => (s, .ok 0)
  | .node _ _ => (s, .ok 0)
/-- Bytes an operation adds to a sync word (R285). -/
def TOp.bytes : TOp → Nat
  | .write bs => bs.length
  | .acc o _ _ => accSize o
  | _ => 0
/-- An operation of a command has been applied: its value lands, its bytes arrive. -/
def opDone (s : State) (q : Cmd) (op : TOp) (old : Nat) : State :=
  let s := match q.kind with
    | .accr _ _ _ p => landVal s q.task p (.s (BitVec.ofNat 64 old))
    | .cas _ _ _ _ p => landVal s q.task p (.s (BitVec.ofNat 64 old))
    | _ => s
  arrive s q op.bytes
/-- The bytes of memory an operation writes. -/
def TOp.span : TOp → List (Nat × Nat)
  | .write bs => match bs with
    | (pa, _) :: _ => [(pa, bs.length)]
    | [] => []
  | .acc o pa _ => [(pa, accSize o)]
  | .cas n pa _ _ => [(pa, n)]
  | _ => []
/-- The bytes of memory a command has still to write (R283): what waits at commit buffers for it. -/
def Cmd.cbSpan (s : State) (q : Cmd) : List (Nat × Nat) :=
  (s.cb.filter fun o => o.peer.isNone && o.cmd == q.id).flatMap fun o => o.op.span
/-- Likewise, with what it has sent or is forming. -/
def Cmd.dueSpan (s : State) (q : Cmd) : List (Nat × Nat) :=
  q.cbSpan s ++ (q.sent.flatMap fun m => farSpan s (pkgOf m.addr) (offOf m.addr) m.span) ++
  (match q.open_ with
    | some (a, m, _) => farSpan s (pkgOf a) (offOf a) m
    | none => [])
/-- The bytes of memory of a side. -/
def Side.span (s : State) (d : Side) : List (Nat × Nat) :=
  d.parts.flatMap fun p => match p.1 with
    | .mem pa => [(pa, p.2)]
    | .far va => farSpan s (pkgOf va) (offOf va) p.2
    | .pool _ _ => []
/-- The local destinations of the elements a ticketed command has not performed. -/
def Cmd.restSpan (s : State) (c : Nat) (q : Cmd) : List (Nat × Nat) :=
  let at1 := fun (a : W64) (n : Nat) => if a.extractLsb' 61 3 ≠ 0 ∨ isRemote a then [] else
    match (resolveMem s c a n .wr).2 with
    | .ok d => d.span s
    | .error _ => []
  if q.issued then []
  else match q.kind with
    | .accr _ a _ _ => at1 a q.esize
    | .cas n a _ _ _ => at1 a n
    | _ => (List.range' q.elem (q.total - q.elem)).flatMap fun k => at1 (q.dstAt k) q.esize
/-- A ticketed operation of the task with a lower issue index that is not performed writes a byte of these (R123). -/
def earlierIdx (s : State) (c : Nat) (q : Cmd) (sp : List (Nat × Nat)) : Bool :=
  match q.tick with
  | none => false
  | some i => (cmds s c false ++ cmds s c true).any fun r =>
      r.task == q.task && (r.tick.map fun j => decide (j < i)).getD false && meets (r.restSpan s c) sp
/-- A buffered operation of a ticket that comes before place (idx, elem) writes a byte of these (R123). -/
def earlierCb (s : State) (sc : Nat) (tk : W64) (idx elem : Nat) (sp : List (Nat × Nat)) : Bool :=
  s.cb.any fun r => r.peer.isNone && r.scope == sc && r.ticket == tk &&
    (decide (r.idx < idx) || (r.idx == idx && decide (r.elem < elem))) && meets r.op.span sp
/-- Applies a ticketed operation of element k of a command at once; a race stops the command (R291). -/
def applyNow (s : State) (c : Nat) (e : Bool) (q : Cmd) (op : TOp) (addr : W64) (k : Nat) : State × Bool :=
  match arriveBad s q with
  | some o => (copyFault s c e q 0x13 (objAddr c o) false k, false)
  | none =>
  match applyTOp s c op with
  | (s, .error sub) => (copyFault s c e q sub addr (sub == 0x13 && (match op with | .write _ => true | _ => false)) k, false)
  | (s, .ok old) => (opDone s q op old, true)
/-- The operations a destination of a ticketed element makes: one per line (R303). -/
def tops (d : Side) (mk : Nat → List Byte → TOp) (bs : List Byte) : List (Nat × TOp) :=
  (d.parts.foldl (fun (r : List (Nat × TOp) × List Byte) p =>
    match p.1 with
    | .mem pa => (r.1 ++ [(pa, mk pa (r.2.take p.2))], r.2.drop p.2)
    | _ => r) ([], bs)).1
/-- Commit buffers have room for the entries of an element, and no earlier ticketed operation of the task waits in an
engine (R303). -/
def cbRoom (s : State) (q : Cmd) (os : List (Nat × TOp)) : Bool :=
  let need := fun st => (os.filter fun o => stackOf o.1 == st).length
  (os.all fun o => decide (cbUsed s (stackOf o.1) + need (stackOf o.1) ≤ 4096)) &&
  s.cores.all fun p => (p.2.cq0 ++ p.2.cq1).all fun r => r.task != q.task || !r.full ||
    decide (q.tick.getD 0 ≤ r.tick.getD 0)
/-- The entries of an element that waits at commit buffers. -/
def cbPut (s : State) (q : Cmd) (os : List (Nat × TOp)) (elem : Nat) : State :=
  { s with cb := s.cb ++ os.map fun o =>
      { stack := stackOf o.1, scope := scopeOf s q.task, ticket := ticketOf s q.task, idx := q.tick.getD 0, elem := elem,
        cmd := q.id, task := q.task, op := o.2 } }

end Sys2Proof.Machine
end

