-- ==== Sys2Proof/Machine/CopyRun.lean ====
section
/-!
DEFINITION. How a copy engine runs a command: the checks of a granule, its elements one after another, its end
(R283, R285, R291, R294, R296, R299, R300).
-/

namespace Sys2Proof.Machine

/-! ### Whose turn it is (R294, R296) -/

/-- A park or a sweep rollback wants the command stopped at its granule boundaries (R274, R294). -/
def parkWanted (s : State) (c : Nat) (q : Cmd) : Bool :=
  (q.sweep && (((s.core c).me.sweep.bind (·.roll)).isSome)) ||
  match s.ctx? q.task with
  | some x => x.park || ((look s.tasks q.task).map (·.st)) == some .parked
  | none => false
/-- An earlier command of the task with equal SLOT is still held (R296). -/
def hasPred (l : List Cmd) (q : Cmd) : Bool :=
  (l.takeWhile fun r => r.id != q.id).any fun r => r.task == q.task && r.slot == q.slot && !r.isColl
/-- The command does not hold up a park (R155): paused, behind one that is, or waiting for its ticket (R304). -/
def cmdStopped (s : State) (l : List Cmd) (q : Cmd) : Bool :=
  q.pause || q.full || q.isColl || (q.issued && s.cb.any fun o => o.peer.isNone && o.cmd == q.id) ||
  (!q.busy && decide (q.gran = 0) && hasPred l q)

/-! ### Checking a granule (R291) -/

/-- What the checks of a granule find. -/
structure Chk where
  st : State
  err : Option (Nat × W64 × Bool) := none     -- subcode, address, source side
  out : Bool := false                         -- a window target outside the launch
  sp : List (Nat × Nat) := []
  dp : List (Nat × Nat) := []
  msgs : List MsgElem := []
  plan : List (List (Spot × Nat) × List (Spot × Nat)) := []
  hold : Bool := false
/-- Adds pages to a set of pages. -/
def addPages (l : List (Nat × Nat)) (n : List (Nat × Nat)) : List (Nat × Nat) :=
  n.foldl (fun l p => if l.contains p then l else l ++ [p]) l
/-- Checks one element: source, then destination, pages in address order, and the granule's pages counted after both (DESIGN CHOICE:
which of several failures of a granule is reported, log entry 103). -/
def checkElem (c : Nat) (q : Cmd) (k : Chk) (i : Nat) : Chk :=
  if k.err.isSome then k
  else
    let sa := q.srcAt i
    let da := q.dstAt i
    match resolve k.st c q.launch sa q.esize 1 .rd with
    | (s, .error (m, out)) => { k with st := s, err := some (m.eng, sa, true), out := out }
    | (s, .ok ss) =>
      match resolve s c q.launch da q.esize q.need.2 q.need.1 with
      | (s, .error (m, out)) => { k with st := s, err := some (m.eng, da, false), out := out }
      | (s, .ok ds) =>
        let sp := addPages k.sp ss.pages
        let dp := addPages k.dp ds.pages
        let err := if 256 < sp.length then some (0x10, sa, true) else if 256 < dp.length then some (0x10, da, false) else none
        { k with st := s, err := err, sp := sp, dp := dp, hold := k.hold || ss.draining s || ds.draining s,
                 msgs := k.msgs ++ [{ pkg := ss.far?.map pkgOf, src := ss.span s, dst := ds.far?.filter fun a => (farBad s q a).isNone }],
                 plan := k.plan ++ [(ss.parts, ds.parts)] }
/-- The list words of a granule, or the offset of one beyond the extent or with an uncorrectable error, and its subcode
(R283, R293). -/
def listWords (s : State) (c : Nat) (q : Cmd) : Except (Nat × Nat) (List W32) :=
  let first := coord q.ext (q.gran * q.gsize) 0
  let n := if q.split = 0 then q.ext.getD 0 1 else 1
  let offs := (List.range n).map fun i => q.list + 4 * (first + i)
  match offs.find? fun o => decide (spExt (s.core c).part < o + 4) || spBad s c o 4 with
  | some o => .error (if spExt (s.core c).part < o + 4 then MM.spbound.code else 0x13, o)
  | none => .ok (offs.map fun o => laneOf (spRead s c o 4))
/-- The checks of a command of one destination. -/
def checkOne (s : State) (c : Nat) (q : Cmd) (a : W64) (n al : Nat) : Chk :=
  match resolve s c q.launch a n al q.need.1 with
  | (s, .error (m, out)) => { st := s, err := some (m.eng, a, false), out := out }
  | (s, .ok d) =>
    { st := s, hold := d.draining s, plan := [([], d.parts)], msgs := [{ dst := d.far?.filter fun a => (farBad s q a).isNone }] }
/-- The checks of the granule a command stands before; its list words are read first. -/
def checkGranule (s : State) (c : Nat) (q : Cmd) : Chk × Cmd :=
  match q.kind with
  | .accr _ a _ _ => (checkOne s c q a q.esize q.need.2, q)
  | .cas _ a _ _ _ => (checkOne s c q a q.esize q.need.2, q)
  | _ =>
    if q.total = 0 then (checkOne s c q q.dst 1 1, q)
    else
      match (if q.perm then listWords s c q else .ok []) with
      | .error (e, o) => ({ st := s, err := some (e, BitVec.ofNat 64 o, true) }, q)
      | .ok ws =>
        let q := { q with words := ws }
        ((List.range' (q.gran * q.gsize) q.gsize).foldl (checkElem c q) { st := s }, q)

/-! ### One element -/

/-- How an element's turn ends. -/
inductive Turn where
  | done (s : State) (q : Cmd)
  | wait (s : State) (q : Cmd)
  | ended (s : State)
/-- An element's turn waits, after what is being formed has left where it must come first. -/
def waitAfter (s : State) (c : Nat) (q : Cmd) (first : Bool) : Turn :=
  if first && q.open_.isSome && canSend s c q then let r := flushMsg s q; .wait r.1 r.2 else .wait s q
/-- Reads a remote source (R283): asks once every earlier remote write of the command to that package has committed, and
every earlier element that writes bytes of it. -/
def readFar (s : State) (c : Nat) (e : Bool) (q : Cmd) (va : W64) : Turn ⊕ (Cmd × RemoteResp) :=
  let same := fun (a : W64) => pkgOf a == pkgOf va
  match q.got with
  | some r => .inr ({ q with got := none, asked := none }, r)
  | none =>
    if (q.open_.map fun o => same o.1).getD false then .inl (waitAfter s c q true)
    else if q.asked.isSome || q.sent.any (fun m => same m.addr) || meets (farSpan s (pkgOf va) (offOf va) q.esize) (q.cbSpan s) then
      .inl (.wait s q)
    else if pkgOf va = s.fab.ep then
      let r := homeLoad s s.fab.ep (offOf va) q.esize 0 none
      .inl (.wait r.1 { q with got := some r.2 })
    else if !reaches s (pkgOf va) then .inr (q, ⟨[], MM.unreach.code, 0⟩)
    else if tagsOut s c < 4096 then
      .inl (.wait (sendReq s va q.esize 0 none q.launch q.task (.copySrc c e q.id)) { q with asked := some s.fresh })
    else .inl (.wait s q)
/-- The next element. -/
def Cmd.next (q : Cmd) : Cmd := { q with elem := q.elem + 1, full := false, plan := q.plan.drop 1 }
/-- The element was not performed. -/
def Cmd.miss (q : Cmd) : Cmd := { q with missed := q.missed ++ [q.elem] }
/-- An element of a CCOPY joins the message being formed or starts the next one (R320); one that was not read adds no
byte. -/
def joinMsg (s : State) (c : Nat) (q : Cmd) (va : W64) (bs : List Byte) : Turn :=
  let b := place (offOf va) bs
  match q.open_ with
  | some (a, m, l) =>
    if joins a m va q.esize then .done s { q with open_ := some (a, m + q.esize, l ++ b) }.next
    else if canSend s c q then let p := flushMsg s q; .done p.1 { p.2 with open_ := some (va, q.esize, b) }.next
    else .wait s q
  | none => .done s { q with open_ := some (va, q.esize, b) }.next
/-- Scratchpad lines of element k of a destination, by core (CK 2). -/
def Cmd.linesAt (q : Cmd) (c k : Nat) : List (Nat × Nat) :=
  let a := q.dstAt k
  let tc := if a.extractLsb' 61 3 = 0b101 then 8 * (c / 8) + (a.extractLsb' 22 3).toNat else c
  (linesOf (tagOff a) q.esize).map fun l => (tc, l)
/-- The lines whose last byte the command has written since it last signalled become full (R285, CK 2). -/
def fillLines (e : Bool) (s : State) (c : Nat) (q : Cmd) : State × Cmd :=
  let q' := { q with told := q.elem }
  if q.ck ≠ 2 ∨ q.total = 0 ∨ q.stop then (s, q')
  else
    let mine := ((List.range' q.told (q.elem - q.told)).flatMap (q.linesAt c)).dedup
    let later := (List.range' q.elem (q.total - q.elem)).flatMap (q.linesAt c)
    let lost := q.missed.flatMap (q.linesAt c)
    ((mine.filter fun l => !later.contains l && !lost.contains l).foldl
      (fun s l => poolWrite s l.1 (rankAt c l.1 (rkCe e)) [] (some (true, [l.2]))) s, q')
/-- A command stops inside a granule (R291): the lines it has wholly written are signalled first (R285). -/
def stopAt (s : State) (c : Nat) (e : Bool) (q : Cmd) (sub : Nat) (a : W64) (src : Bool) : Turn :=
  let r := fillLines e s c q
  .ended (copyFault r.1 c e r.2 sub a src)
/-- Applies the operations of a ticketed element of the head at once, behind those of lower places that touch its bytes, or
parks them (R123, R303). -/
def ticketed (s : State) (c : Nat) (e : Bool) (q : Cmd) (os : List (Nat × TOp)) (addr : W64) : Turn :=
  let sp := os.flatMap fun o => o.2.span
  if isHead s q.task then
    if earlierIdx s c q sp || earlierCb s (scopeOf s q.task) (ticketOf s q.task) (q.tick.getD 0) q.elem sp then .wait s q
    else
      let r := os.foldl (fun (r : State × Bool) o => if r.2 then applyNow r.1 c e q o.2 addr q.elem else r) (s, true)
      if r.2 then .done r.1 q.next else .ended r.1
  else if cbRoom s q os then .done (cbPut s q os q.elem) q.next
  else .wait s { q with full := true }
/-- Writes an element of a CCOPY or CACC whose source bytes are known (R284, R297, R301, R320). -/
def writeElem (s : State) (c : Nat) (e : Bool) (q : Cmd) (da : W64) (d : Side) (bs : List Byte) : Turn :=
  let v := BitVec.ofNat 64 (leNat bs)
  match d.far?, q.kind with
  | some va, .acc op =>
    let (s, q) := topUp s q
    match q.resv with
    | n :: r => let p := sendOn s { q with resv := r } va n q.esize q.elem (.acc op (offOf va) v none); .done p.1 p.2.next
    | [] => .done (postAsync s q.task (fabCause 1 va (BitVec.ofNat 64 q.slot))) q.miss.next
  | some va, _ => joinMsg s c q va bs
  | none, .acc op =>
    if q.tick.isSome then ticketed s c e q (tops d (fun pa _ => .acc op pa v) bs) da
    else match rmwSide s c (rkCe e) q.esize d fun old => accVal op old (leNat bs) with
      | (s, .error sub) => stopAt s c e q sub da false
      | (s, .ok _) => .done (arrive s q q.esize) q.next
  | none, _ =>
    if q.tick.isSome then ticketed s c e q (tops d (fun pa b => .write (place pa b)) bs) da
    else match writeSide s c (rkCe e) d bs with
      | (s, some sub) => stopAt s c e q sub da false
      | (s, none) => .done (arrive s q q.esize) q.next
/-- An element whose remote source was refused is not performed (R291); it keeps its place in its message (R320), and the
number of a message that is left without a byte commits as no effect (log entry 75). -/
def missElem (s : State) (c : Nat) (q : Cmd) (d : Side) : Turn :=
  match d.far?, q.kind with
  | some va, .copy _ => joinMsg s c q.miss va []
  | some va, _ =>
    let (s, q) := topUp s q
    match q.resv with
    | n :: r => let p := sendOn s { q with resv := r } va n 0 q.elem (.write []); .done p.1 p.2.miss.next
    | [] => .done s q.miss.next
  | none, _ => .done s q.miss.next
/-- A destination can take the element now: commit-buffer entries for a ticket that is not the head (R303), a number and a
tag for a remote one (R98, R324). -/
def dstReady (s : State) (c : Nat) (q : Cmd) (d : Side) : Bool :=
  match d.far? with
  | some _ => canSend s c q
  | none => q.tick.isNone || isHead s q.task || cbRoom s q (tops d (fun pa b => .write (place pa b)) (List.replicate q.esize 0))
/-- An element of a CCOPY or CACC, where the checks of its granule found its source and destination (R291). -/
def copyElem (s : State) (c : Nat) (e : Bool) (q : Cmd) : Turn :=
  let sa := q.srcAt q.elem
  let da := q.dstAt q.elem
  let p := q.plan.headD ([], [])
  let ss : Side := { parts := p.1 }
  let ds : Side := { parts := p.2 }
  if !dstReady s c q ds then .wait s { q with full := ds.far?.isNone }
  else
    match ds.far?.bind (farBad s q) with
    | some z => .done (postAsync s q.task z) q.miss.next
    | none =>
      match ss.far? with
      | some va =>
        match readFar s c e q va with
        | .inl t => t
        | .inr (q, r) =>
          if r.err = 16 then stopAt s c e q 0x13 sa true
          else if r.err = errLost then missElem s c q ds
          else if r.err ≠ 0 then missElem (copyRemote s e q sa q.gran r.err true) c q ds
          else writeElem s c e q da ds r.data
      | none =>
        if meets (ss.span s) (q.dueSpan s) then waitAfter s c q true
        else match readSide s c (rkCe e) ss with
          | (s, .error sub) => stopAt s c e q sub sa true
          | (s, .ok bs) => writeElem s c e q da ds bs
/-- A zero-length write (R300). -/
def zeroElem (s : State) (c : Nat) (e : Bool) (q : Cmd) : Turn :=
  let d : Side := { parts := (q.plan.headD ([], [])).2 }
  match d.far? with
  | some va =>
    if !canSend s c q then .wait s q
    else match farBad s q va, q.resv with
      | some z, _ => .done (postAsync s q.task z) q.miss.next
      | none, n :: r => let p := sendOn s { q with resv := r } va n 0 0 (.zero (offOf va) (q.need.1 == .at_)); .done p.1 p.2.next
      | none, [] => .done (postAsync s q.task (fabCause 1 va (BitVec.ofNat 64 q.slot))) q.miss.next
  | none => if q.tick.isNone then .done s q.next else ticketed s c e q (tops d (fun _ _ => TOp.zero) [0]) q.dst
/-- The operation of a CACCR or CCAS at a physical address. -/
def Cmd.retOp (q : Cmd) (pa : Nat) : TOp :=
  match q.kind with
  | .accr op _ v _ => .acc op pa v
  | .cas n _ cmp new _ => .cas n pa cmp new
  | _ => .zero
/-- What a CACCR or CCAS makes of the old value. -/
def Cmd.retVal (q : Cmd) (old : Nat) : Nat :=
  match q.kind with
  | .accr op _ v _ => accVal op old (v.toNat % 2 ^ (8 * accSize op))
  | .cas n _ cmp new _ => casVal old (cmp.toNat % 2 ^ (8 * n)) (new.toNat % 2 ^ (8 * n))
  | _ => old
/-- The message of a remote CACCR or CCAS, answered to request r. -/
def Cmd.retBody (q : Cmd) (off r : Nat) : StreamBody :=
  match q.kind with
  | .accr op _ v _ => .acc op off v (some r)
  | .cas n _ cmp new _ => .cas n off cmp new r
  | _ => .close []
/-- The pushed entry of a returning command. -/
def Cmd.pend (q : Cmd) : Nat :=
  match q.kind with
  | .accr _ _ _ p => p
  | .cas _ _ _ _ p => p
  | _ => 0
/-- The element of a CACCR or CCAS (R299): a remote one goes out on the number it took at issue (R324). -/
def retElem (s : State) (c : Nat) (e : Bool) (q : Cmd) (a : W64) : Turn :=
  let d : Side := { parts := (q.plan.headD ([], [])).2 }
  match d.far? with
  | some va =>
    match farBad s q va, q.seq with
    | some z, _ => .done (landZero (postAsync s q.task z) q) q.miss.next
    | none, none => .done (landZero (postAsync s q.task (fabCause 1 va (BitVec.ofNat 64 q.slot))) q) q.miss.next
    | none, some num =>
      if 4096 ≤ tagsOut s c then .wait s q
      else
        let rq := s.fresh
        let s := s.tick
        let w : Req := { dst := pkgOf va, addr := va, launch := q.launch, kind := .word q.task q.pend q.esize c e q.id }
        let s := { s with fab := { s.fab with reqs := put s.fab.reqs rq w } }
        let p := sendOn s { q with seq := none, asked := some rq } va num 0 0 (q.retBody (offOf va) rq)
        .done p.1 p.2.next
  | none =>
    if q.tick.isSome then ticketed s c e q (tops d (fun pa _ => q.retOp pa) []) a
    else
      match rmwSide s c (rkCe e) q.esize d q.retVal with
      | (s, .error sub) => .ended (copyFault s c e q sub a (sub == 0x13))
      | (s, .ok old) => .done (landVal s q.task q.pend (.s (BitVec.ofNat 64 old))) q.next
/-- The next element of a command. One whose arrival finds an uncorrectable error in its sync word is not performed (R291,
R485). -/
def elemStep (s : State) (c : Nat) (e : Bool) (q : Cmd) : Turn :=
  match arriveBad s q with
  | some o => stopAt s c e q 0x13 (objAddr c o) false
  | none =>
  match q.kind with
  | .accr _ a _ _ => retElem s c e q a
  | .cas _ a _ _ _ => retElem s c e q a
  | _ => if q.total = 0 then zeroElem s c e q else copyElem s c e q

/-! ### A granule -/

/-- Elements of the granule a command is in, or one for a command of a single operation. -/
def Cmd.gcount (q : Cmd) : Nat :=
  match q.kind with
  | .accr _ _ _ _ => 1
  | .cas _ _ _ _ _ => 1
  | _ => if q.total = 0 then 1 else q.gsize
/-- Elements of a command, at least the one operation it is. -/
def Cmd.ecount (q : Cmd) : Nat :=
  match q.kind with
  | .accr _ _ _ _ => 1
  | .cas _ _ _ _ _ => 1
  | _ => if q.total = 0 then 1 else q.total
/-- The end of a granule: what is being formed leaves, numbers left over become holes, full lines are signalled. -/
def endGranule (s : State) (c : Nat) (e : Bool) (q : Cmd) : State :=
  let (s, q) := flushMsg s q
  let s := leaveHoles s q
  let (s, q) := fillLines e s c q
  setCmd s c e { q with resv := [], owed := 0, seq := none, plan := [], gran := q.gran + 1, busy := false, words := [], full := false,
                        issued := decide (q.ecount ≤ q.elem) }
/-- Performs the elements of a granule as far as they go. -/
def performAll (c : Nat) (e : Bool) : Nat → State → Cmd → State
  | 0, s, q => if q.open_.isSome && !canSend s c q then setCmd s c e q else endGranule s c e q
  | n + 1, s, q =>
    match elemStep s c e q with
    | .done s q => performAll c e n s q
    | .wait s q => let r := fillLines e s c q; setCmd r.1 c e r.2
    | .ended s => s
/-- Elements left of the granule in progress. -/
def Cmd.left (q : Cmd) : Nat := (q.gran + 1) * q.gcount - q.elem
/-- Numbers the granule reserves (R326); it waits while the stream has no room for them (R324). -/
def reserve (s : State) (q : Cmd) (k : Chk) : Option (State × Cmd) :=
  let n := match q.kind with
    | .copy _ => countMsgs s q.esize false k.msgs none
    | .acc _ => countMsgs s q.esize true k.msgs none
    | _ => 0
  if n = 0 then some (s, q)
  else match engStrm s q.task q.slot with
    | none => some (s, q)
    | some (st, r) =>
      if r.unacked.length + min n 4096 ≤ 4096 then
        let p := takeNums s st r (min n 4096)
        some (p.1, { q with resv := p.2, strm := st, owed := n - p.2.length })
      else none
/-- A PHASE is moving the banks of what a granule accesses beside its elements: its list words, its object under CK 1
(R145). -/
def ctlDraining (s : State) (c : Nat) (q : Cmd) : Bool :=
  (q.perm && (s.core c).drain.isSome) || (q.ck == 1 && (q.obj.map fun o => (s.core o.1).drain.isSome).getD false)
/-- A granule of a copy, accumulate or returning command (R291). -/
def runGranule (s : State) (c : Nat) (e : Bool) (q : Cmd) : State :=
  if q.busy then performAll c e q.left s q
  else if ctlDraining s c q then s
  else
    let (k, q) := checkGranule s c q
    match k.err with
    | some (sub, a, src) => logOut (copyFault k.st c e q sub a src) c a k.out
    | none =>
      if k.hold then s
      else match reserve k.st q k with
        | none => s
        | some (s, q) => let q := { q with busy := true, plan := k.plan }; performAll c e q.left (setCmd s c e q) q
/-- Whether the command at a boundary may not go on: discarded where it is killed, paused where a park or rollback
wants it and it is split (R294). -/
def boundary (s : State) (c : Nat) (e : Bool) (q : Cmd) : Option State :=
  if q.busy then none
  else if q.stop then some (abandonCmd s c e q)
  else if q.pause then some s
  else if parkWanted s c q && q.split != 0 then some (setCmd s c e { q with pause := true })
  else none
/-- The command at a place of an engine's queue, where its turn has come. -/
def turnOf (s : State) (c : Nat) (e : Bool) (i : Nat) : Option Cmd :=
  match (cmds s c e)[i]? with
  | some q => if q.issued || q.isColl || hasPred (cmds s c e) q then none else some q
  | none => none

/-! ### The end of a command (R285, R296) -/

/-- Every operation of a command has been performed, applied and acknowledged, and no PHASE is moving the banks of the object
it signals at its end (R145). -/
def cmdQuiet (s : State) (q : Cmd) : Bool :=
  q.issued && !(q.ck == 3 && (q.obj.map fun o => (s.core o.1).drain.isSome).getD false) && q.sent.isEmpty && q.asked.isNone && !(s.cb.any fun o => o.peer.isNone && o.cmd == q.id)
/-- A command ends; CK 3 signals its object (R285), but for a zero-length write (R300). -/
def completeCmd (s : State) (c : Nat) (e : Bool) (q : Cmd) : State :=
  let s := match q.obj with
    | some (tc, o) =>
      if q.ck = 3 ∧ q.missed.isEmpty ∧ !q.stop ∧ q.total ≠ 0 then poolWrite s tc (rankAt c tc (rkCe e)) [] (some (true, [o / 128])) else s
    | none => s
  dropCmd (tickApplied s q.task q.tick) c e q.id

/-! ### The head ticket (R302, R303) -/

/-- Applies one operation of this package that waited at a commit buffer. -/
def applyCb (s : State) (o : CbOp) : State :=
  let s := { s with cb := s.cb.filter fun r => r != o }
  match findCmd s o.cmd with
  | some (c, e, q) =>
    let a : W64 := match q.kind with
      | .accr _ a _ _ => a
      | .cas _ a _ _ _ => a
      | _ => if q.total = 0 then q.dst else q.dstAt o.elem
    -- the granules before that of the operation have been performed (R292)
    (applyNow s c e { q with gran := o.elem / max q.gsize 1 } o.op a o.elem).1
  | none => s
/-- Whether one buffered operation comes before another: issue index, then element. -/
def CbOp.before (a b : CbOp) : Bool := decide (a.idx < b.idx) || (a.idx == b.idx && decide (a.elem ≤ b.elem))
/-- The turn of a buffered operation of the head has come: no earlier one of the ticket that touches its bytes is still to be
performed, in a buffer or in an engine (R123). -/
def cbTurn (s : State) (o : CbOp) : Bool :=
  !earlierCb s o.scope o.ticket o.idx o.elem o.op.span &&
  match findCmd s o.cmd with
  | some (c, _, q) => !earlierIdx s c q o.op.span
  | none => true
/-- HEAD_TICKET_APPLY (R303): the copy-engine operations the head has buffered, in (issue index, element) order, those whose
turn has come. -/
def headApply (s : State) (sc : Nat) (tk : W64) : State :=
  let l := sortBy CbOp.before (s.cb.filter fun o => o.peer.isNone && o.scope == sc && o.ticket == tk &&
    (match o.op with | .node _ _ => false | _ => true))
  l.foldl (fun s o => if s.cb.contains o && cbTurn s o then applyCb s o else s) s
/-- Applies what a command of the head ticket still has at commit buffers, where its turn has come (R123, R303). -/
def applyHeld (s : State) (q : Cmd) : State :=
  if q.tick.isSome && scopeOf s q.task != 0 && isHead s q.task then headApply s (scopeOf s q.task) (ticketOf s q.task) else s

end Sys2Proof.Machine
end

