-- ==== Sys2Proof/Machine/Aes.lean ====
section
/-!
DEFINITION. AES-256 (FIPS 197), the AES key unwrap of RFC 3394, which R476 names for KEYSET, and AES-256-GCM
(SP 800-38D), with which R315 seals flits. A run of bytes is the number whose byte i is its i-th byte.
-/

namespace Sys2Proof.Machine

/-- The substitution box, codes 0 to 127. -/
def sboxLo : List Byte :=
  [
   0x63, 0x7c, 0x77, 0x7b, 0xf2, 0x6b, 0x6f, 0xc5, 0x30, 0x01, 0x67, 0x2b, 0xfe, 0xd7, 0xab, 0x76,
   0xca, 0x82, 0xc9, 0x7d, 0xfa, 0x59, 0x47, 0xf0, 0xad, 0xd4, 0xa2, 0xaf, 0x9c, 0xa4, 0x72, 0xc0,
   0xb7, 0xfd, 0x93, 0x26, 0x36, 0x3f, 0xf7, 0xcc, 0x34, 0xa5, 0xe5, 0xf1, 0x71, 0xd8, 0x31, 0x15,
   0x04, 0xc7, 0x23, 0xc3, 0x18, 0x96, 0x05, 0x9a, 0x07, 0x12, 0x80, 0xe2, 0xeb, 0x27, 0xb2, 0x75,
   0x09, 0x83, 0x2c, 0x1a, 0x1b, 0x6e, 0x5a, 0xa0, 0x52, 0x3b, 0xd6, 0xb3, 0x29, 0xe3, 0x2f, 0x84,
   0x53, 0xd1, 0x00, 0xed, 0x20, 0xfc, 0xb1, 0x5b, 0x6a, 0xcb, 0xbe, 0x39, 0x4a, 0x4c, 0x58, 0xcf,
   0xd0, 0xef, 0xaa, 0xfb, 0x43, 0x4d, 0x33, 0x85, 0x45, 0xf9, 0x02, 0x7f, 0x50, 0x3c, 0x9f, 0xa8,
   0x51, 0xa3, 0x40, 0x8f, 0x92, 0x9d, 0x38, 0xf5, 0xbc, 0xb6, 0xda, 0x21, 0x10, 0xff, 0xf3, 0xd2]
/-- The substitution box, codes 128 to 255. -/
def sboxHi : List Byte :=
  [
   0xcd, 0x0c, 0x13, 0xec, 0x5f, 0x97, 0x44, 0x17, 0xc4, 0xa7, 0x7e, 0x3d, 0x64, 0x5d, 0x19, 0x73,
   0x60, 0x81, 0x4f, 0xdc, 0x22, 0x2a, 0x90, 0x88, 0x46, 0xee, 0xb8, 0x14, 0xde, 0x5e, 0x0b, 0xdb,
   0xe0, 0x32, 0x3a, 0x0a, 0x49, 0x06, 0x24, 0x5c, 0xc2, 0xd3, 0xac, 0x62, 0x91, 0x95, 0xe4, 0x79,
   0xe7, 0xc8, 0x37, 0x6d, 0x8d, 0xd5, 0x4e, 0xa9, 0x6c, 0x56, 0xf4, 0xea, 0x65, 0x7a, 0xae, 0x08,
   0xba, 0x78, 0x25, 0x2e, 0x1c, 0xa6, 0xb4, 0xc6, 0xe8, 0xdd, 0x74, 0x1f, 0x4b, 0xbd, 0x8b, 0x8a,
   0x70, 0x3e, 0xb5, 0x66, 0x48, 0x03, 0xf6, 0x0e, 0x61, 0x35, 0x57, 0xb9, 0x86, 0xc1, 0x1d, 0x9e,
   0xe1, 0xf8, 0x98, 0x11, 0x69, 0xd9, 0x8e, 0x94, 0x9b, 0x1e, 0x87, 0xe9, 0xce, 0x55, 0x28, 0xdf,
   0x8c, 0xa1, 0x89, 0x0d, 0xbf, 0xe6, 0x42, 0x68, 0x41, 0x99, 0x2d, 0x0f, 0xb0, 0x54, 0xbb, 0x16]
/-- Byte i of a run. -/
def byteAt (b i : Nat) : Nat := (b >>> (8 * i)) % 256
/-- The run of n bytes f. -/
def runOf (n : Nat) (f : Nat → Nat) : Nat := (List.range n).foldl (fun v i => v + f i <<< (8 * i)) 0
/-- The substitution box as a run. -/
def sboxRun : Nat := leNat (sboxLo ++ sboxHi)
/-- Its inverse. -/
def sboxInvRun : Nat := (List.range 256).foldl (fun v i => v + i <<< (8 * byteAt sboxRun i)) 0
/-- Multiplication by x modulo x^8 + x^4 + x^3 + x + 1. -/
def xtime (a : Nat) : Nat := if a < 128 then 2 * a else (2 * a) ^^^ 0x11B
/-- Multiplication in that field by a factor below 16. -/
def gmul (a n : Nat) : Nat :=
  (if n.testBit 0 then a else 0) ^^^ (if n.testBit 1 then xtime a else 0) ^^^ (if n.testBit 2 then xtime (xtime a) else 0) ^^^
  (if n.testBit 3 then xtime (xtime (xtime a)) else 0)
/-- The words of the key schedule after the first eight, newest first. -/
def aesExpand : Nat → Nat → Nat → List Nat → List Nat
  | 0, _, _, w => w
  | n + 1, i, rc, w =>
    let t := w.getD 0 0
    let sub := fun (v : Nat) => runOf 4 fun k => byteAt sboxRun (byteAt v k)
    let t' :=
      if i % 8 = 0 then sub (t >>> 8 + (t % 256) <<< 24) ^^^ rc
      else if i % 8 = 4 then sub t
      else t
    aesExpand n (i + 1) (if i % 8 = 0 then xtime rc else rc) ((w.getD 7 0 ^^^ t') :: w)
/-- The 15 round keys, last first. -/
def roundKeys (key : Nat) : List Nat :=
  let w := aesExpand 52 8 1 ((List.range 8).reverse.map fun i => (key >>> (32 * i)) % 2 ^ 32)
  (List.range 15).map fun r => (List.range 4).foldl (fun v i => v + w.getD (4 * r + 3 - i) 0 <<< (32 * i)) 0
/-- The inverses of ShiftRows and SubBytes on a block by columns. -/
def invSub (b : Nat) : Nat := runOf 16 fun i => byteAt sboxInvRun (byteAt b ((i + 16 - 4 * (i % 4)) % 16))
/-- The inverse of MixColumns. -/
def invMix (b : Nat) : Nat :=
  runOf 16 fun i =>
    let g := fun (k m : Nat) => gmul (byteAt b (4 * (i / 4) + (i + k) % 4)) m
    g 0 14 ^^^ g 1 11 ^^^ g 2 13 ^^^ g 3 9
/-- The rounds that are left, with the keys they add. -/
def aesRounds : List Nat → Nat → Nat
  | [], b => b
  | [k], b => invSub b ^^^ k
  | k :: r, b => aesRounds r (invMix (invSub b ^^^ k))
/-- Decrypts a block. -/
def aesDec (keys : List Nat) (b : Nat) : Nat :=
  match keys with
  | [] => b
  | k :: r => aesRounds r (b ^^^ k)
/-- The unwrap of RFC 3394 on n blocks of 64 bits, as many steps as are left. -/
def unwrapSteps (keys : List Nat) (n : Nat) : Nat → Nat → List Nat → Nat × List Nat
  | 0, a, r => (a, r)
  | t + 1, a, r =>
    let i := t % n
    let d := aesDec keys ((a ^^^ ((t + 1) <<< 56)) + r.getD i 0 <<< 64)
    unwrapSteps keys n t (d % 2 ^ 64) (r.set i (d >>> 64))
/-- The key a blob of 40 bytes wraps; none where its integrity check fails. -/
def unwrapKey (kek blob : List Byte) : Option (List Byte) :=
  let b := leNat blob
  let u := unwrapSteps (roundKeys (leNat kek)) 4 24 (b % 2 ^ 64) ((List.range 4).map fun i => (b >>> (64 * (i + 1))) % 2 ^ 64)
  if u.1 = 0xA6A6A6A6A6A6A6A6 then some (u.2.flatMap fun v => leBytes v 8) else none

/-! ### AES-256-GCM (R315) -/

/-- SubBytes and ShiftRows on a block by columns. -/
def fwdSub (b : Nat) : Nat := runOf 16 fun i => byteAt sboxRun (byteAt b ((i + 4 * (i % 4)) % 16))
/-- MixColumns. -/
def fwdMix (b : Nat) : Nat :=
  runOf 16 fun i =>
    let g := fun (k m : Nat) => gmul (byteAt b (4 * (i / 4) + (i + k) % 4)) m
    g 0 2 ^^^ g 1 3 ^^^ g 2 1 ^^^ g 3 1
/-- The rounds that are left of an encryption, with the keys they add. -/
def encRounds : List Nat → Nat → Nat
  | [], b => b
  | [k], b => fwdSub b ^^^ k
  | k :: r, b => encRounds r (fwdMix (fwdSub b) ^^^ k)
/-- Encrypts a block of 16 bytes under round keys, last first. -/
def aesEnc (keys : List Nat) (bs : List Byte) : List Byte :=
  match keys.reverse with
  | [] => bs
  | k :: r => leBytes (encRounds r (leNat bs ^^^ k)) 16
/-- Bytes as a number, the first most significant. -/
def beNat (bs : List Byte) : Nat := leNat bs.reverse
/-- A number as n bytes, the first most significant. -/
def beBytes (v n : Nat) : List Byte := (leBytes v n).reverse
/-- Multiplication in the field of GHASH: the bits of x from the most significant on. -/
def ghMul (x : Nat) : Nat → Nat → Nat → Nat
  | 0, z, _ => z
  | n + 1, z, v => ghMul x n (if x.testBit n then z ^^^ v else z) (if v % 2 = 1 then (v / 2) ^^^ (0xE1 <<< 120) else v / 2)
/-- GHASH of n whole blocks under the hash key. -/
def ghash (h : Nat) : Nat → Nat → List Byte → Nat
  | 0, y, _ => y
  | n + 1, y, bs => ghash h n (ghMul (y ^^^ beNat (bs.take 16)) 128 0 h) (bs.drop 16)
/-- The key stream of n blocks from a counter on. -/
def gcmStream (keys : List Nat) (nonce : List Byte) : Nat → Nat → List Byte
  | 0, _ => []
  | n + 1, i => aesEnc keys (nonce ++ beBytes i 4) ++ gcmStream keys nonce n (i + 1)
/-- Text turned into ciphertext, or back. -/
def gcmText (key nonce text : List Byte) : List Byte :=
  List.zipWith (fun (a b : Byte) => a ^^^ b) text (gcmStream (roundKeys (leNat key)) nonce ((text.length + 15) / 16) 2)
/-- The tag of additional data and ciphertext, each a whole number of blocks. -/
def gcmTag (key nonce aad ct : List Byte) : List Byte :=
  let keys := roundKeys (leNat key)
  let h := beNat (aesEnc keys (List.replicate 16 0))
  let all := aad ++ ct ++ beBytes (8 * aad.length) 8 ++ beBytes (8 * ct.length) 8
  beBytes (ghash h (all.length / 16) 0 all ^^^ beNat (aesEnc keys (nonce ++ beBytes 1 4))) 16

end Sys2Proof.Machine
end

