-- ==== Sys2Proof/Machine/MatrixOps.lean ====
section
/-!
DEFINITION. The matrix engine (R248-R276): tile images, beats, accumulator rows, sweeps and the status word.
-/

namespace Sys2Proof.Machine

/-! ### Formats and tiles (R251-R254) -/

/-- Width class of a format in bits (R251). -/
def aWidth : AFmt → Nat
  | .bf16 => 16 | .mxf4 => 4 | _ => 8
/-- Beat depth K (R251). -/
def aDepth : AFmt → Nat
  | .bf16 => 64 | .mxf4 => 256 | _ => 128
/-- Scale blocks of a segment column (R251). -/
def aBlocks : AFmt → Nat
  | .bf16 => 0 | .mxf4 => 8 | _ => 4
/-- Code of a format (R251). -/
def aCode : AFmt → Nat
  | .bf16 => 0 | .mxf8 => 1 | .mxf8b => 2 | .mxi8 => 3 | .mxf4 => 4
/-- The format of a code (R251). -/
def aOfCode : Nat → Option AFmt
  | 0 => some .bf16 | 1 => some .mxf8 | 2 => some .mxf8b | 3 => some .mxi8 | 4 => some .mxf4 | _ => none
/-- Element bytes of a column, CE (R253). -/
def colBytes (sparse : Nat) : Nat := match sparse with | 0 => 128 | 1 => 64 | _ => 32
/-- Metadata bytes of a column, CM (R253). -/
def colMeta (f : AFmt) (sparse : Nat) : Nat := match sparse with | 0 => 0 | 1 => aDepth f / 8 | _ => aDepth f / 16
/-- Bytes of a slice (R253). -/
def sliceBytes (f : AFmt) (sparse : Nat) : Nat := 128 * (colBytes sparse + aBlocks f + colMeta f sparse)
/-- The value of a scaled element of a format (R79); none where it is NaN. -/
def elemVal (f : AFmt) (scale code : Nat) : Option Arith.Ext :=
  match f with
  | .bf16 => if Arith.bf16.isNan code then none else some (Arith.bf16.val code)
  | .mxf8 => Arith.mxValue .mxf8 scale code
  | .mxf8b => Arith.mxValue .mxf8b scale code
  | .mxi8 => Arith.mxValue .mxi8 scale code
  | .mxf4 => Arith.mxValue .mxf4 scale code
/-- Element m of a run of bytes (R77, R83). -/
def elemAt (f : AFmt) (b : Nat → Nat) (m : Nat) : Nat :=
  match aWidth f with
  | 16 => b (2 * m) + 256 * b (2 * m + 1)
  | 4 => b (m / 2) / 16 ^ (m % 2) % 16
  | _ => b m
/-- The index of kept element m of a column (R254). -/
def metaIdx (h : Half) (s j m : Nat) : Nat :=
  let base := s * h.sliceb + 128 * (colBytes h.sparse + aBlocks h.bfmt) + j * colMeta h.bfmt h.sparse
  ((h.bytes.getD (base + m / 4) 0).toNat / 4 ^ (m % 4)) % 4
/-- Positions kept in column j of slice s, with the element number of each (R254). -/
def keptOf (h : Half) (s j : Nat) : List (Nat × Nat) :=
  match h.sparse with
  | 0 => (List.range (aDepth h.bfmt)).map fun k => (k, k)
  | 1 => (List.range (aDepth h.bfmt / 2)).map fun m => (4 * (m / 2) + metaIdx h s j m, m)
  | _ => (List.range (aDepth h.bfmt / 4)).map fun m => (4 * m + metaIdx h s j m, m)
/-- Weight element m of column j of slice s, at position k (R253, R254). -/
def weightVal (h : Half) (s j k m : Nat) : Option Arith.Ext :=
  let base := s * h.sliceb
  let scale := (h.bytes.getD (base + 128 * colBytes h.sparse + j * aBlocks h.bfmt + k / 32) 0).toNat
  elemVal h.bfmt scale (elemAt h.bfmt (fun i => (h.bytes.getD (base + j * colBytes h.sparse + i) 0).toNat) m)
/-- Activation element k of a row (R256). -/
def actVal (f : AFmt) (row : VReg) (k : Nat) : Option Arith.Ext :=
  elemVal f ((row.lane (32 + k / 32)).toNat % 256) (elemAt f (fun i => ((row.lane (i / 4)).toNat / 256 ^ (i % 4)) % 256) k)
/-- A product; none where it is NaN (R82). -/
def mulVal : Option Arith.Ext → Option Arith.Ext → Option Arith.Ext
  | some a, some b => Arith.mulExt a b
  | _, _ => none
/-- The beat sum of an activation row with column j of slice s (R81, R82). -/
def beatSum (h : Half) (f : AFmt) (row : VReg) (s j : Nat) : Option Arith.Ext :=
  (Arith.sum ((keptOf h s j).map fun p => mulVal (actVal f row p.1) (weightVal h s j p.1 p.2))).val .rne
/-- Group width Gp of a mode; 0 in normal mode (R248). -/
def gwWidth : Gw → Nat
  | .normal => 0 | .g8 => 8 | .g16 => 16 | .g32 => 32 | .g64 => 64 | .g128 => 128
/-- Code of a mode. -/
def gwCode : Gw → Nat
  | .normal => 0 | .g8 => 1 | .g16 => 2 | .g32 => 3 | .g64 => 4 | .g128 => 5
/-- OUT of a normal-mode beat (R257). -/
def beatNormal (m : MatrixEng) (h : Half) (s : Nat) : List (Option Arith.Ext) :=
  (List.range 128).map (beatSum h m.afmt m.inRow s)
/-- OUT of a swapped-mode beat over a column group (R257). -/
def beatSwapped (m : MatrixEng) (h : Half) (s cg : Nat) : List (Option Arith.Ext) :=
  let gp := gwWidth m.gw
  (List.range 128).map fun e => beatSum h m.afmt ((look m.slots (e % gp)).getD VReg.zero) s (cg * (128 / gp) + e / gp)

/-! ### Halves and images (R252, R255) -/

/-- A half by number. -/
def MatrixEng.half (m : MatrixEng) (h : Nat) : Half := if h = 0 then m.h0 else m.h1
/-- Sets a half. -/
def MatrixEng.setHalf (m : MatrixEng) (h : Nat) (v : Half) : MatrixEng := if h = 0 then { m with h0 := v } else { m with h1 := v }
/-- Changes the matrix engine of a core. -/
def State.modMe (s : State) (c : Nat) (f : MatrixEng → MatrixEng) : State := s.modCore c fun k => { k with me := f k.me }
/-- The header fields of an image: format, sparsity, slices and bytes of a slice (R252); none where it is invalid. -/
def tileHeader (b : List Byte) : Option (AFmt × Nat × Nat × Nat) :=
  let at_ := fun i n => leNat ((b.drop i).take n)
  match aOfCode (at_ 4 1) with
  | none => none
  | some f =>
    let sp := at_ 5 1
    let ns := at_ 6 1
    if b.length = 64 ∧ at_ 0 4 = 0x7E170001 ∧ sp ≤ 2 ∧ 1 ≤ ns ∧ ns ≤ 16 ∧ at_ 7 1 = 0 ∧ at_ 8 4 = sliceBytes f sp ∧
        at_ 12 52 = 0 ∧ ns * sliceBytes f sp ≤ 262144 then some (f, sp, ns, sliceBytes f sp)
    else none
/-- Under 2:4 the two indices of a group rise strictly (R254). -/
def tileOk (h : Half) : Bool :=
  h.sparse != 1 || (List.range h.nslice).all fun s => (List.range 128).all fun j =>
    (List.range (aDepth h.bfmt / 4)).all fun g => decide (metaIdx h s j (2 * g) < metaIdx h s j (2 * g + 1))
/-- A half whose transfer failed, with its detail and address (R255). -/
def Half.fail (h : Half) (detail : Nat) (a : W64) : Half :=
  { h with st := .failed, detail := detail, addr := a, bytes := [], hdr := [], asked := none }
/-- A half whose whole image has arrived. -/
def Half.load (h : Half) (hdr body : List Byte) : Half :=
  match tileHeader hdr with
  | none => h.fail 0x100 h.src
  | some (f, sp, ns, sb) =>
    let h' := { h with st := .ready, bfmt := f, sparse := sp, nslice := ns, sliceb := sb, bytes := body, hdr := [], asked := none }
    if tileOk h' then h' else h.fail 0x100 h.src

/-- An image's source is no space that MWLD takes, or its address breaks R88, R252 or R264: the detail (log entry 27). -/
def tileBad (a : W64) : Option Nat :=
  let tag := a.extractLsb' 61 3
  if tag = 0b101 then some MM.window.code
  else if tag = 0b110 then some MM.spbound.code
  else if badTag a then some MM.addr.code
  else if a.extractLsb' 0 6 ≠ 0 then some 0x100 else none
/-- Reads n bytes of an image from its source at an offset (R264): the issuing core's scratchpad or local global memory;
the detail with its address. Detail 0x100 stands for a source with an uncorrectable error. -/
def tileRead (s : State) (c : Nat) (a : W64) (n : Nat) : State × Except (Nat × W64) (List Byte) :=
  match tileBad a with
  | some d => (s, .error (d, a))
  | none =>
    if a.extractLsb' 61 3 = 0b100 then
      if spExt (s.core c).part < tagOff a + n then (s, .error (MM.spbound.code, a))
      else if spBad s c (tagOff a) n then (noteUe s (dieOf c) c 0xFF a, .error (0x100, a))
      else (s, .ok (spRead s c (tagOff a) n))
    else
      match engRead s c a n with
      | (s, .error (16, a)) => (noteUe s (dieOf c) c 0xFF a, .error (0x100, a))
      | r => r

/-! ### The accumulator store (R87, R258) -/

/-- Rows of the accumulator store. -/
def acRows (s : State) (c : Nat) : Nat := 128 * acBank (s.core c).part
/-- Pool byte of element e of a row. -/
def accAddr (s : State) (c row e : Nat) : Nat := acBase (s.core c).part + 512 * row + 4 * e
/-- An accumulator element as an M slot finds it: before the writes of its cycle (R259). -/
def accElem (s : State) (c row e : Nat) : Nat := leNat ((s.core c).ports (accAddr s c row e) 4)
/-- The rank of an M slot: of the sources that write one accumulator byte in a cycle its value stands (R259). -/
def rkM : Nat := 0
/-- A new row of 128 f32 codes. -/
def accWrite (s : State) (c row : Nat) (vs : List Nat) : State :=
  poolWrite s c rkM (place (accAddr s c row 0) (vs.flatMap fun v => leBytes v 4)) none
/-- acc + OUT with one rounding (R258). -/
def accAdd (acc : Nat) (o : Option Arith.Ext) : Nat :=
  if Arith.f32.isNan acc then Arith.f32.canon
  else match o with
    | none => Arith.f32.canon
    | some v =>
      match Arith.addExt .rne (Arith.f32.val acc) v with
      | none => Arith.f32.canon
      | some r => Arith.roundFmt Arith.f32 r
/-- Accumulates OUT into a row (R258, R267). -/
def accumulate (s : State) (c row : Nat) : State :=
  let out := (s.core c).me.out
  accWrite s c row ((List.range 128).map fun e => accAdd (accElem s c row e) ((out.getD e none)))
/-- The drained value of an element in a format (R269). -/
def drainVal (f : Arith.Fmt) (acc sc : Nat) : Nat :=
  if Arith.f32.isNan acc || Arith.f32.isNan sc then f.canon
  else match Arith.mulExt (Arith.f32.val acc) (Arith.f32.val sc) with
    | none => f.canon
    | some v => Arith.roundFmt f v
/-- The MX row of 128 f32 codes: elements from byte 0, the scale of block b in lane 32 + b (R269). -/
def drainMx (f : MxFmt) (v : Nat → Nat) : VReg :=
  let q := (List.range 4).map fun b => Arith.mxQuant f ((List.range 32).map fun i => v (32 * b + i))
  let w := Arith.mxWidth f
  let elem := fun e => ((q.getD (e / 32) (0, [])).2).getD (e % 32) 0
  VReg.of fun l =>
    if l < 32 then
      let per := 32 / w
      if l * per < 128 then BitVec.ofNat 32 ((List.range per).foldl (fun a i => a + elem (l * per + i) * 2 ^ (w * i)) 0) else 0
    else if l < 36 then BitVec.ofNat 32 (q.getD (l - 32) (0, [])).1 else 0
/-- What MDRN pushes (R269). -/
def drainRow (df : DrainFmt) (acc : Nat → Nat) (sc : Nat) : VReg :=
  let v32 := fun e => drainVal Arith.f32 (acc e) sc
  match df with
  | .f32lo => VReg.of fun l => BitVec.ofNat 32 (v32 l)
  | .f32hi => VReg.of fun l => BitVec.ofNat 32 (v32 (64 + l))
  | .bf16 => VReg.of fun l => BitVec.ofNat 32 (drainVal Arith.bf16 (acc (2 * l)) sc + 65536 * drainVal Arith.bf16 (acc (2 * l + 1)) sc)
  | .mxf8 => drainMx .mxf8 v32
  | .mxf8b => drainMx .mxf8b v32
  | .mxi8 => drainMx .mxi8 v32
  | .mxf4 => drainMx .mxf4 v32

/-! ### Sweeps (R272-R276) -/

/-- Operations of the operand fetch that have neither completed nor failed, among those issued before the bundle; those of the MEND
bundle itself are not waited for, and their failure after it rolls nothing back (DESIGN CHOICE, log entry 99). -/
def fetchOpen (s : State) (c : Nat) : Bool :=
  let k := s.core c
  let lim := (s.latch.map (·.fresh0)).getD s.fresh
  (k.cq0 ++ k.cq1).any (fun q => q.sweep && decide (q.id < lim)) ||
  (k.me.h0.st == .loading && k.me.h0.fetch) || (k.me.h1.st == .loading && k.me.h1.fetch)
/-- Closes a sweep: nothing belongs to an operand fetch any more. -/
def closeSweep (s : State) (c : Nat) : State :=
  s.modCore c fun k => { k with
    cq0 := k.cq0.map fun q => { q with sweep := false }, cq1 := k.cq1.map fun q => { q with sweep := false },
    me := { k.me with sweep := none, h0 := { k.me.h0 with fetch := false }, h1 := { k.me.h1 with fetch := false } } }
/-- A command stands behind a paused one of its task with equal SLOT on its engine, so it gets no turn (R296). -/
def behindPaused (l : List Cmd) (q : Cmd) : Bool :=
  !q.busy && q.gran == 0 && (l.takeWhile fun r => r.id != q.id).any fun r => r.task == q.task && r.slot == q.slot && r.pause
/-- A sweep's commands have completed or stand at a split granule (R274 step 1). -/
def fetchQuiet (s : State) (c : Nat) : Bool :=
  let k := s.core c
  let still := fun (l : List Cmd) => l.all fun q => !q.sweep || q.pause || behindPaused l q
  still k.cq0 && still k.cq1
/-- Commands of a sweep that stand at a split granule are abandoned (R274 step 2). -/
def dropFetch (s : State) (c : Nat) : State :=
  [false, true].foldl (fun s e => ((cmds s c e).filter (·.sweep)).foldl (fun s q => abandonCmd s c e q) s) s
/-- A half after a rollback (R274 steps 2 and 3). -/
def Half.rolled (h : Half) : Half :=
  if h.st == .failed || (h.st == .loading && h.fetch) then {} else { h with fetch := false }
/-- Rolls a sweep back (R274 steps 2 to 5), leaving its owner at the MSWEEP bundle. -/
def rollBack (s : State) (c : Nat) (w : Sweep) : State :=
  let s := dropFetch s c
  let s := poolWrite s c rkM (place (acBase (s.core c).part + 512 * w.wbase) w.rows) none
  let s := s.modMe c fun m => { m with
    slots := w.slots, sel := w.sel, selv := w.selv, gw := w.gw, afmt := w.afmt, inv := false, outv := false,
    filled := none, filling := none, sweep := none, h0 := m.h0.rolled, h1 := m.h1.rolled, replays := m.replays + 1 }
  s.modCtx w.owner fun x => { x with pc := w.pc, npc := w.pc, fr := { x.fr with nest := { x.fr.nest with act := [], pos := 0, buf := [] } } }

/-! ### Status (R278) -/

/-- Code of a half's state. -/
def halfCode : HalfSt → Nat
  | .empty => 0 | .loading => 1 | .ready => 2 | .failed => 3
/-- MESTAT as a context of the core reads it (R278). SWCTX of a parked owner is the number it had when it was parked (log
entry 76). -/
def mestat (s : State) (c t : Nat) : W64 :=
  let m := (s.core c).me
  let sw := match m.sweep with
    | none => 0
    | some w => w.wbase * 2 ^ 26 + (w.wlen - 1) * 2 ^ 20 + (if w.owner = t then 2 ^ 19 else 0) +
        (((s.ctx? w.owner).map (·.num)).getD 0) * 2 ^ 15 + 2 ^ 14
  BitVec.ofNat 64 (sw + (if m.outv then 2 ^ 13 else 0) + (if m.inv then 2 ^ 12 else 0) + aCode m.afmt * 2 ^ 9 +
    gwCode m.gw * 2 ^ 6 + m.sel * 2 ^ 5 + (if m.selv then 2 ^ 4 else 0) + halfCode m.h1.st * 4 + halfCode m.h0.st)

/-! ### Checks (R277) -/

/-- The first subcode that holds, in ascending order. -/
def meStop : List (Bool × Nat × W64) → Res Unit
  | [] => .ok ()
  | (true, sub, info) :: _ => trapWith cMatrix sub info
  | (false, _) :: r => meStop r
/-- SWEEPBUSY (R273). -/
def busySweep (s : State) (c t : Nat) : Bool × Nat × W64 :=
  match (s.core c).me.sweep with
  | some w => (w.owner != t, 11, BitVec.ofNat 64 (((s.ctx? w.owner).map (·.num)).getD 0))
  | none => (false, 11, 0)
/-- OUTWIN for rows r to r + n - 1 (R273). -/
def outWin (s : State) (c t r n : Nat) : Bool × Nat × W64 :=
  match (s.core c).me.sweep with
  | some w =>
    let bad := if r < w.wbase then r else max r (w.wbase + w.wlen)
    (w.owner == t && (decide (r < w.wbase) || decide (w.wbase + w.wlen < r + n)), 10, BitVec.ofNat 64 bad)
  | none => (false, 10, 0)
/-- ROWRANGE for rows r to r + n - 1 (R277). -/
def rowRange (s : State) (c r n : Nat) : Bool × Nat × W64 :=
  (decide (acRows s c < r + n), 1, BitVec.ofNat 64 (max r (acRows s c)))
/-- MECC of a row of the accumulator store (R277, R485). -/
def rowEcc (s : State) (c r n : Nat) : Bool × Nat × W64 := ((s.core c).badAt (accAddr s c r 0) (512 * n), 13, 1)
/-- MECC of a half. -/
def halfEcc (h : Half) : Bool × Nat × W64 := (h.bad, 13, 0)
/-- Held until the array holds the pair a normal-mode beat needs (R260); a lone slot starts the fill at once. -/
def needFill (s : State) (c seg : Nat) : Option State :=
  let m := (s.core c).me
  if m.filled = some (m.sel, seg) then none
  else
    match s.latch with
    | some _ => some (s.modLatch fun l => { l with want := some (m.sel, seg) })
    | none => some (s.modMe c fun m => { m with filling := some (m.sel, seg, s.acyc[dieOf c] + 32) })

end Sys2Proof.Machine
end

