-- ==== Sys2Proof/Machine/NodeOps.lean ====
section
/-!
DEFINITION. The Basin (R430-R443): node records, chain walks, selection, allocation, and the node operations of this
package that have been issued and are not done.
-/

namespace Sys2Proof.Machine

/-! ### Identifiers and records (R430, R431) -/

/-- The null identifier. -/
def nullId : W32 := 0xFFFFFFFF
/-- The package of an identifier. -/
def idPkg (x : W32) : Nat := (x.extractLsb' 22 10).toNat
/-- The die of an identifier. -/
def idDie (x : W32) : Nat := (x.extractLsb' 21 1).toNat
/-- The index of an identifier. -/
def idIndex (x : W32) : Nat := (x.extractLsb' 0 21).toNat
/-- An identifier of this package. -/
def mkId (s : State) (die i : Nat) : W32 := BitVec.ofNat 32 (s.fab.ep * 2 ^ 22 + die * 2 ^ 21 + i)
/-- The records of a die. -/
def basinOf (s : State) (die : Nat) : SMap NodeRec := s.basin.getD die []
/-- Sets the records of a die. -/
def setBasin (s : State) (die : Nat) (m : SMap NodeRec) : State := { s with basin := s.basin.setIfInBounds die m }
/-- The record of an identifier; none where it is free or not of this package. -/
def recAt (s : State) (x : W32) : Option NodeRec :=
  if x = nullId ∨ idPkg x ≠ s.fab.ep ∨ 2 ^ 20 ≤ idIndex x then none else look (basinOf s (idDie x)) (idIndex x)
/-- Sets the record of an identifier of this package. -/
def putRec (s : State) (x : W32) (r : NodeRec) : State := setBasin s (idDie x) (put (basinOf s (idDie x)) (idIndex x) r)
/-- FLAGS of a record (R430). -/
def NodeRec.flags (r : NodeRec) : Nat := 1 + (if r.exp then 2 else 0) + (if r.term then 4 else 0) + r.uf.toNat * 2 ^ 8
/-- The four words of a record (R430). -/
def NodeRec.word (r : NodeRec) (i : Nat) : Nat :=
  match i with
  | 0 => r.n.toNat + r.vl.toNat * 2 ^ 32 + r.flags * 2 ^ 48
  | 1 => r.w.toNat
  | 2 => r.parent.toNat + r.first.toNat * 2 ^ 32
  | _ => r.nch.toNat + r.p.toNat * 2 ^ 16 + r.user.toNat * 2 ^ 32
/-- The 32 bytes of a record. -/
def NodeRec.bytes (r : NodeRec) : List Byte := (List.range 4).flatMap fun i => leBytes (r.word i) 8
/-- The child run of a record. -/
def NodeRec.kids (r : NodeRec) : List W32 := (List.range r.nch.toNat).map fun i => r.first + BitVec.ofNat 32 i

/-! ### Failures (R432, R443, R444) -/

/-- Memory-side subcodes of STATS. -/
def nsNoRec : Nat := 0x10
/-- R444. -/
def nsNotOwner : Nat := 0x11
/-- R444. -/
def nsChain : Nat := 0x12
/-- R444. -/
def nsEcc : Nat := 0x13
/-- Who performs a node operation: the endpoint and launch, and for the logs the core and context of a local one. -/
structure Who where
  ep : Nat
  launch : Nat
  core : Nat := 0xFFFF
  ctx : Nat := 0xFF
/-- The record is readable (R432, R485): else the subcode. -/
def readRec (s : State) (x : W32) : Except Nat NodeRec :=
  match recAt s x with
  | none => .error nsNoRec
  | some r => if r.bad then .error nsEcc else .ok r
/-- The record may be written (R432). -/
def writeRec (s : State) (w : Who) (x : W32) : Except Nat NodeRec :=
  match recAt s x with
  | none => .error nsNoRec
  | some r => if r.owner ≠ (w.ep, w.launch) then .error nsNotOwner else if r.bad then .error nsEcc else .ok r
/-- What a failure leaves in the logs of the record's die (R432, R488, R494). -/
def nsLog (s : State) (w : Who) (sub : Nat) (x : W32) : State :=
  let d : Fin 2 := if idDie x = 0 then 0 else 1
  if sub = nsNotOwner then logViol s d (some 4) w.core w.ctx (some w.ep) (some (x.setWidth 64))
  else if sub = nsEcc then noteUe s d w.core w.ctx (x.setWidth 64)
  else s

/-! ### Walking a chain (R436) -/

/-- NSVL and NSBACK at one record; `neg` is s = −1. -/
def updateRec (op : NsOp) (neg : Bool) (r : NodeRec) : NodeRec :=
  match op with
  | .vl amt => { r with vl := BitVec.ofNat 16 (min (r.vl.toNat + amt.toNat) 0xFFFF) }
  | .back v vlr _ =>
    let d := Arith.toFx64 v
    { r with w := if neg then r.w - d else r.w + d, n := BitVec.ofNat 32 (min (r.n.toNat + 1) 0xFFFFFFFF),
             vl := BitVec.ofNat 16 (r.vl.toNat - vlr.toNat) }
  | _ => r
/-- The sign alternates along the chain. -/
def nsAlt : NsOp → Bool
  | .back _ _ a => a
  | _ => false
/-- The operation walks a chain. -/
def nsWalks : NsOp → Bool
  | .vl _ => true
  | .back _ _ _ => true
  | _ => false
/-- How a stretch of a walk ends: more records to come, or the end with its failure. -/
inductive WalkEnd where
  | more
  | done (err : Option (Nat × W32))
deriving DecidableEq, Repr
/-- Where a walk stands. -/
structure WalkAt where
  cur : W32
  neg : Bool := false
  visited : Nat := 0
/-- Up to `fuel` consecutive records of a walk on one die. -/
def walkRun (w : Who) (op : NsOp) (die : Nat) : Nat → State → WalkAt → State × WalkAt × WalkEnd
  | 0, s, a => (s, a, .more)
  | fuel + 1, s, a =>
    if idDie a.cur ≠ die then (s, a, .more)
    else if 65536 ≤ a.visited then (s, a, .done (some (nsChain, a.cur)))
    else
      match writeRec s w a.cur with
      | .error e => (nsLog s w e a.cur, a, .done (some (e, a.cur)))
      | .ok r =>
        let s := putRec s a.cur (updateRec op a.neg r)
        if r.parent = nullId then (s, a, .done none)
        else walkRun w op die fuel s { cur := r.parent, neg := a.neg != nsAlt op, visited := a.visited + 1 }
/-- One step of a walk: up to 256 consecutive records on one die. -/
def walkStep (w : Who) (op : NsOp) (s : State) (a : WalkAt) : State × WalkAt × WalkEnd := walkRun w op (idDie a.cur) 256 s a
/-- A whole walk, step after step. -/
def walkAll (w : Who) (op : NsOp) : Nat → State → WalkAt → State × Option (Nat × W32)
  | 0, s, _ => (s, none)
  | fuel + 1, s, a =>
    match walkStep w op s a with
    | (s, _, .done e) => (s, e)
    | (s, a, .more) => walkAll w op fuel s a

/-! ### Selection (R437) -/

/-- An integer as f32. -/
def natF32 (n : Nat) : Nat := Arith.roundFmt Arith.f32 (.fin false n 0)
/-- The score of a child. -/
def childScore (cp fpu : W32) (sq : Nat) (r : NodeRec) : Nat :=
  let c := r.n.toNat + r.vl.toNat
  let n := natF32 c
  let q := if c = 0 then fpu.toNat
    else Arith.fDiv Arith.f32 (Arith.fSub Arith.f32 .rne (Arith.fx64ToF32 r.w).toNat (natF32 r.vl.toNat)) n
  let num := Arith.fMul Arith.f32 .rne (Arith.fMul Arith.f32 .rne cp.toNat (r.p.toNat * 2 ^ 16)) sq
  Arith.fAdd Arith.f32 .rne q (Arith.fDiv Arith.f32 num (Arith.fAdd Arith.f32 .rne (natF32 1) n))
/-- The first child of the highest score. -/
def bestChild : List (W32 × Nat) → Option (W32 × Nat)
  | [] => none
  | a :: r =>
    match bestChild r with
    | none => some a
    | some b => if Arith.totalKey (BitVec.ofNat 32 a.2) < Arith.totalKey (BitVec.ofNat 32 b.2) then some b else some a
/-- The children of a record, or the first of them that cannot be read. -/
def readKids (s : State) (r : NodeRec) : Except (Nat × W32) (List (W32 × NodeRec)) :=
  r.kids.mapM fun x => match readRec s x with
    | .ok k => .ok (x, k)
    | .error e => .error (e, x)

/-! ### Allocation (R440) -/

/-- The lowest index from `lo` at which n consecutive records are free. -/
def freeRun (n : Nat) : Nat → SMap NodeRec → Option Nat
  | lo, [] => if lo + n ≤ 2 ^ 20 then some lo else none
  | lo, (k, _) :: r => if lo + n ≤ min k (2 ^ 20) then some lo else freeRun n (max lo (k + 1)) r
/-- Records free on a die (R445). -/
def freeRecs (s : State) (die : Nat) : Nat := 2 ^ 20 - (basinOf s die).length
/-- Every record a launch owns becomes free (R432). -/
def freeOwned (s : State) (ep launch : Nat) : State :=
  { s with basin := s.basin.map fun m => m.filter fun p => p.2.owner != (ep, launch) }

/-! ### One operation (R435-R441) -/

/-- What an operation that does not walk gives: the value it pushes, the bytes NSRD writes, its failure. -/
structure NsRes where
  val : W64 := 0
  bytes : List Byte := []
  err : Option (Nat × W32) := none
/-- The failure word of NSSEL and NSALLOC (R437, R440). -/
def nsNone : W64 := BitVec.allOnes 64
/-- A failure at a record. -/
def nsErr (s : State) (w : Who) (val : W64) (sub : Nat) (x : W32) : State × NsRes := (nsLog s w sub x, { val := val, err := some (sub, x) })
/-- NSSEL at parent x. -/
def doSel (s : State) (w : Who) (x cp fpu : W32) : State × NsRes :=
  match readRec s x with
  | .error e => nsErr s w nsNone e x
  | .ok p =>
    match readKids s p with
    | .error (e, y) => nsErr s w nsNone e y
    | .ok l =>
      let sq := Arith.fSqrt Arith.f32 (natF32 (p.n.toNat + p.vl.toNat))
      match bestChild (l.map fun k => (k.1, childScore cp fpu sq k.2)) with
      | none => (s, { val := nsNone })
      | some (y, sc) => (s, { val := BitVec.ofNat 64 (sc * 2 ^ 32 + y.toNat) })
/-- NSRD. -/
def doRd (s : State) (w : Who) (x : W32) (f : NsRd) : State × NsRes :=
  match readRec s x with
  | .error e => nsErr s w 0 e x
  | .ok r =>
    match f with
    | .word i => (s, { val := BitVec.ofNat 64 (r.word i.toNat) })
    | .sp => (s, { val := BitVec.ofNat 64 (r.word 0), bytes := r.bytes })
/-- NSWR of a field (R439). -/
def NodeRec.write (r : NodeRec) (f : NsField) (b : W64) : NodeRec :=
  match f with
  | .n => { r with n := b.setWidth 32 }
  | .vl => { r with vl := b.setWidth 16 }
  | .w => { r with w := b }
  | .p => { r with p := b.setWidth 16 }
  | .flags => { r with term := b.getLsbD 2, uf := b.extractLsb' 8 8 }
  | .user => { r with user := b.setWidth 32 }
  | .parent => { r with parent := b.setWidth 32 }
  | .link => { r with first := b.setWidth 32, nch := b.extractLsb' 32 16, exp := b.extractLsb' 32 16 != 0 }
/-- NSWR. -/
def doWr (s : State) (w : Who) (x : W32) (f : NsField) (b : W64) : State × NsRes :=
  match writeRec s w x with
  | .error e => nsErr s w 0 e x
  | .ok r => (putRec s x (r.write f b), {})
/-- Places new records from index i of a die on. -/
def newRecs (m : SMap NodeRec) (owner : Nat × Nat) (parent : W32) : Nat → List (BitVec 16) → SMap NodeRec
  | _, [] => m
  | i, p :: r => newRecs (put m i { parent := parent, p := p, owner := owner }) owner parent (i + 1) r
/-- NSALLOC on a die, for the null identifier. -/
def allocRun (s : State) (w : Who) (die : Nat) (x : W32) (ps : List (BitVec 16)) : Option (State × W32) :=
  (freeRun ps.length 0 (basinOf s die)).map fun i =>
    (setBasin s die (newRecs (basinOf s die) (w.ep, w.launch) x i ps), mkId s die i)
/-- NSALLOC. -/
def doAlloc (s : State) (w : Who) (die : Nat) (x : W32) (ps : List (BitVec 16)) : State × NsRes :=
  if x = nullId then
    match allocRun s w die x ps with
    | some (s, y) => (s, { val := y.setWidth 64 })
    | none => (s, { val := nsNone })
  else
    match writeRec s w x with
    | .error e => nsErr s w nsNone e x
    | .ok r =>
      if r.nch ≠ 0 then (s, { val := nsNone })
      else
        match allocRun s w (idDie x) x ps with
        | none => (s, { val := nsNone })
        | some (s, y) =>
          (putRec s x { r with first := y, nch := BitVec.ofNat 16 ps.length, exp := true }, { val := y.setWidth 64 })
/-- NSALLOC.FREE. -/
def doFree (s : State) (w : Who) (x : W32) : State × NsRes :=
  match writeRec s w x with
  | .error e => nsErr s w nsNone e x
  | .ok r =>
    let bad := r.kids.findSome? fun y => match writeRec s w y with
      | .error e => some (e, y)
      | .ok _ => none
    match bad with
    | some (e, y) => nsErr s w nsNone e y
    | none =>
      let s := r.kids.foldl (fun s y => setBasin s (idDie y) (del (basinOf s (idDie y)) (idIndex y))) s
      match recAt s x with
      | some r' => (putRec s x { r' with first := nullId, nch := 0, exp := false }, { val := r.first.setWidth 64 })
      | none => (s, { val := r.first.setWidth 64 })
/-- An operation that does not walk, applied in one indivisible step. -/
def applyNs (s : State) (w : Who) (die : Nat) (x : W32) (op : NsOp) : State × NsRes :=
  match op with
  | .sel cp fpu => doSel s w x cp fpu
  | .rd f _ => doRd s w x f
  | .wr f b => doWr s w x f b
  | .alloc ps => doAlloc s w die x ps
  | .free => doFree s w x
  | .vl _ => (s, {})
  | .back _ _ _ => (s, {})
/-- A whole operation of another package, at its commit (R441). Such an operation names a record here (R431), and an NSALLOC
for the null identifier is local to its issuer (R440): a record here is never owned by a launch of another package (log entry
44). -/
def homeNode (s : State) (src launch : Nat) (x : W32) (op : NsOp) : State × NsRes :=
  let w : Who := { ep := src, launch := launch }
  if nsWalks op then
    let r := walkAll w op 65537 s { cur := x }
    (r.1, { err := r.2 })
  else match op with
    | .alloc _ => if x = nullId then nsErr s w nsNone nsNoRec x else applyNs s w (idDie x) x op
    | _ => applyNs s w (idDie x) x op

/-! ### Operations of this package (R435, R442) -/

/-- The die of a local operation's starting record. -/
def NodeOp.die (q : NodeOp) : Nat := if q.node = nullId then (dieOf q.core).val else idDie q.node
/-- Who a local operation is of. -/
def NodeOp.who (s : State) (q : NodeOp) : Who :=
  { ep := s.fab.ep, launch := q.launch, core := q.core, ctx := ((s.ctx? q.task).map (·.num)).getD 0xFF }
/-- Entries of a die's node commit stage in use (R442). -/
def stageUsed (s : State) (die : Nat) : Nat :=
  (s.nops.filter fun q => q.tick.isSome && !q.begun && q.fin.isNone && q.die == die && !isHead s q.task).length +
    (s.cb.filter fun o => o.stack == 8 + die).length
/-- No earlier operation of the task is outstanding (R435). -/
def nopFirst (s : State) (q : NodeOp) : Bool := ((s.nops.takeWhile fun r => r.id != q.id).all fun r => r.task != q.task || r.fin.isSome)
/-- The operation may begin now (R435, R442): behind what comes before it at its issue (R111). -/
def nopReady (s : State) (q : NodeOp) : Bool :=
  q.begun || (nopFirst s q && (q.tick.isNone || isHead s q.task) && forked s q.task q.fork)
/-- The operation by its name. -/
def nopOf (s : State) (id : Nat) : Option NodeOp := s.nops.find? fun q => q.id == id
/-- NSRD's record reaches the core, with the Spout's rank (R121, R438). -/
def spRecord (s : State) (c off : Nat) (bs : List Byte) : State := spWrite s c rkSpout off bs
/-- The value of an operation lands. -/
def lands (s : State) (q : NodeOp) (v : W64) : State :=
  match q.pend with
  | some p => landVal s q.task p (.s v)
  | none => s
/-- The end of an operation (R435, R442, R443): its failure is recorded and its value lands, a cycle after the record that
an NSRD writes (R438). -/
def endNop (s : State) (q : NodeOp) (r : NsRes) : State :=
  let s := tickApplied { s with nops := s.nops.filter fun o => o.id != q.id } q.task q.tick
  let s := match r.err with
    | some (sub, x) => nsFail s q.task sub x
    | none => s
  match q.op, q.pend with
  | .rd _ off, some _ =>
    if r.bytes.isEmpty then lands s q r.val
    else { spRecord s q.core off r.bytes with nops := s.nops ++ [{ q with fin := some r.val }] }
  | _, _ => lands s q r.val
/-- One step of an operation by its name: `walk` for NODE_WALK_STEP, else BASIN_APPLY. -/
def nopStep (s : State) (id : Nat) (walk : Bool) : State :=
  match nopOf s id with
  | none => s
  | some q =>
    match q.fin with
    | some v => if walk then s else lands { s with nops := s.nops.filter fun o => o.id != q.id } q v
    | none =>
    if !nopReady s q || nsWalks q.op != walk then s
    else if walk then
      match walkStep (q.who s) q.op s { cur := q.cur, neg := q.neg, visited := q.visited } with
      | (s, _, .done e) => endNop s q { err := e }
      | (s, a, .more) =>
        let q := { q with begun := true, cur := a.cur, neg := a.neg, visited := a.visited }
        { s with nops := s.nops.map fun o => if o.id = q.id then q else o }
    else
      let r := applyNs s (q.who s) q.die q.node q.op
      endNop r.1 q r.2
/-- A task's ticketed operations that have not begun are discarded (R305). -/
def dropNops (s : State) (t : Nat) : State :=
  { s with nops := s.nops.filter fun q => q.task != t || q.tick.isNone || q.begun || q.fin.isSome }

end Sys2Proof.Machine
end

