-- ==== Sys2Proof/Machine/FabricOps.lean ====
section
/-!
DEFINITION. The fabric engine's own work (R313-R335): sealing and sending, receiving, acknowledgements, streams at the
sender, buffer lending, the FIFOs, fabric ticket waves, and what becomes of items for an endpoint out of reach.
-/

namespace Sys2Proof.Machine

/-! ### FIFOs (R333-R335) -/

/-- Words a core's send FIFO holds. -/
def txWords (x : TxFifo) : Nat := x.full.foldl (fun n m => n + m.2.length) 0 + x.words.length
/-- Payload words a header announces. -/
def fifoLen (h : W64) : Nat := (h.extractLsb' 19 5).toNat
/-- A header whose message is discarded (R334). -/
def fifoBad (s : State) (h : W64) : Bool :=
  h.extractLsb' 24 8 != 0 || decide (319 < (h.extractLsb' 10 9).toNat) || decide (s.fab.domHi < (h.extractLsb' 0 10).toNat) ||
  !reaches s (h.extractLsb' 0 10).toNat
/-- Sends the messages of a core's retransmit buffer whose turn has come: one at a time to each destination core, in
order, each under the name it took in the buffer. -/
def fifoSend (s : State) (c : Nat) : State :=
  let go := fun (p : State × List OutFifo × List (Nat × Nat)) (f : OutFifo) =>
    let d := (f.dst, f.msg.dcore)
    if f.sent || f.refused || p.2.2.contains d then (p.1, p.2.1 ++ [f], d :: p.2.2)
    else
      let m : OutMsg := { dst := f.dst, msg := .fifo f.msg, task := f.task, addr := f.msg.words.headD 0, id := f.id }
      ({ p.1 with fab := { p.1.fab with out := p.1.fab.out ++ [m] } }, p.2.1 ++ [{ f with sent := true }], d :: p.2.2)
  let r := (s.core c).rtx.foldl go (s, [], [])
  r.1.modCore c fun k => { k with rtx := r.2.1 }
/-- The send FIFO of a core drains into its retransmit buffer of 512 words (R334, R335). -/
def fifoDrain (s : State) (c : Nat) : Nat → State
  | 0 => fifoSend s c
  | n + 1 =>
    let k := s.core c
    match k.tx.full with
    | [] => fifoSend s c
    | (t, ws) :: r =>
      let h := ws.headD 0
      let pop := fun (s : State) => s.modCore c fun k => { k with tx := { k.tx with full := r } }
      if fifoBad s h then fifoDrain (postAsync (pop s) t (fabCause 5 0 h)) c n
      else if 512 < (k.rtx.foldl (fun a f => a + f.msg.words.length) 0) + ws.length then fifoSend s c
      else
        let m : FifoMsg := { src := s.fab.ep, score := c, dcore := (h.extractLsb' 10 9).toNat, words := ws }
        let o : OutFifo := { id := s.fresh, task := t, dst := (h.extractLsb' 0 10).toNat, msg := m }
        fifoDrain ((pop s.tick).modCore c fun k => { k with rtx := k.rtx ++ [o] }) c n
/-- A word pushed by PUT to fout (R172, R334); the caller has found the FIFO free for this task. -/
def fifoPush (s : State) (c t : Nat) (v : W64) : State :=
  let x := (s.core c).tx
  let y : TxFifo :=
    if x.owner.isNone then
      if fifoLen v = 0 then { x with full := x.full ++ [(t, [v])] } else { x with words := [v], owner := some t, need := fifoLen v }
    else if x.need ≤ 1 then { x with full := x.full ++ [(t, x.words ++ [v])], words := [], owner := none, need := 0 }
    else { x with words := x.words ++ [v], need := x.need - 1 }
  let s := s.modCore c fun k => { k with tx := y }
  fifoDrain s c y.full.length
/-- Words the overflow ring of a core may still take. -/
def ringFree (k : Core) : Nat := 16 * (k.rxRing.extractLsb' 32 16).toNat - k.ringN
/-- Words a core can take (R335). -/
def rxRoom (k : Core) : Nat := (64 - k.rx.length) + ringFree k
/-- A word onto a core's receive path. -/
def rxWord (s : State) (c : Nat) (w : W64) : State :=
  let k := s.core c
  if k.ringN = 0 ∧ k.rx.length < 64 then s.modCore c fun k => { k with rx := k.rx ++ [w] }
  else
    let n := 16 * (k.rxRing.extractLsb' 32 16).toNat
    let o := (k.rxRing.extractLsb' 0 22).toNat + 8 * ((k.ringRd + k.ringN) % max n 1)
    (spWrite s c rkFabric o (leBytes w.toNat 8)).modCore c fun k => { k with ringN := k.ringN + 1 }
/-- The header as the destination sees it: DEST is the source endpoint, DCORE the source core (R335). -/
def rxHeader (h : W64) (src score : Nat) : W64 :=
  (h &&& ~~~(0x7FFFF : W64)) ||| BitVec.ofNat 64 (score % 512 * 1024 + src % 1024)
/-- FIFO_DELIVERY: the message named id of its sender is delivered whole, or refused (R335). The names of the messages from one
core to another rise: one that is not above the last delivered is a copy of a message that has been. -/
def fifoDeliver (s : State) (id : Nat) (m : FifoMsg) : State :=
  let key := (m.src * 512 + m.score) * 512 + m.dcore
  let got := fun (s : State) => formMsg s { dst := m.src, msg := .recv id, task := 0, addr := 0 }
  if ((look s.fab.fifoIds key).map fun last => decide (id ≤ last)).getD false then got s
  else if rxRoom (s.core m.dcore) < m.words.length then
    let add := fun (l : List (Nat × Nat × Nat)) =>
      if l.any fun w => w.1 == m.src && w.2.1 == m.score then l else l ++ [(m.src, m.score, m.words.length)]
    let s := s.modCore m.dcore fun k => { k with refused := k.refused + 1, wantRx := add k.wantRx }
    formMsg s { dst := m.src, msg := .fifoRetry id, task := 0, addr := 0 }
  else
    let ws := match m.words with
      | h :: r => rxHeader h m.src m.score :: r
      | [] => []
    got { ws.foldl (fun s w => rxWord s m.dcore w) s with fab := { s.fab with fifoIds := put s.fab.fifoIds key id } }
/-- A core with room again tells the senders it has refused (R335). -/
def sendResume (s : State) (c : Nat) : State :=
  let k := s.core c
  match k.wantRx with
  | (p, sc, n) :: r =>
    if n ≤ rxRoom k then
      formMsg (s.modCore c fun k => { k with wantRx := r }) { dst := p, msg := .resume sc, task := 0, addr := 0 }
    else s
  | [] => s
/-- A resume notice of endpoint p: the messages it refused are sent again in their order (R335). -/
def takeResume (s : State) (c p : Nat) : State :=
  fifoSend (s.modCore c fun k => { k with rtx := k.rtx.map fun f => if f.dst = p then { f with refused := false, sent := f.sent && !f.refused } else f }) c

/-! ### Sealing and sending (R313, R315-R317, R320, R331) -/

/-- Data bytes of a stream message's body. -/
def bodySize : StreamBody → Nat
  | .write bs => bs.length
  | .acc op _ _ _ => accSize op
  | .cas n _ _ _ _ => 2 * n
  | .zero _ _ => 0
  | .node _ _ _ _ => 16
  | .fill h => 4 * h.length
  | .close h => 4 * h.length
/-- Data bytes of a message. -/
def msgSize : Msg → Nat
  | .load _ _ _ _ _ => 8
  | .resp _ r => r.data.length
  | .strm m => bodySize m.body
  | .fifo m => 8 * m.words.length
  | .coll m => match m.body with
    | .contrib k d => d.length + 4 * k.fields.length
    | _ => 8
  | .clapper _ => 8
  | _ => 0
/-- Flits of a message (R315). -/
def msgFlits (m : Msg) : Nat := (24 + msgSize m + 223) / 224
/-- Control flits count against no limit (R332). -/
def msgControl : Msg → Bool
  | .ack _ _ _ _ | .held _ _ | .recv _ | .retry _ _ | .refused _ | .fifoRetry _ | .wavedone _ _ | .lend _ _ => true
  | .strm m => match m.body with | .fill _ => true | .close _ => true | _ => false
  | _ => false
/-- A message is kept until it is acknowledged or answered (R317); those that acknowledge or answer are not, but for a
response, which a message of its own acknowledges (log entry 77). -/
def msgAcked : Msg → Bool
  | .ack _ _ _ _ | .held _ _ | .recv _ | .retry _ _ | .refused _ | .fifoRetry _ => false
  | _ => true
/-- The die half of its destination a message is addressed to (R320). -/
def halfOf (m : OutMsg) : BitVec 1 :=
  match m.msg with
  | .load _ off _ _ _ => Config.farHalf m.dst off
  | .strm b => match b.body with
    | .write ((o, _) :: _) => Config.farHalf m.dst o
    | .acc _ o _ _ => Config.farHalf m.dst o
    | .cas _ o _ _ _ => Config.farHalf m.dst o
    | .zero o _ => Config.farHalf m.dst o
    | .node id _ _ _ => id.extractLsb' 21 1
    | _ => 0
  | .fifo f => if 160 ≤ f.dcore then 1 else 0
  | _ => 0
/-- The next station in turn whose link is up and that lies on a die half (R313). -/
def nextStation (f : Fab) (h : BitVec 1) : Option Nat :=
  ((List.range 32).map fun i => (f.rr + 1 + i) % 32).find? fun st => f.up.getLsbD st && st / 16 == h.toNat
/-- Bytes sent into a half that it has not freed (R331): of messages that are neither acknowledged nor answered, nor held by
the Weir. -/
def outBytes (s : State) (dst : Nat) (h : BitVec 1) : Nat :=
  s.fab.sent.foldl (fun n m => if m.dst = dst ∧ m.half = h ∧ !msgControl m.msg ∧ !m.accepted then n + 256 * msgFlits m.msg else n) 0
/-- A message may be sealed now: a link, a key and the receiver's limit let it. One into a half that holds nothing of this
sender may be as long as it is (log entry 78). -/
def sealable (s : State) (m : OutMsg) : Bool :=
  if m.dst = s.fab.ep then true
  else
    let h := halfOf m
    let d := (look s.fab.sends m.dst).getD {}
    let lim := (look s.fab.mine (h.toNat * 1024 + m.dst)).getD 256
    let used := outBytes s m.dst h
    reaches s m.dst && d.key.isSome && (nextStation s.fab h).isSome &&
      (msgControl m.msg || used == 0 || decide (used + 256 * msgFlits m.msg ≤ lim))
/-- The counter value that asks for a rekey (R316). -/
def rekeyAt : Nat := 2 ^ 64 - 2 ^ 32

/-- An operation of a stream was lost: the determinism of its scope with it where it was ticketed (R319, R330). -/
def detLost (s : State) (m : OutMsg) : State :=
  match m.msg with
  | .strm b =>
    if b.tick.isSome then
      let sc := scopeOf s m.task
      match look s.scopes sc with
      | some r => { s with scopes := put s.scopes sc { r with dlost := true } }
      | none => s
    else s
  | _ => s

/-- A returning command has its answer. -/
def freeCmd (s : State) (c : Nat) (e : Bool) (cmd : Nat) : State :=
  match cmdOf s c e cmd with
  | some k => setCmd s c e { k with asked := none }
  | none => s
/-- The cause of a command's remote element that its home refused with subcode `err` (R291, R293, R299, R327). A FABRIC cause
carries no mark of the operand fetch (DESIGN CHOICE, log entry 100). -/
def refuseCause (e sweep : Bool) (addr : W64) (gran err : Nat) : Cause :=
  if err = 0x88 then fabCause 8 addr addr
  else if err = 16 then { code := cCopy, sub := 0x13, addr := addr, info := copyInfo gran 0 e false, fetch := sweep }
  else { code := cCopy, sub := 0x12, addr := addr, info := copyInfo gran 0 e false err, fetch := sweep }
/-- A remote CACCR or CCAS was refused at its home: the entry lands holding zero, and the cause is pending, in one step
(R299). -/
def wordFail (s : State) (rq : Nat) (err : Nat) : State :=
  match look s.fab.reqs rq with
  | some q =>
    let s := { s with fab := { s.fab with reqs := del s.fab.reqs rq } }
    match q.kind with
    | .word t id _ c e cmd =>
      let sw := ((cmdOf s c e cmd).map (·.sweep)).getD false
      freeCmd (postAsync (landVal s t id (.s 0)) t (refuseCause e sw q.addr 0 err)) c e cmd
    | _ => s
  | none => s
/-- The value of an operation that was not performed lands: zero for an accumulate or compare-and-swap (R299), a value
the manual does not state for a node operation. -/
def landNone (s : State) (rq : Nat) : State :=
  match look s.fab.reqs rq with
  | none => s
  | some q =>
    let s := { s with fab := { s.fab with reqs := del s.fab.reqs rq } }
    match q.kind with
    | .word t id _ c e cmd => freeCmd (landVal s t id (.s 0)) c e cmd
    | .node t id _ _ _ => landVal s.tick t id (.s (Config.unstated s.fresh))
    | _ => s
/-- The request a stream message is answered to. -/
def bodyRet : StreamBody → Option Nat
  | .acc _ _ _ r => r
  | .cas _ _ _ _ r => some r
  | .node _ _ _ r => r
  | _ => none
/-- A stream fails (R323): nothing of it is waited for. -/
def Strm.fail (r : Strm) : Strm := { r with failed := true, unacked := [], mine := [], holes := [] }
/-- Nothing of a failed stream remains to be sent or acknowledged; its commands have elements not performed. -/
def dropStrm (s : State) (st : Nat) : State :=
  let keep := fun (o : OutMsg) => match o.msg with
    | .strm b => b.strm != st || b.src != s.fab.ep
    | _ => true
  let rets := ((s.fab.out ++ s.fab.sent ++ s.fab.retry).filter fun o => !keep o).filterMap fun o => match o.msg with
    | .strm b => bodyRet b.body
    | _ => none
  let fix := fun (l : List Cmd) => l.map fun q =>
    if q.sent.any fun m => m.strm == st then { q with sent := q.sent.filter fun m => m.strm != st, missed := q.missed ++ [0] } else q
  rets.foldl landNone { s with
    fab := { s.fab with out := s.fab.out.filter keep, sent := s.fab.sent.filter keep, retry := s.fab.retry.filter keep },
    cores := s.cores.map fun c => (c.1, { c.2 with cq0 := fix c.2.cq0, cq1 := fix c.2.cq1 }) }
/-- What a delivered message makes happen at this package; `src` sent it under the name `id`. -/
def deliver (s : State) (src id : Nat) (m : Msg) : State :=
  let got := fun (s : State) => formMsg s { dst := src, msg := .recv id, task := 0, addr := 0 }
  match m with
  | .load rq off size mask acq =>
    let r := homeLoad s src off size mask acq
    formMsg r.1 { dst := src, msg := .resp rq r.2, task := 0, addr := 0 }
  | .resp rq r => (got s).due .remoteResponse { num := rq, body := .remote r }
  | .strm b => s.due .weirArrival { num := id, body := .strm b }
  | .ack st n e off => s.due .ackReceive { num := st, cnt := n, val := BitVec.ofNat 64 e, body := .remote ⟨[], e, off⟩ }
  | .held st n =>
    { s with fab := { s.fab with sent := s.fab.sent.map fun o => match o.msg with
      | .strm b => if b.strm = st ∧ b.seq = n ∧ o.dst = src then { o with accepted := true, tries := 0 } else o
      | _ => o } }
  | .recv i =>
    let s := { s with fab := { s.fab with sent := s.fab.sent.filter fun o => o.id != i } }
    (s.cores.filter fun p => p.2.rtx.any fun f => f.id == i).foldl (fun s p =>
      fifoDrain (s.modCore p.1 fun k => { k with rtx := k.rtx.filter fun f => f.id != i }) p.1 p.2.tx.full.length) s
  | .retry st n =>
    let hit := fun (o : OutMsg) => match o.msg with
      | .strm b => b.strm == st && b.seq == n && o.dst == src
      | _ => false
    let now := s.acyc[(0 : Fin 2)]
    { s with fab := { s.fab with sent := s.fab.sent.filter fun o => !hit o,
                                 retry := s.fab.retry ++ (s.fab.sent.filter hit).map fun o => { o with at_ := now } } }
  | .refused st =>
    match look s.fab.strms st with
    | some r =>
      if r.failed || r.ep ≠ src then s
      else
        let c := fabCause 6 0 (BitVec.ofNat 64 r.slot)
        let s := dropStrm { s with fab := { s.fab with strms := if r.closing then del s.fab.strms st else put s.fab.strms st r.fail } } st
        postAsync s r.task c
    | none => s
  | .fifo f => s.due .fifoDelivery { num := id, body := .fifo f }
  | .fifoRetry i =>
    { s with fab := { s.fab with sent := s.fab.sent.filter fun o => o.id != i },
             cores := s.cores.map fun p => (p.1, { p.2 with rtx := p.2.rtx.map fun f => if f.id = i then { f with refused := true } else f }) }
  | .resume c => (got s).due .resumeNotice { core := c, num := src }
  | .coll b => (got s).due .collectiveArrival { num := src, body := .coll b }
  | .clapper tag => (got s).due .clapperMessage { num := src, val := tag }
  | .wavedone gid w =>
    (got { s with fab := { s.fab with closedTo := (gid.toNat, src, w) :: s.fab.closedTo.filter fun e => !(e.1 == gid.toNat && e.2.1 == src && decide (e.2.2 ≤ w)) } }).due
      .waveClose { num := gid.toNat }
  | .lend h l => (got s).due .lendReceive { num := src, sel := h.setWidth 5, cnt := l }

/-! ### Flits (R315-R317) -/

/-- The header word of a flit. -/
def flitHdr (dst src : Nat) (epoch : BitVec 4) (kind : BitVec 8) : List Byte :=
  leBytes (dst % 1024 + src % 1024 * 2 ^ 10 + epoch.toNat * 2 ^ 20 + kind.toNat * 2 ^ 24) 8
/-- The nonce of a flit: the fixed field, then the counter, the most significant byte first (log entry 77). -/
def flitNonce (dst src : Nat) (epoch : BitVec 4) (ctr : Nat) : List Byte :=
  beBytes (dst % 1024 + src % 1024 * 2 ^ 10 + epoch.toNat * 2 ^ 20) 4 ++ beBytes ctr 8
/-- The data of a message, where the manual gives its bytes (R90, R297, R299, R320, R326, R335). -/
def msgData : Msg → Option (List Byte)
  | .load _ _ _ _ _ => none
  | .resp _ r => some r.data
  | .strm m => match m.body with
    | .write bs => some (bs.map (·.2))
    | .acc op _ v _ => some (leBytes v.toNat (accSize op))
    | .cas n _ cmp new _ => some (leBytes cmp.toNat n ++ leBytes new.toNat n)
    | .zero _ _ => some []
    | .node _ _ _ _ => none
    | .fill h => some (h.flatMap fun n => leBytes n 4)
    | .close h => some (h.flatMap fun n => leBytes n 4)
  | .fifo m => some (m.words.flatMap fun w => leBytes w.toNat 8)
  | .coll _ => none
  | .clapper _ => none
  | _ => some []
/-- Byte k of a message: none in its 24-byte header and in data whose bytes the manual does not give, zero behind the data
(R315). -/
def msgByte? (m : Msg) (k : Nat) : Option Byte :=
  if k < 24 then none
  else if 24 + msgSize m ≤ k then some 0
  else (msgData m).bind fun d => d[k - 24]?
/-- The text of flit i of a message: its 224 bytes of header and data, zero where unused. -/
def flitText (id : Nat) (m : Msg) (i : Nat) : List Byte :=
  (List.range 224).map fun k => (msgByte? m (224 * i + k)).getD (Config.msgByte id m (224 * i + k))
/-- The 256 bytes of a flit. -/
def flitBytes (key : List Byte) (dst src : Nat) (epoch : BitVec 4) (kind : BitVec 8) (ctr : Nat) (text : List Byte) : List Byte :=
  let aad := flitHdr dst src epoch kind ++ leBytes ctr 8
  let nonce := flitNonce dst src epoch ctr
  let ct := gcmText key nonce text
  aad ++ ct ++ gcmTag key nonce aad ct
/-- Flit i of a message under the counter value that is next. -/
def makeFlit (s : State) (d : SendDir) (m : OutMsg) (cnt i : Nat) : Flit :=
  { bytes := flitBytes (d.key.getD []) m.dst s.fab.ep d.epoch (Config.flitKind m.msg i) (d.ctr + i) (flitText m.id m.msg i),
    half := m.half, id := m.id, sending := m.tries, idx := i, cnt := cnt, msg := m.msg }
/-- The source of a flit. -/
def flitSrc (f : Flit) : Nat := leNat (f.bytes.take 8) / 2 ^ 10 % 1024
/-- Its destination. -/
def flitDst (f : Flit) : Nat := leNat (f.bytes.take 8) % 1024
/-- Its epoch. -/
def flitEpoch (f : Flit) : BitVec 4 := BitVec.ofNat 4 (leNat (f.bytes.take 8) / 2 ^ 20)
/-- Its counter value. -/
def flitCtr (f : Flit) : Nat := leNat ((f.bytes.drop 8).take 8)
/-- The tag of a flit verifies under a key. -/
def flitTagOk (f : Flit) (key : List Byte) : Bool :=
  f.bytes.length == 256 && f.bytes.drop 240 == gcmTag key (flitNonce (flitDst f) (flitSrc f) (flitEpoch f) (flitCtr f)) (f.bytes.take 16) ((f.bytes.drop 16).take 224)
/-- What a flit's ciphertext holds under a key is its place of the message it is said to be of. -/
def flitSays (f : Flit) (key : List Byte) : Bool :=
  let t := gcmText key (flitNonce (flitDst f) (flitSrc f) (flitEpoch f) (flitCtr f)) ((f.bytes.drop 16).take 224)
  f.cnt == msgFlits f.msg && decide (f.idx < f.cnt) && (List.range 224).all fun k =>
    match msgByte? f.msg (224 * f.idx + k) with
    | some b => t.getD k 0 == b
    | none => true
/-- FLIT_SEAL (R313, R315, R316): the message at a place of those formed leaves; one for this package crosses no link. The
value 2^64 - 1 is never used: a direction whose next value it is stops. -/
def sealAt (s : State) (i : Nat) : State :=
  match s.fab.out[i]? with
  | none => s
  | some m =>
    if !sealable s m then s
    else
      let s := { s with fab := { s.fab with out := s.fab.out.eraseIdx i } }
      let m := { m with tries := m.tries + 1, at_ := s.acyc[(0 : Fin 2)], half := halfOf m, accepted := false }
      let s := if msgAcked m.msg then { s with fab := { s.fab with sent := s.fab.sent ++ [m] } } else s
      if m.dst = s.fab.ep then deliver s m.dst m.id m.msg
      else
        let d := (look s.fab.sends m.dst).getD {}
        let n := min (msgFlits m.msg) (2 ^ 64 - 1 - d.ctr)
        let st := (nextStation s.fab m.half).getD 0
        let ask := decide (rekeyAt ≤ d.ctr + n) && !d.rekey
        let stop := decide (2 ^ 64 - 1 ≤ d.ctr + n)
        let fs := (List.range n).map fun i => (st, m.dst, makeFlit s d m (msgFlits m.msg) i)
        let s := { s with fab := { s.fab with
          rr := st, wire := s.fab.wire ++ fs,
          sends := put s.fab.sends m.dst { d with ctr := d.ctr + n, rekey := d.rekey || ask, stopped := d.stopped || stop } } }
        let s := if ask then logRas s (dieOf (st * 10)) 0x104 0xFFFF 0xFF none none none else s
        if stop then s.due .endpointUnreachable { num := m.dst } else s

/-! ### Receiving (R317, R331) -/

/-- The highest 4,096 of a set of accepted counters, with one more. -/
def noteCtr (l : List Nat) (n : Nat) : List Nat :=
  let l := insN l n
  l.drop (l.length - 4096)
/-- A counter value has not been accepted within the window (R317). Once 4,096 values have been accepted, one below them all
lies outside the window and is taken as accepted before (log entry 79). -/
def ctrNew (l : List Nat) (n : Nat) : Bool :=
  !l.contains n && (decide (l.length < 4096) || decide (l.headD 0 < n))
/-- Notes an accepted flit of a message: the direction, and whether it was the last of its sending that was missing. -/
def RecvDir.note (d : RecvDir) (f : Flit) : RecvDir × Bool :=
  let l := if d.part.contains (f.id, f.sending, f.idx) then d.part else d.part ++ [(f.id, f.sending, f.idx)]
  let all := (List.range f.cnt).all fun i => l.contains (f.id, f.sending, i)
  ({ d with part := if all then l.filter fun p => p.1 != f.id else l }, all)
/-- FLIT_RECEIVE (R317): a flit is accepted, and its message delivered once all its flits are, or discarded and logged, and
its message is lost. -/
def receiveFlit (s : State) (f : Flit) : State :=
  let d := (look s.fab.recvs (flitSrc f)).getD {}
  let good := fun (k : List Byte) => flitTagOk f k && flitSays f k
  let cur := flitEpoch f == d.epoch && ((d.key.map good).getD false)
  let old := !cur && d.prev == some (flitEpoch f) && ((d.keyPrev.map good).getD false)
  let n := flitCtr f
  if (cur && ctrNew d.seen n) || (old && ctrNew d.seenPrev n) then
    let d := if cur then { d with seen := noteCtr d.seen n } else { d with seenPrev := noteCtr d.seenPrev n }
    let (d, all) := d.note f
    let k := f.half.toNat * 1024 + flitSrc f
    let s := { s with fab := { s.fab with recvs := put s.fab.recvs (flitSrc f) d, lendU := put s.fab.lendU k ((look s.fab.lendU k).getD 0 + 256) } }
    if all then deliver s (flitSrc f) f.id f.msg else s
  else
    let s := if (look s.fab.recvs (flitSrc f)).isSome then
        { s with fab := { s.fab with recvs := put s.fab.recvs (flitSrc f) { d with part := d.part.filter fun p => p.1 != f.id } } }
      else s
    logRas s (if f.half = 0 then 0 else 1) 0x103 0xFFFF 0xFF (some (flitSrc f)) none none

/-! ### Streams at the sender (R323-R326) -/

/-- A free stream number. -/
def freeNum (s : State) : Option Nat := pickOf s ((List.range 65536).filter fun n => (look s.fab.strms n).isNone)
/-- SCLOSE of a slot's stream n (R323). -/
def closeStream (s : State) (n : Nat) (r : Strm) (fill : Bool) : State :=
  let send := fun (s : State) (seq : Nat) (b : StreamBody) =>
    formMsg s { dst := r.ep, task := r.task, addr := 0, msg := .strm { src := s.fab.ep, strm := n, seq := seq, tick := none, body := b } }
  if r.failed then { s with fab := { s.fab with strms := del s.fab.strms n } }
  else if fill then
    if r.holes.isEmpty then s
    else send { s with fab := { s.fab with strms := put s.fab.strms n { r with holes := [] } } } r.next (.fill r.holes)
  else
    let r' : Strm := { r with closing := true, holes := [], next := (r.next + 1) % 2 ^ 32, unacked := r.unacked ++ [r.next] }
    send { s with fab := { s.fab with strms := put s.fab.strms n r' } } r.next (.close r.holes)
/-- A command of a task that bears a slot is still held. -/
def slotBusy (s : State) (t slot : Nat) : Bool :=
  s.cores.any fun p => (p.2.cq0 ++ p.2.cq1).any fun q => q.task == t && q.slot == slot && !q.isColl
/-- Streams of an ended task close once the last command that bears them has ended, the last store of a killed context has
been sent, and a number is left for the CLOSE (R195, R323, R324). -/
def closeDying (s : State) : State :=
  s.fab.strms.foldl (fun s p =>
    if p.2.dying && !p.2.closing && !slotBusy s p.2.task p.2.slot && (s.ctx? p.2.task).isNone &&
      (p.2.failed || decide (p.2.unacked.length < 4096)) then closeStream s p.1 p.2 false else s) s
/-- EXIT and kill close every stream of a task. -/
def endStreams (s : State) (t : Nat) : State :=
  closeDying { s with fab := { s.fab with strms := s.fab.strms.map fun p => if p.2.task = t then (p.1, { p.2 with dying := true }) else p } }

/-- The command a stream message belongs to. -/
def cmdOfMsg (s : State) (st n : Nat) : Option (Nat × Bool × Cmd × SentMsg) :=
  s.cores.findSome? fun p =>
    let look2 := fun (e : Bool) (l : List Cmd) => l.findSome? fun q =>
      (q.sent.find? fun m => m.strm == st && m.seq == n).map fun m => (p.1, e, q, m)
    (look2 false p.2.cq0).or (look2 true p.2.cq1)
/-- Err code of a ticketed message whose home runs no launch of its group (R327). -/
def errNoGroup : Nat := 0x88
/-- ACK_RECEIVE (R324): the acknowledgement of number n of stream st with its home's subcode and the offset that failed; one that
has been acknowledged already is nothing new. -/
def ackStream (s : State) (st n err off : Nat) : State :=
  let mine := fun (o : OutMsg) => match o.msg with
    | .strm b => b.strm == st && match b.body with
      | .fill h => h.contains n
      | _ => b.seq == n
    | _ => false
  let o := s.fab.sent.find? mine
  let addr := failAt ((o.map (·.addr)).getD 0) off
  match look s.fab.strms st with
  | none => s
  | some r =>
    if !r.unacked.contains n then s else
    let r' : Strm := { r with unacked := r.unacked.filter fun k => k != n, mine := r.mine.filter fun p => p.1 != n }
    let gone := r'.closing && r'.unacked.isEmpty
    let s := { s with fab := { s.fab with sent := s.fab.sent.filter fun o => !mine o,
                                          strms := if gone then del s.fab.strms st else put s.fab.strms st r' } }
    match cmdOfMsg s st n with
    | some (c, e, q, m) =>
      let q := { q with sent := q.sent.filter fun k => !(k.strm == st && k.seq == n) }
      if err = 0 then setCmd (arrive s q m.bytes) c e q
      else
        let s := setCmd s c e { q with missed := q.missed ++ [0] }
        match o.bind fun o => (match o.msg with | .strm b => bodyRet b.body | _ => none) with
        | some rq => wordFail s rq err
        | none => postAsync s q.task (refuseCause e q.sweep (elemAddr q m.addr off) m.gran err)
    | none =>
      let ticketed := (o.map fun o => match o.msg with
        | .strm b => b.tick.isSome
        | _ => false).getD false
      let s := tickApplied s r.task (if ticketed then some 0 else none)
      if err = errNoGroup then postAsync s r.task (fabCause 8 addr addr)
      else if 2 ^ 40 ≤ err then nsReport s r.task err
      else if err ≠ 0 then postAsync s r.task (farCause err addr) else s

/-! ### Answers of a home (R90, R99, R117, R283, R299) -/

/-- A remote image of a tile whose bytes arrive: its header, then its body (R264). -/
def halfArrives (s : State) (c h rq : Nat) (r : RemoteResp) : State :=
  let m := (s.core c).me
  let set := fun (s : State) (f : Half → Half) => s.modMe c fun m => m.setHalf h (f (m.half h))
  let hf := m.half h
  if hf.st ≠ .loading ∨ hf.asked ≠ some rq then s
  else if r.err ≠ 0 then set s fun k => k.fail (if r.err = 16 then 0x100 else r.err) (failAt k.src r.off)
  else if hf.hdr.isEmpty then
    match tileHeader r.data with
    | some (_, _, ns, sb) =>
      let s := set s fun k => { k with hdr := r.data, asked := some s.fresh }
      sendReq s (hf.src + 64) (ns * sb) 0 none hf.launch hf.task (.half c h)
    | none => set s fun k => k.fail 0x100 k.src
  else set s fun k => k.load k.hdr r.data
/-- REMOTE_RESPONSE: the answer to request rq. -/
def answer (s : State) (rq : Nat) (r : RemoteResp) : State :=
  match look s.fab.reqs rq with
  | none => s
  | some q =>
    let s := { s with fab := { s.fab with reqs := del s.fab.reqs rq, sent := s.fab.sent.filter fun o => match o.msg with
      | .load i _ _ _ _ => i != rq
      | _ => true } }
    let bad := fun (s : State) (t : Nat) => if r.err = 0 then s else postAsync s t (farCause r.err (failAt q.addr r.off))
    match q.kind with
    | .scal t id n u acq sc =>
      let v := if r.err = 0 then extend n u r.data else 0
      let s := bad (landVal s t id (.s v)) t
      if acq then
        let s := s.modCtx t fun x => { x with holds := x.holds.filter fun h => h != .lda id }
        match s.ctx? t with
        | some x => if scWide sc then dropClean s x.core else s
        | none => s
      else s
    | .row t id mask base =>
      bad (landVal s t id (.v (if r.err = 0 then farRow mask base r.data else VReg.zero))) t
    | .word t id _ c e cmd =>
      if r.err = 0 then freeCmd (landVal s t id (.s (BitVec.ofNat 64 (leNat r.data)))) c e cmd
      else wordFail { s with fab := { s.fab with reqs := put s.fab.reqs rq q } } rq r.err
    | .copySrc c e cmd =>
      match cmdOf s c e cmd with
      | some k => if k.asked = some rq then setCmd s c e { k with got := some r } else s
      | none => s
    | .half c h => halfArrives s c h rq r
    | .node t id c off sp =>
      if r.err = errNoGroup then landVal s.tick t id (.s (Config.unstated s.fresh))
      else
        let s := nsReport s t r.err
        let v := BitVec.ofNat 64 (leNat (r.data.take 8))
        if sp && r.err == 0 then
          -- the record is written a cycle before its value lands (R438)
          let s := spRecord s c off (r.data.drop 8)
          { s.tick with nops := s.nops ++ [{ id := s.fresh, task := t, launch := q.launch, core := c, node := nullId, op := .rd .sp off,
                                             pend := some id, cur := nullId, fin := some v }] }
        else landVal s t id (.s v)

/-! ### Buffer lending (R331) -/

/-- LEND_WINDOW of a half: the limits of its channels, and what its senders are told. -/
def lendWindow (s : State) (h : BitVec 1) : State :=
  let key := fun (e : Nat) => h.toNat * 1024 + e
  let eps := (List.range (s.fab.domHi + 1)).filter fun e => e != s.fab.ep
  let lim := fun (e : Nat) => (look s.fab.limit (key e)).getD 256
  let w := fun (e : Nat) => (look s.fab.lendU (key e)).getD 0 + (lim e - 256) / 2
  let tot := eps.foldl (fun a e => a + w e) 0
  let new := fun (e : Nat) => 256 + (if tot = 0 then 0 else 3932160 * w e / tot / 256 * 256)
  eps.foldl (fun st e =>
    let st := { st with fab := { st.fab with lendU := del st.fab.lendU (key e), limit := put st.fab.limit (key e) (new e) } }
    if new e = lim e || !reaches s e then st else formMsg st { dst := e, msg := .lend h (new e), task := 0, addr := 0 }) s

/-! ### Endpoints out of reach (R318, R319) -/

/-- The requests to endpoint p are answered by nothing: zero lands and FABRIC LOST is pending. -/
def loseReqs (s : State) (p : Nat) : State :=
  (s.fab.reqs.filter fun r => r.2.dst == p).foldl (fun s r =>
    let q := r.2
    let lost := fun (s : State) (t : Nat) => postAsync s t (fabCause 4 q.addr q.addr)
    let s := { s with fab := { s.fab with reqs := del s.fab.reqs r.1 } }
    match q.kind with
    | .scal t id _ _ _ _ =>
      lost ((landVal s t id (.s 0)).modCtx t fun x => { x with holds := x.holds.filter fun h => h != .lda id }) t
    | .row t id _ _ => lost (landVal s t id (.v VReg.zero)) t
    | .word t id _ c e cmd => freeCmd (lost (landVal s t id (.s 0)) t) c e cmd
    | .copySrc c e cmd =>
      match cmdOf s c e cmd with
      | some k => lost (setCmd s c e { k with got := some ⟨[], errLost, 0⟩ }) k.task
      | none => s
    | .half c h => s.modMe c fun m => if (m.half h).asked = some r.1 then m.setHalf h ((m.half h).fail MM.unreach.code q.addr) else m
    | .node t id _ _ _ => lost (landVal s t id (.s 0)) t) s
/-- The streams to endpoint p fail; what they had not committed is discarded. -/
def loseStreams (s : State) (p : Nat) : State :=
  let msgs := (s.fab.out ++ s.fab.sent ++ s.fab.retry).filter fun o => o.dst == p
  let s := msgs.foldl detLost s
  let s := { s with fab := { s.fab with out := s.fab.out.filter fun o => o.dst != p, sent := s.fab.sent.filter fun o => o.dst != p,
                                        retry := s.fab.retry.filter fun o => o.dst != p } }
  (s.fab.strms.filter fun r => r.2.ep == p && !r.2.failed).foldl (fun s r =>
    let a := (msgs.findSome? fun o => match o.msg with
      | .strm b => if b.strm = r.1 then some o.addr else none
      | _ => none).getD 0
    let s := dropStrm { s with fab := { s.fab with strms := if r.2.closing then del s.fab.strms r.1 else put s.fab.strms r.1 r.2.fail } } r.1
    -- of a slot that has been closed only what its writes have lost is told (R319)
    let wrote := (msgs.any fun o => match o.msg with
        | .strm b => b.strm == r.1 && b.src == s.fab.ep && bodyAccess b.body
        | _ => false) ||
      s.ctxs.any fun p => p.2.rels.any fun e => match e.acc with
        | .rstore n _ _ _ => n == r.1
        | .release _ _ (some (n, _)) false => n == r.1
        | _ => false
    if r.2.closing && !wrote then s else postAsync s r.2.task (fabCause 4 a a)) s
/-- FIFO messages to endpoint p are discarded. -/
def loseFifo (s : State) (p : Nat) : State :=
  s.cores.foldl (fun s c =>
    let l := c.2.rtx.filter fun f => f.dst == p
    let s := s.modCore c.1 fun k => { k with rtx := k.rtx.filter fun f => f.dst != p, wantRx := k.wantRx.filter fun w => w.1 != p }
    let s := l.foldl (fun s f => postAsync s f.task (fabCause 4 0 (f.msg.words.headD 0))) s
    if l.isEmpty then s else fifoDrain s c.1 (s.core c.1).tx.full.length) s
/-- What this package held of endpoint p's streams is dropped. -/
def dropWeirs (s : State) (p : Nat) : State :=
  { s with fab := { s.fab with weir := s.fab.weir.filter fun w => w.1 / 65536 != p },
           cb := s.cb.filter fun o => (o.peer.map (·.1)) != some p }
/-- An endpoint becomes unreachable (R319), its collectives aside. -/
def loseEndpoint (s : State) (p : Nat) : State :=
  let s := { s with fab := { s.fab with unreach := insN s.fab.unreach p } }
  let s := dropWeirs (loseFifo (loseStreams (loseReqs s p) p) p) p
  (((s.launches.filter fun l => l.2.ftgcfg.getLsbD 63).map fun l => (l.2.ftgcfg.extractLsb' 0 16).toNat) ++ s.fab.ranges.map (·.1)).foldl
    (fun s g => s.due .waveClose { num := g }) s

end Sys2Proof.Machine
end

