-- ==== Sys2Proof/Machine/Noise.lean ====
section
/-!
DEFINITION. The noise of the sampling reduce (R460), and the share of a gate (R343).
-/

namespace Sys2Proof.Machine

/-- g / G rounded once (R343). -/
def gateShare (g G : Nat) : Nat := Arith.fDiv Arith.f32 g G

/-- Ten rounds of Philox-4x32. -/
def philoxGo : Nat → Nat → Nat → Nat → Nat → Nat → Nat → Nat
  | 0, c0, _, _, _, _, _ => c0
  | n + 1, c0, c1, c2, c3, k0, k1 =>
    let w := 2 ^ 32
    let p0 := 0xD2511F53 * c0
    let p1 := 0xCD9E8D57 * c2
    philoxGo n ((p1 / w) ^^^ c1 ^^^ k0) (p1 % w) ((p0 / w) ^^^ c3 ^^^ k1) (p0 % w)
      ((k0 + 0x9E3779B9) % w) ((k1 + 0xBB67AE85) % w)
/-- philox4x32_10 (R460). -/
def philox (c0 c1 c2 c3 k0 k1 : Nat) : Nat := philoxGo 10 c0 c1 c2 c3 k0 k1
/-- gumbel (R460). -/
def gumbel (seed : W64) (seq pos v : W32) : W32 :=
  let x := philox v.toNat pos.toNat seq.toNat 0 (seed.toNat % 2 ^ 32) (seed.toNat / 2 ^ 32)
  let u := 2 * (x / 2 ^ 9) + 1
  let l := (Arith.lnDyadic u (-24)).natAbs
  let g := -(Arith.lnDyadic l (-(Arith.fxp : Int)))
  BitVec.ofNat 32 (Arith.roundFmt Arith.f32 (Arith.sticky (g < 0) g.natAbs))

end Sys2Proof.Machine
end

