-- ==== Sys2Proof/Machine/CollOps.lean ====
section
/-!
DEFINITION. The collective unit (R336-R344, R463-R465): descriptors, contributions, results, completion.
-/

namespace Sys2Proof.Machine

/-! ### Descriptors (R336) -/

/-- A little-endian field of a descriptor. -/
def fld (b : List Byte) (o n : Nat) : Nat := leNat ((b.drop o).take n)
/-- Whether a kind is an expert-row exchange. -/
def isRowKind : CollKind → Bool
  | .disp | .comb => true
  | _ => false
/-- NMEM, EPLO, ROOT, COUNT, OPC, FLAGS, ROWB, ROUND, DCAP, in the order the members compare them. -/
def collFields (b : List Byte) : List Nat :=
  [fld b 0x02 2, fld b 0x04 2, fld b 0x06 2, fld b 0x08 4, fld b 0x0C 1, fld b 0x0D 1, fld b 0x28 4, fld b 0x2C 4, fld b 0x30 4]
/-- SRC or DST is a local global address or in the own scratchpad. -/
def collAddr (v : Nat) : Bool := let a := BitVec.ofNat 64 v; (a.extractLsb' 61 3 == 0 && !isRemote a) || a.extractLsb' 61 3 == 0b100
/-- A descriptor within its limits (R336, R338). -/
def collOk (s : State) (k : CollKind) (b : List Byte) : Bool :=
  let cid := fld b 0 2
  let nm := fld b 2 2
  let lo := fld b 4 2
  let rooted := k == .red || k == .bc
  decide (1 ≤ cid) && decide (1 ≤ nm) && decide (nm ≤ 1024) && decide (lo + nm - 1 ≤ s.fab.domHi) &&
  decide (lo ≤ s.fab.ep) && decide (s.fab.ep < lo + nm) &&
  (if rooted then decide (fld b 6 2 < nm) else fld b 6 2 == 0) && fld b 8 4 != 0 &&
  (if k == .red then decide (fld b 12 1 ≤ 19) else fld b 12 1 == 0) &&
  decide (fld b 13 1 ≤ 1) && fld b 14 2 == 0 &&
  collAddr (fld b 0x10 8) && collAddr (fld b 0x18 8) &&
  (fld b 0x20 8 == 0 || (BitVec.ofNat 64 (fld b 0x20 8)).extractLsb' 61 3 == 0b100) &&
  (if isRowKind k then decide (16 ≤ fld b 0x28 4) && decide (fld b 0x28 4 ≤ 16384) && fld b 0x28 4 % 16 == 0 else fld b 0x28 4 == 0) &&
  (isRowKind k || fld b 0x2C 4 == 0) && (k == .disp || fld b 0x30 4 == 0) && fld b 0x34 12 == 0
/-- An accumulate operation by its code (R297). -/
def accOfCode (n : Nat) : AccOp :=
  ([.addS32, .addS64, .addF32, .addBf16, .minS32, .maxS32, .minN32, .maxN32, .minS64, .maxS64, .minN64, .maxN64, .minF32,
    .maxF32, .andB32, .orB32, .xorB32, .andB64, .orB64, .xorB64, .swapB32, .swapB64] : List AccOp).getD n .addS32
/-- The identity of a reduction over members (R80, R338). -/
def accIdent : AccOp → Nat
  | .addF32 => 0x80000000 | .addBf16 => 0x8000
  | .minS32 => 0x7FFFFFFF | .maxS32 => 0x80000000 | .minN32 => 0xFFFFFFFF
  | .minS64 => 0x7FFFFFFFFFFFFFFF | .maxS64 => 0x8000000000000000 | .minN64 => 0xFFFFFFFFFFFFFFFF
  | .minF32 => 0x7F800000 | .maxF32 => 0xFF800000
  | .andB32 => 0xFFFFFFFF | .andB64 => 0xFFFFFFFFFFFFFFFF
  | _ => 0
/-- Pair x ranks above pair y (R227). -/
def pairAbove (x y : Nat × Nat) : Bool :=
  let kx := Arith.totalKey (BitVec.ofNat 32 x.1)
  let ky := Arith.totalKey (BitVec.ofNat 32 y.1)
  decide (ky < kx) || (kx == ky && decide (x.2 < y.2))
/-- The highest-ranked of pairs; the earlier of two that rank equal. -/
def bestPair : List (Nat × Nat) → Nat × Nat
  | [] => (0, 0)
  | p :: r => r.foldl (fun b q => if pairAbove q b then q else b) p
/-- Pair i of packed pairs: f32 key, then n32 index. -/
def pairAt (b : List Byte) (i : Nat) : Nat × Nat := (fld b (8 * i) 4, fld b (8 * i + 4) 4)

/-! ### Expert rows (R341) -/

/-- One bit step of the CRC-8. -/
def crcBit (c : Nat) : Nat := if 128 ≤ c then (c * 2 % 256) ^^^ 0x07 else c * 2
/-- CRC-8 with polynomial 0x07 over bytes in order. -/
def crc8 (bs : List Byte) : Nat :=
  bs.foldl (fun c b => (List.range 8).foldl (fun c _ => crcBit c) (c ^^^ b.toNat)) 0
/-- The header of a row as dispatched: GATE, SLOT and TOKEN of the record, SRCPKG, ROUND and CRC set. -/
def rowHeader (h ep round : Nat) : List Byte :=
  let v := (h / 2 ^ 40 % 2 ^ 16) * 2 ^ 40 + (round % 256) * 2 ^ 32 + (h / 2 ^ 26 % 64) * 2 ^ 26 + (h / 2 ^ 10 % 2 ^ 16) * 2 ^ 10 + ep % 1024
  let b := leBytes v 7
  b ++ [BitVec.ofNat 8 (crc8 b)]
/-- A received row passes its CRC and ROUND checks. -/
def rowOk (b : List Byte) (round : Nat) : Bool := crc8 (b.take 7) == fld b 7 1 && fld b 4 1 == round % 256
/-- TOKEN and SLOT of a row. -/
def rowTs (b : List Byte) : Nat × Nat := let h := fld b 0 8; (h / 2 ^ 10 % 2 ^ 16, h / 2 ^ 26 % 64)
/-- Cuts bytes into records of n. -/
def chunks (n : Nat) (b : List Byte) : Nat → List (List Byte)
  | 0 => []
  | k + 1 => b.take n :: chunks n (b.drop n) k
/-- The combined row of a token (R343): its records in ascending SLOT as gate and values. -/
def combineRow (renorm : Bool) (n : Nat) (ps : List (Nat × List Nat)) : List Nat :=
  let f := Arith.f32
  let gate := fun (g : Nat) => Arith.cvtFF Arith.bf16 f .rne false g
  let G := ps.foldl (fun a p => Arith.fAdd f .rne a (gate p.1)) 0
  let zero := (f.mag G == 0) || ps.isEmpty
  if renorm && zero then List.replicate n 0
  else
    let w := fun (g : Nat) =>
      if renorm then gateShare (gate g) G else gate g
    (List.range n).map fun e => ps.foldl (fun a p => Arith.fFma f false (w p.1) (p.2.getD e 0) a) 0

/-! ### Instances -/

/-- Members of an instance. -/
def Coll.members (c : Coll) : List Nat := List.range' (c.key.fields.getD 1 0) (c.key.fields.getD 0 0)
/-- A member is out of reach. -/
def Coll.cut (s : State) (c : Coll) : Bool := c.members.any fun e => !reaches s e
/-- Members of an instance, of what its contributions name, and their senders (R337). -/
def Coll.everyone (c : Coll) : List Nat :=
  (c.members ++ c.got.map (·.1) ++ c.got.flatMap fun p => List.range' (p.2.1.fields.getD 1 0) (min 1024 (p.2.1.fields.getD 0 0))).dedup
/-- Changes an instance. -/
def modColl (s : State) (cid inst : Nat) (f : Coll → Coll) : State :=
  { s with fab := { s.fab with colls := s.fab.colls.map fun c => if c.key.cid = cid ∧ c.inst = inst then f c else c } }
/-- The newest instance of a CID issued here. -/
def collOf (s : State) (cid : Nat) : Option Coll := s.fab.colls.reverse.find? fun c => c.key.cid == cid
/-- Sends a body to those of some endpoints that are in reach. -/
def collTell (s : State) (c : Coll) (es : List Nat) (b : CollBody) : State :=
  (es.filter fun e => e != s.fab.ep && reaches s e).foldl (fun s e =>
    formMsg s { dst := e, msg := .coll { src := s.fab.ep, cid := c.key.cid, inst := c.inst, body := b }, task := c.task, addr := 0 }) s
/-- Sends a body to every other member in reach. -/
def collSend (s : State) (c : Coll) (b : CollBody) : State := collTell s c c.members b
/-- What a failed instance raises at its issuer (R346, R464). -/
def collCause (s : State) (c : Coll) (sub : Nat) : State :=
  if c.key.kind = .samp then
    postAsync s c.task { code := cGen, sub := 5, info := (c.bits ||| 1).setWidth 64 }
  else if sub = 0 then s
  else postAsync s c.task (fabCause sub 0 (BitVec.ofNat 64 c.key.cid))
/-- Status bits by name (R340). -/
def bUnreach : BitVec 10 := 2
/-- R340. -/
def bAbsent : BitVec 10 := 4
/-- R340. -/
def bRenorm : BitVec 10 := 8
/-- R340. -/
def bRoundInc : BitVec 10 := 16
/-- R340. -/
def bOver : BitVec 10 := 32
/-- R340. -/
def bAbort : BitVec 10 := 64
/-- R340. -/
def bMismatch : BitVec 10 := 256
/-- R340. -/
def bFault : BitVec 10 := 512
/-- A COPY cause of an instance's own access (R292): no granule, no command discarded. -/
def collFault (s : State) (c : Coll) (sub : Nat) (a : W64) (src : Bool) : State :=
  let e := (c.cmd.map (·.1)).getD false
  let sw := ((c.cmd.bind fun p => cmdOf s c.core p.1 p.2).map (·.sweep)).getD false
  let s := if sub = 0x13 then noteUe s (dieOf c.core) c.core 0xFF a else s
  postAsync s c.task { code := cCopy, sub := sub, addr := a, info := copyInfo 0 0 e src, fetch := sw }
/-- The instance ends at this member (R339): its sync word, its command, and UNREACH where a member is out of reach. -/
def collFinish (s : State) (c : Coll) : State :=
  if c.fin then s
  else
    let s := { s with fab := { s.fab with past := (c.key, c.inst) :: s.fab.past } }
    let s := modColl s c.key.cid c.inst fun d =>
      { d with fin := true, wrote := true, bits := d.bits ||| 1 ||| (if c.cut s then bUnreach else 0) }
    let s := match c.sync with
      | some o => if syncBad s (c.core, o) then collFault s c 0x13 (objAddr c.core (c.core, o)) false else syncArrive s (c.core, o) 1
      | none => s
    match c.cmd with
    | some (e, id) => dropCmd s c.core e id
    | none => s
/-- Ends an instance with further status bits and, for some, a cause. -/
def collStop (s : State) (c : Coll) (bits : BitVec 10) (sub : Nat) : State :=
  if c.fin then s
  else
    let c := { c with bits := c.bits ||| bits }
    let s := modColl s c.key.cid c.inst fun d => { d with bits := c.bits }
    collFinish (collCause s c sub) c
/-- A field of an instance's key by its place in collFields. -/
def Coll.f (c : Coll) (i : Nat) : Nat := c.key.fields.getD i 0
/-- Bytes an instance reads at SRC (R338, R342, R343). -/
def Coll.srcLen (c : Coll) : Nat :=
  match c.key.kind with
  | .red => c.f 3 * accSize (accOfCode (c.f 4))
  | .bc => c.f 3
  | .a2a => c.f 0 * c.f 3
  | .vir => 8 * c.f 3
  | .disp | .comb => c.f 3 * (16 + c.f 6)
  | .samp => 0
/-- The source that writes and reads for an instance (R121, R463). -/
def Coll.rank (c : Coll) : Nat := if c.key.kind = .samp then rkGsq else rkFabric
/-- Engine reads of an instance at a tagged address: bytes, or subcode and address. -/
def collRead (s : State) (c : Coll) (a : W64) (n : Nat) : State × Except (Nat × W64) (List Byte) :=
  match resolve s c.core c.launch a n 1 .rd with
  | (s, .error (m, _)) => (s, .error (m.eng, a))
  | (s, .ok d) =>
    match readSide s c.core c.rank d with
    | (s, .error e) => (s, .error (e, a))
    | (s, .ok b) => (s, .ok b)
/-- Engine writes of an instance: what stops them. -/
def collWrite (s : State) (c : Coll) (a : W64) (bs : List Byte) : State × Option (Nat × W64) :=
  if bs.isEmpty then (s, none)
  else match resolve s c.core c.launch a bs.length 1 .wr with
    | (s, .error (m, _)) => (s, some (m.eng, a))
    | (s, .ok d) =>
      match writeSide s c.core c.rank d bs with
      | (s, some e) => (s, some (e, a))
      | (s, none) => (s, none)
/-! ### Contributions -/

/-- The highest pair of a row of a member's shard (R463). -/
def sampLocal (s : State) (c : Coll) (i : Nat) (row : List Byte) : Nat × Nat :=
  let sq := BitVec.ofNat 32 (c.f 3)
  bestPair ((List.range c.vn).map fun j =>
    let ix := c.vlo + BitVec.ofNat 32 j
    (Arith.fAdd Arith.f32 .rne (fld row (4 * j) 4) (gumbel c.seed sq (c.pos.getD i 0) ix).toNat, ix.toNat))
/-- A row of a member's shard, logit by logit, or the first that faults (R464). -/
def shardRow (s : State) (c : Coll) (a : W64) : State × Except (Nat × W64) (List Byte) :=
  (List.range c.vn).foldl (fun (r : State × Except (Nat × W64) (List Byte)) j =>
    match r.2 with
    | .error _ => r
    | .ok acc =>
      match collRead r.1 c (wrap61 a (BitVec.ofNat 64 (4 * j))) 4 with
      | (s, .error e) => (s, .error e)
      | (s, .ok b) => (s, .ok (acc ++ b))) (s, .ok [])
/-- The contribution of this member for each member, or why its reads fail. -/
def contribs (s : State) (c : Coll) : State × Except (Nat × W64) (Nat → List Byte) :=
  if c.key.kind = .samp then
    let r := (List.range (c.f 2)).foldl (fun (r : State × Except (Nat × W64) (List Byte)) i =>
      match r.2 with
      | .error _ => r
      | .ok acc =>
        match shardRow r.1 c (wrap61 c.src (BitVec.ofNat 64 (i * c.lstr))) with
        | (s, .error e) => (s, .error e)
        | (s, .ok row) => let p := sampLocal s c i row; (s, .ok (acc ++ leBytes p.1 4 ++ leBytes p.2 4))) (s, .ok [])
    (r.1, r.2.map fun b _ => b)
  else if c.key.kind = .bc ∧ s.fab.ep ≠ c.f 1 + c.f 2 then (s, .ok fun _ => [])
  else
    match collRead s c c.src c.srcLen with
    | (s, .error e) => (s, .error e)
    | (s, .ok b) =>
      let recs := chunks (16 + c.f 6) b (c.f 3)
      (s, .ok fun e =>
        match c.key.kind with
        | .a2a => (b.drop ((e - c.f 1) * c.f 3)).take (c.f 3)
        | .disp => (recs.zipIdx.filter fun p => fld p.1 8 2 == e).flatMap fun p =>
            rowHeader (fld p.1 0 8) s.fab.ep (c.f 7) ++ leBytes p.2 4 ++ [0, 0, 0, 0] ++ p.1.drop 16
        | .comb => (recs.filter fun p => fld p 0 8 % 1024 == e).flatten
        | _ => b)
/-- What a dispatch has sent (R342): the pairs it expects back, and the destination of each record. -/
def dispatched (s : State) (c : Coll) : List (Nat × Nat) × List Nat :=
  match (collRead s c c.src c.srcLen).2 with
  | .ok b =>
    let recs := chunks (16 + c.f 6) b (c.f 3)
    (recs.map rowTs, recs.map fun p => fld p 8 2)
  | .error _ => ([], [])

/-! ### Results -/

/-- Contributions in rank order: a member that sent none counts as empty. -/
def Coll.data (c : Coll) : List (List Byte) := c.members.map fun e => ((look c.got e).map (·.2)).getD []
/-- CLRED's result (R338). -/
def redResult (c : Coll) : List Byte :=
  let op := accOfCode (c.f 4)
  let w := accSize op
  let ds := c.data
  let k := Nat.log2 (2 * ds.length - 1)
  (List.range (c.f 3)).flatMap fun j =>
    let vs := (List.range (2 ^ k)).map fun r => match ds[r]? with
      | some d => fld d (w * j) w
      | none => accIdent op
    leBytes (Arith.reduceTree (accVal op) k vs) w
/-- CLVIR's result (R338). -/
def virResult (c : Coll) : List Byte :=
  (List.range (c.f 3)).flatMap fun j =>
    let p := bestPair (c.data.map fun d => pairAt d j)
    leBytes p.1 4 ++ leBytes p.2 4
/-- The records a dispatch receives, in ascending (SRCPKG, source index), that pass their checks (R342). -/
def dispRows (c : Coll) : List (List Byte) :=
  (c.data.flatMap fun d => chunks (16 + c.f 6) d (d.length / (16 + c.f 6))).filter fun b => rowOk b (c.f 7)
/-- The accepted records of a combine (R343). -/
def combRows (s : State) (c : Coll) : List (List Byte) :=
  let exp := ((s.fab.expect.find? fun e => e.1 == (c.launch, c.f 7)).map (·.2)).getD []
  (c.data.flatMap fun d => chunks (16 + c.f 6) d (d.length / (16 + c.f 6))).filter fun b =>
    rowOk b (c.f 7) && decide ((rowTs b).1 < c.f 3) && exp.contains (rowTs b)
/-- The combined rows and the number of absent pairs (R343, R344). -/
def combResult (s : State) (c : Coll) : List Byte × Nat :=
  let exp := ((s.fab.expect.find? fun e => e.1 == (c.launch, c.f 7)).map (·.2)).getD []
  let rows := combRows s c
  let renorm := ((look s.launches c.launch).map (·.renorm)).getD false
  let n := c.f 6 / 4
  let out := (List.range (c.f 3)).flatMap fun t =>
    let ps := (List.range 64).filterMap fun sl => (rows.find? fun b => rowTs b == (t, sl)).map fun b =>
      (fld b 5 2, (List.range n).map fun e => fld b (16 + 4 * e) 4)
    (combineRow renorm n ps).flatMap fun v => leBytes v 4
  (out, (exp.filter fun p => !(rows.any fun b => rowTs b == p)).length)
/-- Writes what an instance writes at this member, notes its status, and reports DONE. -/
def collPerform (s : State) (c : Coll) : State :=
  let cut := c.cut s
  let close := fun (s : State) (bits : BitVec 10) (rows absent : Nat) =>
    let s := modColl s c.key.cid c.inst fun d => { d with wrote := true, bits := d.bits ||| bits, rows := rows, absent := absent }
    collSend s c (.done absent)
  let put1 := fun (s : State) (ws : List (W64 × List Byte)) =>
    ws.foldl (fun (r : State × Bool) w =>
      if r.2 then r
      else match collWrite r.1 c w.1 w.2 with
        | (s, none) => (s, false)
        | (s, some (e, a)) => (collFault s c e a false, true)) (s, false)
  match c.key.kind with
  | .red =>
    let mine := s.fab.ep == c.f 1 + c.f 2 || c.f 5 == 1
    close (put1 s (if mine then [(c.dst, redResult c)] else [])).1 0 0 0
  | .bc => close (put1 s [(c.dst, (c.data.getD (c.f 2) []))]).1 0 0 0
  | .vir => close (put1 s [(c.dst, virResult c)]).1 0 0 0
  | .a2a =>
    let ws := (c.members.filter fun e => reaches s e).filterMap fun e => (look c.got e).map fun d =>
      (wrap61 c.dst (BitVec.ofNat 64 ((e - c.f 1) * c.f 3)), d.2)
    close (put1 s ws).1 (if cut then bUnreach else 0) 0 0
  | .disp =>
    let rows := dispRows c
    let cap := c.f 8
    let ws := rows.take cap
    let out := ws.zipIdx.map fun p => (wrap61 c.dst (BitVec.ofNat 64 (p.2 * (16 + c.f 6))), p.1)
    let lost := (c.dests.filter fun e => !c.members.contains e).length
    let s := (put1 s out).1
    let s := (c.members.filter fun e => e != s.fab.ep && reaches s e).foldl (fun s e =>
      let n := ((rows.drop cap).filter fun b => fld b 0 8 % 1024 == e).length
      formMsg s { dst := e, msg := .coll { src := s.fab.ep, cid := c.key.cid, inst := c.inst, body := .done n }, task := c.task, addr := 0 }) s
    let own := ((rows.drop cap).filter fun b => fld b 0 8 % 1024 == s.fab.ep).length + lost
    modColl s c.key.cid c.inst fun d => { d with
      wrote := true, rows := ws.length, absent := own,
      bits := d.bits ||| (if cap < rows.length then bOver else 0) ||| (if cut then bUnreach else 0) }
  | .comb =>
    let r := combResult s c
    close (put1 s [(c.dst, r.1)]).1 (if cut then bUnreach else 0) r.2 r.2
  | .samp =>
    let live := match c.pass with
      | some _ => true
      | none => false
    let words := (List.range (c.f 2)).flatMap fun i => leBytes (bestPair (c.data.map fun d => pairAt d i)).2 4
    close (if live then (put1 s [(c.dst, words)]).1 else s) 0 0 0
/-- The end of an exchange of expert rows (R342, R344). -/
def collRowEnd (s : State) (c : Coll) : State :=
  let told := c.dones.foldl (fun n d => n + d.2) 0
  let renorm := ((look s.launches c.launch).map (·.renorm)).getD false
  match c.key.kind with
  | .disp =>
    -- what went to a member that has told nothing and is out of reach is absent (R319)
    let cut := (c.dests.filter fun e => c.members.contains e && !reaches s e && (look c.dones e).isNone).length
    let ab := c.absent + told + cut
    collFinish (modColl s c.key.cid c.inst fun d => { d with bits := d.bits ||| (if ab = 0 then 0 else bAbsent) }) c
  | .comb =>
    let any := decide (0 < told + c.absent)
    let mine : BitVec 10 := if c.absent = 0 then 0 else bAbsent
    if renorm then collFinish (modColl s c.key.cid c.inst fun d => { d with bits := d.bits ||| bRenorm ||| mine }) c
    else if any then
      let s := modColl s c.key.cid c.inst fun d => { d with bits := d.bits ||| bRoundInc ||| mine }
      collFinish (collCause s c 7) c
    else collFinish s c
  | _ => collFinish s c
/-- Messages of an instance that its members have not yet accepted (R339). -/
def collUnsent (s : State) (c : Coll) : Bool :=
  (s.fab.out ++ s.fab.sent).any fun o => match o.msg with
    | .coll m => m.cid == c.key.cid && m.inst == c.inst && o.dst != s.fab.ep
    | _ => false
/-- COLLECTIVE_COMPLETE: an instance moves as far as what has arrived allows. -/
def collAdvance (s : State) (cid : Nat) : State :=
  match collOf s cid with
  | none => s
  | some c =>
    if c.fin || !c.started || ((c.cmd.bind fun p => cmdOf s c.core p.1 p.2).map (·.stop)).getD false then s
    else
      let live := c.members.filter fun e => reaches s e
      let all := live.all fun e => (look c.got e).isSome
      let clash := c.got.any fun p => p.2.1 != c.key
      let strict := match c.key.kind with
        | .red | .bc | .vir | .samp => true
        | _ => false
      if clash then collStop (collTell s c c.everyone .mismatch) c bMismatch 9
      else if !c.wrote && strict && c.cut s then collStop (collSend s c .unreach) c bUnreach 0
      else if !c.wrote then
        if all then
          if c.bits.getLsbD 9 then
            -- a member's logit reads faulted: no OUT word is written (R464)
            let s := modColl s cid c.inst fun d => { d with wrote := true }
            collSend s c (.done 0)
          else collPerform s c
        else s
      else if (live.all fun e => e == s.fab.ep || (look c.dones e).isSome) && !collUnsent s c then
        if c.key.kind = .samp ∧ c.bits.getLsbD 9 then collFinish (if c.farFault then collCause s c 0 else s) c
        else collRowEnd s c
      else s

/-! ### Beginning, messages, ends -/

/-- A message of an outstanding instance. -/
def collTake (s : State) (c : Coll) (src : Nat) (b : CollBody) : State :=
  let m := fun (f : Coll → Coll) => modColl s c.key.cid c.inst f
  match b with
  | .contrib k d => m fun x => { x with got := put x.got src (k, d) }
  | .done n => m fun x => { x with dones := put x.dones src n }
  | .fault => m fun x => { x with bits := x.bits ||| bFault, farFault := true, got := put x.got src (x.key, []) }
  | .abort => collStop s c bAbort 0
  | .unreach => if c.wrote then m fun x => { x with bits := x.bits ||| bUnreach } else collStop s c bUnreach 0
  | .mismatch => collStop s c bMismatch 9
/-- A contribution of other fields to an instance that has ended here: its sender is told of the mismatch, so that it waits no
longer (R337; log entry 90). -/
def collLate (s : State) (m : CollMsg) : State :=
  match m.body with
  | .contrib k _ =>
    if reaches s m.src && s.fab.past.any fun p => p.1.cid == m.cid && p.2 == m.inst && p.1 != k then
      formMsg s { dst := m.src, msg := .coll { src := s.fab.ep, cid := m.cid, inst := m.inst, body := .mismatch }, task := 0, addr := 0 }
    else s
  | _ => s
/-- COLLECTIVE_ARRIVAL: a message joins its instance, or waits for its issue (R337). -/
def collArrive (s : State) (m : CollMsg) : State :=
  match s.fab.colls.find? fun c => c.key.cid == m.cid && c.inst == m.inst && !c.fin with
  | some c => (collTake s c m.src m.body).due .collectiveComplete { num := m.cid }
  | none =>
    if m.inst < (look s.fab.ncoll m.cid).getD 0 then collLate s m
    else if s.fab.early.contains m then s
    else { s with fab := { s.fab with early := s.fab.early ++ [m] } }
/-- The contributions of this member leave (R338, R342, R343, R463), behind what comes before its reads (R111). -/
def collStart (s : State) (cid : Nat) : State :=
  match collOf s cid with
  | none => s
  | some c =>
    if c.started || c.fin || !forked s c.task c.fork then s
    else
      let s := modColl s cid c.inst fun d => { d with started := true }
      match contribs s c with
      | (s, .error (sub, a)) =>
        if c.key.kind = .samp then
          -- a fault notice goes in place of the pairs (R464); this member reports SAMPFAULT
          let s := postAsync s c.task { code := cGen, sub := 4, addr := a, info := BitVec.ofNat 64 sub }
          let s := modColl s cid c.inst fun d => { d with bits := d.bits ||| bFault, got := put d.got s.fab.ep (c.key, []) }
          (collSend s c .fault).due .collectiveComplete { num := cid }
        else
          collStop (collSend (collFault s c sub a true) c .abort) c bAbort 0
      | (s, .ok f) =>
        let s := if c.key.kind = .disp then
            let k := (c.launch, c.f 7)
            let d := dispatched s c
            modColl { s with fab := { s.fab with expect := (k, d.1) :: s.fab.expect.filter fun e => e.1 != k } } cid c.inst
              fun x => { x with dests := d.2 }
          else s
        let s := modColl s cid c.inst fun d => { d with got := put d.got s.fab.ep (c.key, f s.fab.ep) }
        let s := c.members.foldl (fun s e => collTell s c [e] (.contrib c.key (f e))) s
        s.due .collectiveComplete { num := cid }
/-- An instance of a CID is outstanding at this package (R337). -/
def collBusy (s : State) (cid : Nat) : Bool := s.fab.colls.any fun c => c.key.cid == cid && !c.fin
/-- An instance is issued: messages that came early join it. -/
def collIssue (s : State) (c : Coll) : State :=
  let n := (look s.fab.ncoll c.key.cid).getD 0
  let c := { c with inst := n }
  let mine := s.fab.early.filter fun m => m.cid == c.key.cid && m.inst == n
  let rest := s.fab.early.filter fun m => !(m.cid == c.key.cid && m.inst == n)
  let kept := s.fab.colls.filter fun d => d.key.cid != c.key.cid
  let s := { s with fab := { s.fab with colls := kept ++ [c], ncoll := put s.fab.ncoll c.key.cid (n + 1), early := rest } }
  mine.foldl collArrive s
/-- The kill of a member's issuing task (R339). -/
def collAbort (s : State) (t : Nat) : State :=
  (s.fab.colls.filter fun c => c.task == t && !c.fin).foldl (fun s c => collStop (collSend s c .abort) c bAbort 0) s
/-- A collective that a failed command of its engine discards (R292): it ends as its issuer's kill would end it, and signals
nothing (log entry 89). -/
def collDiscard (s : State) (cid : Nat) : State :=
  match collOf s cid with
  | none => s
  | some c =>
    if c.fin then s
    else
      let s := modColl s cid c.inst fun d => { d with sync := none }
      collStop (collSend s c .abort) { c with sync := none } bAbort 0
/-- An endpoint out of reach: instances with it as a member (R319). -/
def collLose (s : State) (p : Nat) : State :=
  (s.fab.colls.filter fun c => !c.fin && c.members.contains p).foldl (fun s c =>
    let s := match c.key.kind with
      | .red | .bc | .vir | .samp =>
        if c.wrote then modColl s c.key.cid c.inst fun d => { d with bits := d.bits ||| bUnreach } else collStop (collSend s c .unreach) c bUnreach 0
      | _ => modColl s c.key.cid c.inst fun d => { d with bits := d.bits ||| bUnreach }
    s.due .collectiveComplete { num := c.key.cid }) s
/-- The status word CLWAIT pushes (R340). -/
def collStatus (c : Coll) : W64 := BitVec.ofNat 64 (c.rows * 2 ^ 32) ||| c.bits.setWidth 64

end Sys2Proof.Machine
end

