-- ==== Sys2Proof/Machine/GenOps.lean ====
section
/-!
DEFINITION. The generation sequencer (R446-R456, R459, R461, R465): instances, passes, drains, and the operations that
reach them.
-/

namespace Sys2Proof.Machine

/-! ### Passes (R449-R456) -/

/-- The ITN of the k-th pass: from 1 to 0xFFFF_FFFF, then from 1 (R450). -/
def itnOf (k : Nat) : W32 := BitVec.ofNat 32 ((k - 1) % (2 ^ 32 - 1) + 1)
/-- Where an ITN stands: in the table, not yet opened, or gone from it (R454). -/
inductive Found where
  | pass (p : Pass)
  | future
  | gone
/-- The pass an ITN names. One that no pass has had is not yet opened; once the ITNs have begun anew, one that the table
lacks is the nearer of the two passes that had it or will have it (log entry 81). -/
def Gsq.find (g : Gsq) (itn : W32) : Found :=
  if itn = 0 then .gone
  else match g.passes.find? fun p => itnOf p.k == itn with
    | some p => .pass p
    | none =>
      if g.opened < 2 ^ 32 - 1 then (if itn.toNat ≤ g.opened then .gone else .future)
      else
        let d := (itn.toNat + (2 ^ 32 - 1) - (itnOf g.opened).toNat) % (2 ^ 32 - 1)
        if 0 < d ∧ d < 2 ^ 31 then .future else .gone
/-- Pass k of the table. -/
def Gsq.at (g : Gsq) (k : Nat) : Option Pass := g.passes.find? fun p => p.k == k
/-- Changes pass k. -/
def Gsq.mod (g : Gsq) (k : Nat) (f : Pass → Pass) : Gsq := { g with passes := g.passes.map fun p => if p.k = k then f p else p }
/-- The bucket a pass opened now would take (R449). -/
def Gsq.fit (g : Gsq) : Option (Nat × Bucket) :=
  (List.range 16).findSome? fun n =>
    match g.buckets.getD n none with
    | some b => if g.occ ≤ b.occMax ∧ g.dlen ≤ b.dlMax then some (n, b) else none
    | none => none
/-- A pass is OPEN or ACCEPTED. -/
def Pass.live (p : Pass) : Bool := !p.drained && !p.closed
/-- Passes OPEN or ACCEPTED. -/
def Gsq.nopen (g : Gsq) : Nat := (g.passes.filter Pass.live).length
/-- Drains pass k and every younger pass reached through successors with ASPEC set (R456). -/
def Gsq.drainFrom (g : Gsq) : Nat → Nat → Gsq
  | 0, _ => g
  | n + 1, k =>
    let g := g.mod k fun p => if p.closed then p else { p with drained := true, acc := none }
    match g.at (k + 1) with
    | some q => if q.aspec then Gsq.drainFrom g n (k + 1) else g
    | none => g
/-- A drain of pass k. -/
def Gsq.drain (g : Gsq) (k : Nat) : Gsq := if ((g.at k).map (·.closed)).getD true then g else Gsq.drainFrom g 17 k
/-- The test of the assumption of pass k + 1 against pass k (R455). -/
def Gsq.test (g : Gsq) (k : Nat) : Gsq :=
  match g.at k, g.at (k + 1) with
  | some p, some q =>
    match p.acc with
    | some (n, t) =>
      if q.aspec ∧ !q.closed ∧ ((q.word.extractLsb' 0 8).toNat ≠ n ∨ q.word.extractLsb' 32 32 ≠ t) then g.drain (k + 1) else g
    | none => g
  | _, _ => g
/-- Pass k closes once every participant still enrolled has ended it (R452). -/
def Gsq.close (g : Gsq) (k : Nat) : Gsq :=
  match g.at k with
  | some p =>
    if p.closed || !(g.parts.all fun q => p.ended.contains q.1) then g
    else
      let wasOpen := !p.drained && p.acc.isNone
      let g := g.mod k fun p => { p with closed := true }
      match g.at (k + 1) with
      | some q => if wasOpen ∧ q.aspec then g.drain (k + 1) else g
      | none => g
  | none => g
/-- The first start of a pass opens it (R449, R450, R452). -/
def Gsq.open_ (g : Gsq) (word : W64) : Gsq :=
  let k := g.opened + 1
  let pred := g.at (k - 1)
  let b := g.fit
  let p : Pass := {
    k := k, word := word, aspec := word.getLsbD 31 && pred.isSome && k != 1, bkt := b.map (·.1)
    entry := (b.map fun q => q.2.entry).getD 0, occ := g.occ, dlen := g.dlen, drained := b.isNone }
  let g := { g with opened := k, passes := (p :: g.passes).take 16 }
  match pred with
  | some q =>
    if !p.aspec then g
    else if q.acc.isSome then g.test (k - 1)
    else if q.drained || q.closed then g.drain k else g
  | none => g
/-- MARK of a pass (R453). -/
def Gsq.mark (g : Gsq) (p : Pass) : Nat :=
  let l := g.parts.map fun q => ((look p.marks q.1).map (· + 1)).getD 0
  match l with
  | [] => 0
  | a :: r => r.foldl min a
/-- The pass of an ITN among those a task has joined and not ended. -/
def Gsq.mine (g : Gsq) (t : Nat) (itn : W32) : Option Pass :=
  match g.find itn with
  | .pass p => if p.joined.contains t && !p.ended.contains t then some p else none
  | _ => none
/-- A participant leaves: by EXIT it ends every pass it has joined, in order; by a kill it drains them (R447, R452). -/
def Gsq.leave (g : Gsq) (t : Nat) (killed : Bool) : Gsq :=
  if (look g.parts t).isNone then g
  else
    let ks := (g.passes.reverse.filter fun p => p.joined.contains t && !p.ended.contains t).map (·.k)
    let g := ks.foldl (fun g k =>
      if killed then g.drain k else Gsq.close (g.mod k fun p => { p with ended := p.ended ++ [t] }) k) g
    let forget := fun (p : Pass) => { p with
      joined := p.joined.filter fun u => u != t, ended := p.ended.filter fun u => u != t, marks := del p.marks t }
    let g := { g with parts := del g.parts t, passes := g.passes.map forget }
    (g.passes.reverse.map (·.k)).foldl Gsq.close g
/-- The status word of a pass (R459). -/
def Found.word : Found → W64
  | .pass p =>
    let acc := match p.acc with
      | some (n, t) => t.toNat * 2 ^ 32 + n % 256 * 2 ^ 24 + 2
      | none => 0
    BitVec.ofNat 64 (acc + (p.bkt.getD 0) * 2 ^ 20 + (if p.bkt.isNone then 16 else 0) + (if p.closed then 8 else 0) +
      (if p.drained then 4 else 0) + 1)
  | _ => 32

/-! ### Operations that reach an instance (R446) -/

/-- The instance of a group table entry. -/
def gsqOf (s : State) (e : Nat) : Gsq := (look s.gsq e).getD {}
/-- Drained passes write no OUT word (R465). -/
def drainSamps (s : State) (e : Nat) : State :=
  let g := gsqOf s e
  { s with fab := { s.fab with colls := s.fab.colls.map fun c =>
      match c.pass with
      | some (i, n) => if i = e then
          (match g.find (BitVec.ofNat 32 n) with
          | .pass p => if p.drained then { c with pass := none } else c
          | _ => c) else c
      | none => c } }
/-- Sets an instance. -/
def setGsq (s : State) (e : Nat) (g : Gsq) : State := drainSamps { s with gsq := put s.gsq e g } e
/-- GEN (R469). -/
def genCause (sub : Nat) (itn : W32) : Cause := { code := cGen, sub := sub, info := itn.setWidth 64 }
/-- GSITER.start at its instance (R447, R450). -/
def gsStart (s : State) (e t : Nat) (word : W64) : State :=
  let g := gsqOf s e
  match look g.parts t, decide (g.parts.length < g.npart) with
  | none, false => postAsync s t (genCause 1 0)
  | o, _ =>
    let k := o.getD 0 + 1
    let g := { g with parts := put g.parts t k }
    let join := fun (g : Gsq) => g.mod k fun p => { p with joined := p.joined ++ [t] }
    match g.at k with
    | some p =>
      let s := setGsq s e (join g)
      if p.word = word then s else postAsync s t (genCause 2 (itnOf k))
    | none =>
      if k ≤ g.opened then postAsync (setGsq s e g) t (genCause 3 (itnOf k))
      else setGsq s e (join (g.open_ word))
/-- GSACC at its instance (R458). -/
def gsAcc (s : State) (e t : Nat) (itn : W32) (n : Nat) (tok : W32) : State :=
  let g := gsqOf s e
  match g.mine t itn with
  | some p =>
    if p.live ∧ p.acc.isNone then setGsq s e (Gsq.test (g.mod p.k fun p => { p with acc := some (n, tok) }) p.k)
    else if p.acc.isSome ∧ p.acc ≠ some (n, tok) then postAsync s t (genCause 2 itn) else s
  | none =>
    match g.find itn with
    | .pass p => if p.acc.isSome ∧ p.acc ≠ some (n, tok) then postAsync s t (genCause 2 itn) else s
    | _ => s
/-- An operation applied at its instance. -/
def gsApply (s : State) (o : GsOp) : State :=
  let g := gsqOf s o.inst
  match o.act with
  | .bucket n b => setGsq s o.inst { g with buckets := g.buckets.set n b }
  | .occ v => setGsq s o.inst { g with occ := v }
  | .dlen v => setGsq s o.inst { g with dlen := v }
  | .seed v => setGsq s o.inst { g with seed := v }
  | .start w => gsStart s o.inst o.task w
  | .layer l itn =>
    match g.mine o.task itn with
    | some p => setGsq s o.inst (g.mod p.k fun p => { p with marks := put p.marks o.task (max l ((look p.marks o.task).getD 0)) })
    | none => postAsync s o.task (genCause 3 itn)
  | .fin itn =>
    match g.mine o.task itn with
    | some p => setGsq s o.inst (Gsq.close (g.mod p.k fun p => { p with ended := p.ended ++ [o.task] }) p.k)
    | none => postAsync s o.task (genCause 3 itn)
  | .acc itn n t => gsAcc s o.inst o.task itn n t
  | .noise seq pos base id =>
    landVal s o.task id (.v (VReg.of fun l => gumbel g.seed seq pos (base + BitVec.ofNat 32 l)))
  | .left killed => setGsq s o.inst (g.leave o.task killed)
/-- Whether one sent operation arrives before another that was sent later (R446). -/
def gsBefore (a b : GsOp) : Bool := decide (a.due.toNat < b.due.toNat) || (a.due == b.due && decide (a.core ≤ b.core))
/-- The operation that arrives next, of those whose cycle has come. -/
def gsNext (s : State) : Option GsOp :=
  (sortBy gsBefore (s.gsops.filter fun o => decide (o.due.toNat ≤ (s.acyc[groupHome s o.inst]).toNat))).head?
/-- GSQ_OP_ARRIVAL (R446). -/
def gsStep (s : State) : State :=
  match gsNext s with
  | some o => gsApply { s with gsops := s.gsops.erase o } o
  | none => s
/-- An operation of a task is on its way to its instance, or waits to be sent. -/
def gsFly (s : State) (t : Nat) : Bool :=
  s.gsops.any (fun o => o.task == t) || ((s.ctx? t).map fun x => x.holds.any fun h => match h with
    | .gs _ => true
    | _ => false).getD false
/-- The end of a task reaches its instance as its operations do (R447, R452). -/
def gsLeave (s : State) (t c : Nat) (killed : Bool) : State :=
  match groupEntry s t with
  | some e =>
    if (look (gsqOf s e).parts t).isSome || s.gsops.any (fun o => o.task == t) then sendGs s t c (.left killed) else s
  | none => s
/-- A GSQ instance is reset when the group table entry is filled (R446). -/
def gsReset (s : State) (e : Nat) : State := { s with gsq := put s.gsq e {}, gsops := s.gsops.filter fun o => o.inst != e }
/-- The current pass of a task that GSCUR and GSENTRY report (R470). -/
def gsCurrent (s : State) (t : Nat) : Option Pass :=
  (groupEntry s t).bind fun e => (gsqOf s e).passes.find? fun p => p.joined.contains t && !p.ended.contains t

end Sys2Proof.Machine
end

