-- ==== Sys2Proof/Machine/PageOps.lean ====
section
/-!
DEFINITION. The page engines and the flash pager (R349-R378): frames and their layout, the page map, fills and
evictions, selection, page sets, and the granules of the page commands.
-/

namespace Sys2Proof.Machine

/-! ### Frames (R349-R351, R355) -/

/-- Bytes of a frame. -/
def frameB : Nat := 0x9000
/-- The die that owns a handle (R353). -/
def pgDie (h : Nat) : Nat := h / 2 ^ 23 % 2
/-- A handle is legal and not the empty one (R353). -/
def pgOk (s : State) (h : Nat) : Bool := decide (h < 2 ^ 24) && decide (h % 2 ^ 23 < s.pg.mapn)
/-- The entry of a handle; an unlisted one is ABSENT (R354). -/
def pgEnt (s : State) (h : Nat) : PgEntry := (look s.pg.map h).getD {}
/-- Sets the entry of a handle. -/
def setEnt (s : State) (h : Nat) (e : PgEntry) : State := { s with pg := { s.pg with map := put s.pg.map h e } }
/-- Physical address of frame f of the die of a handle (R355). -/
def frameAt (s : State) (h f : Nat) : Nat := (if pgDie h = 0 then s.pg.base0 else s.pg.base1) + f * frameB
/-- Tokens a page holds (R350). -/
def pgCap (hdc : Nat) : Nat := 16384 / (64 * 2 ^ hdc)
/-- Head dimension of a code. -/
def hdOf (hdc : Nat) : Nat := 64 * 2 ^ hdc
/-- The n-th number not among rising ones. -/
def nthFree : List Nat → Nat → Nat
  | [], n => n
  | a :: r, n => if n < a then n else nthFree r (n + 1)
/-- Removes a number from a list. -/
def rmN (l : List Nat) (k : Nat) : List Nat := l.filter fun a => a != k
/-- Frames of a die in use. -/
def usedF (s : State) (d : Nat) : List Nat := if d = 0 then s.pg.used0 else s.pg.used1
/-- Sets the frames of a die in use. -/
def setUsedF (s : State) (d : Nat) (l : List Nat) : State :=
  { s with pg := if d = 0 then { s.pg with used0 := l } else { s.pg with used1 := l } }
/-- One of the numbers below `total` that are not in use (log entry 4). -/
def takeFree (s : State) (used : List Nat) (total : Nat) : Option Nat :=
  if total ≤ used.length then none else some (nthFree used (Config.pick s.fresh % (total - used.length)))
/-- Takes a frame of the die of a handle. -/
def takeFrame (s : State) (h : Nat) : Option (State × Nat) :=
  (takeFree s (usedF s (pgDie h)) s.pg.frames).map fun f =>
    (setUsedF s.tick (pgDie h) (insN (usedF s (pgDie h)) f), f)
/-- Frees a frame; no granule is using it, since each is one step (R356). -/
def freeFrame (s : State) (h f : Nat) : State := setUsedF s (pgDie h) (rmN (usedF s (pgDie h)) f)
/-- Frees a flash slot and a header slot. -/
def freeSlots (s : State) (fs hs : Nat) : State :=
  { s with pg := { s.pg with usedS := rmN s.pg.usedS fs, usedH := rmN s.pg.usedH hs } }
/-- Physical address of a header slot. -/
def hdrAt (s : State) (i : Nat) : Nat := s.pg.hbase + 1024 * i

/-! ### Check words (R351) -/

/-- One bit of CRC-32C, reflected. -/
def crc32Bit (c : Nat) : Nat := if c % 2 = 1 then (c / 2) ^^^ 0x82F63B78 else c / 2
/-- CRC-32C of bytes. -/
def crc32c (bs : List Byte) : Nat :=
  (bs.foldl (fun c b => (List.range 8).foldl (fun c _ => crc32Bit c) (c ^^^ b.toNat)) 0xFFFFFFFF) ^^^ 0xFFFFFFFF
/-- The 35 check words of a frame. -/
def checkWords (fr : List Byte) : List Byte :=
  ((List.range 34).flatMap fun i => leBytes (crc32c ((fr.drop (1024 * i)).take 1024)) 4) ++
    leBytes (crc32c ((fr.drop 0x8800).take 64)) 4

/-! ### State changes of an entry (R356) -/

/-- Word 0 of an entry (R354). -/
def pgWord0 (e : PgEntry) : W64 :=
  let st := match e.st with | .absent => 0 | .resident => 1 | .cold => 2 | .filling => 3 | .revoked => 4
  let loc := match e.st with
    | .resident | .filling => e.frame.getD 0
    | .cold => e.slot
    | _ => 0
  BitVec.ofNat 64 (st * 2 ^ 61 + e.hdc * 2 ^ 59 + loc)
/-- Word 1 of an entry. -/
def pgWord1 (e : PgEntry) : W64 :=
  let hs := match e.st with
    | .cold | .filling => e.hslot
    | _ => 0
  BitVec.ofNat 64 (hs * 2 ^ 32 + e.ref)
/-- The page leaves its set of references: reclaimed now, or once an eviction or a fill has ended (R356, R370). -/
def reclaim (s : State) (h : Nat) : State :=
  let e := pgEnt s h
  if e.evict.isSome then setEnt s h { e with dead := true }
  else match e.st with
    | .resident => setEnt ((e.frame.map (freeFrame s h)).getD s) h { e with st := .revoked, frame := none, dead := false }
    | .cold => setEnt (freeSlots s e.slot e.hslot) h { e with st := .revoked, slot := 0, hslot := 0, dead := false }
    | .filling => setEnt s h { e with dead := true }
    | _ => s
/-- Makes the entry of a page reclaimed if its references went while it was being moved. -/
def reclaimDead (s : State) (h : Nat) : State := if (pgEnt s h).dead then reclaim s h else s
/-- The metadata block of a new page (R351, R369). -/
def metaBlock (hdc ntok pos0 h : Nat) : List Byte :=
  leBytes 0x4B500001 4 ++ leBytes hdc 1 ++ [0] ++ leBytes ntok 2 ++ leBytes pos0 4 ++ leBytes h 4 ++ List.replicate 48 0
/-- MAPNEW (R356, R369). -/
def mapNew (s : State) (h hdc pos0 : Nat) : Option State :=
  let e := pgEnt s h
  if e.st != .absent && e.st != .revoked then none
  else match takeFrame s h with
    | none => none
    | some (s, f) =>
      let a := frameAt s h f
      let s := memWrite s (place a (List.replicate frameB 0))
      let s := memWrite s (place (a + 0x8800) (metaBlock hdc 0 pos0 h))
      some (setEnt s h { e with st := .resident, hdc := hdc, frame := some f, slot := 0, hslot := 0 })
/-- Starts an eviction (R369, R370). -/
def evictStart (s : State) (h : Nat) : Option State :=
  let e := pgEnt s h
  if e.st != .resident || e.evict.isSome then none
  else match takeFree s s.pg.usedS s.pg.fslots, takeFree s.tick s.pg.usedH s.pg.hslots with
    | some fs, some hs =>
      let s := { s.tick.tick with pg := { s.pg with usedS := insN s.pg.usedS fs, usedH := insN s.pg.usedH hs } }
      some (setEnt s h { e with evict := some (fs, hs, false) })
    | _, _ => none
/-- Bytes of a frame, none where a granule of them is poisoned (R486). -/
def frameRead (s : State) (a n : Nat) : Option (List Byte) :=
  if (linesOf a n).any fun l => s.poison.contains l then none else some (rdBytes s.mem a n)
/-- An eviction ends (R356, R370); one whose frame cannot be read leaves the page where it is (log entry 92). -/
def evictEnd (s : State) (h : Nat) : State :=
  let e := pgEnt s h
  match e.evict, e.frame with
  | some (fs, hs, touched), some f =>
    if touched || (frameRead s (frameAt s h f) frameB).isNone then reclaimDead (setEnt (freeSlots s fs hs) h { e with evict := none }) h
    else
      let fr := rdBytes s.mem (frameAt s h f) frameB
      let fr := fr.take 0x8840 ++ checkWords fr ++ fr.drop 0x88CC
      let s := { s with pg := { s.pg with flash := wrBytes s.pg.flash (place (fs * frameB) fr) } }
      let s := memWrite s (place (hdrAt s hs) (fr.take 1024))
      reclaimDead (setEnt (freeFrame s h f) h { e with st := .cold, frame := none, slot := fs, hslot := hs, evict := none }) h
  | _, _ => s

/-! ### Fills (R362, R363) -/

/-- Queues a PREFETCH fill of a COLD page. -/
def prefetch (s : State) (h : Nat) : State :=
  let e := pgEnt s h
  if e.st = .cold then
    let s := setEnt s h { e with st := .filling, frame := none }
    { s with pg := { s.pg with pre := s.pg.pre ++ [h] } }
  else s
/-- Queues a demand fill of a COLD page, or moves its PREFETCH fill up; the PREFETCH fills of `next` follow (R363). -/
def demandFill (s : State) (h : Nat) (next : List Nat) : State :=
  let e := pgEnt s h
  let more := fun (s : State) => (next.take 15).foldl (fun s g => if pgOk s g then prefetch s g else s) s
  if e.st = .cold then
    let s := setEnt s h { e with st := .filling, frame := none }
    more { s with pg := { s.pg with demand := s.pg.demand ++ [h] } }
  else if s.pg.pre.contains h then
    more { s with pg := { s.pg with pre := rmN s.pg.pre h, demand := s.pg.demand ++ [h] } }
  else s
/-- The next fill begins: it takes its frame, or waits for one (R363 step 1). -/
def fillBegin (s : State) : State :=
  match s.pg.demand ++ s.pg.pre with
  | [] => s
  | h :: _ =>
    match takeFrame s h with
    | none => s
    | some (s, f) =>
      let s := setEnt s h { pgEnt s h with frame := some f }
      { s with pg := { s.pg with filling := some h, demand := rmN s.pg.demand h, pre := rmN s.pg.pre h } }
/-- Commands that stopped on a page are marked where its fill failed. -/
def markFail (h : Nat) (k : Core) : Core :=
  let f := fun (q : Cmd) => if q.page = some h then { q with pgfail := true } else q
  { k with cq0 := k.cq0.map f, cq1 := k.cq1.map f }
/-- The fill in progress ends (R356, R363 steps 2 to 4); `bad` where the flash could not be read. -/
def fillEnd (s : State) (h : Nat) (bad : Bool) : State :=
  let e := pgEnt s h
  let fr := rdBytes s.pg.flash (e.slot * frameB) frameB
  let ok := !bad && checkWords fr == (fr.drop 0x8840).take 140
  let s := { s with pg := { s.pg with filling := none }, tasks := s.tasks.map fun p => (p.1, { p.2 with pages := rmN p.2.pages h }) }
  let f := e.frame.getD 0
  let s :=
    if ok then
      let s := memWrite s (place (frameAt s h f) fr)
      setEnt (freeSlots s e.slot e.hslot) h { e with st := .resident, slot := 0, hslot := 0 }
    else
      let s := logRas s 0 0x105 0xFFFF 0xFF none none none
      let s := { s with cores := s.cores.map fun p => (p.1, markFail h p.2) }
      setEnt (freeFrame s h f) h { e with st := .cold, frame := none }
  reclaimDead s h
/-- A command stops before a granule whose page is being filled; its running context is asked to park, through a
rollback of its sweep where the command is of its operand fetch (R362). -/
def pageStop (s : State) (c : Nat) (e : Bool) (q : Cmd) (h : Nat) (next : List Nat) : State :=
  let s := setCmd (demandFill s h next) c e { q with page := some h, pause := true }
  match s.ctx? q.task, look s.tasks q.task with
  | some x, some k =>
    let count := k.st == .running && !x.park
    let s := { s with tasks := put s.tasks q.task { k with
      pages := insN k.pages h, pgpark := if count then (k.pgpark + 1) &&& 0xFFFFFFFF else k.pgpark } }
    let s := if k.st = .running then s.setCtx q.task { x with park := true } else s
    if q.sweep then s.modCore c fun k => { k with me := { k.me with sweep := k.me.sweep.map fun w => { w with roll := w.roll.or (some none) } } }
    else s
  | _, _ => s

/-- What the entry of a handle makes of a granule (R361). -/
inductive PgLook where
  | go (e : PgEntry) (frame : Nat)
  | stop
  | absent
/-- R361. -/
def pgLook (s : State) (h : Nat) : PgLook :=
  if !pgOk s h then .absent
  else
    let e := pgEnt s h
    match e.st, e.frame with
    | .resident, some f => .go e (frameAt s h f)
    | .cold, _ => .stop
    | .filling, _ => .stop
    | _, _ => .absent

/-! ### KVLD (R359, R360) -/

/-- A command of the page engines stops on a failure; ADDR is a handle or an address (R358, R377). -/
def pageFault (s : State) (c : Nat) (e : Bool) (q : Cmd) (sub : Nat) (addr : Nat) (src : Bool) : State :=
  copyFault s c e q sub (BitVec.ofNat 64 addr) src
/-- Element codes and scales of a token's row: of the keys, or of the values. -/
def tokenRow (s : State) (a hd t : Nat) (vals : Bool) : Option (List Nat × List Nat) := do
  let es ← frameRead s (a + (if vals then 0x4800 else 0x800) + t * hd) hd
  let ss ← frameRead s (a + (if vals then 0x600 else 0x400) + t * (hd / 32)) (hd / 32)
  return (es.map BitVec.toNat, ss.map BitVec.toNat)
/-- A row as KVLD delivers it (R360). -/
def kvRow (form hd : Nat) (es ss : List Nat) : List Byte :=
  if form = 0 then
    (List.range ((hd + 127) / 128)).flatMap fun r =>
      ((List.range 128).map fun i => BitVec.ofNat 8 (es.getD (128 * r + i) 0)) ++
      (List.range 128).map fun i =>
        if i % 4 = 0 ∧ i / 4 < 4 ∧ 128 * r + 32 * (i / 4) < hd then BitVec.ofNat 8 (ss.getD (4 * r + i / 4) 0) else 0
  else
    (List.range hd).flatMap fun c =>
      let v := Arith.mxValue .mxi8 (ss.getD (c / 32) 0) (es.getD c 0)
      if form = 1 then leBytes (match v with | some x => Arith.roundFmt Arith.f32 x | none => Arith.f32.canon) 4
      else leBytes (match v with | some x => Arith.roundFmt Arith.bf16 x | none => Arith.bf16.canon) 2
/-- Bytes of a row. -/
def kvRowB (form hd : Nat) : Nat := if form = 0 then 256 * ((hd + 127) / 128) else if form = 1 then 4 * hd else 2 * hd
/-- A row and its part: keys, values, or keys then values. -/
def kvParts (part : Nat) : List Bool := if part = 0 then [false] else if part = 1 then [true] else [false, true]
/-- Rows of a granule with their addresses, none where the frame holds an uncorrectable error. -/
def kvRows (s : State) (a hd t0 nt part form : Nat) (base : W64) : Option (List (W64 × List Byte)) :=
  let rows := (kvParts part).flatMap fun v => (List.range nt).map fun j => (v, t0 + j)
  (rows.zipIdx.mapM fun r => (tokenRow s a hd r.1.2 r.1.1).map fun es =>
    (wrap61 base (BitVec.ofNat 64 (r.2 * kvRowB form hd)), kvRow form hd es.1 es.2))
/-- Lines of n bytes at a scratchpad or window address, by core. -/
def spLines (c : Nat) (a : W64) (n : Nat) : List (Nat × Nat) :=
  let tc := if a.extractLsb' 61 3 = 0b101 then 8 * (c / 8) + (a.extractLsb' 22 3).toNat else c
  (linesOf (tagOff a) n).map fun l => (tc, l)
/-- Lines a later list entry of a KVLD may still write. -/
def kvLater (s : State) (c : Nat) (q : Cmd) (list npg nt part form i : Nat) : List (Nat × Nat) :=
  (List.range' (i + 1) (npg - (i + 1))).flatMap fun j =>
    let h := (laneOf (spRead s c (list + 4 * j) 4)).toNat
    let e := pgEnt s h
    -- a page that is not mapped now may be mapped with any head dimension by then
    let hd := if e.st = .absent ∨ e.st = .revoked then 256 else hdOf e.hdc
    if h = 2 ^ 32 - 1 ∨ !pgOk s h then []
    else spLines c (wrap61 q.dst (BitVec.ofNat 64 j * q.dstr.getD 0 0)) ((kvParts part).length * nt * kvRowB form hd)
/-- Signals the lines of a KVLD on core c that no later granule writes (R358). -/
def kvSignal (s : State) (c : Nat) (e : Bool) (q : Cmd) (later : List (Nat × Nat)) : State × Cmd :=
  if q.ck ≠ 2 ∨ q.stop then (s, q)
  else
    ((q.lines.filter fun l => !later.contains l).foldl (fun s l => poolWrite s l.1 (rankAt c l.1 (rkCe e)) [] (some (true, [l.2]))) s,
     { q with lines := q.lines.filter fun l => later.contains l })
/-- A granule of a page command has ended; `last` where it was the last. -/
def pageNext (s : State) (c : Nat) (e : Bool) (q : Cmd) (last : Bool) : State :=
  setCmd s c e { q with gran := q.gran + 1, page := none, pgfail := false, issued := last }
/-- A global address with bit 56 set. -/
def globalRemote (a : W64) : Bool := a.extractLsb' 61 3 == (0 : BitVec 3) && isRemote a
/-- A granule of a KVLD (R360, R361, R291). -/
def kvldGranule (s : State) (c : Nat) (e : Bool) (q : Cmd) (list npg t0 nt part form : Nat) : State :=
  let i := q.gran
  let done := fun (s : State) (q : Cmd) =>
    let r := kvSignal s c e q (kvLater s c q list npg nt part form i)
    pageNext r.1 c e r.2 (decide (npg ≤ i + 1))
  if q.pgfail then pageFault s c e q 0x16 (q.page.getD 0) true
  else if spExt (s.core c).part < list + 4 * i + 4 then pageFault s c e q 4 (list + 4 * i) true
  else if spBad s c (list + 4 * i) 4 then pageFault s c e q 0x13 (list + 4 * i) true
  else
    let word := fun (j : Nat) => (laneOf (spRead s c (list + 4 * j) 4)).toNat
    let h := word i
    if h = 2 ^ 32 - 1 then done s q
    else match pgLook s h with
      | .absent => pageFault s c e q 0x14 h true
      | .stop => pageStop s c e q h ((List.range' (i + 1) (npg - (i + 1))).map word)
      | .go en a =>
        let hd := hdOf en.hdc
        if 16384 / hd < t0 + nt then pageFault s c e q 0x15 h true
        else
          let base := wrap61 q.dst (BitVec.ofNat 64 i * q.dstr.getD 0 0)
          match kvRows s a hd t0 nt part form base with
          | none => pageFault s c e q 0x13 h true
          | some rows =>
            let chk := rows.foldl (fun (r : State × List (Nat × Nat) × Except (Nat × W64 × Bool) (List (Side × W64 × List Byte))) row =>
              match r.2.2 with
              | .error _ => r
              | .ok ds =>
                if globalRemote row.1 then (r.1, r.2.1, .error (1, row.1, false))
                else match resolve r.1 c q.launch row.1 row.2.length 1 .wr with
                  | (s, .error (m, out)) => (s, r.2.1, .error (m.eng, row.1, out))
                  | (s, .ok d) =>
                    let pg := addPages r.2.1 d.pages
                    if 256 < pg.length then (s, pg, .error (0x10, row.1, false)) else (s, pg, .ok (ds ++ [(d, row)]))) (s, [], .ok [])
            match chk with
            | (s, _, .error (sub, va, out)) => logOut (copyFault s c e q sub va false) c va out
            | (s, _, .ok ds) =>
              if ds.any fun d => d.1.draining s then s
              else
                let r := ds.foldl (fun (r : State × Option (Nat × W64)) d =>
                  match r.2 with
                  | some _ => r
                  | none => match writeSide r.1 c (rkCe e) d.1 d.2.2 with
                    | (s, some sub) => (s, some (sub, d.2.1))
                    | (s, none) => (arrive s q d.2.2.length, none)) (s, none)
                match r with
                | (s, some (sub, va)) => copyFault s c e q sub va false
                | (s, none) =>
                  let ls := if q.ck = 2 then rows.flatMap fun row => spLines c row.1 row.2.length else []
                  done s { q with lines := (q.lines ++ ls).dedup }

/-! ### KVST (R364, R365) -/

/-- A 16-bit header entry of a channel. -/
def hdrRead (s : State) (a c : Nat) : Nat := leNat (rdBytes s.mem (a + 2 * c) 2)
/-- The header of a channel after a key element of value v is stored (R365): maximum and minimum. -/
def hdrUpdate (v : Option Arith.Ext) (mx mn : Nat) : Nat × Nat :=
  match v with
  | none => (0x7FC0, 0x7FC0)
  | some x =>
    if Arith.bf16.isNan mx || Arith.bf16.isNan mn then (0x7FC0, 0x7FC0)
    else (Arith.fMax Arith.bf16 mx (Arith.roundFmt Arith.bf16 x .rup), Arith.fMin Arith.bf16 mn (Arith.roundFmt Arith.bf16 x .rdn))
/-- Stores a token into a frame at a (R364): its keys and values as f32 codes. -/
def storeToken (s : State) (a hd t : Nat) (keys vals : List Nat) : State :=
  let quant := fun (l : List Nat) => (List.range (hd / 32)).map fun b => Arith.mxQuant .mxi8 ((l.drop (32 * b)).take 32)
  let k := quant keys
  let v := quant vals
  let bytes := fun (l : List Nat) => l.map (BitVec.ofNat 8)
  let put := fun (s : State) (o : Nat) (l : List Byte) => memWrite s (place (a + o) l)
  let s := put s (0x800 + t * hd) (bytes (k.flatMap (·.2)))
  let s := put s (0x400 + t * (hd / 32)) (bytes (k.map (·.1)))
  let s := put s (0x4800 + t * hd) (bytes (v.flatMap (·.2)))
  let s := put s (0x600 + t * (hd / 32)) (bytes (v.map (·.1)))
  let upd := (List.range hd).map fun c =>
    let b := k.getD (c / 32) (0, [])
    hdrUpdate (Arith.mxValue .mxi8 b.1 (b.2.getD (c % 32) 0)) (hdrRead s a c) (hdrRead s (a + 0x200) c)
  let s := put s 0 (upd.flatMap fun p => leBytes p.1 2)
  let s := put s 0x200 (upd.flatMap fun p => leBytes p.2 2)
  let n := leNat (rdBytes s.mem (a + 0x8806) 2)
  put s 0x8806 (leBytes (max n (t + 1)) 2)
/-- The granule of a KVST (R364). -/
def kvstGranule (s : State) (c : Nat) (e : Bool) (q : Cmd) (h t off : Nat) : State :=
  if q.pgfail then pageFault s c e q 0x16 h true
  else match pgLook s h with
    | .absent => pageFault s c e q 0x14 h true
    | .stop => pageStop s c e q h []
    | .go en a =>
      let hd := hdOf en.hdc
      if pgCap en.hdc ≤ t then pageFault s c e q 0x15 h true
      else if spExt (s.core c).part < off + 8 * hd then pageFault s c e q 4 off true
      else
        let hdr := [frameRead s a (2 * hd), frameRead s (a + 0x200) (2 * hd), frameRead s (a + 0x8806) 2]
        if spBad s c off (8 * hd) then pageFault s c e q 0x13 off true
        else if hdr.any Option.isNone then pageFault s c e q 0x13 h false
        else
        let w := fun (o : Nat) => (List.range hd).map fun i => leNat (spRead s c (off + o + 4 * i) 4)
        let s := storeToken s a hd t (w 0) (w (4 * hd))
        let s := setEnt s h { en with evict := en.evict.map fun v => (v.1, v.2.1, true) }
        pageNext (arrive s q (8 * hd)) c e q true

/-! ### PSEL (R366-R368) -/

/-- The score of a page (R367): from the query and a header of key maxima and minima. -/
def pgScore (q : List W32) (hdr : List Byte) : W32 :=
  let code := fun (o c : Nat) => leNat ((hdr.drop (o + 2 * c)).take 2)
  let prod := fun (x : W32) (m : Nat) =>
    if Arith.f32.isNan x.toNat || Arith.bf16.isNan m then none
    else Arith.mulExt (Arith.f32.val x.toNat) (Arith.bf16.val m)
  let term := fun (p : W32 × Nat) =>
    match prod p.1 (code 0 p.2), prod p.1 (code 0x200 p.2) with
    | some a, some b => some (if Arith.ltExt true a b then b else a)
    | _, _ => none
  BitVec.ofNat 32 (match (Arith.sum (q.zipIdx.map term)).val .rne with
    | some v => Arith.roundFmt Arith.f32 v
    | none => Arith.f32.canon)
/-- Whether one scored page ranks before another (R367). -/
def rankBefore (a b : W32 × Nat × Nat) : Bool :=
  let ka := Arith.totalKey a.1
  let kb := Arith.totalKey b.1
  decide (kb < ka) || (ka == kb && (decide (a.2.1 < b.2.1) || (a.2.1 == b.2.1 && decide (a.2.2 ≤ b.2.2))))
/-- The selection in rank order (R367). -/
def pselPick (w : SelSt) : List (W32 × Nat × Nat) :=
  let n := w.list.length
  let forced := fun (p : W32 × Nat × Nat) => (w.flags.testBit 0 && p.2.2 == 0) || (w.flags.testBit 1 && p.2.2 + 1 == n)
  let all := sortBy rankBefore w.scored
  let f := (all.filter forced).take w.k
  sortBy rankBefore (f ++ (all.filter fun p => !forced p).take (w.k - f.length))
/-- The header of a page the Skimmer scores (R367), none where the page is skipped; an error where it is poisoned. -/
def skimHeader (s : State) (hdc h : Nat) : Option (Option (List Byte)) :=
  if !pgOk s h then none
  else
    let e := pgEnt s h
    if e.hdc ≠ hdc then none
    else match e.st, e.frame with
      | .resident, some f => some (frameRead s (frameAt s h f) 1024)
      | .cold, _ => some (frameRead s (hdrAt s e.hslot) 1024)
      | .filling, _ => some (frameRead s (hdrAt s e.hslot) 1024)
      | _, _ => none
/-- Begins a PSEL: its descriptor and query are read (R366). None while its set is being built. -/
def pselBegin (s : State) (c : Nat) (desc : Nat) : Option (Except (Nat × Nat × Bool) SelSt) :=
  let ext := spExt (s.core c).part
  if ext < desc + 32 then some (.error (4, desc, false))
  else if spBad s c desc 32 then some (.error (0x13, desc, false))
  else
    let b := spRead s c desc 32
    let f := fun (o n : Nat) => leNat ((b.drop o).take n)
    let set := f 0 2
    let k := f 2 2
    let bad := decide (16384 ≤ set) || k == 0 || decide (256 < k) || decide (4 ≤ f 4 1) || f 5 3 != 0 || f 8 4 % 4 != 0 ||
      f 12 4 % 4 != 0 || f 16 16 != 0
    match (if bad then none else look s.pg.sets set) with
    | none => some (.error (1, desc, true))
    | some g =>
      if !g.live then none
      else
        let hd := hdOf g.hdc
        if ext < f 8 4 + 4 * hd then some (.error (4, f 8 4, false))
        else if spBad s c (f 8 4) (4 * hd) then some (.error (0x13, f 8 4, false))
        else if ext < f 12 4 + 4 * k then some (.error (4, f 12 4, false))
        else
          let q := (List.range hd).map fun i => laneOf (spRead s c (f 8 4 + 4 * i) 4)
          some (.ok { hdc := g.hdc, list := g.handles, k := k, flags := f 4 1, out := f 12 4, q := q })
/-- A granule of a PSEL: 1,024 entries, and after the last the output (R366-R368). -/
def pselGranule (s : State) (c : Nat) (e : Bool) (q : Cmd) (desc : Nat) : State :=
  let w? : Option (Except (Nat × Nat × Bool) SelSt) := match q.sel with
    | some w => some (.ok w)
    | none => pselBegin s c desc
  match w? with
  | none => s
  | some (.error (sub, a, named)) =>
    if named then
      let (s, _) := discardAfter s c e q
      postCopy (abandonCmd s c e q) q sub (BitVec.ofNat 64 a) (BitVec.ofNat 64 desc)
    else pageFault s c e q sub a true
  | some (.ok w) =>
    let from_ := q.gran * 1024
    let part := (w.list.drop from_).take 1024
    let r : Except Nat (List (List (W32 × Nat × Nat))) := part.zipIdx.mapM fun p =>
      match skimHeader s w.hdc p.1 with
      | none => .ok []
      | some none => .error p.1
      | some (some b) => .ok [(pgScore w.q b, p.1, from_ + p.2)]
    match r with
    | .error h => pageFault s c e q 0x13 h true
    | .ok l =>
      let w := { w with scored := w.scored ++ l.flatten }
      if from_ + 1024 < w.list.length then pageNext s c e { q with sel := some w } false
      else
        let hs := (pselPick w).map (·.2.1)
        let words := hs ++ List.replicate (w.k - hs.length) (2 ^ 32 - 1)
        let fe := if q.ck = 2 ∧ !q.stop then some (true, linesOf w.out (4 * w.k)) else none
        let s := spWrite s c (rkCe e) w.out (words.flatMap fun v => leBytes v 4) fe
        pageNext (arrive s q (4 * w.k)) c e { q with sel := none } true

/-! ### PMAP (R369) -/

/-- The effect of a PMAP: none where its requirement does not hold. -/
def pmapDo (s : State) (op h : Nat) (b : W64) : Option State :=
  let e := pgEnt s h
  match op with
  | 2 => mapNew s h (b.extractLsb' 0 2).toNat (b.extractLsb' 32 32).toNat
  | 3 => if (e.st == .resident || e.st == .cold) && e.ref == 0 && e.evict.isNone then some (reclaim s h) else none
  | 4 => evictStart s h
  | 5 => if e.st = .cold then some (prefetch s h) else if e.st = .filling then some s else none
  | _ => some s
/-- PMAP at its turn: the pushed word lands (R99, R369). -/
def pmapGranule (s : State) (c : Nat) (e : Bool) (q : Cmd) (op h : Nat) (b : W64) (pend : Nat) : State :=
  let (s, v) := match pmapDo s op h b with
    | some s => (s, if op = 1 then pgWord1 (pgEnt s h) else pgWord0 (pgEnt s h))
    | none => (s, pgWord0 (pgEnt s h) ||| 0x0400000000000000)
  pageNext (landVal s q.task pend (.s v)) c e q true

/-! ### Sets (R371-R374) -/

/-- Sets or frees a set. -/
def setSet (s : State) (i : Nat) (v : Option PageSet) : State :=
  { s with pg := { s.pg with sets := match v with | some g => put s.pg.sets i g | none => del s.pg.sets i } }
/-- Adds n to REF of a page. -/
def addRef (s : State) (h : Nat) : State := let e := pgEnt s h; setEnt s h { e with ref := e.ref + 1 }
/-- Takes one from REF of a page. -/
def subRef (s : State) (h : Nat) : State := let e := pgEnt s h; setEnt s h { e with ref := e.ref - 1 }
/-- A set is dissolved: its counted pages lose their references, and those that reach 0 are reclaimed (R372). -/
def dissolve (s : State) (i : Nat) (g : PageSet) : State :=
  let s := g.counted.foldl (fun s h =>
    let s := subRef s h
    if (pgEnt s h).ref = 0 then reclaim s h else s) s
  setSet s i none
/-- One reference on a set goes (R372). -/
def dropRef (s : State) (i : Nat) (pin : Bool) : State :=
  match look s.pg.sets i with
  | none => s
  | some g =>
    let g := { g with sref := g.sref - 1, pins := if pin then g.pins - 1 else g.pins }
    if g.live ∧ g.sref = 0 then dissolve s i g else setSet s i (some g)
/-- Removes one occurrence. -/
def rm1 : List Nat → Nat → List Nat
  | [], _ => []
  | a :: r, k => if a = k then r else a :: rm1 r k
/-- Changes the references of a task record. -/
def modRefs (s : State) (t : Nat) (f : List Nat → List Nat) : State :=
  match look s.tasks t with
  | some k => { s with tasks := put s.tasks t { k with refs := f k.refs } }
  | none => s
/-- A task's references are dropped where it ends (R374, R383). -/
def dropRefs (s : State) (t : Nat) : State :=
  match look s.tasks t with
  | some k => k.refs.foldl (fun s i => dropRef s i false) (modRefs s t fun _ => [])
  | none => s
/-- Handles all sets hold together (R371). -/
def storeUsed (s : State) : Nat := s.pg.sets.foldl (fun n p => n + p.2.handles.length) 0
/-- PSREF.NEW at its turn: the set is BUILDING with its list copied and its pages counted, or with the failure its
build will end in (R372, R373). -/
def psrefNew (s : State) (c : Nat) (q : Cmd) (set n hdc : Nat) (va : W64) (holder : Option Nat) : State :=
  let used := storeUsed s
  let (s, r) := if 2 ^ 24 < used + n then (s, .error (0x17, va)) else engRead s c va (4 * n)
  let g : PageSet := { hdc := hdc, pins := if holder.isNone then 1 else 0, cmd := q.id, holder := holder }
  match r with
  | .error (sub, a) => setSet s set (some { g with fail := some (if sub = 16 then 0x13 else sub, a) })
  | .ok bs =>
    let hs := (List.range n).map fun i => leNat ((bs.drop (4 * i)).take 4)
    let cnt := hs.filter fun h => pgOk s h && (pgEnt s h).st != .absent && (pgEnt s h).st != .revoked
    setSet (cnt.foldl addRef s) set (some { g with handles := hs, counted := cnt })
/-- COPY PSSTATE: the set is no longer in the state the command needs (R373); the command ends as R292 has it. -/
def psState (s : State) (c : Nat) (e : Bool) (q : Cmd) (set : Nat) : State :=
  copyFault s c e q 0x18 (BitVec.ofNat 64 set) false
/-- The record of a task that has ended, or of none. -/
def hasEnded (s : State) (t : Nat) : Bool := ((look s.tasks t).map fun k => k.st == .ended || k.st == .free).getD true
/-- The reference a command has taken on a set goes to its holder; a holder that has ended drops it at once (R374). -/
def holdRef (s : State) (set : Nat) (holder : Option Nat) : State :=
  match holder with
  | some t => if hasEnded s t then dropRef s set false else modRefs s t fun l => l ++ [set]
  | none => s
/-- PSREF at its turn (R373). -/
def psrefGranule (s : State) (c : Nat) (e : Bool) (q : Cmd) (set n hdc : Nat) (new : Bool) (va : W64) (holder : Option Nat) : State :=
  match look s.pg.sets set, new with
  | none, true =>
    let s := holdRef (psrefNew s c q set n hdc va holder) set holder
    setCmd s c e { q with busy := true }
  | some g, false =>
    let s := setSet s set (some { g with sref := g.sref + 1, pins := if holder.isNone then g.pins + 1 else g.pins })
    pageNext (holdRef s set holder) c e q true
  | _, _ => psState s c e q set
/-- PSDROP at its turn (R374). -/
def psdropGranule (s : State) (c : Nat) (e : Bool) (q : Cmd) (set : Nat) (pin : Bool) : State :=
  match look s.pg.sets set with
  | none => psState s c e q set
  | some g =>
    let held := if pin then 0 < g.pins else (((look s.tasks q.task).map (·.refs.contains set)).getD false)
    if !held then psState s c e q set
    else
      let s := if pin then s else modRefs s q.task fun l => rm1 l set
      pageNext (dropRef s set pin) c e q true
/-- The build of a set ends (R372); where it fails, the references taken on it meanwhile go with it. -/
def setBuilt (s : State) (i : Nat) : State :=
  match look s.pg.sets i with
  | none => s
  | some g =>
    if g.live then s
    else
      let cmd := findCmd s g.cmd
      match g.fail with
      | some (sub, a) =>
        let s := setSet s i none
        let s := { s with tasks := s.tasks.map fun p => (p.1, { p.2 with refs := p.2.refs.filter fun r => r != i }) }
        match cmd with
        | some (c, e, q) => copyFault s c e q sub a (sub != 0x17)
        | none => s
      | none =>
        let s := if g.sref = 0 then dissolve s i g else setSet s i (some { g with live := true })
        match cmd with
        | some (c, e, q) => pageNext s c e { q with busy := false } true
        | none => s

/-! ### Task handles (R380, R402) -/

/-- The handle of a record (R380). -/
def handleOf (s : State) (i : Nat) : W64 :=
  BitVec.ofNat 64 (((look s.tasks i).map fun k => k.gen.toNat).getD 0 * 2 ^ 20 + i)
/-- The record a handle names, where it is in use and its generation matches. -/
def recOf (s : State) (h : W64) : Option (Nat × Task) :=
  let i := h.toNat % 2 ^ 20
  match look s.tasks i with
  | some k => if h.toNat / 2 ^ 32 = 0 ∧ k.st ≠ .free ∧ k.gen.toNat = h.toNat / 2 ^ 20 then some (i, k) else none
  | none => none
/-- The child of a task that a handle names (R402). -/
def childOf (s : State) (t : Nat) (h : W64) : Option (Nat × Task) :=
  (recOf s h).filter fun p => p.1 != t && p.2.parent == some (handleOf s t)

/-! ### A granule of a page command -/

/-- The command is one of the page engines (R358). -/
def Cmd.isPage (q : Cmd) : Bool :=
  match q.kind with
  | .kvld .. | .kvst .. | .psel .. | .pmap .. | .psref .. | .psdrop .. => true
  | _ => false
/-- The next granule of a page command (R358). -/
def pageGranule (s : State) (c : Nat) (e : Bool) (q : Cmd) : State :=
  match arriveBad s q with
  | some o => copyFault s c e q 0x13 (objAddr c o) false
  | none =>
  let drain := (s.core c).drain.isSome || ctlDraining s c q
  match q.kind with
  | .kvld list npg t0 nt part form => if drain then s else kvldGranule s c e q list npg t0 nt part form
  | .kvst h t off => if drain then s else kvstGranule s c e q h t off
  | .psel desc => if drain then s else pselGranule s c e q desc
  | .pmap op h b p => pmapGranule s c e q op h b p
  | .psref set n hdc new va holder => if q.busy then s else psrefGranule s c e q set n hdc new va holder
  | .psdrop set pin => psdropGranule s c e q set pin
  | _ => s
/-- A page command at a granule boundary that may not go on: it is discarded where it is killed, paused where a park
wants it and it has more than one granule, or still waits for its page (R294, R362). -/
def pageBoundary (s : State) (c : Nat) (e : Bool) (q : Cmd) : Option State :=
  let many := match q.kind with
    | .kvld .. | .psel .. => true
    | _ => false
  if q.busy then none
  else if q.stop then some (abandonCmd s c e q)
  else if q.pause then
    match q.page with
    | some h =>
      if (s.ctx? q.task).isNone ∧ (pgEnt s h).st ≠ .filling then none else some s
    | none => if (s.ctx? q.task).isNone then none else some s
  else if parkWanted s c q && many then some (setCmd s c e { q with pause := true })
  else none

end Sys2Proof.Machine
end

