-- ==== Sys2Proof/Machine/TaskOps.lean ====
section
/-!
DEFINITION. The task tree engine and the batch former (R379-R400): records, rank and placement, the end of a task,
tickets and their retirement, waves, cancellation, batches.
-/

namespace Sys2Proof.Machine

/-! ### Records (R379, R382) -/

/-- The address of a record, which names it as a released variable (R124, R379). -/
def recVar (s : State) (i : Nat) : Nat := s.recBase.toNat + 64 * i
/-- Changes a record. -/
def modTask (s : State) (i : Nat) (f : Task → Task) : State :=
  match look s.tasks i with
  | some k => { s with tasks := put s.tasks i (f k) }
  | none => s
/-- A record's launch. -/
def launchOf (s : State) (k : Task) : Launch := (look s.launches k.launch).getD {}
/-- The scope of a launch by its number; 0 without one. -/
def launchScope (s : State) (l : Nat) : Nat := ((look s.launches l).map (·.scope)).getD 0
/-- A PSREF whose reference goes to a record (R373). -/
def Cmd.refsFor (q : Cmd) (i : Nat) : Bool := match q.kind with
  | .psref _ _ _ _ _ h => h == some i
  | _ => false
/-- Something of an ended task still bears its record's number: operations, lines, streams, an unretired ticket, a batch
whose leaves have not ended (R399). Such a record is not the one taken next (log entry 19). -/
def busyRec (s : State) (i : Nat) : Bool :=
  (s.cores.any fun p => (p.2.cq0 ++ p.2.cq1).any (fun q => q.task == i || q.refsFor i) || p.2.rtx.any (fun o => o.task == i) ||
    p.2.tx.full.any (fun m => m.1 == i) || p.2.rings.toList.any (fun g => g.owner == some i) || p.2.orphans.any (fun g => g.owner == some i)) ||
  s.cb.any (fun o => o.task == i && o.peer.isNone) ||
  s.fab.strms.any (fun p => p.2.task == i) || s.fab.colls.any (fun c => c.task == i && !c.fin) ||
  (s.fab.out ++ s.fab.sent ++ s.fab.retry).any (fun m => m.task == i && m.addr != 0) ||
  s.fab.reqs.any (fun p => match p.2.kind with
    | .scal t _ _ _ _ _ | .row t _ _ _ | .word t _ _ _ _ _ | .node t _ _ _ _ => t == i
    | _ => false) || s.nops.any (fun q => q.task == i) || s.gsops.any (fun o => o.task == i) || s.phops.any (fun o => o.task == i) ||
  (s.ctx? i).isSome || (s.batches.any fun p => p.2.task == some i) ||
  (s.dir.any fun p => match p.2 with
    | .d _ t => t == i
    | _ => false) ||
  (match look s.tasks i with
    | some k => launchScope s k.launch != 0 && k.ticket.isSome && !k.closed
    | none => false)
/-- Records in use (R379). -/
def recsUsed (s : State) : Nat := (s.tasks.filter fun p => p.2.st != .free).length
/-- The record that is taken next, none where all are in use (R379, log entry 4). -/
def pickRec (s : State) : Option Nat :=
  if 2 ^ 20 ≤ recsUsed s then none
  else takeFree s ((s.tasks.filter fun p => p.2.st != .free || busyRec s p.1).map (·.1)) (2 ^ 20)
/-- A record's parent has not ended (R382). -/
def parentLives (s : State) (k : Task) : Bool :=
  match k.parent with
  | some h => (recOf s h).any fun p => p.2.st != .ended
  | none => false
/-- Frees a record whose task has ended and whom nobody can collect any more (R382). -/
def maybeFree (s : State) (i : Nat) : State :=
  match look s.tasks i with
  | some k => if k.st = .ended ∧ (k.nj || !parentLives s k) then modTask s i fun k => { k with st := .free } else s
  | none => s
/-- Children of a task, by record. -/
def childrenOf (s : State) (t : Nat) : List (Nat × Task) :=
  let h := handleOf s t
  s.tasks.filter fun p => p.2.st != .free && p.2.parent == some h && p.1 != t

/-! ### Groups, targets, rank (R384, R385, R412, R413) -/

/-- Members of a group of a launch, in ascending core number. -/
def groupCores (s : State) (l : Launch) (g : Nat) : List Nat :=
  match l.groups[g]? with
  | some i => (List.range 320).filter fun c => ((look s.gtab i).getD 0).getLsbD c
  | none => []
/-- A core is a member of a group. -/
def inGroup (s : State) (l : Launch) (g c : Nat) : Bool :=
  match l.groups[g]? with
  | some i => ((look s.gtab i).getD 0).getLsbD c
  | none => false
/-- The target of an affinity address among cores (R385). -/
def targetIn (cs : List Nat) (a : W64) : Nat :=
  cs.getD (((a.extractLsb' 12 20) ^^^ (a.extractLsb' 32 20)).toNat % max cs.length 1) 0
/-- A task's target core. -/
def targetOf (s : State) (k : Task) : Nat := targetIn (groupCores s (launchOf s k) k.grp) (BitVec.ofNat 64 k.aff)
/-- Whether a task ranks before another (R384). -/
def ranksAbove (a b : Task) : Bool :=
  let ka := Arith.totalKey a.key
  let kb := Arith.totalKey b.key
  decide (kb < ka) || (ka == kb && (decide (a.rank.toNat < b.rank.toNat) || (a.rank == b.rank && decide (a.spidx ≤ b.spidx))))
/-- The highest-ranked of some tasks. -/
def bestTask : List (Nat × Task) → Option (Nat × Task)
  | [] => none
  | a :: r =>
    match bestTask r with
    | some b => if ranksAbove a.2 b.2 then some a else some b
    | none => some a
/-- The task holds the head ticket of its scope (R302). -/
def holdsHead (s : State) (t : Nat) : Bool := scopeOf s t != 0 && isHead s t

/-! ### Start conditions (R388) -/

/-- Every condition of a record holds. -/
def condsHold (s : State) (k : Task) : Bool :=
  k.sem.all fun c => decide (0 ≤ ((((s.core c.1).phs.getD c.2.1 {}).ph - c.2.2).toInt))
/-- A condition of a record names a broken phaser (R421). -/
def condBroken (s : State) (k : Task) : Bool := k.sem.any fun c => ((s.core c.1).phs.getD c.2.1 {}).brk
/-- A WAITING task whose conditions hold becomes READY, startable at once in scope 0. -/
def tryReady (s : State) (i : Nat) : State :=
  match look s.tasks i with
  | some k => if k.st = .waiting ∧ condsHold s k then modTask s i fun k => { k with st := .ready, at_ := s.acyc[0] } else s
  | none => s

/-! ### Tickets (R302, R303, R305) -/

/-- A ticketed message of a task is not yet acknowledged as committed by its home. -/
def ticketsOut (s : State) (t : Nat) : Bool :=
  ((s.fab.out ++ s.fab.retry ++ s.fab.sent).any fun m => match m.msg with
    | .strm r => m.task == t && r.tick.isSome
    | _ => false) ||
  ((s.ctx? t).map fun x => x.rels.any fun e => match e.acc with
    | .rstore _ _ tk _ => tk.isSome
    | _ => false).getD false
/-- No ticketed operation of a task waits: all are applied, here or at their homes, or discarded (R302). -/
def ticketQuiet (s : State) (t : Nat) : Bool :=
  !(s.cores.any fun p => (p.2.cq0 ++ p.2.cq1).any fun q => q.task == t && q.tick.isSome) &&
  !(s.cb.any fun o => o.task == t && o.peer.isNone) && !(s.nops.any fun q => q.task == t && q.tick.isSome) && !ticketsOut s t
/-- The head of a scope may have changed: the new head's buffered operations are applied (R303). -/
def newHead (s : State) (sc : Nat) : State :=
  match headTicket s sc with
  | some tk => headApply s sc tk
  | none => s
/-- TICKET_RETIRE (R302): a recorded retirement takes effect once the task's ticketed operations are done. -/
def retireTicket (s : State) (t : Nat) : State :=
  match look s.tasks t with
  | some k =>
    if k.retired ∧ !k.closed ∧ k.ticket.isSome ∧ ticketQuiet s t then
      let sc := launchScope s k.launch
      newHead (modTask s t fun k => { k with closed := true }) sc
    else s
  | none => s
/-- A number of a stream that will not be sent becomes a hole (R326). -/
def holeAt (s : State) (st n : Nat) : State :=
  match look s.fab.strms st with
  | some r =>
    let r' : Strm := { r with unacked := r.unacked.filter fun k => k != n, mine := r.mine.filter fun q => q.1 != n, holes := insN r.holes n }
    { s with fab := { s.fab with strms := put s.fab.strms st r' } }
  | none => s
/-- Messages of streams that are dropped before they have been accepted: their numbers become holes (R305, R323, R495). One
whose stream has sent its CLOSE goes on as a message without effect (log entry 75). -/
def dropMsgs (s : State) (f : OutMsg → StreamMsg → Bool) : State :=
  let mine := fun (o : OutMsg) => match o.msg with
    | .strm b => b.src == s.fab.ep && f o b
    | _ => false
  let gone := (s.fab.out ++ s.fab.retry).filter mine
  let s := { s with fab := { s.fab with out := s.fab.out.filter fun o => !mine o, retry := s.fab.retry.filter fun o => !mine o } }
  gone.foldl (fun s o => match o.msg with
    | .strm b => match look s.fab.strms b.strm with
      | some r =>
        if r.closing then { s with fab := { s.fab with out := s.fab.out ++ [{ o with msg := .strm { b with tick := none, body := .write [] } }] } }
        else holeAt s b.strm b.seq
      | none => s
    | _ => s) s
/-- A kill voids the ticket of a task of a DET scope whose retirement has not taken effect (R305). -/
def voidTicket (s : State) (t : Nat) : State :=
  match look s.tasks t with
  | some k =>
    let sc := launchScope s k.launch
    if sc = 0 ∨ k.ticket.isNone ∨ k.closed then s
    else
      let s := dropNops { s with cb := s.cb.filter fun o => o.task != t || o.peer.isSome } t
      let s := dropMsgs s fun o b => o.task == t && b.tick.isSome && s.fab.retry.contains o
      let s := modTask s t fun k => { k with closed := true, retired := true }
      let s := match look s.scopes sc with
        | some g => { s with scopes := put s.scopes sc { g with void := g.void + 1, dlost := true } }
        | none => s
      let s := match look s.launches k.launch with
        | some l => { s with launches := put s.launches k.launch { l with voids := l.voids + 1, dlost := true } }
        | none => s
      newHead s sc
  | none => s

/-! ### The end of a task (R379, R382, R383) -/

/-- A record ends: its references are dropped, and what nobody can collect is freed (R374, R382). -/
def endTask (s : State) (t : Nat) (how : TEnd) (result : W64) : State :=
  match look s.tasks t with
  | some k =>
    if k.st = .ended ∨ k.st = .free then s
    else
      let kids := childrenOf s t
      let s := modTask (dropRefs s t) t fun k => { k with st := .ended, how := some how, result := result, endSeq := s.ends + 1 }
      let s := { s with ends := s.ends + 1 }
      let s := if k.batch then s.due .batchTaskEnd { task := t } else s
      let s := kids.foldl (fun s p => maybeFree s p.1) s
      maybeFree s t
  | none => s
/-- A leaf leaves its open batch. -/
def leaveBatch (s : State) (i : Nat) : State :=
  { s with batches := s.batches.map fun p => if p.2.task.isNone then (p.1, { p.2 with leaves := p.2.leaves.filter fun l => l != i }) else p }
/-- Revocation (R394). -/
def revoke (s : State) (i : Nat) : State :=
  match look s.tasks i with
  | some k =>
    match k.st with
    | .waiting | .ready => endTask s i .revoked 0
    | .batched => endTask (leaveBatch s i) i .revoked 0
    | _ => s
  | none => s

/-! ### Cancellation (R393, R394) -/

/-- The batch task of an INBATCH leaf is cancelled once every leaf of the batch is (R393). -/
def cancelBatch (s : State) (i : Nat) : State :=
  s.batches.foldl (fun s p =>
    match p.2.task with
    | some b =>
      if p.2.leaves.contains i ∧ (p.2.leaves.all fun l => ((look s.tasks l).map (·.cancel)).getD true) then
        modTask s b fun k => if k.cancel then k else { k with cancel := true, cancelAt := s.acyc[0] }
      else s
    | none => s) s
/-- What a cancellation does to one record (R393). -/
def markTask (s : State) (i : Nat) : State :=
  match look s.tasks i with
  | some k =>
    match k.st with
    | .waiting | .ready | .batched => revoke s i
    | .chosen | .running | .parked =>
      if k.cancel then s else modTask s i fun k => { k with cancel := true, cancelAt := s.acyc[0] }
    | .inbatch => cancelBatch (modTask s i fun k => { k with cancel := true }) i
    | _ => s
  | none => s
/-- Cancels a subtree, to the depth of `fuel` levels (R393). -/
def cancelTree : Nat → State → Nat → State
  | 0, s, i => markTask s i
  | n + 1, s, i =>
    let kids := childrenOf s i
    kids.foldl (fun s p => cancelTree n s p.1) (markTask s i)

/-! ### Creation (R383, R389, R403) -/

/-- What a new record holds. -/
structure NewTask where
  launch : Nat
  grp : Nat
  entry : W64
  dcyc : Nat
  key : W32
  parent : Option W64 := none
  rank : Option (W64 × Nat) := none     -- tie-break of a batch task or of a child in a DET scope
  arg : W64
  k1 : W64 := 0
  aff : W64 := 0
  sem : List (Nat × Nat × W32) := []
  nj : Bool := false
  leaf : Bool := false
  batch : Bool := false
  wsid : Nat := 0
  tvec : W64 := 0
  expchk : Bool := false
/-- Takes a record and fills it; none where no record is free (R379, R383, R388, R389, R421). -/
def createTask (s : State) (n : NewTask) (cancelled : Bool) (spidx : Nat) : Option (State × Nat) :=
  match pickRec s with
  | none => none
  | some i =>
    let det := launchScope s n.launch != 0
    let s := { s.tick with taken := s.taken + 1 }
    let own : W64 := BitVec.ofNat 64 (s.taken % 2 ^ 48)
    let rk := n.rank.getD (if det then (0, spidx) else (own, 0))
    let gen := ((look s.tasks i).map (·.gen)).getD 0 + 1
    let k : Task := {
      st := if n.leaf then .batched else .waiting
      gen := gen, launch := n.launch, grp := n.grp, entry := n.entry, dcyc := n.dcyc, key := n.key
      ticket := if det then none else some own
      parent := n.parent, spidx := if n.rank.isSome then rk.2 else spidx, rank := rk.1, arg := n.arg, k1 := n.k1, aff := n.aff.toNat, sem := n.sem
      nj := n.nj, leaf := n.leaf, batch := n.batch, wsid := n.wsid, tvec := n.tvec, expchk := n.expchk }
    let s := { s with tasks := put s.tasks i k }
    if cancelled then some (endTask s i .revoked 0, i)
    else
      let s := if n.leaf then s else tryReady s i
      -- a task that is WAITING on a broken phaser is revoked (R421)
      some (if (((look s.tasks i).map fun k => k.st == .waiting && condBroken s k).getD false) then revoke s i else s, i)

/-! ### Batches (R396-R399) -/

/-- BSIZE of a launch (R411). -/
def bsize (l : Launch) : Nat := (l.bfcfg.extractLsb' 32 9).toNat
/-- An engine access of a launch at its own translation (R398, R399): performed for the lowest of its cores. -/
def launchCore (l : Launch) : Nat := l.granted.headD 0
/-- Writes bytes for a launch. -/
def launchWrite (s : State) (c : Nat) (a : W64) (bs : List Byte) : State × Option W64 :=
  match resolveMem s c a bs.length .wr with
  | (s, .error _) => (s, some a)
  | (s, .ok d) =>
    match writeSide s c rkFabric d bs with
    | (s, some _) => (s, some a)
    | (s, none) => (s, none)
/-- The lowest free buffer of a WSID among n (R398). -/
def freeBuf (s : State) (l wsid n : Nat) : Option Nat :=
  let used := (s.batches.filter fun p => p.2.launch == l && p.2.wsid == wsid && p.2.task.isSome).map (·.2.buf)
  (List.range n).find? fun j => !used.contains j
/-- Leaves of a batch end KILLED and the launch is marked ERROR (R398). -/
def batchFail (s : State) (b l : Nat) (leaves : List Nat) (a : W64) : State :=
  let s := launchErr { s with batches := del s.batches b } l a
  leaves.foldl (fun s i => endTask s i .killed 0) s
/-- The greatest key of some leaves under total_key (R398). -/
def maxKey (s : State) (ls : List Nat) : W32 :=
  ls.foldl (fun k i => match look s.tasks i with
    | some t => if Arith.totalKey k < Arith.totalKey t.key then t.key else k
    | none => k) (((ls.head?).bind fun i => (look s.tasks i).map (·.key)).getD 0)
/-- The fields of a task word (R381): group, declared cycles, entry. -/
def taskWord (w : W64) : Nat × Nat × W64 :=
  ((w.extractLsb' 56 8).toNat, 64 * (w.extractLsb' 46 10).toNat, (w.extractLsb' 0 46).setWidth 64 <<< 2)
/-- A task word keeps its limits (R381). -/
def taskWordOk (l : Launch) (w : W64) : Bool := decide ((taskWord w).1 < l.groups.length) && w.extractLsb' 46 10 != 0
/-- Closes a batch with its first `n` leaves, where a buffer and a record are free (R397, R398); the other leaves stay
in the open batch. -/
def closeBatch (s : State) (b : Nat) : State :=
  match look s.batches b with
  | none => s
  | some g =>
    if g.task.isSome ∨ g.leaves.isEmpty then s
    else
      let l := (look s.launches g.launch).getD {}
      let c := launchCore l
      let a := (l.bftab &&& 0x0000FFFFFFFFFFE0) + BitVec.ofNat 64 (32 * g.wsid)
      match engRead s c a 32 with
      | (s, .error (_, fa)) => batchFail s b g.launch g.leaves fa
      | (s, .ok e) =>
        let w := BitVec.ofNat 64 (leNat (e.take 8))
        let list := BitVec.ofNat 64 (leNat ((e.drop 8).take 8))
        let nbuf := leNat ((e.drop 16).take 2)
        if !taskWordOk l w || list.extractLsb' 0 4 != 0 || list.extractLsb' 48 16 != 0 || nbuf == 0 || leNat (e.drop 18) != 0 then
          batchFail s b g.launch g.leaves a
        else
          match freeBuf s g.launch g.wsid nbuf with
          | none => s
          | some j =>
            if (pickRec s).isNone then s
            else
              let buf := list + BitVec.ofNat 64 (j * 16 * bsize l)
              let wr := g.leaves.zipIdx.foldl (fun (r : State × Option W64) p =>
                match r.2 with
                | some _ => r
                | none =>
                  let arg := ((look s.tasks p.1).map (·.arg)).getD 0
                  launchWrite r.1 c (buf + BitVec.ofNat 64 (16 * p.2)) (leBytes arg.toNat 8 ++ List.replicate 8 0)) (s, none)
              match wr with
              | (s, some fa) => batchFail s b g.launch g.leaves fa
              | (s, none) =>
                let first := ((g.leaves.head?).bind fun i => look s.tasks i).getD {}
                let f := taskWord w
                let n : NewTask := {
                  launch := g.launch, grp := f.1, dcyc := f.2.1, entry := f.2.2, key := maxKey s g.leaves
                  rank := some (first.rank, first.spidx), arg := buf, k1 := BitVec.ofNat 64 g.leaves.length, aff := buf
                  nj := true, batch := true, expchk := l.chk }
                match createTask s n false 0 with
                | none => s
                | some (s, i) =>
                  let s := { s with batches := put s.batches b { g with task := some i, buf := j, addr := buf } }
                  g.leaves.foldl (fun s l => modTask s l fun k => { k with st := .inbatch }) s
/-- The open batches of a launch, with the place they were opened in. -/
def openBatches (s : State) (l : Nat) : SMap Batch := s.batches.filter fun p => p.2.launch == l && p.2.task.isNone
/-- A batch of scope 0 is due to close (R397). -/
def batchDue (s : State) (g : Batch) : Bool :=
  let l := (look s.launches g.launch).getD {}
  let win := (l.bfcfg.extractLsb' 0 32).toNat
  g.task.isNone && !g.leaves.isEmpty && l.scope == 0 &&
    (decide (bsize l ≤ g.leaves.length) || (win != 0 && decide (win ≤ (s.acyc[0] - g.first).toNat)))
/-- A leaf reaches the batch former: it joins the open batch of its WSID, or opens one (R397). -/
def joinBatch (s : State) (l wsid i : Nat) : State :=
  let det := launchScope s l != 0
  let size := bsize ((look s.launches l).getD {})
  match (openBatches s l).find? fun p => p.2.wsid == wsid && !p.2.full && (det || decide (p.2.leaves.length < size)) with
  | some (b, g) =>
    let g := { g with leaves := g.leaves ++ [i] }
    { s with batches := put s.batches b g }
  | none =>
    { s.tick with batches := put s.batches s.fresh { launch := l, wsid := wsid, leaves := [i], first := s.acyc[0] } }
/-- Leaves the batch former holds (R396, R404). -/
def leavesHeld (s : State) : Nat := (s.tasks.filter fun p => p.2.st == .batched).length
/-- What a leaf ends with (R399): its result word, or why it cannot be read. -/
def leafResult (s : State) (l : Launch) (g : Batch) (i : Nat) : State × Except W64 W64 :=
  let a := g.addr + BitVec.ofNat 64 (16 * i + 8)
  match engRead s (launchCore l) a 8 with
  | (s, .error _) => (s, .error a)
  | (s, .ok bs) => (s, .ok (BitVec.ofNat 64 (leNat bs)))
/-- BATCH_TASK_END (R399): the leaves of the batch end with their result words, or KILLED with their batch task. -/
def batchEnded (s : State) (t : Nat) : State :=
  match s.batches.find? fun p => p.2.task == some t, look s.tasks t with
  | some (b, g), some k =>
    let l := (look s.launches g.launch).getD {}
    let s := g.leaves.zipIdx.foldl (fun s p =>
      if k.how = some .exited then
        match leafResult s l g p.2 with
        | (s, .ok v) => endTask s p.1 .exited v
        | (s, .error a) => endTask (launchErr s g.launch a) p.1 .killed 0
      else endTask s p.1 .killed 0) s
    { s with batches := del s.batches b }
  | _, _ => s

/-! ### Waves (R391) -/

/-- The tasks of a scope. -/
def scopeTasks (s : State) (sc : Nat) : List (Nat × Task) :=
  s.tasks.filter fun p => p.2.st != .free && ((look s.launches p.2.launch).map fun l => l.scope == sc && l.st != .done).getD false
/-- The open tickets of a scope: those assigned and not retired. -/
def openTickets (s : State) (sc : Nat) : Bool := (headTicket s sc).isSome
/-- A ticket of a scope has been assigned and its retirement is not recorded. -/
def unretired (s : State) (sc : Nat) : Bool :=
  s.tasks.any fun p => p.2.ticket.isSome && !p.2.closed && !p.2.retired && launchScope s p.2.launch == sc
/-- Whether one deferred act comes before another (R391). -/
def Deferred.before (a b : Deferred) : Bool :=
  decide (a.ticket.toNat < b.ticket.toNat) || (a.ticket == b.ticket && decide (a.idx ≤ b.idx))
/-- Applies a deferred revocation or REPRIO to the task it named (R382, R391). -/
def applyDeferred (s : State) (d : Deferred) : State :=
  if ((look s.tasks d.target).map (·.gen)) ≠ some d.gen then s
  else if d.revoke then cancelTree s.tasks.length s d.target
  else
    match look s.tasks d.target with
    | some k =>
      match k.st with
      | .waiting | .ready | .batched => modTask s d.target fun k => { k with key := d.key }
      | _ => s
    | none => s
/-- Sorts the leaves of a DET scope's open batch and cuts them into batches of BSIZE (R397). -/
def cutBatch (s : State) (b : Nat) (g : Batch) : State :=
  let l := (look s.launches g.launch).getD {}
  let n := max (bsize l) 1
  let key := fun (i : Nat) => ((look s.tasks i).map fun k => (k.rank.toNat, k.spidx)).getD (0, 0)
  let ls := sortBy (fun i j => decide ((key i).1 < (key j).1) || ((key i).1 == (key j).1 && decide ((key i).2 ≤ (key j).2))) g.leaves
  let k := (ls.length + n - 1) / n
  let s := { s with batches := del s.batches b }
  (List.range k).foldl (fun s j =>
    { s.tick with batches := put s.batches s.fresh { g with leaves := (ls.drop (j * n)).take n, full := true } }) s
/-- The batches of a scope that are still open close, one after another as buffers and records allow (R397). -/
def closeAll (s : State) (l : Nat) : State :=
  let s := (openBatches s l).foldl (fun s p => if p.2.full then s else cutBatch s p.1 p.2) s
  (openBatches s l).foldl (fun s p => closeBatch s p.1) s
/-- The launch of an open scope. -/
def scopeLaunch (s : State) (sc : Nat) : Nat := ((look s.scopes sc).map (·.launch)).getD 0
/-- The eligible tasks of a scope, in rank order (R391). -/
def eligible (s : State) (sc : Nat) : List (Nat × Task) :=
  sortBy (fun a b => ranksAbove a.2 b.2) ((scopeTasks s sc).filter fun p => p.2.st == .ready && condsHold s p.2)
/-- The i-th taken task takes its ticket (R390, R391). -/
def chooseTask (s : State) (sc w i t : Nat) : State :=
  modTask s t fun k => { k with st := .chosen, at_ := s.acyc[0], ticket := some (BitVec.ofNat 64 (sc * 2 ^ 48 + w * 2 ^ 32 + i)) }
/-- What a formation finds of a scope (R391). -/
inductive Wave where
  | none
  | full (s : State)
  | take (s : State) (w : Nat) (e : List (Nat × Task))
/-- A scope at its next formation, with the deferred acts of the past wave and the batches done. -/
def formWave (s : State) (sc : Nat) : Wave :=
  match look s.scopes sc with
  | none => .none
  | some g =>
    if openTickets s sc then .none
    else
      let ds := sortBy Deferred.before g.deferred
      let s := ds.foldl applyDeferred { s with scopes := put s.scopes sc { g with deferred := [] } }
      let s := closeAll s g.launch
      if !(openBatches s g.launch).isEmpty then .take s g.wave []
      else
        let e := eligible s sc
        if e.isEmpty then .take s g.wave []
        else if g.wave = 0xFFFE then .full s
        else .take s (g.wave + 1) e

end Sys2Proof.Machine
end

