-- ==== Sys2Proof/Machine/PhaserOps.lean ====
section
/-!
DEFINITION. Phasers (R414-R424): members, arrivals and drops, the advance, and what an advance releases.
-/

namespace Sys2Proof.Machine

/-! ### Members (R414, R416) -/

/-- The mode signals. -/
def signals : PhMode → Bool
  | .wait => false
  | _ => true
/-- The mode waits. -/
def waits : PhMode → Bool
  | .sig => false
  | _ => true
/-- NSIG. -/
def Phaser.nsig (p : Phaser) : Nat := (p.mem.filter fun m => signals m.mode).length
/-- ARR. -/
def Phaser.arr (p : Phaser) : Nat := (p.mem.filter fun m => signals m.mode && m.arrived).length
/-- The member that is a task. -/
def Phaser.member (p : Phaser) (t : Nat) : Option PhMember := p.mem.find? fun m => m.task == t
/-- Changes a member. -/
def Phaser.modMem (p : Phaser) (t : Nat) (f : PhMember → PhMember) : Phaser :=
  { p with mem := p.mem.map fun m => if m.task = t then f m else m }
/-- The advance test (R416): the phaser after it. Without a signaller the phase advances once; then one must arrive. -/
def Phaser.test (p : Phaser) : Phaser :=
  if !p.brk && p.arr == p.nsig && p.moved && !(p.nsig == 0 && p.lone) then
    { p with ph := p.ph + 1, moved := false, lone := p.nsig == 0, mem := p.mem.map fun m => { m with arrived := false } }
  else p
/-- An arrival of a member (R422 steps 2 and 3), with the advance test. -/
def Phaser.arrive (p : Phaser) (t : Nat) : Phaser :=
  match p.member t with
  | some m =>
    if m.arrived then p.modMem t fun m => { m with early := m.early + 1 }
    else Phaser.test { p.modMem t fun m => { m with arrived := true } with moved := true, lone := false }
  | none => p
/-- Arrivals held for the next phase are applied once it has come, one after another. -/
def Phaser.late (p : Phaser) : Nat → Phaser
  | 0 => p
  | n + 1 =>
    match p.mem.find? fun m => m.early != 0 && !m.arrived with
    | some m => Phaser.late ((p.modMem m.task fun m => { m with early := m.early - 1 }).arrive m.task) n
    | none => p
/-- An arrival and what it lets follow. -/
def Phaser.arriveAll (p : Phaser) (t : Nat) : Phaser := (p.arrive t).late 64
/-- A registration (R418). -/
def Phaser.reg (p : Phaser) (t : Nat) (m : PhMode) : Phaser :=
  Phaser.test { p with mem := p.mem ++ [{ task := t, mode := m, wph := p.ph + 1 }] }
/-- A drop (R419): the arrival goes with the member. The last member to leave a broken phaser mends it (R421). -/
def Phaser.drop (p : Phaser) (t : Nat) : Phaser :=
  if (p.member t).isNone then p
  else
    let mem := p.mem.filter fun m => m.task != t
    (Phaser.test { p with mem := mem, moved := !p.brk, brk := p.brk && !mem.isEmpty }).late 64
/-- The wait condition of a member (R423). -/
def Phaser.passed (p : Phaser) (t : Nat) : Bool :=
  match p.member t with
  | some m => decide (0 ≤ (p.ph - m.wph).toInt)
  | none => false
/-- A wait completes: WPH := PH + 1 (R423). -/
def Phaser.waited (p : Phaser) (t : Nat) : Phaser := p.modMem t fun m => { m with wph := p.ph + 1 }

/-! ### Phasers of cores -/

/-- A phaser of a core. -/
def phOf (s : State) (c n : Nat) : Phaser := (s.core c).phs.getD n {}
/-- Sets a phaser of a core. -/
def setPh (s : State) (c n : Nat) (p : Phaser) : State := s.modCore c fun k => { k with phs := k.phs.setIfInBounds n p }
/-- Ends the wait of a PHAW whose condition holds and whose arrival has been sent, by the phaser as a cycle begins (R417, R424). -/
def phawDone (s : State) (t n : Nat) : State :=
  match s.ctx? t with
  | some x =>
    x.holds.foldl (fun s h =>
      match h with
      | .phaw sc m =>
        let owed := x.holds.any fun h => match h with
          | .arrive _ c k => c == x.core && k == n
          | _ => false
        if m = n ∧ !owed ∧ !(phOf s x.core n).brk ∧ (phOf s x.core n).passed t then
          let s := setPh s x.core n ((phOf s x.core n).waited t)
          let s := s.modCtx t fun y => { y with holds := y.holds.filter fun q => q != h }
          if scWide sc then dropClean s x.core else s
        else s
      | _ => s) s
  | none => s
/-- The tasks WAITING with a condition on a phaser. -/
def watchers (s : State) (c n : Nat) : List Nat :=
  (s.tasks.filter fun p => p.2.st == .waiting && p.2.sem.any fun q => q.1 == c && q.2.1 == n).map (·.1)
/-- A phaser takes its new value: waiting tasks are tested again (R388, R416). -/
def phChange (s : State) (c n : Nat) (p : Phaser) : State :=
  let s := setPh s c n p
  (watchers s c n).foldl tryReady s
/-- Whether one operation that has been sent is applied before another (R417). -/
def PhOp.before (a b : PhOp) : Bool := decide (a.due.toNat < b.due.toNat) || (a.due == b.due && decide (a.src ≤ b.src))
/-- The next operation to be applied and the others, in the order they were sent. -/
def nextPhOp : List PhOp → Option (PhOp × List PhOp)
  | [] => none
  | a :: r =>
    match nextPhOp r with
    | some (b, r') => if PhOp.before a b then some (a, r) else some (b, a :: r')
    | none => some (a, [])
/-- A phaser breaks (R420, R421): tasks waiting on it to start are revoked. -/
def phBreak (s : State) (c n t : Nat) : State :=
  let ws := watchers s c n
  let s := setPh s c n (Phaser.drop { phOf s c n with brk := true } t)
  ws.foldl revoke s
/-- A phaser operation is applied (R417). -/
def phApply (s : State) (o : PhOp) : State :=
  let p := phOf s o.core o.n
  match o.act with
  | .reg m => phChange s o.core o.n (p.reg o.task m)
  | .drop => phChange s o.core o.n (p.drop o.task)
  | .arrive => phChange s o.core o.n (p.arriveAll o.task)
  | .brk => phBreak s o.core o.n o.task
/-- Applies the next operation whose cycle has come. -/
def phStep (s : State) : State :=
  match nextPhOp (s.phops.filter fun o => decide (o.due.toNat ≤ (s.acyc[dieOf o.src]).toNat)) with
  | some (o, _) => phApply { s with phops := s.phops.erase o } o
  | none => s
/-- The phasers a task is a member of. -/
def membership (s : State) (t : Nat) : List (Nat × Nat) :=
  s.cores.flatMap fun p => (List.range 32).filterMap fun n => if ((p.2.phs.getD n {}).member t).isSome then some (p.1, n) else none
/-- The phasers a task has asked to join. -/
def joining (s : State) (t : Nat) : List (Nat × Nat) :=
  s.phops.filterMap fun o => match o.act with
    | .reg _ => if o.task = t then some (o.core, o.n) else none
    | _ => none
/-- EXIT drops a task from its phasers as a PHDROP of its core does; a kill breaks them in its cycle, and what the task has
sent and is not applied goes (R417, R420). -/
def phLeave (s : State) (t c : Nat) (kill : Bool) : State :=
  if kill then
    (membership s t).foldl (fun (s : State) m =>
      let o : PhOp := { due := s.acyc[dieOf c], src := c, core := m.1, n := m.2, task := t, act := .brk }
      ({ s with phops := s.phops ++ [o] } : State).due .phaserOpApply {})
      { s with phops := s.phops.filter fun o => o.task != t }
  else (membership s t ++ joining s t).dedup.foldl (fun s m => sendPh s t c m.1 m.2 .drop) s

end Sys2Proof.Machine
end

