-- ==== Sys2Proof/Machine/Kill.lean ====
section
/-!
DEFINITION. The end of a context: EXIT (R195, R309, R323, R374, R420), kill (R154, R294, R305, R420), the kill of a
launch (R24).
-/

namespace Sys2Proof.Machine

/-! ### What both ends release -/

/-- Releases every tree of a task (R234). -/
def freeTrees (k : Core) (t : Nat) : Core :=
  { k with ttf := k.ttf.map fun d => if (d.tree.map (·.1)) = some t then { gen := d.gen } else d }
/-- An incomplete FIFO message of a task is discarded (R334). -/
def dropTx (t : Nat) (x : TxFifo) : TxFifo := if x.owner = some t then { x with words := [], owner := none, need := 0 } else x
/-- A task's claims on the copy engines end (R281). -/
def endClaims (t : Nat) (k : Core) : Core :=
  let f := fun (r : CeRegs) => if r.wt = some t then { r with wt := none, claim := false } else r
  { k with ce0 := f k.ce0, ce1 := f k.ce1 }
/-- Releases the context number, the frame and the register blocks of a task (R137, R157). -/
def freeCtx (t : Nat) (k : Core) : Core :=
  { k with res := k.res.map fun o => if o = some t then none else o,
           frames := k.frames.map fun o => if o = some t then none else o,
           rc := k.rc.filter fun p => p.1 != t, rcBad := k.rcBad.filter fun p => p.1 != t }
/-- Causes that were pending when a task ended are charged to its launch (R147). -/
def chargeAsyncs (s : State) (x : Context) : State := x.asyncs.foldl (fun s c => launchErr s x.launch c.addr) s
/-- Drops the context of a task with everything of its core that bears the task alone. -/
def dropCtx (s : State) (t : Nat) (x : Context) : State :=
  let s := if inSweep s x.core t then closeSweep s x.core else s
  let s := s.modCore x.core fun k => endClaims t (freeCtx t (freeTrees { k with tx := dropTx t k.tx } t))
  chargeAsyncs { aheadFault s x with ctxs := del s.ctxs t } x

/-! ### EXIT -/

/-- A ring of an exited task: OUT write-backs of finished slots go on, IN transfers stop (R309). -/
def exitRing (t : Nat) (k : Core) : Core :=
  let mine := fun (g : StageRing) => g.owner == some t
  let left := fun (g : StageRing) => match g.sub with
    | some sub => sub.dir == .out && decide (sub.next < min g.fin sub.ntile)
    | none => false
  { k with rings := k.rings.map fun g => if mine g then {} else g,
           orphans := k.orphans ++ (k.rings.toList.filter fun g => mine g && left g) }
/-- Paused commands of a task go on (R294). -/
def unpause (t : Nat) (k : Core) : Core :=
  let f := fun (q : Cmd) => if q.task = t then { q with pause := false } else q
  { k with cq0 := k.cq0.map f, cq1 := k.cq1.map f }
/-- EXIT (R195): the release and write-back of R124, the context freed, the ticket's retirement recorded (R302), the
phasers dropped, the passes ended (R452), the task ended with its result. -/
def exitTask (s : State) (t : Nat) (v : W64) : State :=
  match s.ctx? t with
  | none => s
  | some x =>
    let s := writeBackMine s x.core t
    let s := s.modCore x.core fun k => unpause t (exitRing t k)
    let s := dropCtx (gsLeave (phLeave s t x.core false) t x.core false) t x
    let s := endStreams s t
    let s := modTask s t fun k => { k with retired := true, core := some x.core }
    let s := if launchScope s x.launch = 0 then s else s.due .ticketRetire { task := t }
    endTask s t .exited v

/-! ### Kill -/

/-- A killed task's command: what has begun stops at its next granule boundary, the rest is discarded (R294, R305); the
update of a CACCR or CCAS and the change of a PMAP still take place (R137). -/
def killCmd (s : State) (c : Nat) (e : Bool) (q : Cmd) : State :=
  let returns := match q.kind with
    | .accr _ _ _ _ | .cas _ _ _ _ _ | .pmap _ _ _ _ => true
    | _ => false
  if q.isColl || (returns && q.tick.isNone && !q.pause) then s
  else if q.tick.isSome || q.pause || (q.gran == 0 && q.elem == 0 && !q.busy && !q.issued) then abandonCmd s c e q
  else setCmd s c e { q with stop := true }
/-- Every command of a task, on both engines of a core. -/
def killCmds (s : State) (c t : Nat) : State :=
  [false, true].foldl (fun s e => ((cmds s c e).filter fun q => q.task == t).foldl (fun s q => killCmd s c e q) s) s
/-- What a killed context has issued and is still to be performed: its stores and releases that wait for their turn (R15,
R137). -/
def leftOf (x : Context) : List Later := x.rels.filter fun e => match e.acc with
  | .release _ _ _ _ | .store _ | .rstore _ _ _ _ => true
  | _ => false
/-- A ticketed node operation that waits for its turn. -/
def Later.ticketed (e : Later) : Bool := match e.acc with
  | .rstore _ _ tk _ => tk.isSome
  | _ => false
/-- The ticketed node operations of a killed context that wait are discarded, and their numbers become holes (R305). -/
def dropTicketed (s : State) (x : Context) : State :=
  x.rels.foldl (fun s e => match e.acc with
    | .rstore n q (some _) _ => holeAt s n q
    | _ => s) s
/-- The context of a killed task goes, or is kept without its number, frame and results until its stores are performed. -/
def killCtx (s : State) (t : Nat) (x : Context) : State :=
  let s' := dropTicketed (dropCtx s t x) x
  let left := (leftOf x).filter fun e => !e.ticketed
  if left.isEmpty then s'
  else s'.setCtx t { x with dead := true, rels := left, holds := [], asyncs := [], park := false, exit := none, fr := {}, frozen := none }
/-- The last store of a killed context has been performed: it goes, and its streams close (R323). -/
def finishDead (s : State) (t : Nat) : State :=
  match s.ctx? t with
  | some x => if x.dead && x.rels.isEmpty then closeDying { s with ctxs := del s.ctxs t } else s
  | none => s
/-- The updates of GSACCs that wait for their fences still take place (R137). -/
def sendHeldGs (s : State) (t : Nat) (x : Context) : State :=
  x.holds.foldl (fun s h => match h with
    | .gs (.acc itn n w) => sendGs s t x.core (.acc itn n w)
    | _ => s) s
/-- A kill of a task's context, running or parked (R154). -/
def killTask (s : State) (t : Nat) : State :=
  match s.ctx? t with
  | none => s
  | some x =>
    if x.dead then s else
    let s := killCmds s x.core t
    let s := collAbort s t
    let s := s.modCore x.core fun k => { k with rings := k.rings.map fun g => if g.owner = some t then {} else g }
    let s := sendHeldGs s t x
    let s := killCtx (gsLeave (phLeave s t x.core true) t x.core true) t x
    let s := endStreams (voidTicket s t) t
    endTask s t .killed 0
/-- The kill of a launch (R24): what has not started is revoked or ends KILLED with a void ticket, what runs is killed. The tasks
are taken in the order of their records, and a ticket that is voided lets the next head's buffered operations apply before its own
task is killed (DESIGN CHOICE, log entry 95). -/
def killLaunch (s : State) (l : Nat) : State :=
  let s := match look s.launches l with
    | some r =>
      let st : LStatus := if r.status = LStatus.fenced then .fenced else .killed
      { s with launches := put s.launches l { r with status := st } }
    | none => s
  s.tasks.foldl (fun (s : State) (p : Nat × Task) =>
    if p.2.launch ≠ l then s
    else match ((look s.tasks p.1).map fun k => k.st).getD TState.free with
      | .waiting | .ready | .batched => revoke s p.1
      | .chosen => endTask (voidTicket s p.1) p.1 .killed 0
      | .running | .parked => killTask (modTask s p.1 fun k => if k.cancel then k else { k with cancel := true, cancelAt := s.acyc[0] }) p.1
      | .inbatch => modTask s p.1 fun k => { k with cancel := true }
      | _ => s) s

end Sys2Proof.Machine
end

