-- ==== Sys2Proof/Machine/Ops.lean ====
section
/-!
DEFINITION. Taking a trap (R146-R150, R154), returning from one (R151), and how the body of a meaning ends: a next
state, a trap, or a bundle held back.
-/

namespace Sys2Proof.Machine

/-! ### The Clapper (R482, R484) -/

/-- Sends a fabric Clapper message to every reachable endpoint. -/
def clapAll (s : State) (tag : W64) : State :=
  ((List.range (s.fab.domHi + 1)).filter fun p => p != s.fab.ep && reaches s p).foldl
    (fun s p => formMsg s { dst := p, msg := .clapper tag, task := 0, addr := 0 }) s
/-- Fires the Clapper: a capture is due next, and messages leave where `fabric` is set. -/
def fire (s : State) (f : Firing) (fabric : Bool) : State :=
  let s := if fabric then clapAll s f.tag else s
  { s with agenda := s.agenda ++ [(.clapperCapture, { body := .firing f })] }
/-- A SNAP or trap of a launch fires under its SNAPCFG (R482, R494). -/
def fireFor (s : State) (x : Context) (kind : Nat) (tag : W64) : State :=
  let cfg := ((look s.launches x.launch).map (·.snapcfg)).getD 0
  fire s { tag := tag, kind := kind, core := x.core, ctx := x.num } (cfg.getLsbD 20)

/-! ### Taking a trap -/

/-- The first reported cause: the least in the order of R146, and the earliest raised among equals, an
X slot after S, VA and VB slots (DESIGN CHOICE, log entry 47). -/
def firstCause : List (Nat × Cause) → Option (Nat × Cause)
  | [] => none
  | a :: r =>
    match firstCause r with
    | none => some a
    | some b => if causeRank b.2.code < causeRank a.2.code then some b else some a
/-- Bits of the positions that raise the reported cause (R146). -/
def slotMask (code : Nat) (cs : List (Nat × Cause)) : BitVec 8 :=
  cs.foldl (fun m p => if p.2.code = code then m ||| BitVec.ofNat 8 (2 ^ p.1) else m) 0
/-- The trap record (R149). -/
def trapRecord (s : State) (x : Context) (t : Nat) (c : Cause) (slots : BitVec 8) (async shadow : Bool) (pc : W64) : TrapRec :=
  { cause := BitVec.ofNat 8 c.code, sub := BitVec.ofNat 8 c.sub, slots := slots,
    flags := BitVec.ofNat 8 ((if async then 1 else 0) + (if x.trapMode then 2 else 0) + (if shadow then 4 else 0)),
    core := BitVec.ofNat 16 x.core, ctx := BitVec.ofNat 8 x.num, pc := pc, addr := c.addr,
    ccyc := BitVec.ofNat 64 x.ccyc, acyc := s.acyc[dieOf x.core], info := c.info,
    ticket := ((look s.tasks t).bind (·.ticket)).getD 0 }
/-- The bits TRAPPC and TVEC keep of an address (R159). -/
def pcField (a : W64) : W64 := a &&& 0x00FFFFFFFFFFFFFC
/-- The frozen main state: each landing entry keeps the context cycles left after the last issued bundle (R150). -/
def Frame.freeze (f : Frame) (last : Nat) : Frame :=
  { f with pend := f.pend.map fun p => { p with land := p.land - last } }
/-- The frame a handler starts with (R150). -/
def Frame.handler (f : Frame) : Frame :=
  { f with qs := Ring.emptyS, pend := [], ps := 1, xs := 0, nest := { set := f.nest.set } }
/-- The half a MATRIX LOADFAIL reports becomes EMPTY (R255). -/
def clearFailed (s : State) (c : Nat) (z : Cause) : State :=
  if z.code = cMatrix ∧ z.sub = 3 then
    s.modCore c fun k => if z.aux = 0 then { k with me := { k.me with h0 := {} } } else { k with me := { k.me with h1 := {} } }
  else s
/-- What is logged with a cause: a window or phaser target outside the launch (R86, R418), an uncorrectable error (R488). -/
def logCause (s : State) (x : Context) (z : Cause) : State :=
  if z.code = cMemory ∧ z.sub = 3 ∧ z.aux = 1 then logViol s (dieOf x.core) (some 1) x.core x.num none (some z.addr)
  else if z.code = cPhaser ∧ z.sub = 5 ∧ z.aux = 1 then logViol s (dieOf x.core) (some 1) x.core x.num none none
  else if z.code = cFetch ∧ z.sub = 16 then noteUe s (dieOf x.core) x.core x.num z.addr
  else if z.code = cDataEcc ∨ (z.code = cMatrix ∧ z.sub = 13) then noteUe s (dieOf x.core) x.core x.num z.addr
  else s
/-- Takes a trap for a context at the bundle at `pc` (R150, R154). -/
def trapEntry (s : State) (t : Nat) (c : Cause) (slots : BitVec 8) (async shadow : Bool) (pc : W64) : State :=
  match s.ctx? t with
  | none => s
  | some x =>
    let cfg := ((look s.launches x.launch).map (·.snapcfg)).getD 0
    let r := trapRecord s x t c slots async shadow pc
    let s := if cfg.getLsbD c.code then fireFor s x 2 (BitVec.ofNat 64 c.code) else s
    let s := (logCause (clearFailed s x.core c) x c).tick
    let y := { x with trec := r, trappc := if x.trapMode then x.trappc else pcField pc }
    if x.trapMode || !x.tvec.getLsbD 0 then
      killTask (launchErr (s.setCtx t y) x.launch c.addr) t
    else
      s.setCtx t { y with
        frozen := some (x.fr.freeze (x.ccyc - 1), x.wait), fr := x.fr.handler, wait := 0, trapMode := true,
        jump := none, opening := none, pc := pcField x.tvec, npc := pcField x.tvec }
/-- A MATRIX LOADFAIL or COPY fault of an operand fetch rolls the sweep back before its trap (R274). -/
def sweepOf (s : State) (t : Nat) : Option Sweep :=
  match s.ctx? t with
  | some x => (s.core x.core).me.sweep.filter fun w => w.owner == t
  | none => none
/-- Takes the first of the causes a bundle or boundary raises, through a rollback where the sweep must go first. -/
def takeTrap (s : State) (t : Nat) (cs : List (Nat × Cause)) (async : Bool) : State :=
  match firstCause cs, s.ctx? t with
  | some (_, c), some x =>
    let m := if async then 0 else slotMask c.code cs
    match sweepOf s t with
    | some w =>
      if c.fetch then s.modCore x.core fun k => { k with me := { k.me with sweep := some { w with roll := some (some (c, m, async)) } } }
      else trapEntry s t c m async false x.pc
    | none => trapEntry s t c m async false x.pc
  | _, _ => s
/-- A cause a slot raises: noted with its bundle, or taken at once where the slot executes alone. -/
def raise (s : State) (c : Cause) : State :=
  match s.cur with
  | none => s
  | some t =>
    match s.latch with
    | some _ => s.modLatch fun l => { l with causes := l.causes ++ [(l.pos, c)] }
    | none => takeTrap s t [(0, c)] false
/-- The end of a meaning. -/
def conclude (s : State) : Res State → Host.Outcome State Fault Refusal
  | .ok s' => .next s'
  | .error (.trap c) => .next (raise s c)
  | .error .hold => .next (s.modLatch fun l => { l with held := true })
  | .error (.fault f) => .fault f

/-! ### Returning from a trap (R151) -/

/-- Every handler result has landed and arrived. -/
def rteDone (x : Context) : Bool := x.wait == 0 && x.fr.pend.all fun p => p.val.isSome
/-- The context outside trap mode again, after a wait that ended at context cycle cc. -/
def rteRestore (x : Context) (cc : Nat) : Context :=
  match x.frozen with
  | some (f, w) =>
    { x with fr := { f with pend := f.pend.map fun p => { p with land := cc + p.land } }, frozen := none, trapMode := false,
             wait := w, rte := false, pc := pcField x.trappc, npc := pcField x.trappc }
  | none => x
/-- Context cycles an RTE that has issued at context cycle cc waits: up to the last landing of a handler result. -/
def rteWait (x : Context) (cc : Nat) : Nat := x.fr.pend.foldl (fun n p => max n (p.land - cc)) 0
/-- Completes an RTE whose wait has ended at context cycle cc; a TRAPPC the handler moved is judged as a transfer from
the trapping bundle (R143). -/
def rteFinish (s : State) (t cc : Nat) : State :=
  match s.ctx? t with
  | some x =>
    if x.rte && rteDone x then
      let y := rteRestore x cc
      let z := if y.pc = pcField x.trec.pc then y else goto s y (pcField x.trec.pc) y.pc
      nestSkip (s.setCtx t z) t skipFuel
    else s
  | none => s

/-! ### Transfers (R143, R184) -/

/-- A taken transfer from the bundle at `pc`: it follows its bundle, or takes effect at once where its slot executes
alone. -/
def transfer (s : State) (t : Nat) (pc target : W64) : State :=
  match s.latch with
  | some _ => s.modCtx t fun x => { x with jump := some target }
  | none => s.modCtx t fun x => goto s x pc target

end Sys2Proof.Machine
end

