-- ==== Sys2Proof/Machine/Copy.lean ====
section
/-!
DEFINITION. The C-slot instructions of the copy engines and the stage rings (R279-R310), and the steps of the Spout.
-/

namespace Sys2Proof.Machine

/-- INFO of an OPERAND whose offending value the manual does not name; log entry 15. -/
def noInfo (s : State) : W64 := Config.freeInfo s.fresh
/-- Raises OPERAND without a named value. -/
def operandFree {α : Type} (s : State) (op : Nat) : Res α := operand op (noInfo s)
/-- A scratchpad object named by a tagged address (R282, R287): its core and offset. -/
def objAt (s : State) (x : Context) (op : Nat) (a : W64) (n al : Nat) : Res (Nat × Nat) := do
  let tag := a.extractLsb' 61 3
  if tag ≠ 0b100 ∧ tag ≠ 0b101 then operand op a
  if badTag a then memTrap .addr a
  need (decide (a.toNat % al = 0)) (memTrap .align a)
  if tag = 0b100 then
    if spExt (s.core x.core).part < tagOff a + n then memTrap .spbound a else return (x.core, tagOff a)
  else
    match window s x.core x.launch (a.extractLsb' 0 25 |>.setWidth 64) n with
    | .error (m, out) => .error (.trap (mmCause m a (if out then 1 else 0)))
    | .ok r => return r
/-- Interlocks while another task has a claim on the registers (R281). -/
def claimHold (s : State) (c t : Nat) : Res Unit := need (!claimed s c (ceOf s) t) (.error .hold)
/-- Interlocks while the engine can take no command of the task (R295). -/
def roomHold (s : State) (c t : Nat) : Res Unit := need (roomFor s c (ceOf s) t) (.error .hold)
/-- Writes command registers of the engine: WT and the claim with them (R281). -/
def writeCe (s : State) (c t : Nat) (f : CeRegs → CeRegs) : State :=
  modCe s c (ceOf s) fun r => { f r with wt := some t, claim := true }
/-- The index of a level (R279). -/
def lvlNat : Lvl → Nat
  | .l0 => 0 | .l1 => 1 | .l2 => 2 | .l3 => 3 | .l4 => 4 | .l5 => 5

/-! ### Command registers -/

/-- CNEST (R281). -/
def execCnest (g : Guard) (a : SSel) (l : Lvl) (s : State) : Host.Outcome State Fault Refusal :=
  conclude s do
    let (t, x) ← s.issuer
    let on := gTrue g x
    guardOps s x on [.s a] 0
    if !on then return s
    let v := sVal s x on a
    claimHold s x.core t
    if 2 ^ 32 ≤ v.toNat then operand 0x01 v
    return writeCe (popOps s x on [.s a]) x.core t fun r => { r with ext := r.ext.setIfInBounds (lvlNat l) v.toNat }
/-- CSTRIDE (R281). -/
def execCstride (g : Guard) (a b : SSel) (l : Lvl) (s : State) : Host.Outcome State Fault Refusal :=
  conclude s do
    let (t, x) ← s.issuer
    let on := gTrue g x
    guardOps s x on [.s a, .s b] 0
    if !on then return s
    claimHold s x.core t
    let u := sVal s x on a
    let v := sVal s x on b
    return writeCe (popOps s x on [.s a, .s b]) x.core t fun r =>
      { r with sstr := r.sstr.setIfInBounds (lvlNat l) u, dstr := r.dstr.setIfInBounds (lvlNat l) v }
/-- CBASE (R281). -/
def execCbase (g : Guard) (a b : SSel) (slot : BitVec 4) (s : State) : Host.Outcome State Fault Refusal :=
  conclude s do
    let (t, x) ← s.issuer
    let on := gTrue g x
    guardOps s x on [.s a, .s b] 0
    if !on then return s
    claimHold s x.core t
    let u := sVal s x on a
    let v := sVal s x on b
    return writeCe (popOps s x on [.s a, .s b]) x.core t fun r => { r with src := u, dst := v, slot := slot.toNat }

/-! ### Commands -/

/-- The control word breaks a limit (R282). -/
def badCtl (b : W64) (acc : Bool) (dst : W64) : Bool :=
  let ck := b.extractLsb' 4 2
  let tag := dst.extractLsb' 61 3
  b.extractLsb' 54 10 != 0 || b.extractLsb' 10 22 != 0 || b.getLsbD 3 || b.extractLsb' 6 3 == 7 ||
  b.extractLsb' 32 2 != 0 || (!b.getLsbD 9 && b.extractLsb' 32 22 != 0) || (acc && b.extractLsb' 0 3 != 0) ||
  (ck == 2 && tag != 0b100 && tag != 0b101)
/-- CCOPY and CACC (R281, R282, R299, R301): the command joins its engine. -/
def issueCopy (s : State) (t : Nat) (x : Context) (op : Nat) (a b : W64) (tb : Bool) (acc : Option AccOp) : Res State := do
  let e := ceOf s
  let r := ceRegs s x.core e
  claimHold s x.core t
  roomHold s x.core t
  if r.wt ≠ some t then operand op 0
  if badCtl b acc.isSome r.dst then operand op b
  let ck := (b.extractLsb' 4 2).toNat
  if (ck = 0 ∨ ck = 2) ∧ a ≠ 0 then operand op a
  if acc.isSome ∧ r.dst.extractLsb' 61 3 = 0b110 then operand op r.dst
  let tick ← ticketIdx s x t op tb r.dst
  let obj ← if ck = 1 then (objAt s x op a 16 16).map some else if ck = 3 then (objAt s x op a 1 1).map some else pure none
  let q : Cmd := {
    id := s.fresh, task := t, launch := x.launch, slot := r.slot, tick := tick, obj := obj, ck := ck,
    kind := match acc with
      | some o => .acc o
      | none => .copy (b.extractLsb' 0 3).toNat,
    split := (b.extractLsb' 6 3).toNat, perm := b.getLsbD 9, list := (b.extractLsb' 32 22).toNat,
    src := r.src, dst := r.dst, ext := r.ext, sstr := r.sstr, dstr := r.dstr, sweep := inSweep s x.core t,
    fork := forkOf s t x }
  let s := countTick (unclaim s x.core e t) t tick
  let s := if tick.isSome ∧ isRemote r.dst then ftgUse s x.launch else s
  return modCmds s.tick x.core e fun l => l ++ [q]
/-- CCOPY (R282). -/
def execCcopy (g : Guard) (a b : SSel) (tb : Bool) (s : State) : Host.Outcome State Fault Refusal :=
  conclude s do
    let (t, x) ← s.issuer
    let on := gTrue g x
    guardOps s x on [.s a, .s b] 0
    if !on then return s
    issueCopy (popOps s x on [.s a, .s b]) t x 0x04 (sVal s x on a) (sVal s x on b) tb none
/-- CACC (R299). -/
def execCacc (g : Guard) (a b : SSel) (tb : Bool) (op : AccOp) (s : State) : Host.Outcome State Fault Refusal :=
  conclude s do
    let (t, x) ← s.issuer
    let on := gTrue g x
    guardOps s x on [.s a, .s b] 0
    if !on then return s
    issueCopy (popOps s x on [.s a, .s b]) t x 0x05 (sVal s x on a) (sVal s x on b) tb (some op)
/-- The number of its stream a remote CACCR or CCAS takes at issue (R324), or its bundle interlocks at the limit, the stores of
its own bundle counted; none where
the slot admits no write, which the command finds when it runs (R346). -/
def takeRet (s : State) (q : Cmd) (va : W64) : Res (State × Cmd) :=
  match farBad s q va, engStrm s q.task q.slot with
  | none, some (n, r) =>
    if 4096 ≤ r.unacked.length + (((s.latch.map (·.far)).getD []).filter (· == q.slot)).length then .error .hold
    else
      let p := takeNums s n r 1
      .ok (p.1, { q with seq := p.2.head?, strm := n })
  | _, _ => .ok (s, q)
/-- CACCR and CCAS (R299): the command joins its engine and its value is pushed at latency 40. A remote one of a task other
than WT interlocks while CLAIM is set, as the other readers of the registers do, and raises OPERAND after it (R281; log entry
41). -/
def issueRet (s : State) (t : Nat) (x : Context) (op : Nat) (a : W64) (tb : Bool) (mk : Nat → CmdKind) : Res State := do
  let e := ceOf s
  let r := ceRegs s x.core e
  let rem := a.extractLsb' 61 3 == 0 && isRemote a
  if rem then claimHold s x.core t
  roomHold s x.core t
  if rem ∧ r.wt ≠ some t then operand op 0
  if a.extractLsb' 61 3 = 0b110 then operand op a
  let tick ← ticketIdx s x t op tb a
  let q : Cmd := {
    id := s.fresh, task := t, launch := x.launch, kind := mk (nextId s t), slot := if rem then r.slot else 0,
    tick := tick, sweep := inSweep s x.core t, fork := forkOf s t x }
  let (s, q) ← if rem then takeRet s q a else pure (s, q)
  let s := if tick.isSome ∧ rem then ftgUse s x.launch else s
  return pushQ (modCmds (countTick s t tick).tick x.core e fun l => l ++ [q]) t .s 40 none
/-- CACCR (R299). -/
def execCaccr (g : Guard) (a b : SSel) (tb : Bool) (op : AccOp) (s : State) : Host.Outcome State Fault Refusal :=
  conclude s do
    let (t, x) ← s.issuer
    let on := gTrue g x
    guardOps s x on [.s a, .s b] 1
    if !on then return pushS s t 40 0
    let v := sVal s x on b
    let d := sVal s x on a
    issueRet (popOps s x on [.s a, .s b]) t x 0x06 d tb fun p => .accr op d v p
/-- CCAS (R299). -/
def execCcas (g : Guard) (a b : SSel) (tb sz : Bool) (m : BitVec 4) (s : State) : Host.Outcome State Fault Refusal :=
  conclude s do
    let (t, x) ← s.issuer
    let on := gTrue g x
    guardOps s x on [.s a, .s b, .s (.q m)] 1
    if !on then return pushS s t 40 0
    let v := sVal s x on b
    let d := sVal s x on a
    issueRet (popOps s x on [.s a, .s b]) t x 0x07 d tb fun p => .cas (if sz then 4 else 8) d (x.qsAt m) v p

/-! ### Sync words and full/empty bits -/

/-- CSYNC (R287). Its write waits for a drain of its target (R145). -/
def execCsync (g : Guard) (a b : SSel) (rgen : Bool) (s : State) : Host.Outcome State Fault Refusal :=
  conclude s do
    let (t, x) ← s.issuer
    let on := gTrue g x
    guardOps s x on [.s a, .s b] 0
    if !on then return s
    let v := sVal s x on b
    if v.extractLsb' 32 32 ≠ 0 then operand 0x08 v
    let o ← objAt s x 0x08 (sVal s x on a) 16 16
    if drainHeld s x t o.1 then .error .hold
    let s := popOps s x on [.s a, .s b]
    let bs := leBytes v.toNat 4 ++ [0, 0, 0, 0] ++ (if rgen then [0, 0, 0, 0] else [])
    return deferEng s x.core (.pool o.1 (place (spBase (s.core o.1).part + o.2) bs) none)
/-- CSWAIT (R288). -/
def execCswait (g : Guard) (a b : SSel) (s : State) : Host.Outcome State Fault Refusal :=
  conclude s do
    let (t, x) ← s.issuer
    let on := gTrue g x
    guardOps s x on [.s a, .s b] 0
    if !on then return s
    let v := sVal s x on b
    if v.extractLsb' 32 32 ≠ 0 then operand 0x09 v
    let o ← objAt s x 0x09 (sVal s x on a) 16 16
    if drainHeld s x t o.1 then .error .hold
    spEcc s o.1 o.2 12 (sVal s x on a)
    let gen := (syncWord s o).2.2
    if Arith.sx ((gen + 2 ^ 32 - v.toNat) % 2 ^ 32) 32 < 0 then .error .hold
    return dropClean (popOps s x on [.s a, .s b]) x.core
/-- CFESET (R289). -/
def execCfeset (g : Guard) (a b : SSel) (ft : Bool) (s : State) : Host.Outcome State Fault Refusal :=
  conclude s do
    let (t, x) ← s.issuer
    let on := gTrue g x
    guardOps s x on [.s a, .s b] 0
    if !on then return s
    let n := sVal s x on b
    if n = 0 ∨ 32768 < n.toNat then operand 0x0A n
    let av := sVal s x on a
    let o ← objAt s x 0x0A av 1 1
    if spExt (s.core o.1).part < 128 * (o.2 / 128 + n.toNat) then memTrap .spbound av
    if drainHeld s x t o.1 then .error .hold
    return deferEng (popOps s x on [.s a, .s b]) x.core (.pool o.1 [] (some (ft, List.range' (o.2 / 128) n.toNat)))

/-! ### Stage rings (R306-R310) -/

/-- Changes a ring of a core. -/
def modRing (s : State) (c : Nat) (r : BitVec 3) (f : StageRing → StageRing) : State :=
  s.modCore c fun k => { k with rings := k.rings.setIfInBounds r.toNat (f (k.rings[r.toFin])) }
/-- Lines of slot i of a ring. -/
def ringLines (g : StageRing) (i : Nat) : List Nat :=
  List.range' (g.base / 128 + i % max g.dmax 1 * g.slotl) g.slotl
/-- CRING (R306). -/
def execCring (g : Guard) (a b : SSel) (r : BitVec 3) (s : State) : Host.Outcome State Fault Refusal :=
  conclude s do
    let (t, x) ← s.issuer
    let on := gTrue g x
    guardOps s x on [.s a, .s b] 0
    if !on then return s
    let av := sVal s x on a
    let bv := sVal s x on b
    let k := (s.core x.core).rings[r.toFin]
    if (k.owner.isSome ∧ k.owner ≠ some t) ∨ k.sub.isSome then operandFree s 0x0B
    let s' := popOps s x on [.s a, .s b]
    if av = 0 ∧ bv = 0 ∧ k.owner = some t then return modRing s' x.core r fun _ => {}
    let sl := (av.extractLsb' 32 11).toNat
    let base := (av.extractLsb' 0 22).toNat
    let dmax := (bv.extractLsb' 8 7).toNat
    let dmin := (bv.extractLsb' 0 7).toNat
    if av.extractLsb' 43 21 ≠ 0 ∨ av.extractLsb' 22 10 ≠ 0 ∨ sl = 0 then operand 0x0B av
    if bv.extractLsb' 15 49 ≠ 0 ∨ bv.getLsbD 7 ∨ dmax = 0 ∨ 64 < dmax ∨ dmin = 0 ∨ dmax < dmin then operand 0x0B bv
    need (decide (base % 128 = 0)) (memTrap .align av)
    if spExt (s.core x.core).part < base + dmax * sl * 128 then memTrap .spbound av
    if drainHeld s x t x.core then .error .hold
    let s' := deferEng s' x.core (.pool x.core [] (some (false, List.range' (base / 128) (dmax * sl))))
    return modRing s' x.core r fun _ =>
      { owner := some t, slotl := sl, base := base, dmax := dmax, dmin := dmin, depth := dmin }
/-- CRSUB (R307): its OPERAND checks, then those of its address (R88, R146). -/
def execCrsub (g : Guard) (a b : SSel) (dir : SpoutDir) (r : BitVec 3) (s : State) : Host.Outcome State Fault Refusal :=
  conclude s do
    let (t, x) ← s.issuer
    let on := gTrue g x
    guardOps s x on [.s a, .s b] 0
    if !on then return s
    let av := sVal s x on a
    let bv := sVal s x on b
    let k := (s.core x.core).rings[r.toFin]
    if k.owner ≠ some t ∨ k.sub.isSome then operandFree s 0x0C
    let tag := av.extractLsb' 61 3
    if tag = 0b100 ∨ tag = 0b101 ∨ tag = 0b110 ∨ (tag = 0b000 ∧ isRemote av) then operand 0x0C av
    let nt := (bv.extractLsb' 0 32).toNat
    let st := bv.extractLsb' 32 32
    if nt = 0 ∨ st.toNat % 128 ≠ 0 then operand 0x0C bv
    if badTag av then memTrap .addr av
    let sub : RingSub := { dir := dir, base := av, ntile := nt, stride := st.setWidth 64, fork := forkOf s t x }
    return modRing (popOps s x on [.s a, .s b]) x.core r fun q => { q with sub := some sub, fins := 0, tiles := 0, cycles := 0 }
/-- CRUNSUB (R309). -/
def execCrunsub (g : Guard) (r : BitVec 3) (s : State) : Host.Outcome State Fault Refusal :=
  conclude s do
    let (t, x) ← s.issuer
    let on := gTrue g x
    guardOps s x on [] 0
    if !on then return s
    let k := (s.core x.core).rings[r.toFin]
    if k.owner ≠ some t then operandFree s 0x0D
    match k.sub with
    | none => operandFree s 0x0D
    | some sub =>
      if sub.dir = .out ∧ sub.next < min k.fin sub.ntile then .error .hold
      return dropClean (modRing s x.core r fun q => { q with sub := none }) x.core
/-- CRFIN (R308). -/
def execCrfin (g : Guard) (r : BitVec 3) (s : State) : Host.Outcome State Fault Refusal :=
  conclude s do
    let (t, x) ← s.issuer
    let on := gTrue g x
    guardOps s x on [] 0
    if !on then return s
    let k := (s.core x.core).rings[r.toFin]
    if k.owner ≠ some t then operandFree s 0x0E
    let s' := modRing s x.core r fun q => { q with fin := (q.fin + 1) % 2 ^ 32, fins := q.fins + 1 }
    match k.sub with
    | none => return s'
    | some sub =>
      if sub.ntile ≤ k.fin then operandFree s 0x0E
      if (sub.dir = .in_ ∧ k.done = k.fin) ∨ drainHeld s x t x.core then .error .hold
      return deferEng s' x.core (.pool x.core [] (some (sub.dir == .out, ringLines k k.fin)))
/-- CWAIT (R290). -/
def execCwait (g : Guard) (s : State) : Host.Outcome State Fault Refusal :=
  conclude s do
    let (t, x) ← s.issuer
    let on := gTrue g x
    guardOps s x on [] 0
    if !on then return s
    let e := ceOf s
    if (cmds s x.core e).any fun q => q.task == t then .error .hold
    return dropClean (unclaim s x.core e t) x.core

/-! ### The Spout -/

/-- A transfer that fails ends the subscription; COPY SPOUT is pending for the owner (R292, R307). -/
def spoutFail (s : State) (c i : Nat) (g : StageRing) (slot sub : Nat) (src : Bool) : State :=
  let addr : W64 := BitVec.ofNat 64 (2 ^ 63 + g.base + slot * g.slotl * 128)
  let s := if sub = 0x13 then noteUe s (dieOf c) c 0xFF addr else s
  let info := BitVec.ofNat 64 ((if src then 2 ^ 41 else 0) + (i % 8) * 2 ^ 44 + (if sub = 0x13 then 0 else sub) * 2 ^ 48)
  match g.owner with
  | some t => postAsync s t { code := cCopy, sub := 0x11, addr := addr, info := info }
  | none => s
/-- The next tile of a subscription (R307): the state and the ring after it, none where no transfer is due. What comes before
the CRSUB comes before it (R111); how many cycles a tile takes is left open (log entry 3). -/
def spoutStep (s : State) (c i : Nat) (g : StageRing) : Option (State × StageRing) :=
  match g.sub with
  | none => none
  | some sub =>
    let n := g.slotl * 128
    let slot := sub.next % max g.dmax 1
    let va := sub.base + BitVec.ofNat 64 sub.next * sub.stride
    let off := g.base + slot * n
    let ok : StageRing := { g with done := sub.next + 1, tiles := g.tiles + 1, cycles := g.cycles + Config.tileCycles s.fresh,
                                   sub := some { sub with next := sub.next + 1 } }
    let bad : StageRing := { g with sub := none }
    let fail := fun (s : State) (e : Nat) (src : Bool) => some (spoutFail s c i g slot e src, bad)
    let mine : Side := { parts := [(.pool c (spBase (s.core c).part + off), n)] }
    if (s.core c).drain.isSome ∨ sub.ntile ≤ sub.next ∨ !forked s (g.owner.getD 0) sub.fork then none
    else match sub.dir with
      | .in_ =>
        if g.fin + g.depth ≤ sub.next then none
        else
          match engRead s c va n with
          | (s, .error (e, _)) => fail s (if e = 16 then 0x13 else e) true
          | (s, .ok bs) => some (spWrite s.tick c rkSpout off bs (some (true, ringLines g sub.next)), ok)
      | .out =>
        if g.fin ≤ sub.next then none
        else
          match readSide s c rkSpout mine with
          | (s, .error e) => fail s e true
          | (s, .ok bs) =>
            match resolveMem s c va n .wr with
            | (s, .error m) => fail s m.eng false
            | (s, .ok d) =>
              match writeSide s c rkSpout d bs with
              | (s, some e) => fail s e false
              | (s, none) => some (poolWrite s.tick c rkSpout [] (some (false, ringLines g sub.next)), ok)
/-- SPOUT_TILE_TRANSFER: the next tile of ring `num` of core `core`, or of the write-backs left by an exited task from 8
on (R307, R309). -/
def execSpoutTileTransfer (s : State) : Host.Outcome State Fault Refusal :=
  let c := s.ev.core
  let i := s.ev.num
  let k := s.core c
  if i < 8 then
    match spoutStep s c i (k.rings.getD i {}) with
    | some (s, g) => .next (modRing s c (BitVec.ofNat 3 i) fun _ => g)
    | none => .next s
  else
    match k.orphans[i - 8]? with
    | some g =>
      match spoutStep s c (i - 8) g with
      | some (s, h) =>
        let left := match h.sub with
          | some sub => decide (sub.next < min h.fin sub.ntile)
          | none => false
        .next (s.modCore c fun k => { k with
          orphans := if left then k.orphans.set (i - 8) h else k.orphans.eraseIdx (i - 8) })
      | none => .next s
    | none => .next s
/-- DEPTH at the end of a window (R310), `l` standing for L where no tile was completed in it. -/
def StageRing.newDepth (g : StageRing) (l : Nat) : Nat :=
  let (c, n) := if g.tiles = 0 then (l, 1) else (g.cycles, g.tiles)
  min (max ((c * g.fins + n * 4096 - 1) / (n * 4096) + 1) g.dmin) g.dmax
/-- SPOUT_DEPTH_UPDATE: ring `num` of core `core` at the end of a window of 4,096 cycles (R310). -/
def execSpoutDepthUpdate (s : State) : Host.Outcome State Fault Refusal :=
  let c := s.ev.core
  let r := BitVec.ofNat 3 s.ev.num
  if (s.acyc[dieOf c]).toNat % 4096 ≠ 0 then .next s
  else
    let l := Config.tileCycles s.fresh
    .next (modRing s.tick c r fun g =>
      let h : StageRing := { g with fins := 0, tiles := 0, cycles := 0 }
      match g.sub with
      | some sub => if sub.dir = .in_ ∧ g.fins ≠ 0 then { h with depth := g.newDepth l } else h
      | none => h)

end Sys2Proof.Machine
end

