-- ==== Sys2Proof/Machine/Phaser.lean ====
section
/-!
DEFINITION. The phaser instructions (R415-R428) and the step that applies a phaser operation.
-/

namespace Sys2Proof.Machine

/-- Raises PHASER with the phaser word (R421, R428). -/
def phTrap {α : Type} (sub : Nat) (a : W64) (aux : Nat := 0) : Res α :=
  .error (.trap { code := cPhaser, sub := sub, info := a, aux := aux })
/-- The phaser a word names (R415): core and number. -/
def phWord (op : Nat) (x : Context) (a : W64) : Res (Nat × Nat) := do
  need (a.extractLsb' 8 56 == 0) (operand op a)
  return (8 * (x.core / 8) + (a.extractLsb' 5 3).toNat, (a.extractLsb' 0 5).toNat)
/-- A local phaser word (R423, R427). -/
def phLocal (op : Nat) (x : Context) (a : W64) : Res Nat := do
  let (c, n) ← phWord op x a
  need (c == x.core) (operand op a)
  return n
/-- The core is outside the issuer's launch, or its group (R418, R428). -/
def phForeign (s : State) (t : Nat) (x : Context) (c : Nat) : Bool × Bool :=
  let k := (look s.tasks t).getD {}
  ((s.core c).launch != some x.launch, !inGroup s (launchOf s k) k.grp c)
/-- A member as the issuer's program order sees it, its operations sent and not applied counted: with a registration that has been sent, without one whose drop has
been sent (R417). -/
def memberSeen (s : State) (t c n : Nat) : Option PhMode :=
  s.phops.foldl (fun m o =>
    if o.task = t ∧ o.core = c ∧ o.n = n then
      match o.act with
      | .reg k => some k
      | .drop => none
      | .arrive | .brk => m
    else m) (((phOf s c n).member t).map (·.mode))
/-- Memberships a task holds or has asked for. -/
def memberships (s : State) (t : Nat) : Nat :=
  (membership s t).length + (s.phops.filter fun o => o.task == t && (match o.act with | .reg _ => true | _ => false)).length
/-- Members of a phaser with those that have been sent. -/
def membersSeen (s : State) (c n : Nat) : Nat :=
  (phOf s c n).mem.length + (s.phops.filter fun o => o.core == c && o.n == n && (match o.act with | .reg _ => true | _ => false)).length
/-- PHREG (R418). -/
def execPhreg (g : Guard) (a : SSel) (mode : PhMode) (s : State) : Host.Outcome State Fault Refusal :=
  conclude s do
    let (t, x) ← s.issuer
    let on := gTrue g x
    guardOps s x on [.s a] 0
    if !on then return s
    let v := sVal s x on a
    let (c, n) ← phWord 0x10 x v
    let (out, grp) := phForeign s t x c
    if out then .error (.trap { code := cPhaser, sub := 5, info := v, aux := 1 })
    if grp then phTrap 5 v
    if waits mode ∧ c ≠ x.core then operand 0x10 v
    if (phOf s c n).brk then phTrap 3 v
    if (memberSeen s t c n).isSome then phTrap 6 v
    if 64 ≤ membersSeen s c n ∨ 16 ≤ memberships s t then phTrap 4 v
    return sendPh (popOps s x on [.s a]) t x.core c n (.reg mode)
/-- PHDROP (R419). -/
def execPhdrop (g : Guard) (a : SSel) (s : State) : Host.Outcome State Fault Refusal :=
  conclude s do
    let (t, x) ← s.issuer
    let on := gTrue g x
    guardOps s x on [.s a] 0
    if !on then return s
    let v := sVal s x on a
    let (c, n) ← phWord 0x11 x v
    if (memberSeen s t c n).isNone then phTrap 1 v
    return sendPh (popOps s x on [.s a]) t x.core c n .drop
/-- An arrival of the task at the phaser is held for a later phase (R422). -/
def arrivalHeld (s : State) (t c n : Nat) : Bool := (((phOf s c n).member t).map fun m => m.early != 0).getD false
/-- The checks of an arrival, lowest subcode first (R422, R428). -/
def arriveOk (s : State) (t : Nat) (x : Context) (c n : Nat) (v : W64) (ok : PhMode → Bool) : Res Unit := do
  match memberSeen s t c n with
  | none => phTrap 1 v
  | some m =>
    if !ok m then phTrap 2 v
    if (phOf s c n).brk then phTrap 3 v
    let (out, grp) := phForeign s t x c
    if out || grp then phTrap 5 v (if out then 1 else 0)
/-- The arrival of a PHARR or PHAW: it is sent after the actions of its FENCE, which follow the stores of its bundle (R182,
R422); the ordered bundles that follow wait. -/
def arriveAfter (s : State) (t c n : Nat) (sc : Scope) : State :=
  let s := s.modCtx t fun y => { y with holds := y.holds ++ [.arrive sc c n] }
  if s.latch.isSome then s else settle s t
/-- PHARR (R422). -/
def execPharr (g : Guard) (a : SSel) (sc : Scope) (s : State) : Host.Outcome State Fault Refusal :=
  conclude s do
    let (t, x) ← s.issuer
    let on := gTrue g x
    guardOps s x on [.s a] 0
    if !on then return s
    let v := sVal s x on a
    let (c, n) ← phWord 0x12 x v
    arriveOk s t x c n v signals
    if arrivalHeld s t c n then .error .hold
    return arriveAfter (popOps s x on [.s a]) t c n sc
/-- PHWAIT (R423). -/
def execPhwait (g : Guard) (a : SSel) (sc : Scope) (s : State) : Host.Outcome State Fault Refusal :=
  conclude s do
    let (t, x) ← s.issuer
    let on := gTrue g x
    guardOps s x on [.s a] 0
    if !on then return s
    let v := sVal s x on a
    let n ← phLocal 0x13 x v
    match memberSeen s t x.core n with
    | none => phTrap 1 v
    | some m => if !waits m then phTrap 2 v
    if (phOf s x.core n).brk then phTrap 3 v
    if !(phOf s x.core n).passed t then .error .hold
    let s := setPh (popOps s x on [.s a]) x.core n ((phOf s x.core n).waited t)
    return if scWide sc then dropClean s x.core else s
/-- PHAW (R424). -/
def execPhaw (g : Guard) (a : SSel) (sc : Scope) (s : State) : Host.Outcome State Fault Refusal :=
  conclude s do
    let (t, x) ← s.issuer
    let on := gTrue g x
    guardOps s x on [.s a] 0
    if !on then return s
    let v := sVal s x on a
    let n ← phLocal 0x14 x v
    arriveOk s t x x.core n v (· == .sw)
    if arrivalHeld s t x.core n then .error .hold
    let s := arriveAfter (popOps s x on [.s a]) t x.core n sc
    return s.modCtx t fun y => { y with holds := y.holds ++ [.phaw sc n] }
/-- The word PHRD pushes (R427). -/
def phRead (p : Phaser) (t : Nat) : W64 :=
  let m := p.member t
  let mode := match m.map (·.mode) with
    | some .wait => 1
    | some .sw => 2
    | _ => 0
  BitVec.ofNat 64 ((if p.brk then 2 ^ 63 else 0) + (if m.isSome then 2 ^ 62 else 0) + mode * 2 ^ 60 + p.mem.length * 2 ^ 53 +
    p.nsig * 2 ^ 46 + p.arr * 2 ^ 39 + p.ph.toNat)
/-- PHRD (R427). -/
def execPhrd (g : Guard) (a : SSel) (s : State) : Host.Outcome State Fault Refusal :=
  conclude s do
    let (t, x) ← s.issuer
    let on := gTrue g x
    guardOps s x on [.s a] 1
    if !on then return pushS s t 2 0
    let n ← phLocal 0x15 x (sVal s x on a)
    return pushS (popOps s x on [.s a]) t 2 (phRead (phOf s x.core n) t)
/-- PHASER_OP_APPLY: the next operation that has been sent is applied (R417). -/
def execPhaserOpApply (s : State) : Host.Outcome State Fault Refusal := .next (phStep s)

end Sys2Proof.Machine
end

