-- ==== Sys2Proof/Machine/Flags.lean ====
section
/-!
DEFINITION. Predicates: the conditions of CMP and VCMP (R170, R208), predicate logic (R171, R210), and the writes of
scalar and lane predicates.
-/

namespace Sys2Proof.Machine

/-- COND of CMP (R170). -/
def cmpCond (c : CmpCond) (a b : W64) : Bool :=
  match c with
  | .eq => a == b
  | .ne => a != b
  | .lt => decide (a.toInt < b.toInt)
  | .ge => decide (b.toInt ≤ a.toInt)
  | .ltu => decide (a.toNat < b.toNat)
  | .geu => decide (b.toNat ≤ a.toNat)
  | .tst => (a &&& b) != 0
  | .ntst => (a &&& b) == 0
/-- COND of VCMP on one lane (R208). -/
def vcmpCond (c : VCmpCond) (a b : W32) : Bool :=
  match c with
  | .eq => a == b
  | .ne => a != b
  | .lt => decide (a.toInt < b.toInt)
  | .ltu => decide (a.toNat < b.toNat)
  | .feq => Arith.fEq a.toNat b.toNat
  | .flt => Arith.fLt a.toNat b.toNat
  | .fle => Arith.fLe a.toNat b.toNat
  | .fun_ => Arith.f32.isNan a.toNat || Arith.f32.isNan b.toNat
/-- f of PLOG over 64 lanes (R210). -/
def plogMask (op : PlogOp) (x y : W64) : W64 :=
  match op with
  | .and => x &&& y
  | .or => x ||| y
  | .xor => x ^^^ y
  | .andn => x &&& ~~~y
  | .orn => x ||| ~~~y
  | .nand => ~~~(x &&& y)
  | .nor => ~~~(x ||| y)
  | .xnor => ~~~(x ^^^ y)
/-- A mask from a bit for each lane. -/
def maskOf (f : Nat → Bool) : W64 :=
  BitVec.ofNat 64 ((List.range 64).foldl (fun a l => if f l then a + 2 ^ l else a) 0)

/-- A scalar predicate with one bit changed. -/
def setBit8 (p : BitVec 8) (d : Nat) (v : Bool) : BitVec 8 :=
  if v then p ||| BitVec.ofNat 8 (2 ^ d) else p &&& ~~~(BitVec.ofNat 8 (2 ^ d))
/-- Writes psD (R170, R171). -/
def wrPs (s : State) (t : Nat) (d : BitVec 3) (v : Bool) : State :=
  s.modCtx t fun x => { x with fr := { x.fr with ps := setBit8 x.fr.ps d.toNat v } }
/-- Writes the active lanes of paD or pbD (R208, R210). -/
def wrPred (s : State) (t : Nat) (c : Clu) (d : BitVec 3) (m v : W64) : State :=
  s.modCtx t fun x =>
    let w := (v &&& m) ||| (lanePred x c d &&& ~~~m)
    match c with
    | .a => { x with fr := { x.fr with pa := x.fr.pa.setIfInBounds d.toNat w } }
    | .b => { x with fr := { x.fr with pb := x.fr.pb.setIfInBounds d.toNat w } }
/-- A mask stack of a cluster, top first. -/
def maskStack (x : Context) : Clu → List W64
  | .a => x.fr.ma
  | .b => x.fr.mb
/-- Sets the mask stack of a cluster. -/
def setStack (s : State) (t : Nat) (c : Clu) (m : List W64) : State :=
  s.modCtx t fun x =>
    match c with
    | .a => { x with fr := { x.fr with ma := m } }
    | .b => { x with fr := { x.fr with mb := m } }

end Sys2Proof.Machine
end

