-- ==== Sys2Proof/Machine/VectorArith.lean ====
section
/-!
DEFINITION. The vector slots: predication, moves, arithmetic, conversion and transcendentals (R199-R215), lane movement
and reduction (R224, R225). Each instruction is written once for a cluster; VA and VB execute it on their own.
-/

namespace Sys2Proof.Machine

/-! ### Elements (R197) -/

/-- Element i of width w of a lane. -/
def elemOf (w : Nat) (x : W32) (i : Nat) : Nat := x.toNat / 2 ^ (w * i) % 2 ^ w
/-- A lane from its elements. -/
def ofElems (w : Nat) (f : Nat → Nat) : W32 :=
  BitVec.ofNat 32 ((List.range (32 / w)).foldl (fun a i => a + f i % 2 ^ w * 2 ^ (w * i)) 0)
/-- An operation on each element of a lane. -/
def el1 (w : Nat) (f : Nat → Nat) (a : W32) : W32 := ofElems w fun i => f (elemOf w a i)
/-- An operation on the elements of two lanes. -/
def el2 (w : Nat) (f : Nat → Nat → Nat) (a b : W32) : W32 := ofElems w fun i => f (elemOf w a i) (elemOf w b i)
/-- An operation on the elements of three lanes. -/
def el3 (w : Nat) (f : Nat → Nat → Nat → Nat) (a b c : W32) : W32 :=
  ofElems w fun i => f (elemOf w a i) (elemOf w b i) (elemOf w c i)
/-- Width of an integer lane format (R203). -/
def vwBits : VW → Nat
  | .w32 => 32 | .w16 => 16 | .w8 => 8
/-- Element e of width w of a whole value. -/
def elemV (w : Nat) (v : VReg) (e : Nat) : Nat := elemOf w (v.lane (e * w / 32)) (e % (32 / w))
/-- A value from its elements. -/
def vecOf (w : Nat) (f : Nat → Nat) : VReg := VReg.of fun l => ofElems w fun i => f (l * (32 / w) + i)

/-! ### Shapes of a vector instruction -/

/-- Reads operands and pushes one result under the lane mask; inactive lanes hold A (R199). -/
def vOp (c : Clu) (g : Guard) (os : List Opd) (lat : Nat) (base : Context → VReg) (f : Context → VReg) (s : State) :
    Host.Outcome State Fault Refusal :=
  conclude s do
    let (t, x) ← s.issuer
    noTrapMode x
    guardOps s x (laneMask x c g != 0) os 1
    return pushV s t c lat (laneMask x c g) (f x) (base x)
/-- One operand, lane by lane. -/
def vUn (c : Clu) (g : Guard) (a : VSel) (e : EF) (lat : Nat) (f : W32 → W32) (s : State) : Host.Outcome State Fault Refusal :=
  vOp c g [.v c a] lat (fun x => vVal x c e a) (fun x => let va := vVal x c e a; VReg.of fun l => f (va.lane l)) s
/-- Two operands, lane by lane. -/
def vBin (c : Clu) (g : Guard) (a b : VSel) (e : EF) (lat : Nat) (f : W32 → W32 → W32) (s : State) :
    Host.Outcome State Fault Refusal :=
  vOp c g [.v c a, .v c b] lat (fun x => vVal x c e a)
    (fun x => let va := vVal x c e a; let vb := vVal x c e b; VReg.of fun l => f (va.lane l) (vb.lane l)) s
/-- Two operands and an entry of the own queue, lane by lane (R207). -/
def vTri (c : Clu) (g : Guard) (a b : VSel) (m : BitVec 4) (e : EF) (lat : Nat) (f : W32 → W32 → W32 → W32) (s : State) :
    Host.Outcome State Fault Refusal :=
  vOp c g [.v c a, .v c b, .v c (.q m)] lat (fun x => vVal x c e a)
    (fun x => let va := vVal x c e a; let vb := vVal x c e b; let vc := x.qvAt (cluQ c) m
      VReg.of fun l => f (va.lane l) (vb.lane l) (vc.lane l)) s

/-! ### Arithmetic (R205-R207) -/

/-- A float or integer element operation of two operands under a format (R203, R205). -/
def tyOp2 (ty : VTy) (ff : Arith.Fmt → Rm → Nat → Nat → Nat) (fi : Nat → Int → Int → Int) : W32 → W32 → W32 :=
  match ty with
  | .flt f rm => el2 (Arith.fmtOf f).width (ff (Arith.fmtOf f) rm)
  | .int w u sat => el2 (vwBits w) fun a b =>
      Arith.intPat (fi (vwBits w) (Arith.intIn a (vwBits w) u) (Arith.intIn b (vwBits w) u)) (vwBits w) u sat
/-- The same of one operand. -/
def tyOp1 (ty : VTy) (ff : Arith.Fmt → Nat → Nat) (fi : Int → Int) : W32 → W32 :=
  match ty with
  | .flt f _ => el1 (Arith.fmtOf f).width (ff (Arith.fmtOf f))
  | .int w u sat => el1 (vwBits w) fun a => Arith.intPat (fi (Arith.intIn a (vwBits w) u)) (vwBits w) u sat
/-- VADD (R205). -/
def vAdd (c : Clu) (g : Guard) (a b : VSel) (ty : VTy) := vBin c g a b (vtyEf ty) 2 (tyOp2 ty Arith.fAdd fun _ x y => x + y)
/-- VSUB (R205). -/
def vSub (c : Clu) (g : Guard) (a b : VSel) (ty : VTy) := vBin c g a b (vtyEf ty) 2 (tyOp2 ty Arith.fSub fun _ x y => x - y)
/-- VMUL (R205). -/
def vMul (c : Clu) (g : Guard) (a b : VSel) (ty : VTy) := vBin c g a b (vtyEf ty) 3 (tyOp2 ty Arith.fMul fun _ x y => x * y)
/-- VMIN (R205). -/
def vMin (c : Clu) (g : Guard) (a b : VSel) (ty : VTy) :=
  vBin c g a b (vtyEf ty) 2 (tyOp2 ty (fun f _ => Arith.fMin f) fun _ x y => min x y)
/-- VMAX (R205). -/
def vMax (c : Clu) (g : Guard) (a b : VSel) (ty : VTy) :=
  vBin c g a b (vtyEf ty) 2 (tyOp2 ty (fun f _ => Arith.fMax f) fun _ x y => max x y)
/-- VABS (R205). -/
def vAbs (c : Clu) (g : Guard) (a : VSel) (ty : VTy) :=
  vUn c g a (vtyEf ty) 2 (tyOp1 ty Arith.fAbs fun x => if x < 0 then -x else x)
/-- VNEG (R205). -/
def vNeg (c : Clu) (g : Guard) (a : VSel) (ty : VTy) := vUn c g a (vtyEf ty) 2 (tyOp1 ty Arith.fNeg fun x => -x)
/-- A shift: the amount is the whole element of B, unsigned (R205). -/
def vShift (ty : VTy) (f : Int → Nat → Nat → Int) : W32 → W32 → W32 :=
  match ty with
  | .flt _ _ => fun a _ => a
  | .int w u _ => el2 (vwBits w) fun a b => Arith.intPat (f (Arith.intIn a (vwBits w) u) b (vwBits w)) (vwBits w) u false
/-- VSHL (R205). -/
def vShl (c : Clu) (g : Guard) (a b : VSel) (ty : VTy) := vBin c g a b (vtyEf ty) 1 (vShift ty Arith.shl)
/-- VSHR (R205). -/
def vShr (c : Clu) (g : Guard) (a b : VSel) (ty : VTy) := vBin c g a b (vtyEf ty) 1 (vShift ty Arith.shr)
/-- VAND, VOR, VXOR (R206). -/
def vBit (c : Clu) (g : Guard) (a b : VSel) (f : W32 → W32 → W32) := vBin c g a b .i32 1 f
/-- VFMA and VFMS (R207). -/
def vFma (c : Clu) (g : Guard) (a b : VSel) (ty : FFmt) (m : BitVec 4) (sub : Bool) :=
  vTri c g a b m (.flt ty) 4 (el3 (Arith.fmtOf ty).width (Arith.fFma (Arith.fmtOf ty) sub))
/-- How VADDMIN reads its operands. -/
def minEf : MinTy → EF
  | .f32 => .flt .f32
  | .bf16 => .flt .bf16
  | _ => .i32
/-- VADDMIN on a lane (R207). -/
def addMin : MinTy → W32 → W32 → W32 → W32
  | .f32 => el3 32 (Arith.fAddMin Arith.f32)
  | .bf16 => el3 16 (Arith.fAddMin Arith.bf16)
  | .s32 => fun a b c => BitVec.ofInt 32 (Arith.clampS (min (a.toInt + b.toInt) c.toInt) 32)
  | .n32 => fun a b c => BitVec.ofNat 32 (min (a.toNat + b.toNat) c.toNat)
/-- VADDMIN (R207). -/
def vAddmin (c : Clu) (g : Guard) (a b : VSel) (ty : MinTy) (m : BitVec 4) := vTri c g a b m (minEf ty) 4 (addMin ty)

/-! ### Predicates and selection (R208-R210) -/

/-- How VCMP reads its operands. -/
def vcmpEf : VCmpCond → EF
  | .feq | .flt | .fle | .fun_ => .flt .f32
  | _ => .i32
/-- VCMP (R208). -/
def vCmp (c : Clu) (g : Guard) (a b : VSel) (cond : VCmpCond) (d : BitVec 3) (s : State) : Host.Outcome State Fault Refusal :=
  conclude s do
    let (t, x) ← s.issuer
    noTrapMode x
    guardOps s x (laneMask x c g != 0) [.v c a, .v c b] 0
    let va := vVal x c (vcmpEf cond) a
    let vb := vVal x c (vcmpEf cond) b
    return wrPred s t c d (laneMask x c g) (maskOf fun l => vcmpCond cond (va.lane l) (vb.lane l))
/-- VSEL (R209). -/
def vSel (c : Clu) (g : Guard) (a b : VSel) (p : BitVec 3) :=
  vOp c g [.v c a, .v c b] 1 (fun x => vVal x c .i32 a) fun x =>
    mergeLanes (lanePred x c p) (vVal x c .i32 a) (vVal x c .i32 b)
/-- VPLOG (R210). -/
def vPlog (c : Clu) (g : Guard) (p q : BitVec 3) (op : PlogOp) (d : BitVec 3) (s : State) : Host.Outcome State Fault Refusal :=
  conclude s do
    let (t, x) ← s.issuer
    noTrapMode x
    guardOps s x (laneMask x c g != 0) [] 0
    return wrPred s t c d (laneMask x c g) (plogMask op (lanePred x c p) (lanePred x c q))

/-! ### Conversion (R211-R213) -/

/-- Width of a conversion format (R211). -/
def cvtW : CvtFmt → Nat
  | .f32 | .s32 => 32
  | .bf16 | .f16 | .s16 => 16
  | _ => 8
/-- How VCVT reads its operand. -/
def cvtEf : CvtFmt → EF
  | .f32 => .flt .f32 | .bf16 => .flt .bf16 | .f16 => .flt .f16 | .e4m3 => .fp8 false | .e5m2 => .fp8 true
  | .s32 => .i32 | .s16 => .i16 | .s8 => .i8
/-- The lanes VCVT pushes (R211): element j of the result, zero where no source element feeds it. -/
def cvtVec (ft : CvtB) (p : Nat) (su : Bool) (rm : Rm) (a : VReg) : VReg :=
  let ws := cvtW ft.src
  let wd := cvtW ft.dst
  vecOf wd fun j =>
    if wd ≤ ws then (if j % (ws / wd) = p then Arith.cvt ft su rm (elemV ws a (j / (ws / wd))) else 0)
    else Arith.cvt ft su rm (elemV ws a (wd / ws * j + p))
/-- VCVT (R211). -/
def vCvt (c : Clu) (g : Guard) (a : VSel) (ft : CvtB) (p : BitVec 2) (su : Bool) (rm : Rm) :=
  vOp c g [.v c a] 3 (fun x => vVal x c (cvtEf ft.src) a) fun x => cvtVec ft p.toNat su rm (vVal x c (cvtEf ft.src) a)
/-- The blocks of VMXQ (R212): scales and element codes. -/
def mxqBlocks (f : MxFmt) (a : VReg) : List (Nat × List Nat) :=
  [0, 1].map fun b => Arith.mxQuant f ((List.range 32).map fun i => (a.lane (32 * b + i)).toNat)
/-- E of VMXQ (R212). -/
def mxqElems (f : MxFmt) (p : Nat) (a : VReg) : VReg :=
  let q := mxqBlocks f a
  vecOf (Arith.mxWidth f) fun e =>
    if 64 * p ≤ e ∧ e < 64 * p + 64 then ((q.getD ((e - 64 * p) / 32) (0, [])).2).getD ((e - 64 * p) % 32) 0 else 0
/-- S of VMXQ (R212). -/
def mxqScales (f : MxFmt) (a : VReg) : VReg :=
  let q := mxqBlocks f a
  VReg.of fun l => BitVec.ofNat 32 (q.getD (l / 32) (0, [])).1
/-- VMXQ (R212): the elements, then the scales. -/
def vMxq (c : Clu) (g : Guard) (a : VSel) (ft : MxFmt) (p : BitVec 3) (s : State) : Host.Outcome State Fault Refusal :=
  conclude s do
    let (t, x) ← s.issuer
    noTrapMode x
    guardOps s x (laneMask x c g != 0) [.v c a] 2
    let va := vVal x c (.flt .f32) a
    let m := laneMask x c g
    return pushV (pushV s t c 6 m (mxqElems ft p.toNat va) va) t c 6 m (mxqScales ft va) va
/-- VMXD (R213). -/
def vMxd (c : Clu) (g : Guard) (a b : VSel) (ft : MxFmt) (p : BitVec 3) :=
  vOp c g [.v c a, .v c b] 4 (fun x => vVal x c (.mx ft) a) fun x =>
    let va := vVal x c (.mx ft) a
    let vb := vVal x c .i32 b
    VReg.of fun l => BitVec.ofNat 32 (Arith.mxDequant ft ((vb.lane l).toNat % 256) (elemV (Arith.mxWidth ft) va (64 * p.toNat + l)))
/-- A transcendental (R214). -/
def vFun (c : Clu) (g : Guard) (a : VSel) (ft : FFmt) (f : Arith.Fmt → Nat → Nat) :=
  vUn c g a (.flt ft) 8 (el1 (Arith.fmtOf ft).width (f (Arith.fmtOf ft)))

/-! ### Moves (R200, R202) -/

/-- VMOVI: inactive lanes are zero. -/
def vMovi (c : Clu) (g : BitVec 3) (i : BitVec 13) :=
  vOp c ⟨g, false⟩ [] 1 (fun _ => VReg.zero) fun _ => VReg.of fun _ => i.signExtend 32
/-- The register a VPUT destination resolves to. -/
def vdstReg (x : Context) (c : Clu) : VDst → Nat
  | .v r => r.toNat
  | .vx j => ((x.xv c).toInt + j.toNat).toNat
/-- VPUT. -/
def vPut (c : Clu) (g : Guard) (a : VSel) (d : VDst) (s : State) : Host.Outcome State Fault Refusal :=
  conclude s do
    let (t, x) ← s.issuer
    noTrapMode x
    guardOps s x (laneMask x c g != 0) [.v c a, .vd c d] 0
    return wrV s t c (vdstReg x c d) (laneMask x c g) (vVal x c .i32 a)
/-- The index register of a cluster as a name. -/
def cluX : Clu → IdxReg
  | .a => .xa
  | .b => .xb
/-- VPUTX. -/
def vPutx (c : Clu) (g : Guard) (a : VSel) (l : BitVec 6) (s : State) : Host.Outcome State Fault Refusal :=
  conclude s do
    let (t, x) ← s.issuer
    noTrapMode x
    guardOps s x (laneMask x c g != 0) [.v c a] 0
    return if (laneMask x c g).getLsbD l.toNat then wrX s t (cluX c) ((vVal x c .i32 a).lane l.toNat) else s
/-- The other cluster. -/
def otherClu : Clu → Clu
  | .a => .b
  | .b => .a
/-- VXMOV. -/
def vXmov (c : Clu) (g : Guard) (r : BitVec 5) :=
  vOp c g [.vr (otherClu c) r] 1 (fun _ => VReg.zero) fun x => x.vReg (otherClu c) r.toNat
/-- A mask-stack instruction (R200): OPERAND with the depth where it fails. -/
def maskOp (op : Nat) (c : Clu) (ok : Nat → Bool) (f : Context → List W64 → List W64) (s : State) :
    Host.Outcome State Fault Refusal :=
  conclude s do
    let (t, x) ← s.issuer
    noTrapMode x
    guardOps s x true [] 0
    let st := maskStack x c
    need (ok st.length) (operand op (BitVec.ofNat 64 st.length))
    return setStack s t c (f x st)
/-- VMPUSH. -/
def vMpush (c : Clu) (inv : Bool) (p : BitVec 3) :=
  maskOp 0x1F c (fun n => decide (n < 16)) fun x st =>
    (topMask x c &&& (if inv then ~~~(lanePred x c p) else lanePred x c p)) :: st
/-- VMINV. -/
def vMinv (c : Clu) :=
  maskOp 0x20 c (fun n => decide (0 < n)) fun _ st =>
    ((st.drop 1).headD (BitVec.allOnes 64) &&& ~~~(st.headD 0)) :: st.drop 1
/-- VMPOP. -/
def vMpop (c : Clu) := maskOp 0x21 c (fun n => decide (0 < n)) fun _ st => st.drop 1

/-! ### Lane movement and reduction (R224, R225) -/

/-- A movement of whole lanes of A and B. -/
def vMove (c : Clu) (g : Guard) (a b : VSel) (lat : Nat) (f : VReg → VReg → Nat → W32) :=
  vOp c g [.v c a, .v c b] lat (fun x => vVal x c .i32 a) fun x => VReg.of (f (vVal x c .i32 a) (vVal x c .i32 b))
/-- VLSHU. -/
def vLshu (c : Clu) (g : Guard) (a b : VSel) (n : BitVec 6) :=
  vMove c g a b 2 fun va vb l => if n.toNat ≤ l then va.lane (l - n.toNat) else vb.lane (l + 64 - n.toNat)
/-- VLSHD. -/
def vLshd (c : Clu) (g : Guard) (a b : VSel) (n : BitVec 6) :=
  vMove c g a b 2 fun va vb l => if l + n.toNat ≤ 63 then va.lane (l + n.toNat) else vb.lane (l + n.toNat - 64)
/-- VBCAST. -/
def vBcast (c : Clu) (g : Guard) (a : VSel) (l : BitVec 6) :=
  vOp c g [.v c a] 2 (fun x => vVal x c .i32 a) fun x => let v := (vVal x c .i32 a).lane l.toNat; VReg.of fun _ => v
/-- VIOTA. -/
def vIota (c : Clu) (g : Guard) (a : VSel) (step : BitVec 6) :=
  vOp c g [.v c a] 1 (fun x => vVal x c .i32 a) fun x =>
    let va := vVal x c .i32 a
    VReg.of fun l => va.lane l + BitVec.ofInt 32 (l * step.toInt)
/-- VPERM. -/
def vPerm (c : Clu) (g : Guard) (a b : VSel) := vMove c g a b 3 fun va vb l => va.lane ((vb.lane l).toNat % 64)
/-- How VRED reads its operand. -/
def redEf : RedOp → EF
  | .fadd f | .fmin f | .fmax f => .flt f
  | _ => .i32
/-- The element width of a reduction. -/
def redW : RedOp → Nat
  | .fadd f | .fmin f | .fmax f => (Arith.fmtOf f).width
  | _ => 32
/-- The operation of a reduction (R225). -/
def redFn : RedOp → Nat → Nat → Nat
  | .fadd f => Arith.fAdd (Arith.fmtOf f) .rne
  | .fmin f => Arith.fMin (Arith.fmtOf f)
  | .fmax f => Arith.fMax (Arith.fmtOf f)
  | .add _ => fun a b => (a + b) % 2 ^ 32
  | .min true => fun a b => min a b
  | .max true => fun a b => max a b
  | .min false => fun a b => if Arith.sx a 32 ≤ Arith.sx b 32 then a else b
  | .max false => fun a b => if Arith.sx a 32 ≤ Arith.sx b 32 then b else a
  | .and => fun a b => a &&& b
  | .or => fun a b => a ||| b
/-- The identity of a reduction (R80). -/
def redId : RedOp → Nat
  | .fadd f => (Arith.fmtOf f).signed true 0
  | .fmin f => (Arith.fmtOf f).signed false (Arith.fmtOf f).infMag
  | .fmax f => (Arith.fmtOf f).signed true (Arith.fmtOf f).infMag
  | .add _ | .or => 0
  | .and => 2 ^ 32 - 1
  | .min u => if u then 2 ^ 32 - 1 else 2 ^ 31 - 1
  | .max u => if u then 0 else 2 ^ 31
/-- The reduced element of the active lanes (R80, R225). -/
def redVal (op : RedOp) (m : W64) (a : VReg) : Nat :=
  let w := redW op
  let per := 32 / w
  Arith.reduceTree (redFn op) (if w = 16 then 7 else 6)
    ((List.range (64 * per)).map fun e => if m.getLsbD (e / per) then elemV w a e else redId op)
/-- VRED (R225). -/
def vRed (c : Clu) (g : Guard) (a : VSel) (op : RedOp) :=
  vOp c g [.v c a] 6 (fun x => vVal x c (redEf op) a) fun x =>
    let r := redVal op (laneMask x c g) (vVal x c (redEf op) a)
    VReg.of fun _ => spread (redW op) r

end Sys2Proof.Machine
end

