-- ==== Sys2Proof/Machine/VectorMem.lean ====
section
/-!
DEFINITION. The vector slots: row accesses, gather and scatter (R216-R223). Each is written once for a cluster.
-/

namespace Sys2Proof.Machine

/-! ### Lanes -/

/-- The active lanes of a mask. -/
def lanesOf (m : W64) : List Nat := (List.range 64).filter fun l => m.getLsbD l
/-- The first check that fails for any active lane, with the lowest lane that fails it (R146, R218). -/
def firstFail : List (W64 × Cause) → Option Cause
  | [] => none
  | p :: r =>
    match firstFail r with
    | none => some p.2
    | some c =>
      let r := fun (c : Cause) => 256 * causeRank c.code + c.sub
      if r c < r p.2 then some c else some p.2
/-- Checks of every active lane: each lane answers with what it found or a cause. -/
def laneChecks {α : Type} (ls : List Nat) (f : Nat → Except Cause α) : Res (List (Nat × α)) :=
  match firstFail (ls.filterMap fun l => match f l with | .error c => some (0, c) | .ok _ => none) with
  | some c => .error (.trap c)
  | none => .ok (ls.filterMap fun l => match f l with | .ok v => some (l, v) | .error _ => none)
/-- A MEMORY cause. -/
def memCause (m : MM) (a : W64) (aux : Nat := 0) : Cause := mmCause m a aux
/-- Target core and offset of a lane of a scratchpad or window access (R85, R86, R100). -/
def laneTarget (s : State) (x : Context) (w : Space) (a : W64) (n : Nat) : Except Cause (Nat × Nat) :=
  if a.toNat % n ≠ 0 then .error (memCause .align a)
  else
    match w with
    | .own => if spExt (s.core x.core).part < a.toNat + n then .error (memCause .spbound a) else .ok (x.core, a.toNat)
    | .win =>
      match window s x.core x.launch a n with
      | .error (m, out) => .error (memCause m a (if out then 1 else 0))
      | .ok r => .ok r
/-- A PHASE drain holds one of the accesses (R145). -/
def anyDrain (s : State) (x : Context) (t : Nat) (ts : List (Nat × Nat × Nat)) : Bool := ts.any fun p => drainHeld s x t p.2.1
/-- The touched lines of a row access, all of one core. -/
def rowLines (ts : List (Nat × Nat × Nat)) : List Nat := (ts.map fun p => p.2.2 / 128).dedup
/-- Core of a row access. -/
def rowCore (x : Context) (ts : List (Nat × Nat × Nat)) : Nat := (ts.head?.map fun p => p.2.1).getD x.core
/-- Lane l of the row at a scratchpad or window address. -/
def rowAddr (a : W32) (l : Nat) : W64 := a.setWidth 64 + BitVec.ofNat 64 (4 * l)
/-- DATAECC of a scratchpad access of lanes: the first lane that meets an error (R148, R485). -/
def laneEcc (s : State) (ts : List (Nat × Nat × Nat)) (n : Nat) (addr : Nat → W64) : Res Unit :=
  match ts.find? fun p => spBad s p.2.1 p.2.2 n with
  | some p => trapWith cDataEcc 2 0 (addr p.1)
  | none => .ok ()

/-! ### Scratchpad and window rows (R216-R220) -/

/-- VLD and VLDW. -/
def vLdRow (c : Clu) (g : Guard) (a b : VSel) (fe : FeL) (w : Space) (lat : Nat) (s : State) : Host.Outcome State Fault Refusal :=
  conclude s do
    let (t, x) ← s.issuer
    noTrapMode x
    guardOps s x (laneMask x c g != 0) [.v c a, .v c b] 1
    let va := vVal x c .i32 a
    let ad := va.lane 0 + (vVal x c .i32 b).lane 0
    let m := laneMask x c g
    let ts ← laneChecks (lanesOf m) fun l => laneTarget s x w (rowAddr ad l) 4
    if anyDrain s x t ts then .error .hold
    let lines := rowLines ts
    let k := rowCore x ts
    feHold s k (feLWant fe) lines
    wfeHold s k fe lines
    laneEcc s ts 4 (rowAddr ad)
    let v := loaded va (ts.map fun p => (p.1, laneOf (spRead s p.2.1 p.2.2 4)))
    let s := if ts.isEmpty then s else feLoaded s k x.core fe lines
    return pushV s t c lat m v va
/-- VST and VSTW. -/
def vStRow (c : Clu) (g : Guard) (a b : VSel) (fe : FeS) (w : Space) (s : State) : Host.Outcome State Fault Refusal :=
  conclude s do
    let (t, x) ← s.issuer
    noTrapMode x
    guardOps s x (laneMask x c g != 0) [.v c a, .v c b] 0
    let ad := (vVal x c .i32 a).lane 0
    let vb := vVal x c .i32 b
    let ts ← laneChecks (lanesOf (laneMask x c g)) fun l => laneTarget s x w (rowAddr ad l) 4
    if ts.isEmpty then return s
    if anyDrain s x t ts then .error .hold
    let lines := rowLines ts
    let k := rowCore x ts
    feSHold s k x fe lines
    return spStore s k x.core 0 fe (ts.flatMap fun p => place p.2.2 (leBytes (vb.lane p.1).toNat 4)) lines

/-! ### Global rows (R216-R218, R221) -/

/-- The address of lane l of a global row. -/
def gRowAddr (h a b : W32) (l : Nat) : W64 :=
  ((h.extractLsb' 0 25).setWidth 64 <<< 32) + a.setWidth 64 + b.setWidth 64 + BitVec.ofNat 64 (4 * l)
/-- The checks of a lane of a global row ahead of translation: address bits, the package of lane 0, alignment, the
endpoint (R89, R217, R218). -/
def gLaneOk (s : State) (hbad : Bool) (a0 a : W64) : Except Cause Unit :=
  if hbad || a.extractLsb' 57 7 != 0 || (!isRemote a && a.extractLsb' 48 16 != 0) || a.extractLsb' 46 18 != a0.extractLsb' 46 18 then
    .error (memCause .addr a)
  else if a.toNat % 4 ≠ 0 then .error (memCause .align a)
  else if isRemote a && !reaches s (pkgOf a) then .error (memCause .unreach a)
  else .ok ()
/-- Translations of the active lanes of a local row, in order (R94, R95, R97). -/
def xlateLanes (s : State) (c : Nat) (n : Need) (ls : List (Nat × W64)) : State × List (Nat × W64 × Except MM (Nat × Bool)) :=
  ls.foldl (fun (r : State × List (Nat × W64 × Except MM (Nat × Bool))) p =>
    match xlate r.1 c p.2 n with
    | .ok (s, pa, nc) => (s, r.2 ++ [(p.1, p.2, .ok (pa, nc))])
    | .error m => (r.1, r.2 ++ [(p.1, p.2, .error m)])) (s, [])
/-- The physical address and NC of each lane, or the first failing check. -/
def localLanes (s : State) (c : Nat) (n : Need) (ls : List (Nat × W64)) : Res (State × List (Nat × W64 × Nat × Bool)) :=
  let (s, rs) := xlateLanes s c n ls
  match firstFail (rs.filterMap fun r => match r.2.2 with | .error m => some (0, memCause m r.2.1) | .ok _ => none) with
  | some z => .error (.trap z)
  | none => .ok (s, rs.filterMap fun r => match r.2.2 with | .ok (pa, nc) => some (r.1, r.2.1, pa, nc) | .error _ => none)
/-- VLDG. -/
def vLdg (c : Clu) (g : Guard) (a b h : VSel) (s : State) : Host.Outcome State Fault Refusal :=
  conclude s do
    let (t, x) ← s.issuer
    noTrapMode x
    guardOps s x (laneMask x c g != 0) [.v c a, .v c b, .v c h] 1
    let va := vVal x c .i32 a
    let b0 := (vVal x c .i32 b).lane 0
    let h0 := (vVal x c .i32 h).lane 0
    let m := laneMask x c g
    let ad := gRowAddr h0 (va.lane 0) b0
    let ls := (lanesOf m).map fun l => (l, ad l)
    let _ ← laneChecks (lanesOf m) fun l => gLaneOk s (h0.extractLsb' 25 7 != 0) (ad 0) (ad l)
    if m = 0 then return pushV s t c 14 m va va
    if drainHeld s x t x.core then .error .hold
    if isRemote (ad 0) then
      if pkgOf (ad 0) ≠ s.fab.ep then tagFree s x.core
      let span := farSpan s (pkgOf (ad 0)) (offOf (ad 0)) 256
      let acks := ownStores s t span
      let pends := ownLoads s t span
      if behind x span || !acks.isEmpty || !pends.isEmpty then
        return pushLater s t (cluQ c) (ad 0) span acks (fun id => .rrow m va id) pends
      return rowGo s t x (ad 0) m va (nextId s t) fun s v => pushQ s t (cluQ c) 14 (v.map .v)
    let (s, ps) ← localLanes s x.core .rd ls
    let acks := ownStores s t (rowSpan ps)
    if behind x (rowSpan ps) || !acks.isEmpty then
      return pushLater s t (cluQ c) (ad 0) (rowSpan ps) acks fun id => .row ps m va id
    match rowRace s x.core t ps with
    | some (ra, pa) => return pushQ (raceAt s t x.core pa ra) t (cluQ c) 14 (some (.v VReg.zero))
    | none =>
      match loadLanes s x.core t ps with
      | (_, _, some (ea, sub)) => eccTrap sub ea
      | (s, vs, none) => return pushV s t c 14 m (loaded va vs) va
/-- VSTG. -/
def vStg (c : Clu) (g : Guard) (a b h : VSel) (s : State) : Host.Outcome State Fault Refusal :=
  conclude s do
    let (t, x) ← s.issuer
    noTrapMode x
    guardOps s x (laneMask x c g != 0) [.v c a, .v c b, .v c h] 0
    let vb := vVal x c .i32 b
    let h0 := (vVal x c .i32 h).lane 0
    let slot := (h0.extractLsb' 28 4).toNat
    let m := laneMask x c g
    let ad := gRowAddr h0 ((vVal x c .i32 a).lane 0) 0
    let ls := (lanesOf m).map fun l => (l, ad l)
    let _ ← laneChecks (lanesOf m) fun l => gLaneOk s (h0.extractLsb' 25 3 != 0) (ad 0) (ad l)
    if m = 0 then return s
    if drainHeld s x t x.core then .error .hold
    if isRemote (ad 0) then
      if strmFull s x slot then .error .hold
      return deferWrite s x.core (.rem t slot (ad 0) (.write (ls.flatMap fun p => place (offOf p.2) (leBytes (vb.lane p.1).toNat 4))))
    let (s, ps) ← localLanes s x.core .wr ls
    return deferWrite s x.core (.glob t (ps.map fun p => (p.2.1, p.2.2.1, leBytes (vb.lane p.1).toNat 4, p.2.2.2)))

/-! ### Gather and scatter (R222, R223) -/

/-- Bytes of an element. -/
def gszBytes : GSize → Nat
  | .b4 => 4 | .b2 => 2 | .b1 => 1
/-- The space of a gather or scatter. -/
def gSpace : GSpace → Space
  | .sp => .own
  | .win => .win
/-- VGATH. -/
def vGath (c : Clu) (g : Guard) (a b : VSel) (gsp : GSpace) (sz : GSize) (u : Bool) (s : State) :
    Host.Outcome State Fault Refusal :=
  conclude s do
    let (t, x) ← s.issuer
    noTrapMode x
    guardOps s x (laneMask x c g != 0) [.v c a, .v c b] 1
    let va := vVal x c .i32 a
    let vb := vVal x c .i32 b
    let m := laneMask x c g
    let n := gszBytes sz
    let ts ← laneChecks (lanesOf m) fun l => laneTarget s x (gSpace gsp) ((va.lane l + vb.lane l).setWidth 64) n
    if anyDrain s x t ts then .error .hold
    laneEcc s ts n fun l => (va.lane l + vb.lane l).setWidth 64
    let v := loaded va (ts.map fun p => (p.1, (extend n u (spRead s p.2.1 p.2.2 n)).setWidth 32))
    return pushV s t c 10 m v va
/-- VSCAT: the highest lane stands where lanes meet. -/
def vScat (c : Clu) (g : Guard) (a b : VSel) (gsp : GSpace) (sz : GSize) (s : State) : Host.Outcome State Fault Refusal :=
  conclude s do
    let (t, x) ← s.issuer
    noTrapMode x
    guardOps s x (laneMask x c g != 0) [.v c a, .v c b] 0
    let va := vVal x c .i32 a
    let vb := vVal x c .i32 b
    let n := gszBytes sz
    let ts ← laneChecks (lanesOf (laneMask x c g)) fun l => laneTarget s x (gSpace gsp) ((va.lane l).setWidth 64) n
    if anyDrain s x t ts then .error .hold
    let cores := (ts.map fun p => p.2.1).dedup
    return cores.foldl (fun s k => spStore s k x.core 0 .plain
      ((ts.filter fun p => p.2.1 == k).flatMap fun p => place p.2.2 (leBytes (vb.lane p.1).toNat n)) []) s

end Sys2Proof.Machine
end

