-- ==== Sys2Proof/Machine/Select.lean ====
section
/-!
DEFINITION. The X slot: the select engine and the token tree file (R226-R247).
-/

namespace Sys2Proof.Machine

/-! ### Rank and compare-exchange (R227-R229) -/

/-- Pair (key, index) ranks above another (R227). -/
def above (k1 i1 k2 i2 : W32) : Bool :=
  decide (Arith.totalKey k2 < Arith.totalKey k1) || (Arith.totalKey k1 == Arith.totalKey k2 && decide (i1.toNat < i2.toNat))
/-- k and j of a bitonic stage (R229). -/
def bitonic (sg : Nat) : Nat × Nat :=
  if sg < 1 then (1, 0) else if sg < 3 then (2, sg - 1) else if sg < 6 then (3, sg - 3) else if sg < 10 then (4, sg - 6)
  else if sg < 15 then (5, sg - 10) else (6, sg - 15)
/-- Partner of a lane and the direction of its pair; none where the lane passes through (R229). -/
def stagePair (sg l : Nat) : Option (Nat × Bool) :=
  if sg = 21 then
    if l = 0 ∨ l = 63 then none else some (if l % 2 = 1 then l + 1 else l - 1, true)
  else
    let (k, j) := bitonic sg
    let lo := if l.testBit j then l - 2 ^ j else l
    some (if l.testBit j then l - 2 ^ j else l + 2 ^ j, !lo.testBit k)
/-- The lane whose pair lane l holds after a stage (R228). -/
def cxsFrom (sg : Nat) (k i : VReg) (l : Nat) : Nat :=
  match stagePair sg l with
  | none => l
  | some (p, up) =>
    let lo := min l p
    let hi := max l p
    let swap := if up then above (k.lane lo) (i.lane lo) (k.lane hi) (i.lane hi)
      else above (k.lane hi) (i.lane hi) (k.lane lo) (i.lane lo)
    if swap then p else l
/-- CXS (R228). -/
def execCxs (g : Guard) (a b : VSel) (cl : Clu) (sg : Stg) (s : State) : Host.Outcome State Fault Refusal :=
  conclude s do
    let (t, x) ← s.issuer
    noTrapMode x
    guardOps s x (gTrue g x) [.v cl a, .v cl b] 2
    let on := gTrue g x
    let k := vVal x cl (.flt .f32) a
    let i := vVal x cl .i32 b
    let s := pushAll s t cl 3 on (VReg.of fun l => k.lane (cxsFrom sg.val k i l))
    return pushAll s t cl 3 on (VReg.of fun l => i.lane (cxsFrom sg.val k i l))

/-! ### Threshold compaction and histograms (R230, R231) -/

/-- How THRC reads its values. -/
def thrEf : ThrTy → EF
  | .f32 => .flt .f32
  | _ => .i32
/-- keep (R230). -/
def thrKeep (ty : ThrTy) (ge : Bool) (a t : W32) : Bool :=
  let c := fun (x y : Int) => if ge then decide (y ≤ x) else decide (y < x)
  match ty with
  | .f32 => c (Arith.totalKey a) (Arith.totalKey t)
  | .s32 => c a.toInt t.toInt
  | .n32 => c a.toNat t.toNat
/-- THRC (R230). -/
def execThrc (g : Guard) (a b : VSel) (cl : Clu) (ty : ThrTy) (ge : Bool) (s : State) : Host.Outcome State Fault Refusal :=
  conclude s do
    let (t, x) ← s.issuer
    noTrapMode x
    guardOps s x (gTrue g x) [.v cl a, .v cl b] 3
    let on := gTrue g x
    let va := vVal x cl (thrEf ty) a
    let th := (vVal x cl (thrEf ty) b).lane 0
    let kept := (lanesOf (topMask x cl)).filter fun l => thrKeep ty ge (va.lane l) th
    let s := pushAll s t cl 4 on (VReg.of fun n => ((kept[n]?).map va.lane).getD 0)
    let s := pushAll s t cl 4 on (VReg.of fun n => ((kept[n]?).map (BitVec.ofNat 32 ·)).getD 0)
    return pushS s t 4 (if on then BitVec.ofNat 64 kept.length else 0)
/-- C of HIST (R231). -/
def histVec (dir : Bool) (m : W64) (a : VReg) (nb : Nat) : VReg :=
  VReg.of fun b =>
    if nb ≤ b then 0
    else if dir then (if m.getLsbD b then a.lane b else 0)
    else BitVec.ofNat 32 ((lanesOf m).filter fun l => (a.lane l).toNat == b).length
/-- HIST (R231). -/
def execHist (g : Guard) (a b : VSel) (cl : Clu) (dir : Bool) (s : State) : Host.Outcome State Fault Refusal :=
  conclude s do
    let (t, x) ← s.issuer
    noTrapMode x
    guardOps s x (gTrue g x) [.v cl a, .v cl b] 1
    if !(gTrue g x) then return pushAll s t cl 4 false VReg.zero
    let nb := ((vVal x cl .i32 b).lane 0).toNat
    if nb = 0 ∨ 64 < nb then operand 0x03 (BitVec.ofNat 64 nb)
    need (decide (cqHeld s x.core false + nb ≤ 64)) (trapWith cCqFull)
    let c := histVec dir (topMask x cl) (vVal x cl .i32 a) nb
    return pushAll (cqPush s x.core ((List.range nb).map c.lane)) t cl 4 true c

/-! ### The token tree file (R232-R245) -/

/-- Entries no open tree reserves (R232). -/
def ttFree (k : Core) : Nat := 512 - (k.ttf.toList.map fun d => (d.tree.map (·.2)).getD 0).foldl (· + ·) 0
/-- Node n of a tree. -/
def TtDesc.node (d : TtDesc) (n : Nat) : TtNode := d.nodes.getD n { token := 0, parent := 0, depth := 0, flags := 0 }
/-- The tree a tree word names, with its node number (R233); `uses` says whether the instruction uses NODE. -/
def treeOf (s : State) (c t : Nat) (w : W64) (uses : Bool) : Option (Fin 16 × TtDesc × Nat) :=
  let i : Fin 16 := (w.extractLsb' 0 4).toFin
  let d := (s.core c).ttf[i]
  let n := (w.extractLsb' 8 8).toNat
  match d.tree with
  | none => none
  | some (o, _) =>
    if w.extractLsb' 16 48 ≠ 0 ∨ d.gen ≠ w.extractLsb' 4 4 ∨ o ≠ t then none
    else if uses then (if d.nodes.length ≤ n then none else some (i, d, n))
    else if n ≠ 0 then none else some (i, d, 0)
/-- Sets a descriptor. -/
def setTree (s : State) (c : Nat) (i : Fin 16) (d : TtDesc) : State := s.modCore c fun k => { k with ttf := k.ttf.set i d }
/-- The path from a node up to the root, the node first (R242); depth bounds its length. -/
def pathUp (d : TtDesc) (n : Nat) : Nat → List Nat
  | 0 => [n]
  | f + 1 => if n = 0 then [0] else n :: pathUp d (d.node n).parent f
/-- p_0 = 0 to p_d = n (R242). -/
def pathTo (d : TtDesc) (n : Nat) : List Nat := (pathUp d n (d.node n).depth).reverse
/-- anc (R239). -/
def anc (d : TtDesc) (q k : Nat) : Bool :=
  decide (q < d.nodes.length) && decide (k < d.nodes.length) && (pathUp d q (d.node q).depth).contains k
/-- DATAECC of the node entries a slot reads (R148, R247). -/
def ttEcc (d : TtDesc) (ns : List Nat) : Res Unit := need (!(ns.any fun n => (d.node n).bad)) (trapWith cDataEcc 5)
/-- A slot of the X engine on a tree: its word is read, checked, and `f` acts on the tree; a false guard pushes zeros. -/
def ttOp (op : Nat) (g : Guard) (a : SSel) (extra : List Opd) (uses : Bool) (n : Nat) (idle : State → Nat → State)
    (f : State → Nat → Context → Fin 16 × TtDesc × Nat → Res State) (s : State) : Host.Outcome State Fault Refusal :=
  conclude s do
    let (t, x) ← s.issuer
    noTrapMode x
    let on := gTrue g x
    guardOps s x on (.s a :: extra) n
    if !on then return idle s t
    let w := sVal s x on a
    match treeOf s x.core t w uses with
    | none => operand op w
    | some r => f (popOps s x on (.s a :: extra)) t x r
/-- TTNEW (R237). -/
def execTtnew (g : Guard) (a b : SSel) (s : State) : Host.Outcome State Fault Refusal :=
  conclude s do
    let (t, x) ← s.issuer
    noTrapMode x
    let on := gTrue g x
    guardOps s x on [.s a, .s b] 1
    if !on then return pushS s t 2 0
    let va := sVal s x on a
    let vb := sVal s x on b
    let cap := (vb.extractLsb' 32 9).toNat
    let kv := va.extractLsb' 32 32
    let base := va.extractLsb' 0 32
    if cap = 0 ∨ 256 < cap ∨ vb.extractLsb' 41 23 ≠ 0 ∨ 0xFFFFFEFF < base.toNat ∨ 0xFFFFFFFF < kv.toNat + cap - 1 then operand 0x04 vb
    let s := popOps s x on [.s a, .s b]
    let k := s.core x.core
    match (List.finRange 16).find? fun i => (k.ttf[i]).tree.isNone with
    | none => return pushS s t 2 (BitVec.allOnes 64)
    | some i =>
      if ttFree k < cap then return pushS s t 2 (BitVec.allOnes 64)
      let gen := (k.ttf[i]).gen + 1
      let root : TtNode := { token := vb.extractLsb' 0 32, parent := 0, depth := 0, flags := 0 }
      let s := setTree s x.core i { gen := gen, tree := some (t, cap), basePos := base, kvBase := kv, nodes := [root] }
      return pushS s t 2 (BitVec.ofNat 64 (gen.toNat * 16 + i.val))
/-- TTADD (R238). -/
def execTtadd (g : Guard) (a b : SSel) (fl : BitVec 6) (s : State) : Host.Outcome State Fault Refusal :=
  ttOp 0x05 g a [.s b] true 1 (fun s t => pushS s t 2 0) (fun s' t x (i, d, p) =>
    let n := d.nodes.length
    if ((d.tree.map (·.2)).getD 0) ≤ n then return pushS s' t 2 (BitVec.allOnes 64)
    else do
      ttEcc d [p]
      let nd : TtNode := { token := (sVal s x true b).setWidth 32, parent := p, depth := (d.node p).depth + 1, flags := fl }
      return pushS (setTree s' x.core i { d with nodes := d.nodes ++ [nd] }) t 2 (BitVec.ofNat 64 n)) s
/-- TTPOS (R241). -/
def execTtpos (g : Guard) (a : SSel) (cl : Clu) (blk : BitVec 2) (s : State) : Host.Outcome State Fault Refusal :=
  ttOp 0x06 g a [] false 1 (fun s t => pushAll s t cl 3 false VReg.zero) (fun s t _ (_, d, _) => do
    ttEcc d (List.range' (64 * blk.toNat) 64)
    return pushAll s t cl 3 true (VReg.of fun l =>
      let n := 64 * blk.toNat + l
      if n < d.nodes.length then d.basePos + BitVec.ofNat 32 (d.node n).depth else BitVec.allOnes 32)) s
/-- rel of TTMASK (R240). -/
def relOf (d : TtDesc) (col : Bool) (n i : Nat) : Bool := if col then anc d i n else anc d n i
/-- The nodes TTMASK reads: the path of its node, or those of the nodes of its lanes. -/
def maskNodes (d : TtDesc) (col : Bool) (form : MaskForm) (blk : BitVec 2) (n : Nat) : List Nat :=
  if col then ((if form = .bits then List.range d.nodes.length else List.range' (64 * blk.toNat) 64).filter
    fun i => decide (i < d.nodes.length)).flatMap (pathTo d)
  else pathTo d n
/-- TTMASK (R240). -/
def execTtmask (g : Guard) (a : SSel) (cl : Clu) (col : Bool) (form : MaskForm) (blk : BitVec 2) (s : State) :
    Host.Outcome State Fault Refusal :=
  ttOp 0x07 g a [] true 1 (fun s t => pushAll s t cl 4 false VReg.zero) (fun s t _ (_, d, n) => do
    ttEcc d (maskNodes d col form blk n)
    return pushAll s t cl 4 true (VReg.of fun l =>
      let r := relOf d col n (64 * blk.toNat + l)
      match form with
      | .word => if r then BitVec.allOnes 32 else 0
      | .bias => if r then 0 else 0xFF800000
      | .bits => if l < 8 then BitVec.ofNat 32 ((List.range 32).foldl (fun v i => if relOf d col n (32 * l + i) then v + 2 ^ i else v) 0)
          else 0)) s
/-- f of TTPATH (R242). -/
def pathFld (d : TtDesc) (fld : PathFld) (n : Nat) : W32 :=
  match fld with
  | .node => BitVec.ofNat 32 n
  | .tok => (d.node n).token
  | .slot => d.kvBase + BitVec.ofNat 32 n
/-- TTPATH (R242). -/
def execTtpath (g : Guard) (a : SSel) (cl : Clu) (fld : PathFld) (blk : BitVec 2) (s : State) : Host.Outcome State Fault Refusal :=
  ttOp 0x08 g a [] true 1 (fun s t => pushAll s t cl 4 false VReg.zero) (fun s t _ (_, d, n) => do
    let p := pathTo d n
    ttEcc d p
    return pushAll s t cl 4 true (VReg.of fun l => ((p[64 * blk.toNat + l]?).map (pathFld d fld)).getD (BitVec.allOnes 32))) s
/-- The nodes TTPRUNE keeps, renumbered along the path (R243). -/
def pruned (d : TtDesc) (p : List Nat) : List TtNode :=
  (List.range p.length).map fun i => { d.node (p.getD i 0) with parent := i - 1, depth := i }
/-- TTPRUNE (R243). A list that covers a part of a 64-bit word of the scratchpad that cannot be read raises nothing and leaves the
word bad (DESIGN CHOICE, log entry 98). -/
def execTtprune (g : Guard) (a b : SSel) (sf : Bool) (s : State) : Host.Outcome State Fault Refusal :=
  ttOp 0x09 g a [.s b] true 1 (fun s t => pushS s t 6 0) (fun s' t x (i, d, n) => do
    let p := pathTo d n
    let o := sVal s x true b
    let (c, off) ← target s' x .own o (4 * p.length) 4
    if drainHeld s' x t c then .error .hold
    ttEcc d p
    let fe : FeS := if sf then .sf else .plain
    feSHold s' c x fe (linesOf off (4 * p.length))
    let s' := spStore s' c x.core off fe (place 0 (p.flatMap fun q => leBytes (pathFld d .slot q).toNat 4)) (linesOf off (4 * p.length))
    return pushS (setTree s' x.core i { d with nodes := pruned d p }) t 6 (BitVec.ofNat 64 p.length)) s
/-- TTFREE (R245). -/
def execTtfree (g : Guard) (a : SSel) (s : State) : Host.Outcome State Fault Refusal :=
  ttOp 0x0A g a [] false 0 (fun s _ => s) (fun s _ x (i, d, _) => return setTree s x.core i { gen := d.gen }) s
/-- TTRD's word (R245). -/
def ttWord (d : TtDesc) (what : TtWhat) (n : Nat) : W64 :=
  match what with
  | .node =>
    let v := d.node n
    BitVec.ofNat 64 (v.flags.toNat * 2 ^ 48 + v.depth % 256 * 2 ^ 40 + v.parent % 256 * 2 ^ 32 + v.token.toNat)
  | .desc => BitVec.ofNat 64 (d.kvBase.toNat * 2 ^ 32 + ((d.tree.map (·.2)).getD 0) * 2 ^ 9 + d.nodes.length)
  | .pos => d.basePos.setWidth 64
/-- TTRD (R245). -/
def execTtrd (g : Guard) (a : SSel) (what : TtWhat) (s : State) : Host.Outcome State Fault Refusal :=
  ttOp 0x0B g a [] (what == .node) 1 (fun s t => pushS s t 2 0) (fun s t _ (_, d, n) => do
    ttEcc d (if what = .node then [n] else [])
    return pushS s t 2 (ttWord d what n)) s

/-- TTFCNT (R246). -/
def ttfCnt (k : Core) : W64 :=
  BitVec.ofNat 64 ((k.ttf.toList.filter fun d => d.tree.isSome).length * 2 ^ 16 + ttFree k)
/-- TTFOWN (R246). -/
def ttfOwn (k : Core) (t : Nat) : W64 :=
  BitVec.ofNat 64 ((List.finRange 16).foldl (fun v i => if ((k.ttf[i]).tree.map (·.1)) = some t then v + 2 ^ i.val else v) 0)

end Sys2Proof.Machine
end

