-- ==== Sys2Proof/Machine/Image.lean ====
section
/-!
DEFINITION. Image frames (R127, R128): the physical address of a frame and the bytes a park writes to it.
-/

namespace Sys2Proof.Machine

/-- A word of fields: each a value and the place of its lowest bit. -/
def fields (l : List (Nat × Nat)) : W64 := BitVec.ofNat 64 (l.foldl (fun n p => n + p.1 * 2 ^ p.2) 0)
/-- One bit. -/
def bit (b : Bool) : Nat := if b then 1 else 0
/-- Bytes of the trap record (R149). -/
def TrapRec.word (r : TrapRec) : Nat → W64
  | 0 => fields [(r.cause.toNat, 0), (r.sub.toNat, 8), (r.slots.toNat, 16), (r.flags.toNat, 24), (r.core.toNat, 32), (r.ctx.toNat, 48)]
  | 1 => r.pc
  | 2 => r.addr
  | 3 => r.ccyc
  | 4 => r.acyc
  | 5 => r.info
  | 6 => r.ticket
  | _ => 0

/-- The physical address of frame f of core c (R127). -/
def frameAddr (c f : Nat) : Nat := 0x7FD8000000 + c * 0x200000 + f * 0x8000
/-- The frame a task has taken on a core (R127). -/
def frameOf (k : Core) (t : Nat) : Option Nat := (List.range 64).find? fun f => k.frames.getD f none == some t
/-- Bytes cut or filled up to n. -/
def pad (n : Nat) (b : List Byte) : List Byte := (b ++ List.replicate n 0).take n
/-- Words as bytes. -/
def wordBytes (l : List W64) : List Byte := l.flatMap fun w => leBytes w.toNat 8
/-- The state of a context outside trap mode, and the wait left of it (R128, R150). -/
def Context.main (x : Context) : Frame × Nat := x.frozen.getD (x.fr, x.wait)
/-- The words of the control block but for the trap record (R128). -/
def ctlWords (x : Context) : List W64 :=
  let f := x.main.1
  [x.pc, BitVec.ofNat 64 x.ccyc, x.trappc, x.tvec, BitVec.ofNat 64 (bit x.expchk), BitVec.ofNat 64 (bit x.trapMode),
   BitVec.ofNat 64 x.main.2, f.ps.setWidth 64, f.xs.setWidth 64, f.xa.setWidth 64, f.xb.setWidth 64, BitVec.ofNat 64 f.qs.head.val] ++
  if x.trapMode then [x.fr.ps.setWidth 64, x.fr.xs.setWidth 64, BitVec.ofNat 64 x.wait] else []
/-- The words of a nest level: its settings, and where it is active its progress (R128, R142). -/
def nestWords (n : Nest) (i : Nat) : List W64 :=
  let m := n.set.getD i {}
  [m.first, m.last] ++ (m.stride.toList.flatMap fun o => match o with
    | some (r, a) => [r.setWidth 64 + 32, a]
    | none => [0, 0]) ++
  match n.act.reverse[i]? with
  | some l => [BitVec.ofNat 64 l.trip, BitVec.ofNat 64 l.stages, l.start, BitVec.ofNat 64 l.len, BitVec.ofNat 64 l.base, BitVec.ofNat 64 l.iter,
      BitVec.ofNat 64 n.pos]
  | none => []
/-- A landing descriptor (R128); `cc` is the context cycle its count runs from. -/
def descBytes (cc : Nat) (p : Pend) : List Byte :=
  pad 16 (Config.landBytes (match p.q with | .s => 0 | .a => 1 | .b => 2) p.slot.val (p.land - cc) (match p.val with
    | some (.s v) => v
    | _ => 0))
/-- The landing data of a pending result (R128). -/
def dataBytes (p : Pend) : List Byte := pad 256 (match p.val with
  | some (.v v) => rowBytes v
  | _ => [])
/-- The parts of a context's image, by their offsets (R128): the handler state only in trap mode, of the named registers only
the declared ones that are live. -/
def imageParts (x : Context) : List (Nat × List Byte) :=
  let f := x.main.1
  let cc := if x.frozen.isSome then 0 else x.ccyc
  let ctl := Config.ctlBytes (ctlWords x)
  let vecs := fun (o : Nat) (l : W32) (n : Nat) (v : Vector VReg 32) =>
    ((List.range n).filter l.getLsbD).map fun i => (o + 256 * i, rowBytes (v.getD i VReg.zero))
  [(0, pad 0x80 ctl), (0x80, wordBytes ((List.range 8).map x.trec.word)), (0xC0, pad 0x40 (ctl.drop 0x80)),
   (0x100, wordBytes f.pa.toList), (0x140, wordBytes f.pb.toList),
   (0x180, pad 128 (wordBytes f.ma.reverse)), (0x200, pad 128 (wordBytes f.mb.reverse)),
   (0x280, (List.range 6).flatMap fun i => pad 64 (Config.nestBytes (nestWords f.nest i)))] ++
  (((List.range x.nks).filter x.liveK.getLsbD).map fun i => (0x400 + 8 * i, leBytes (x.k.getD i 0).toNat 8)) ++
  [(0x500, wordBytes f.qs.slots.toList), (0x580, (f.pend.take 24).flatMap (descBytes cc))] ++
  (if x.trapMode then [(0x700, wordBytes x.fr.qs.slots.toList), (0x780, (x.fr.pend.take 8).flatMap (descBytes x.ccyc))] else []) ++
  vecs 0x800 x.liveA x.nva x.va ++ vecs 0x2800 x.liveB x.nvb x.vb ++
  [(0x4800, f.qa.slots.toList.flatMap rowBytes), (0x5800, f.qb.slots.toList.flatMap rowBytes),
   (0x6800, (f.pend.take 24).flatMap dataBytes)]
/-- A park writes the context to its frame (R128, R155). -/
def writeImage (s : State) (t : Nat) (x : Context) : State :=
  match frameOf (s.core x.core) t with
  | some f => (imageParts x).foldl (fun s p => memWrite s (place (frameAddr x.core f + p.1) p.2)) s
  | none => s

end Sys2Proof.Machine
end

