-- ==== Sys2Proof/Machine/Tasks.lean ====
section
/-!
DEFINITION. The Q-slot task instructions (R401-R410), and the steps of the task tree engine and the batch former: starts,
parks and resumes (R155, R156, R386, R387), retirement, waves, batches.
-/

namespace Sys2Proof.Machine

/-! ### Instructions -/

/-- TASK AFTERDONE (R392). -/
def afterDone (s : State) (t op : Nat) : Res Unit :=
  need (!((((look s.tasks t).map (·.retired)).getD false) && scopeOf s t != 0)) (trapWith cTask 2 (BitVec.ofNat 64 op))
/-- The child a handle names, or BADHANDLE (R402). -/
def childRec (s : State) (t : Nat) (h : W64) : Res (Nat × Task) :=
  match childOf s t h with
  | some p => .ok p
  | none => trapWith cTask 1 h
/-- Takes a child's record for the issuer (R383, R403, R404): its handle, or the failure handle. SPAWN releases the child's
record (R124); the stores of its own bundle follow (log entry 84). -/
def spawnChild (s : State) (t : Nat) (x : Context) (n : NewTask) : State × W64 :=
  let k := (look s.tasks t).getD {}
  let det := scopeOf s t != 0
  let m : NewTask := { n with
    launch := x.launch, parent := some (handleOf s t), tvec := x.tvec, expchk := x.expchk
    rank := if det then some (ticketOf s t, k.spawned) else none }
  match createTask s m k.cancel k.spawned with
  | none => (s, BitVec.allOnes 64)
  | some (s, i) =>
    let h := handleOf s i
    let s := modTask s t fun k => { k with spawned := k.spawned + 1 }
    let s := if n.leaf ∧ !k.cancel then joinBatch s x.launch n.wsid i else s
    (if n.leaf then s else releaseActs s x.core t (recVar s i) .pkg false, h)
/-- A descriptor of SPAWN (R403): the child it describes; INFO of its OPERAND where it breaks a limit. -/
def spawnDesc (s : State) (l : Launch) (launch : Nat) (b : List Byte) (arg : W64) (nj : Bool) : Except W64 NewTask :=
  let f := fun (o n : Nat) => leNat ((b.drop o).take n)
  let w := BitVec.ofNat 64 (f 0 8)
  let nsem := f 12 1
  let sem := (List.range nsem).map fun i => BitVec.ofNat 64 (f (32 + 8 * i) 8)
  let semOk := fun (v : W64) => v.extractLsb' 14 18 == 0 && (s.core (v.extractLsb' 5 9).toNat).launch == some launch
  if !taskWordOk l w then .error w
  else if 4 < nsem then .error (BitVec.ofNat 64 nsem)
  else if f 13 3 ≠ 0 then .error (BitVec.ofNat 64 (f 13 3))
  else match sem.find? fun v => !semOk v with
    | some v => .error v
    | none =>
      let tw := taskWord w
      .ok { launch := launch, grp := tw.1, dcyc := tw.2.1, entry := tw.2.2, key := BitVec.ofNat 32 (f 8 4),
            aff := BitVec.ofNat 64 (f 16 8), k1 := BitVec.ofNat 64 (f 24 8), arg := arg, nj := nj,
            sem := sem.map fun v => ((v.extractLsb' 5 9).toNat, (v.extractLsb' 0 5).toNat, v.extractLsb' 32 32) }
/-- What comes before the release of a SPAWN at pkg scope (R115, R124): the earlier loads of the issuer have their values, its
local stores and releases are performed; remote writes are not waited for. -/
def relsFirst (s : State) (t : Nat) (x : Context) : Res State := do
  let s := releaseAll s t (2 * x.rels.length)
  need (((s.ctx? t).map fun y => earlierDone s t y .pkg).getD true) (.error .hold)
  return s
/-- SPAWN (R403). -/
def execSpawn (g : Guard) (a b : SSel) (desc nj : Bool) (s : State) : Host.Outcome State Fault Refusal :=
  conclude s do
    let (t, x) ← s.issuer
    let on := gTrue g x
    guardOps s x on [.s a, .s b] 1
    if !on then return pushS s t 4 0
    let u := sVal s x on a
    let v := sVal s x on b
    let k := (look s.tasks t).getD {}
    let l := launchOf s k
    let n : NewTask ← if desc then do
        need (decide (u.toNat % 64 = 0)) (memTrap .align u)
        if spExt (s.core x.core).part < u.toNat + 64 then memTrap .spbound u
        if drainHeld s x t x.core then .error .hold
        spEcc s x.core u.toNat 64 u
        match spawnDesc s l x.launch (spRead s x.core u.toNat 64) v nj with
        | .ok n => pure n
        | .error i => operand 0x01 i
      else do
        need (taskWordOk l u) (operand 0x01 u)
        let w := taskWord u
        pure { launch := x.launch, grp := w.1, dcyc := w.2.1, entry := w.2.2, key := k.key, aff := v, arg := v, nj := nj }
    afterDone s t 0x01
    let s ← relsFirst s t x
    let r := spawnChild (popOps s x on [.s a, .s b]) t x n
    return pushS r.1 t 4 r.2
/-- SPAWNB (R404). -/
def execSpawnb (g : Guard) (a b : SSel) (wsid : BitVec 6) (s : State) : Host.Outcome State Fault Refusal :=
  conclude s do
    let (t, x) ← s.issuer
    let on := gTrue g x
    guardOps s x on [.s a, .s b] 1
    if !on then return pushS s t 4 0
    let k := (look s.tasks t).getD {}
    let l := launchOf s k
    afterDone s t 0x02
    need (l.bftab.getLsbD 0) (trapWith cTask 3 (wsid.setWidth 64))
    let n : NewTask := {
      launch := x.launch, grp := k.grp, entry := 0, dcyc := 0, key := (sVal s x on b).setWidth 32,
      arg := sVal s x on a, leaf := true, wsid := wsid.toNat }
    let s' := popOps s x on [.s a, .s b]
    if 65536 ≤ leavesHeld s then return pushS s' t 4 (BitVec.allOnes 64)
    let r := spawnChild s' t x n
    return pushS r.1 t 4 r.2
/-- A revocation or REPRIO of an unstarted task in a DET scope waits for the next formation (R391). -/
def defer (s : State) (t : Nat) (revoke : Bool) (i : Nat) (key : W32) : State :=
  let sc := scopeOf s t
  let idx := ((look s.tasks t).map (·.qidx)).getD 0
  let s := modTask s t fun k => { k with qidx := k.qidx + 1 }
  match look s.scopes sc with
  | some g =>
    let d : Deferred := { ticket := ticketOf s t, idx := idx, revoke := revoke, target := i, gen := ((look s.tasks i).map (·.gen)).getD 0, key := key }
    { s with scopes := put s.scopes sc { g with deferred := g.deferred ++ [d] } }
  | none => s
/-- A task has not been chosen. -/
def unchosen (k : Task) : Bool :=
  match k.st with
  | .waiting | .ready | .batched => true
  | _ => false
/-- CANCEL of one target (R393). -/
def cancelOne (s : State) (t : Nat) (p : Nat × Task) : State :=
  if scopeOf s t != 0 && unchosen p.2 then defer s t true p.1 0 else cancelTree s.tasks.length s p.1
/-- CANCEL (R405). -/
def execCancel (g : Guard) (a : SSel) (s : State) : Host.Outcome State Fault Refusal :=
  conclude s do
    let (t, x) ← s.issuer
    let on := gTrue g x
    guardOps s x on [.s a] 0
    if !on then return s
    let v := sVal s x on a
    let ts ← if v = 0 then pure (childrenOf s t) else (childRec s t v).map fun p => [p]
    afterDone s t 0x03
    return ts.foldl (fun s p => cancelOne s t p) (popOps s x on [.s a])
/-- REPRIO of one task; where it runs, the merge stage ranks it by the former key until the next cycle (R406). -/
def reprioOne (s : State) (t i : Nat) (k : Task) (key : W32) : State :=
  match k.st with
  | .running | .parked | .chosen => modTask s i fun k => { k with key := key, oldKey := some (k.oldKey.getD k.key) }
  | .waiting | .ready | .batched => if scopeOf s t != 0 then defer s t false i key else modTask s i fun k => { k with key := key }
  | _ => s
/-- REPRIO (R406). -/
def execReprio (g : Guard) (a b : SSel) (s : State) : Host.Outcome State Fault Refusal :=
  conclude s do
    let (t, x) ← s.issuer
    let on := gTrue g x
    guardOps s x on [.s a, .s b] 0
    if !on then return s
    let v := sVal s x on a
    let p ← if v = 0 then pure (t, (look s.tasks t).getD {}) else childRec s t v
    afterDone s t 0x04
    return reprioOne (popOps s x on [.s a, .s b]) t p.1 p.2 ((sVal s x on b).setWidth 32)
/-- The code of an end in a status word (R407). -/
def endCode : Option TEnd → Nat
  | some .killed => 1
  | some .revoked => 2
  | _ => 0
/-- JOIN collects a child: its status word and its result are pushed and its record freed (R407, R124). -/
def collect (s : State) (t : Nat) (x : Context) (i : Nat) (k : Task) : State :=
  let st := BitVec.ofNat 64 (endCode k.how * 2 ^ 32 + (handleOf s i).toNat)
  let s := dropClean (recallVar s (recVar s i)) x.core
  let s := modTask s i fun k => { k with st := .free }
  pushS (pushS s t 2 st) t 2 k.result
/-- The child of some that ended first. -/
def firstEnded : List (Nat × Task) → Option (Nat × Task)
  | [] => none
  | a :: r =>
    match firstEnded r with
    | some b => if a.2.endSeq ≤ b.2.endSeq then some a else some b
    | none => some a
/-- JOIN (R407). -/
def execJoin (g : Guard) (a : SSel) (any : Bool) (s : State) : Host.Outcome State Fault Refusal :=
  conclude s do
    let (t, x) ← s.issuer
    let on := gTrue g x
    let os : List Opd := if any then [] else [.s a]
    guardOps s x on os 2
    if !on then return pushS (pushS s t 2 0) t 2 0
    if any then
      let cs := (childrenOf s t).filter fun p => !p.2.nj
      match firstEnded (cs.filter fun p => p.2.st == .ended) with
      | some (i, k) => return collect s t x i k
      | none =>
        if !cs.isEmpty then .error .hold
        return pushS (pushS s t 2 0x300000000) t 2 0
    else
      let v := sVal s x on a
      let (i, k) ← childRec s t v
      if k.nj then trapWith cTask 1 v
      if k.st ≠ .ended then .error .hold
      return collect (popOps s x on os) t x i k
/-- TKDONE (R408). -/
def execTkdone (g : Guard) (s : State) : Host.Outcome State Fault Refusal :=
  conclude s do
    let (t, x) ← s.issuer
    guardOps s x (gTrue g x) [] 0
    if !gTrue g x then return s
    let s' := modTask s t fun k => { k with retired := true }
    return if scopeOf s t = 0 then s' else s'.due .ticketRetire { task := t }
/-- CANCEL as TSTAT reports it (R394): certain 256 cycles after the CANCEL, either way before (log entry 4). -/
def cancelSeen (s : State) (k : Task) : Bool :=
  k.cancel && (decide (256 ≤ (s.acyc[0] - k.cancelAt).toNat) || Config.pick s.fresh % 2 == 1)
/-- The status word of a task (R409). -/
def taskStatus (s : State) (t : Nat) (k : Task) : W64 :=
  let n := ((childrenOf s t).filter fun p => !p.2.nj).length
  BitVec.ofNat 64 ((if cancelSeen s k then 2 ^ 63 else 0) + (if k.retired then 2 ^ 62 else 0) +
    (if scopeOf s t ≠ 0 then 2 ^ 61 else 0) + (if k.batch then 2 ^ 60 else 0) + n % 2 ^ 20 * 2 ^ 32 + (handleOf s t).toNat)
/-- TSTAT (R409). -/
def execTstat (g : Guard) (s : State) : Host.Outcome State Fault Refusal :=
  conclude s do
    let (t, x) ← s.issuer
    guardOps s x (gTrue g x) [] 1
    if !gTrue g x then return pushS s t 1 0
    return pushS s.tick t 1 (taskStatus s t ((look s.tasks t).getD {}))

/-! ### Starts, parks and resumes -/

/-- A context number a core has free (R126, R156): the lowest. -/
def freeNumber (k : Core) : Option Nat := (List.range 16).find? fun i => (k.res.getD i none).isNone
/-- A frame a core has free (R127). -/
def freeFrames (k : Core) : List Nat := (List.range 64).filter fun i => (k.frames.getD i none).isNone
/-- A launch whose tasks start and resume: running, not in stage 1 of its watchdog (R400). -/
def launchGoes (s : State) (l : Nat) : Bool :=
  match look s.launches l with
  | some r => r.st == .running && !r.stage1
  | none => false
/-- A task may be started (R386). -/
def startable (s : State) (k : Task) : Bool := launchGoes s k.launch && (k.st == .chosen || (k.st == .ready && launchScope s k.launch == 0))
/-- A parked task of a core whose park has ended (R362, R386). -/
def resumable (s : State) (c : Nat) (k : Task) : Bool := k.st == .parked && k.core == some c && k.pages.isEmpty && launchGoes s k.launch
/-- The task a core starts or resumes next (R386). -/
def chooseFor (s : State) (c : Nat) : Option (Nat × Task) :=
  let k := s.core c
  match freeNumber k, k.launch with
  | some _, some l =>
    let mine := s.tasks.filter fun p => p.2.launch == l
    let parked := mine.filter fun p => resumable s c p.2
    let new := if (freeFrames k).isEmpty then [] else mine.filter fun p => startable s p.2
    (parked.find? fun p => holdsHead s p.1).or <|
    (k.nextT.bind fun h => new.find? fun p => handleOf s p.1 == h && targetOf s p.2 == c).or <|
    (bestTask (parked ++ new.filter fun p => targetOf s p.2 == c)).or <|
    bestTask (new.filter fun p => inGroup s (launchOf s p.2) p.2.grp c &&
      decide ((launchOf s p.2).tteage.toNat ≤ (s.acyc[0] - p.2.at_).toNat))
  | _, _ => none
/-- The context a task starts with (R126, R383). -/
def newContext (s : State) (c num : Nat) (k : Task) : Context :=
  let l := launchOf s k
  let live := fun (n : Nat) => BitVec.ofNat 32 (2 ^ n - 1)
  { core := c, num := num, launch := k.launch, nks := l.nks, nva := l.nva, nvb := l.nvb, pc := k.entry, npc := k.entry,
    k := ((Vector.replicate 32 0).set 0 k.arg).set 1 k.k1,
    liveK := live l.nks, liveA := live l.nva, liveB := live l.nvb, tvec := k.tvec, expchk := k.expchk }
/-- Starts a task on a core (R126, R127, R383); its start is an acquire of its record (R124). -/
def startTask (s : State) (c t : Nat) (k : Task) : State :=
  let r := s.core c
  match freeNumber r, pickOf s (freeFrames r) with
  | some n, some f =>
    let s := dropClean (recallVar s.tick (recVar s t)) c
    let s := s.modCore c fun r => { r with res := r.res.setIfInBounds n (some t), frames := r.frames.setIfInBounds f (some t),
                                           nextT := if r.nextT = some (handleOf s t) then none else r.nextT }
    modTask (s.setCtx t (newContext s c n k)) t fun k => { k with st := .running, core := some c }
  | _, _ => s
/-- TASK_START: core `core` starts the task it chooses (R386). -/
def execTaskStart (s : State) : Host.Outcome State Fault Refusal :=
  match chooseFor s s.ev.core with
  | some (t, k) => .next (if k.st = .parked then s else startTask s s.ev.core t k)
  | none => .next s
/-- The commands of a resumed task that stopped on a page whose fill failed fault at once (R363). -/
def failResumed (s : State) (c t : Nat) : State :=
  [false, true].foldl (fun s e =>
    ((cmds s c e).filter fun q => q.task == t && q.pgfail).foldl (fun s q => if (cmdOf s c e q.id).isSome then pageGranule s c e q else s) s) s
/-- Resumes a parked task (R156): the lowest free number; its paused commands go on (R294). -/
def resumeTask (s : State) (c t : Nat) : State :=
  match freeNumber (s.core c) with
  | some n =>
    let s := s.modCore c fun r => unpause t { r with res := r.res.setIfInBounds n (some t) }
    failResumed (modTask (s.modCtx t fun x => { x with num := n, park := false }) t fun k => { k with st := .running }) c t
  | none => s
/-- CONTEXT_RESUME: core `core` resumes the parked task it chooses (R156, R386). -/
def execContextResume (s : State) : Host.Outcome State Fault Refusal :=
  match chooseFor s s.ev.core with
  | some (t, k) => .next (if k.st = .parked then resumeTask s s.ev.core t else s)
  | none => .next s
/-- The conditions of a park (R155). -/
def parkReady (s : State) (t : Nat) (x : Context) : Bool :=
  let k := s.core x.core
  let quiet := fun (l : List Cmd) => l.all fun q => q.task != t || cmdStopped s l q || cmdQuiet s q
  x.park && ((look s.tasks t).map fun k => k.st == .running).getD false && (k.drain.map (·.task)) != some t &&
    quiet k.cq0 && quiet k.cq1 && !((sweepOf s t).any fun w => w.roll.isSome) &&
    x.fr.pend.all (fun p => p.val.isSome) && ((x.frozen.map fun f => f.1.pend.all fun p => p.val.isSome).getD true)
/-- CONTEXT_PARK: the context of task `task` is parked, once it may be, and its image is written to its frame (R128, R155). -/
def execContextPark (s : State) : Host.Outcome State Fault Refusal :=
  let t := s.ev.task
  match s.ctx? t with
  | some x =>
    if parkReady s t x then
      let s := (writeImage s t x).modCore x.core fun k => { k with res := k.res.map fun o => if o = some t then none else o, rc := k.rc.filter fun p => p.1 != t }
      .next (modTask (s.setCtx t { x with park := false }) t fun k => { k with st := .parked, core := some x.core })
    else .next s
  | none => .next s
/-- The contexts of a core that may be asked to park. -/
def residents (s : State) (c : Nat) : List (Nat × Task × Context) :=
  (s.core c).res.toList.filterMap fun o => do
    let t ← o
    let k ← look s.tasks t
    let x ← s.ctx? t
    if k.st = .running ∧ !x.park then some (t, k, x) else none
/-- The guard of a command that an engine must have room for (R295). -/
def engineGuard : Instr → Option Guard
  | .ccopy g _ _ _ | .cacc g _ _ _ _ | .caccr g _ _ _ _ | .ccas g _ _ _ _ _ => some g
  | .clred g _ | .clbc g _ | .cla2a g _ | .clvir g _ | .clrowDisp g _ | .clrowComb g _ => some g
  | .kvld g _ _ | .kvst g _ _ | .psel g _ _ | .psref g _ _ _ _ | .psdrop g _ _ => some g
  | .pmapRead g _ _ | .pmapReadref g _ _ | .pmapMapnew g _ _ | .pmapRevoke g _ _ | .pmapEvict g _ _ | .pmapPrefetch g _ _ => some g
  | _ => none
/-- The bundle of a context is held by the limit of an engine's commands (R14, R295, R304). -/
def engineFull (s : State) (t : Nat) (x : Context) : Bool :=
  (!roomFor s x.core false t || !roomFor s x.core true t) &&
  match (bundleAt s x x.fr.nest.pos x.pc).2 with
  | .ok ws => ((ws.filter fun w => w.extractLsb' 28 3 == (4 : BitVec 3)).zipIdx.any fun p =>
      match decodeWord p.1 with
      | .ok i => ((engineGuard i).map fun g => gTrue g x && !roomFor s x.core (p.2 == 1) t).getD false
      | .error _ => false)
  | _ => false
/-- The lowest-ranked of some contexts. -/
def worst : List (Nat × Task × Context) → Option (Nat × Task × Context)
  | [] => none
  | a :: r =>
    match worst r with
    | some b => if ranksAbove a.2.1 b.2.1 then some b else some a
    | none => some a
/-- Whom a core parks to make room (R304, R387), with the task a priority park makes room for. -/
def parkVictim (s : State) (c : Nat) : Option (Nat × Option Nat) :=
  let k := s.core c
  -- a park that is under way makes the room
  if k.res.toList.any fun o => (o.bind fun t => (s.ctx? t).map (·.park)).getD false then none
  else match freeNumber k, k.launch with
  | none, some l =>
    let mine := s.tasks.filter fun p => p.2.launch == l
    let forHead := if (mine.filter fun p => resumable s c p.2).any fun p => holdsHead s p.1 then
        (worst ((residents s c).filter fun r => engineFull s r.1 r.2.2)).map fun r => (r.1, none)
      else none
    forHead.or <|
    if (freeFrames k).isEmpty then none
    else
      match bestTask (mine.filter fun p => startable s p.2 && targetOf s p.2 == c) with
      | some (t, n) =>
        (worst ((residents s c).filter fun r =>
          !ranksAbove r.2.1 n && !holdsHead s r.1 && decide (r.2.1.dcyc ≤ r.2.2.ccyc))).map fun r => (r.1, some t)
      | none => none
  | _, _ => none
/-- PRIORITY_PARK: core `core` asks a context to park for priority, or to make room for the head (R304, R387). -/
def execPriorityPark (s : State) : Host.Outcome State Fault Refusal :=
  let c := s.ev.core
  match parkVictim s c with
  | some (v, n) =>
    let s := s.modCtx v fun x => { x with park := true }
    .next (s.modCore c fun k => { k with nextT := (n.map (handleOf s)).or k.nextT })
  | none => .next s

/-! ### Tickets, waves and batches -/

/-- TICKET_RETIRE: the retirement of task `task` takes effect (R302, R303). -/
def execTicketRetire (s : State) : Host.Outcome State Fault Refusal := .next (retireTicket s s.ev.task)
/-- WAVE_FORMATION: scope `num` forms its next wave (R391). -/
def execWaveFormation (s : State) : Host.Outcome State Fault Refusal :=
  let sc := s.ev.num
  match formWave s sc with
  | .none => .next s
  | .full s =>
    let l := scopeLaunch s sc
    let s := match look s.scopes sc with
      | some g => { s with scopes := put s.scopes sc { g with dlost := true } }
      | none => s
    let s := match look s.launches l with
      | some r => { s with launches := put s.launches l { r with dlost := true } }
      | none => s
    .next (killLaunch s l)
  | .take s w e =>
    match look s.scopes sc with
    | some g =>
      let s := { s with scopes := put s.scopes sc { g with wave := w } }
      .next (newHead (((e.take g.width).zipIdx).foldl (fun s p => chooseTask s sc w p.2 p.1.1) s) sc)
    | none => .next s
/-- BATCH_CLOSE: batch `num` closes where it is due (R397, R398). -/
def execBatchClose (s : State) : Host.Outcome State Fault Refusal :=
  match look s.batches s.ev.num with
  | some g => .next (if batchDue s g then closeBatch s s.ev.num else s)
  | none => .next s
/-- BATCH_TASK_END: the leaves of batch task `task` end (R399). -/
def execBatchTaskEnd (s : State) : Host.Outcome State Fault Refusal := .next (batchEnded s s.ev.task)

end Sys2Proof.Machine
end

