-- ==== Sys2Proof/Machine/Csr.lean ====
section
/-!
DEFINITION. Control registers (R158, R159, R190): every register of R18, R96, R159, R246, R278, R311, R347, R378, R411,
R429, R445, R470 and R494 as CSRR reads it, what CSRW writes, and the steps that write one register.
-/

namespace Sys2Proof.Machine

/-! ### Reads -/

/-- The active depth of a ring (R310). -/
def ringDepth (g : StageRing) : Nat :=
  match g.sub with
  | some sub => if sub.dir = .in_ then g.depth else g.dmax
  | none => g.dmax
/-- CRDEPTHn (R311) as task t reads it, if any. -/
def crDepth (g : StageRing) (t : Option Nat) : W64 :=
  let own := t.isSome && g.owner == t
  let dir := match g.sub.map (·.dir) with
    | some .out => 1
    | _ => 0
  fields [(bit own, 31), (bit g.sub.isSome, 30), (dir, 28), (g.dmax % 128, 16), (g.dmin % 128, 8), (ringDepth g % 128, 0)]
/-- CRPOSn (R311). -/
def crPos (g : StageRing) : W64 := fields [(g.done % 2 ^ 32, 32), (g.fin % 2 ^ 32, 0)]
/-- CESTAT (R311). -/
def ceStat (k : Core) (t : Option Nat) : W64 :=
  let all := fun (l : List Cmd) => l.length % 128
  let mine := fun (l : List Cmd) => (l.filter fun q => t == some q.task).length % 16
  let clm := fun (r : CeRegs) => bit (r.claim && t.isSome && r.wt == t)
  let oth := fun (r : CeRegs) => bit (r.claim && r.wt != t)
  fields [(all k.cq1, 27), (all k.cq0, 20), (mine k.cq1, 16), (mine k.cq0, 12), (oth k.ce1, 3), (oth k.ce0, 2), (clm k.ce1, 1), (clm k.ce0, 0)]
/-- RXSTAT (R347). -/
def rxStat (k : Core) : W64 := fields [(k.refused.toNat, 48), (k.ringN % 2 ^ 20, 12), (k.rx.length % 128, 0)]
/-- PGFREE (R378). -/
def pgFree (s : State) : W64 := fields [(s.pg.frames - s.pg.used1.length, 32), (s.pg.frames - s.pg.used0.length, 0)]
/-- PGSLOTS (R378). -/
def pgSlots (s : State) : W64 := fields [(s.pg.fslots - s.pg.usedS.length, 32), (s.pg.hslots - s.pg.usedH.length, 0)]
/-- PGBASE0 and PGBASE1 (R378). -/
def pgBase (a : Nat) : W64 := BitVec.ofNat 64 a &&& 0x7FFFFFF000
/-- TKSCOPE of a scope (R411). -/
def scopeWord (s : State) (sc : Nat) : W64 :=
  match look s.scopes sc with
  | some g => fields [(sc % 256, 48), (g.wave % 65536, 32), (bit g.dlost, 16), (min g.void 0xFFFF, 0)]
  | none => 0
/-- Tasks of the ready heap of a die (R385, R411): the target core lies on it. -/
def heapCount (s : State) (d : Fin 2) : Nat :=
  min 65536 (s.tasks.filter fun p => (p.2.st == .ready || p.2.st == .chosen) && dieOf (targetOf s p.2) == d).length
/-- TTEFREE (R411). -/
def tteFree (s : State) (d : Fin 2) : W64 := fields [(2 ^ 20 - recsUsed s, 32), (heapCount s d, 0)]
/-- PHMEM (R429). -/
def phMem (s : State) (c t : Nat) : W64 :=
  let ms := membership s t
  fields [(ms.length % 32, 32), ((ms.filter fun m => m.1 == c).foldl (fun n m => n + 2 ^ m.2) 0, 0)]
/-- PHBRK (R429). -/
def phBrk (k : Core) : W64 := BitVec.ofNat 64 ((List.range 32).foldl (fun n i => n + bit (k.phs.getD i {}).brk * 2 ^ i) 0)
/-- GRPINFO (R429). -/
def grpInfo (s : State) (t : Nat) : W64 :=
  match groupEntry s t with
  | some e => fields [(e, 16), (((List.range 320).filter fun c => ((look s.gtab e).getD 0).getLsbD c).length, 0)]
  | none => 0
/-- NSFREE (R445). -/
def nsFreeWord (s : State) : W64 := fields [(2 ^ 20 - s.basin[1].length, 32), (2 ^ 20 - s.basin[0].length, 0)]
/-- GSSTAT of an instance (R470). -/
def gsStat (g : Gsq) : W64 :=
  let b := (List.range 16).foldl (fun n i => n + bit ((g.buckets.getD i none).isSome) * 2 ^ i) 0
  fields [(b, 48), (g.nopen % 16, 32), (g.occ % 512, 16), (g.dlen % 256, 0)]
/-- GSCUR (R470). -/
def gsCur (s : State) (t : Nat) : W64 :=
  match gsCurrent s t with
  | some p => fields [((itnOf p.k).toNat, 32), ((p.bkt.getD 0) % 16, 0)]
  | none => 0
/-- GSENTRY (R470). -/
def gsEntry (s : State) (t : Nat) : W64 := ((gsCurrent s t).map (·.entry)).getD 0
/-- FBID (R347). -/
def fbId (s : State) : W64 := fields [(s.fab.nplane % 64, 32), (s.fab.domHi % 1024, 16), (s.fab.ep % 1024, 0)]
/-- SNAPSEQ of a die (R494). -/
def snapSeq (s : State) (d : Fin 2) : W64 := s.dev.snaps[d].drop ++ s.dev.snaps[d].seq
/-- THERM of a die (R494). -/
def therm (s : State) (d : Fin 2) : W64 :=
  let k := s.dev.clk[d]
  fields [(k.mhz % 65536, 32), (k.tj.toNat, 16), (bit k.cap, 1), (bit k.hot, 0)]
/-- RASCNT of a die (R494). -/
def rasCnt (s : State) (d : Fin 2) : W64 :=
  fields [(s.rascnt[d].1 % 2 ^ 32, 32), (min s.rascnt[d].2 0xFFFF, 16), (min s.viol[d].n 0xFFFF, 0)]

/-- The control register a number names (R158, R159), as context x of task t reads it. -/
def csrRead (s : State) (t : Nat) (x : Context) (n : Nat) : W64 :=
  let k := s.core x.core
  let d := dieOf x.core
  let l := (look s.launches x.launch).getD {}
  let r := (look s.tasks t).getD {}
  let ring := fun (i : Nat) => k.rings.getD i {}
  let gs := ((groupEntry s t).map (gsqOf s)).getD {}
  if 0x18 ≤ n ∧ n ≤ 0x1F then x.trec.word (n - 0x18)
  else if 0x100 ≤ n ∧ n ≤ 0x107 then crDepth (ring (n - 0x100)) (some t)
  else if 0x108 ≤ n ∧ n ≤ 0x10F then crPos (ring (n - 0x108))
  else match n with
  | 0x000 => fields [(x.core, 4), (x.num, 0)]
  | 0x001 => BitVec.ofNat 64 x.ccyc
  | 0x002 => s.acyc[d]
  | 0x003 => if x.expchk then 1 else 0
  | 0x004 => k.part.setWidth 64
  | 0x005 => x.liveK.setWidth 64
  | 0x006 => x.liveA.setWidth 64
  | 0x007 => x.liveB.setWidth 64
  | 0x008 => BitVec.ofNat 64 k.cq.length
  | 0x009 => BitVec.ofNat 64 (x.fr.pending x.ccyc)
  | 0x00A => BitVec.ofNat 64 x.mrgwait
  | 0x010 => x.tvec
  | 0x011 => x.trappc
  | 0x012 => if x.trapMode then 1 else 0
  | 0x013 => x.trec.slots.setWidth 64
  | 0x110 => ceStat k (some t)
  | 0x111 => fields [(x.tkiss % 2 ^ 32, 32), (x.tkapp % 2 ^ 32, 0)]
  | 0x140 => k.trroot
  | 0x180 => mestat s x.core t
  | 0x181 => k.me.beats
  | 0x182 => k.me.replays
  | 0x1C0 => ttfCnt k
  | 0x1C1 => ttfOwn k t
  | 0x200 => fbId s
  | 0x201 => k.rxRing
  | 0x202 => rxStat k
  | 0x203 => l.ftgcfg
  | 0x280 => BitVec.ofNat 64 s.pg.mapn
  | 0x281 => pgFree s
  | 0x282 => pgSlots s
  | 0x283 => r.pgpark.setWidth 32 |>.setWidth 64
  | 0x284 => pgBase s.pg.base0
  | 0x285 => pgBase s.pg.base1
  | 0x2C0 => r.ticket.getD 0
  | 0x2C1 => r.key.setWidth 64
  | 0x2C2 => scopeWord s (scopeOf s t)
  | 0x2C3 => l.tteage.setWidth 64
  | 0x2C4 => l.bfcfg
  | 0x2C5 => l.bftab
  | 0x2C6 => tteFree s d
  | 0x300 => phMem s x.core t
  | 0x301 => phBrk k
  | 0x302 => grpInfo s t
  | 0x340 => nsFreeWord s
  | 0x341 => r.nserr
  | 0x380 => gsStat gs
  | 0x381 => gsCur s t
  | 0x382 => gsEntry s t
  | 0x383 => BitVec.ofNat 64 gs.npart
  | 0x384 => gs.seed
  | 0x3C0 => l.snapcfg
  | 0x3C1 => snapSeq s d
  | 0x3C2 => therm s d
  | 0x3C3 => rasCnt s d
  | _ => 0
/-- GSCUR and GSENTRY wait for the context's generation operations (R470). -/
def csrHold (s : State) (t n : Nat) : Res Unit := need (!((n == 0x381 || n == 0x382) && gsFly s t)) (.error .hold)

/-! ### Writes -/

/-- Changes the launch of a context. -/
def modLaunch (s : State) (l : Nat) (f : Launch → Launch) : State :=
  match look s.launches l with
  | some r => { s with launches := put s.launches l (f r) }
  | none => s
/-- EXPCHK.CHK (R159). -/
def writeExpchk (s : State) (t : Nat) (v : W64) : State := s.modCtx t fun y => { y with expchk := v.getLsbD 0 }
/-- TVEC (R159). -/
def writeTvec (s : State) (t : Nat) (v : W64) : State := s.modCtx t fun y => { y with tvec := v &&& 0x00FFFFFFFFFFFFFD }
/-- TRAPPC (R159). -/
def writeTrappc (s : State) (t : Nat) (v : W64) : State := s.modCtx t fun y => { y with trappc := pcField v }
/-- RXRING (R347): ignored with words in the ring, a base off its line, or a ring past the scratchpad extent. -/
def writeRxring (s : State) (c : Nat) (v : W64) : State :=
  let k := s.core c
  let b := (v.extractLsb' 0 22).toNat
  if k.ringN ≠ 0 ∨ b % 128 ≠ 0 ∨ spExt k.part < b + 128 * (v.extractLsb' 32 16).toNat then s
  else s.modCore c fun k => { k with rxRing := v &&& 0x0000FFFF003FFFFF, ringRd := 0 }
/-- FTGCFG (R347): ignored once the launch has issued a remote ticketed operation. -/
def writeFtgcfg (s : State) (l : Nat) (v : W64) : State :=
  modLaunch s l fun r => if r.ftgUsed then r else { r with ftgcfg := v &&& 0x83FF03FF0000FFFF }
/-- TTEAGE (R411). -/
def writeTteage (s : State) (l : Nat) (v : W64) : State := modLaunch s l fun r => { r with tteage := v.setWidth 32 }
/-- BFCFG (R411): a BSIZE outside 1 to 256 leaves the field. -/
def writeBfcfg (s : State) (l : Nat) (v : W64) : State :=
  modLaunch s l fun r =>
    let n := (v.extractLsb' 32 9).toNat
    let b := if 1 ≤ n ∧ n ≤ 256 then n else bsize r
    { r with bfcfg := fields [(b, 32), ((v.extractLsb' 0 32).toNat, 0)] }
/-- BFTAB (R411). -/
def writeBftab (s : State) (l : Nat) (v : W64) : State := modLaunch s l fun r => { r with bftab := v &&& 0x0000FFFFFFFFFFE1 }
/-- GSCTL (R470): ignored outside 1 to 320 and while a task is enrolled. -/
def writeGsctl (s : State) (t : Nat) (v : W64) : State :=
  match groupEntry s t with
  | some e =>
    let g := gsqOf s e
    let n := (v.extractLsb' 0 9).toNat
    if 1 ≤ n ∧ n ≤ 320 ∧ g.parts.isEmpty then { s with gsq := put s.gsq e { g with npart := n } } else s
  | none => s
/-- SNAPCFG (R494). -/
def writeSnapcfg (s : State) (l : Nat) (v : W64) : State := modLaunch s l fun r => { r with snapcfg := v &&& 0x1FFFFE }
/-- What CSRW of a number does (R5, R158); a register without a write ignores it. -/
def csrWrite (s : State) (t : Nat) (x : Context) (n : Nat) (v : W64) : State :=
  match n with
  | 0x003 => writeExpchk s t v
  | 0x010 => writeTvec s t v
  | 0x011 => writeTrappc s t v
  | 0x201 => writeRxring s x.core v
  | 0x203 => writeFtgcfg s x.launch v
  | 0x2C3 => writeTteage s x.launch v
  | 0x2C4 => writeBfcfg s x.launch v
  | 0x2C5 => writeBftab s x.launch v
  | 0x383 => writeGsctl s t v
  | 0x3C0 => writeSnapcfg s x.launch v
  | _ => s
/-- Registers that only trap mode writes (R158, R159). -/
def csrPriv (x : Context) (n : Nat) : Bool := (n == 0x003 || n == 0x011) && !x.trapMode

/-! ### The instructions and the steps -/

/-- CSRR (R190). -/
def execCsrr (g : BitVec 3) (n : BitVec 12) (s : State) : Host.Outcome State Fault Refusal :=
  conclude s do
    let (t, x) ← s.issuer
    guardOps s x (gOn g x) [] 1
    if !gOn g x then return pushS s t 2 0
    csrHold s t n.toNat
    return pushS s t 2 (csrRead s t x n.toNat)
/-- CSRW (R190): the register is written at the end of the bundle. -/
def execCsrw (g : BitVec 3) (a : SSel) (n : BitVec 12) (s : State) : Host.Outcome State Fault Refusal :=
  conclude s do
    let (t, x) ← s.issuer
    let on := gOn g x
    guardOps s x on [.s a] 0 (priv := on && csrPriv x n.toNat)
    if !on then return s
    let v := sVal s x on a
    let s := popOps s x on [.s a]
    return if s.latch.isSome then s.modLatch fun l => { l with csrw := some (n.toNat, v) } else csrWrite s t x n.toNat v
/-- A step of the issuing context that writes the step's value to a register. -/
def csrStep (n : Nat) (s : State) : Host.Outcome State Fault Refusal :=
  conclude s do
    let (t, x) ← s.issuer
    if csrPriv x n then trapWith cPriv
    return csrWrite s t x n s.ev.val
/-- EXPCHK_WRITE (R159). -/
def execExpchkWrite (s : State) : Host.Outcome State Fault Refusal := csrStep 0x003 s
/-- TRAPPC_WRITE (R159). -/
def execTrappcWrite (s : State) : Host.Outcome State Fault Refusal := csrStep 0x011 s
/-- RXRING_WRITE (R347). -/
def execRxringWrite (s : State) : Host.Outcome State Fault Refusal := csrStep 0x201 s
/-- FTGCFG_WRITE (R347). -/
def execFtgcfgWrite (s : State) : Host.Outcome State Fault Refusal := csrStep 0x203 s
/-- TTEAGE_WRITE (R411). -/
def execTteageWrite (s : State) : Host.Outcome State Fault Refusal := csrStep 0x2C3 s
/-- BFCFG_WRITE (R411). -/
def execBfcfgWrite (s : State) : Host.Outcome State Fault Refusal := csrStep 0x2C4 s
/-- BFTAB_WRITE (R411). -/
def execBftabWrite (s : State) : Host.Outcome State Fault Refusal := csrStep 0x2C5 s
/-- GSCTL_WRITE (R470). -/
def execGsctlWrite (s : State) : Host.Outcome State Fault Refusal := csrStep 0x383 s
/-- SNAPCFG_WRITE (R494). -/
def execSnapcfgWrite (s : State) : Host.Outcome State Fault Refusal := csrStep 0x3C0 s
/-- GSCUR_READ (R470): a CSRR of GSCUR, or of GSENTRY with the step's flag. -/
def execGscurRead (s : State) : Host.Outcome State Fault Refusal :=
  conclude s do
    let (t, x) ← s.issuer
    guardOps s x true [] 1
    csrHold s t 0x381
    return pushS s t 2 (csrRead s t x (if s.ev.flag then 0x382 else 0x381))

end Sys2Proof.Machine
end

