-- ==== Sys2Proof/Machine/Fabric.lean ====
section
/-!
DEFINITION. The fabric instructions (R322-R345), PUT (R172), and the steps of the fabric engine but for the Weir's.
-/

namespace Sys2Proof.Machine

/-! ### PUT (R172) -/

/-- The send FIFO can take a word of the task (R38, R334). -/
def foutHold (s : State) (c t : Nat) : Res Unit :=
  let x := (s.core c).tx
  need (decide (txWords x < 64) && (x.owner.isNone || x.owner == some t)) (.error .hold)
/-- PUT (R172). -/
def execPut (g : Guard) (a : SSel) (d : KDst) (s : State) : Host.Outcome State Fault Refusal :=
  conclude s do
    let (t, x) ← s.issuer
    let on := gTrue g x
    guardOps s x on [.s a, .d d] 0
    if !on then return s
    let v := sVal s x on a
    match d with
    | .k r => return wrK (popOps s x on [.s a]) t r.toNat v
    | .kx j => return wrK (popOps s x on [.s a]) t (x.fr.xs.toInt + j.toNat).toNat v
    | .fout =>
      foutHold s x.core t
      return fifoPush (popOps s x on [.s a]) x.core t v

/-! ### Streams -/

/-- STREAM (R323). -/
def execStream (g : Guard) (a : SSel) (q : BitVec 4) (s : State) : Host.Outcome State Fault Refusal :=
  conclude s do
    let (t, x) ← s.issuer
    let on := gTrue g x
    guardOps s x on [.s a] 0
    if !on then return s
    let v := sVal s x on a
    let ep := v.toNat
    if 1023 < ep ∨ s.fab.domHi < ep ∨ !reaches s ep then operand 0x18 v
    if (x.strm.getD q.toNat none).isSome then operand 0x18 (q.setWidth 64)
    match freeNum s with
    | none => .error .hold
    | some n =>
      let s := (popOps s x on [.s a]).tick
      let s := { s with fab := { s.fab with strms := put s.fab.strms n { task := t, slot := q.toNat, ep := ep, core := x.core } } }
      return s.modCtx t fun y => { y with strm := y.strm.setIfInBounds q.toNat (some n) }
/-- SCLOSE (R323). -/
def execSclose (g : Guard) (fill : Bool) (q : BitVec 4) (s : State) : Host.Outcome State Fault Refusal :=
  conclude s do
    let (t, x) ← s.issuer
    let on := gTrue g x
    guardOps s x on [] 0
    if !on then return s
    match strmOf s x q.toNat with
    | none => return s
    | some (n, r) =>
      -- CLOSE takes a number of the stream (R324)
      if !fill && !r.failed && decide (4096 ≤ r.unacked.length + (((s.latch.map (·.far)).getD []).filter (· == q.toNat)).length) then .error .hold
      let s := closeStream s n r fill
      if fill && !r.failed then return s
      return s.modCtx t fun y => { y with strm := y.strm.setIfInBounds q.toNat none }

/-! ### Collectives -/

/-- A collective instruction (R336, R337): its descriptor is read at issue; the command joins its engine. -/
def issueColl (op : Nat) (k : CollKind) (g : Guard) (a : SSel) (s : State) : Host.Outcome State Fault Refusal :=
  conclude s do
    let (t, x) ← s.issuer
    let on := gTrue g x
    guardOps s x on [.s a] 0
    if !on then return s
    let o := sVal s x on a
    roomHold s x.core t
    let (c, off) ← target s x .own o 64 64
    if drainHeld s x t c then .error .hold
    spEcc s c off 64 o
    let b := spRead s c off 64
    let sy := BitVec.ofNat 64 (fld b 0x20 8)
    let syOk := sy == 0 || (!badTag sy && tagOff sy % 16 == 0 && decide (tagOff sy + 16 ≤ spExt (s.core c).part))
    if !(collOk s k b && syOk) || collBusy s (fld b 0 2) then operand op o
    let e := ceOf s
    let s := popOps s x on [.s a]
    let q : Cmd := { id := s.fresh, task := t, launch := x.launch, kind := .coll (fld b 0 2),
                     sweep := inSweep s x.core t }
    let n : Coll := {
      key := { kind := k, cid := fld b 0 2, fields := collFields b }, inst := 0, task := t, launch := x.launch, core := x.core,
      cmd := some (e, s.fresh), src := BitVec.ofNat 64 (fld b 0x10 8), dst := BitVec.ofNat 64 (fld b 0x18 8),
      fork := forkOf s t x, sync := if sy = 0 then none else some (tagOff sy) }
    return collIssue (modCmds s.tick x.core e fun l => l ++ [q]) n
/-- CLRED (R338). -/
def execClred (g : Guard) (a : SSel) (s : State) : Host.Outcome State Fault Refusal := issueColl 0x1A .red g a s
/-- CLBC (R338). -/
def execClbc (g : Guard) (a : SSel) (s : State) : Host.Outcome State Fault Refusal := issueColl 0x1B .bc g a s
/-- CLA2A (R338). -/
def execCla2a (g : Guard) (a : SSel) (s : State) : Host.Outcome State Fault Refusal := issueColl 0x1C .a2a g a s
/-- CLVIR (R338). -/
def execClvir (g : Guard) (a : SSel) (s : State) : Host.Outcome State Fault Refusal := issueColl 0x1D .vir g a s
/-- CLROW dispatch (R342). -/
def execClrowDisp (g : Guard) (a : SSel) (s : State) : Host.Outcome State Fault Refusal := issueColl 0x1E .disp g a s
/-- CLROW combine (R343). -/
def execClrowComb (g : Guard) (a : SSel) (s : State) : Host.Outcome State Fault Refusal := issueColl 0x1E .comb g a s
/-- CLWAIT (R340). -/
def execClwait (g : Guard) (a : SSel) (s : State) : Host.Outcome State Fault Refusal :=
  conclude s do
    let (t, x) ← s.issuer
    let on := gTrue g x
    guardOps s x on [.s a] 1
    if !on then return pushS s t 2 0
    let v := sVal s x on a
    if v.extractLsb' 16 48 ≠ 0 then operand 0x1F v
    match (collOf s v.toNat).filter fun c => c.task == t with
    | none => return pushS (popOps s x on [.s a]) t 2 0x80
    | some c =>
      if !c.fin then .error .hold
      let s := popOps s x on [.s a]
      return pushS { s with fab := { s.fab with colls := s.fab.colls.filter fun d => d != c } } t 2 (collStatus c)

/-! ### Status (R345) -/

/-- FBSTAT of an endpoint. -/
def peerWord (s : State) (p : Nat) : W64 :=
  if p = s.fab.ep then 1
  else
    let d := (look s.fab.sends p).getD {}
    let up := if p ≤ s.fab.domHi then s.fab.up.toNat else 0
    BitVec.ofNat 64 (up * 2 ^ 32 + (if d.stopped then 4 else 0) + (if d.rekey then 2 else 0) + (if reaches s p then 1 else 0))
/-- FBSTAT of a stream slot. -/
def slotWord (s : State) (x : Context) (q : Nat) : W64 :=
  match strmOf s x q with
  | none => 0
  | some (n, r) =>
    let st := if r.failed then 3 else if r.holes.isEmpty then 1 else 2
    BitVec.ofNat 64 (r.unacked.length * 2 ^ 32 + n * 2 ^ 16 + r.ep * 2 ^ 4 + st)
/-- FBSTAT (R345). -/
def execFbstat (g : Guard) (a : SSel) (what : Bool) (s : State) : Host.Outcome State Fault Refusal :=
  conclude s do
    let (t, x) ← s.issuer
    let on := gTrue g x
    guardOps s x on [.s a] 1
    if !on then return pushS s t 2 0
    let v := sVal s x on a
    if what then
      if v.extractLsb' 4 60 ≠ 0 then operand 0x20 v
      return pushS (popOps s x on [.s a]) t 2 (slotWord s x v.toNat)
    else
      if v.extractLsb' 10 54 ≠ 0 then operand 0x20 v
      return pushS (popOps s x on [.s a]) t 2 (peerWord s v.toNat)

/-! ### Steps of the fabric engine -/

/-- FLIT_SEAL of message `num` of those formed. -/
def execFlitSeal (s : State) : Host.Outcome State Fault Refusal := .next (sealAt s s.ev.num)
/-- FLIT_RECEIVE of the flit in the step's body. -/
def execFlitReceive (s : State) : Host.Outcome State Fault Refusal :=
  match s.ev.body with
  | .flit f => .next (receiveFlit s f)
  | _ => .next s
/-- RETRANSMIT_TIMEOUT of message `num` of those sent: sent afresh, or its endpoint given up after eight (R317, R318). -/
def execRetransmitTimeout (s : State) : Host.Outcome State Fault Refusal :=
  match s.fab.sent[s.ev.num]? with
  | none => .next s
  | some m =>
    if m.dst == s.fab.ep || decide ((s.acyc[(0 : Fin 2)] - m.at_).toNat < 65536) then .next s
    else
      let s := { s with fab := { s.fab with sent := s.fab.sent.eraseIdx s.ev.num } }
      if 8 ≤ m.tries then .next (s.due .endpointUnreachable { num := m.dst })
      else .next { s with fab := { s.fab with out := s.fab.out ++ [m] } }
/-- ENDPOINT_UNREACHABLE of endpoint `num` (R318, R319). -/
def execEndpointUnreachable (s : State) : Host.Outcome State Fault Refusal :=
  let p := s.ev.num
  if p = s.fab.ep then .next s else .next (collLose (loseEndpoint s p) p)
/-- LINK_STATE_CHANGE of station `num` (R313, R318): up where `flag` is set. -/
def execLinkStateChange (s : State) : Host.Outcome State Fault Refusal :=
  let bit : W32 := BitVec.ofNat 32 (2 ^ (s.ev.num % 32))
  let up := if s.ev.flag then s.fab.up ||| bit else s.fab.up &&& ~~~bit
  let s := { s with fab := { s.fab with up := up } }
  if up = 0 then
    .next (((List.range (s.fab.domHi + 1)).filter fun p => p != s.fab.ep && !s.fab.unreach.contains p).foldl
      (fun s p => s.due .endpointUnreachable { num := p }) s)
  else .next s
/-- ACK_RECEIVE: number `cnt` of stream `num`, refused with subcode `val` at the offset in the step's body where that is not
zero (R324). -/
def execAckReceive (s : State) : Host.Outcome State Fault Refusal :=
  let off := match s.ev.body with
    | .remote r => r.off
    | _ => 0
  .next (closeDying (ackStream s s.ev.num s.ev.cnt s.ev.val.toNat off))
/-- REMOTE_RESPONSE to request `num`. -/
def execRemoteResponse (s : State) : Host.Outcome State Fault Refusal :=
  match s.ev.body with
  | .remote r => .next (answer s s.ev.num r)
  | _ => .next s
/-- LEND_WINDOW of half `num`, at the end of its window of 1,024 cycles (R331). -/
def execLendWindow (s : State) : Host.Outcome State Fault Refusal :=
  let h := BitVec.ofNat 1 s.ev.num
  if (s.acyc[(if h = 0 then 0 else 1 : Fin 2)]).toNat % 1024 = 0 then .next (lendWindow s h) else .next s
/-- LEND_RECEIVE: endpoint `num` grants `cnt` bytes of its half `sel` (R331). -/
def execLendReceive (s : State) : Host.Outcome State Fault Refusal :=
  .next { s with fab := { s.fab with mine := put s.fab.mine (s.ev.sel.toNat % 2 * 1024 + s.ev.num) s.ev.cnt } }
/-- FIFO_DELIVERY of the message its sender names `num`. -/
def execFifoDelivery (s : State) : Host.Outcome State Fault Refusal :=
  match s.ev.body with
  | .fifo m => .next (if m.dcore < 320 then fifoDeliver s s.ev.num m else s)
  | _ => .next s
/-- RESUME_NOTICE: core `core` tells a sender it has room (`flag`), or has been told so by endpoint `num` (R335). -/
def execResumeNotice (s : State) : Host.Outcome State Fault Refusal :=
  .next (if s.ev.flag then sendResume s s.ev.core else takeResume s s.ev.core s.ev.num)
/-- REMOTE_RETRY_RESEND of refused operation `num`, 1,024 cycles after its refusal (R330). -/
def execRemoteRetryResend (s : State) : Host.Outcome State Fault Refusal :=
  match s.fab.retry[s.ev.num]? with
  | none => .next s
  | some m =>
    if (s.acyc[(0 : Fin 2)] - m.at_).toNat < 1024 then .next s
    else .next { s with fab := { s.fab with retry := s.fab.retry.eraseIdx s.ev.num, out := s.fab.out ++ [m] } }
/-- COLLECTIVE_ARRIVAL of the message in the step's body, or of this member's own contribution to CID `num`. -/
def execCollectiveArrival (s : State) : Host.Outcome State Fault Refusal :=
  match s.ev.body with
  | .coll m => .next (collArrive s m)
  | _ => .next (collStart s s.ev.num)
/-- COLLECTIVE_COMPLETE of CID `num`. -/
def execCollectiveComplete (s : State) : Host.Outcome State Fault Refusal := .next (collAdvance s s.ev.num)
/-- UALINK_REFUSED: a request of endpoint `num` the AD-1 does not use, at the die half `flag`: an error response, and the
violation log (R314). -/
def execUalinkRefused (s : State) : Host.Outcome State Fault Refusal :=
  let s := logViol s (if s.ev.flag then 1 else 0) (some 2) 0xFFFF 0xFF (some s.ev.num) (some s.ev.val)
  .next { s with fab := { s.fab with errResp := s.fab.errResp ++ [(s.ev.num, if s.ev.flag then 1 else 0)] } }

end Sys2Proof.Machine
end

