-- ==== Sys2Proof/Machine/Sha.lean ====
section
/-!
DEFINITION. SHA-384 (FIPS 180-4), which R481 names for the digest of the FINALCUT payload. Its constants are what that
standard defines them to be: the first 64 bits of the fractions of roots of the least primes.
-/

namespace Sys2Proof.Machine

/-- The greatest x below 2^k more than r with x^e at most n. -/
def rootBits (e n : Nat) : Nat → Nat → Nat
  | 0, r => r
  | k + 1, r => rootBits e n k (if (r + 2 ^ k) ^ e ≤ n then r + 2 ^ k else r)
/-- The first 64 bits of the fraction of the e-th root of p. -/
def rootFrac (e p : Nat) : W64 := BitVec.ofNat 64 (rootBits e (p <<< (64 * e)) 70 0)
/-- The primes below 410, which are 80. -/
def shaPrimes : List Nat := (List.range 410).filter fun p => decide (2 ≤ p) && (List.range 21).all fun d => d < 2 || d == p || p % d != 0
/-- The constants of the 80 rounds. -/
def shaK : List W64 := shaPrimes.map (rootFrac 3)
/-- The initial hash value of SHA-384: the ninth to the sixteenth prime. -/
def shaInit : List W64 := ((shaPrimes.drop 8).take 8).map (rootFrac 2)
/-- The exclusive or of a word turned right by each of some amounts. -/
def turned (w : W64) (by_ : List Nat) : W64 := by_.foldl (fun v n => v ^^^ w.rotateRight n) 0
/-- A block as its 16 words, last word first. -/
def shaWords (b : List Byte) : List W64 :=
  (List.range 16).reverse.map fun i => BitVec.ofNat 64 (leNat ((b.drop (8 * i)).take 8).reverse)
/-- n more words of the message schedule, the last one first. -/
def shaSched : Nat → List W64 → List W64
  | 0, w => w
  | n + 1, w =>
    let back := fun (k : Nat) => w.getD (k - 1) 0
    let low := turned (back 15) [1, 8] ^^^ (back 15 >>> 7)
    let high := turned (back 2) [19, 61] ^^^ (back 2 >>> 6)
    shaSched n ((back 16 + low + back 7 + high) :: w)
/-- One round on the last four words of each of the two sequences the rounds make, the newest first. -/
def shaRound (v : List W64 × List W64) (kw : W64) : List W64 × List W64 :=
  let x := fun (n : Nat) => v.1.getD n 0
  let y := fun (n : Nat) => v.2.getD n 0
  let pick := (y 0 &&& y 1) ||| (~~~(y 0) &&& y 2)
  let most := (x 0 &&& x 1) ||| (x 2 &&& (x 0 ||| x 1))
  let t := y 3 + turned (y 0) [14, 18, 41] + pick + kw
  ((t + turned (x 0) [28, 34, 39] + most) :: v.1.take 3, (x 3 + t) :: v.2.take 3)
/-- The hash of eight words after one block of 128 bytes. -/
def shaBlock (h : List W64) (b : List Byte) : List W64 :=
  let kw := List.zipWith (fun (k w : W64) => k + w) shaK (shaSched 64 (shaWords b)).reverse
  let r := kw.foldl shaRound (h.take 4, h.drop 4)
  List.zipWith (fun (o n : W64) => o + n) h (r.1 ++ r.2)
/-- Every block in turn. -/
def shaBlocks : Nat → List W64 → List Byte → List W64
  | 0, h, _ => h
  | n + 1, h, b => shaBlocks n (shaBlock h (b.take 128)) (b.drop 128)
/-- The 48-byte digest of a message. -/
def sha384 (m : List Byte) : List Byte :=
  let pad := (111 + 128 - m.length % 128) % 128
  let p := m ++ [0x80] ++ List.replicate pad 0 ++ (leBytes (8 * m.length) 16).reverse
  ((shaBlocks (p.length / 128) shaInit p).take 6).flatMap fun w => (leBytes w.toNat 8).reverse

end Sys2Proof.Machine
end

