-- ==== Sys2Proof/Machine/Weir.lean ====
section
/-!
DEFINITION. The Weir (R321, R325-R330): stream messages held and committed in sequence, remote ticketed operations in
wave order, and what a package tells its peers of its waves.
-/

namespace Sys2Proof.Machine

/-! ### Committing a message (R297-R300, R320, R321, R325, R441) -/

/-- The key of a stream's entry. -/
def weirKey (src st : Nat) : Nat := src * 65536 + st
/-- What the commit of a message gives: an error code with the offset that failed, and the answer to its request. -/
structure Commit where
  st : State
  err : Nat := 0
  off : Nat := 0
  resp : Option RemoteResp := none
/-- The first byte of each line a write names. -/
def lineHeads (bs : List (Nat × Byte)) : List Nat :=
  ((bs.map fun b => b.1 / 128).dedup).filterMap fun l => (bs.find? fun b => b.1 / 128 == l).map (·.1)
/-- A write of bytes of the partitioned space, all in one step, or refused (R119, R320). -/
def commitWrite (s : State) (src : Nat) (bs : List (Nat × Byte)) : Commit :=
  match firstBad (badParts s .wr false (lineHeads bs)) with
  | some (e, o) => { st := logBad s src e o, err := e, off := o }
  | none => { st := memWrite s (bs.filterMap fun b => (xlateExp s b.1 .wr).toOption.map fun pa => (pa, b.2)) }
/-- A read-modify-write of n bytes at an offset, or refused: the old value answers (R298, R299). -/
def commitRmw (s : State) (src off n : Nat) (f : Nat → Nat) : Commit :=
  match partAt s .at_ true off with
  | .error e => { st := logBad s src e off, err := e, off := off, resp := some ⟨[], e, off⟩ }
  | .ok pa =>
    let old := leNat (rdBytes s.mem pa n)
    { st := memWrite s (place pa (leBytes (f old) n)), resp := some ⟨leBytes old n, 0, 0⟩ }
/-- What a message does at its home; a zero-length write is checked, and changes nothing (R300). -/
def commitBody (s : State) (src : Nat) (b : StreamBody) : Commit :=
  match b with
  | .write bs => commitWrite s src bs
  | .acc op off v _ => commitRmw s src off (accSize op) fun old => accVal op old (v.toNat % 2 ^ (8 * accSize op))
  | .cas n off cmp new _ => commitRmw s src off n fun old => casVal old (cmp.toNat % 2 ^ (8 * n)) (new.toNat % 2 ^ (8 * n))
  | .zero off at_ =>
    match xlateExp s off (if at_ then .at_ else .wr) with
    | .error m => { st := s, err := m.code, off := off }
    | .ok _ => { st := s }
  | .node id l op ret =>
    let r := homeNode s src l id op
    let e := (r.2.err.map fun p => nsCode p.1 p.2).getD 0
    { st := r.1, err := if ret.isSome then 0 else e, resp := some ⟨leBytes r.2.val.toNat 8 ++ r.2.bytes, e, 0⟩ }
  | .fill _ => { st := s }
  | .close _ => { st := s }
/-- Where a message accesses its home: an offset, and bytes from it on; a node operation names its node. -/
def bodyRange : StreamBody → Nat × Nat
  | .write bs => match bs.head?, bs.getLast? with
    | some a, some b => (a.1, b.1 + 1 - a.1)
    | _, _ => (0, 0)
  | .acc op off _ _ => (off, accSize op)
  | .cas n off _ _ _ => (off, n)
  | .zero off _ => (off, 0)
  | .node id _ _ _ => (id.toNat, 0)
  | .fill _ => (0, 0)
  | .close _ => (0, 0)
/-- The acknowledgement of a number, and the answer to its request. -/
def reply (s : State) (src st n err off : Nat) (ret : Option Nat) (resp : Option RemoteResp) : State :=
  let s := match ret, resp with
    | some rq, some r => formMsg s { dst := src, msg := .resp rq r, task := 0, addr := 0 }
    | _, _ => s
  formMsg s { dst := src, msg := .ack st n err off, task := 0, addr := 0 }
/-- A message of this package's own: the core it was issued on keeps no clean copy of what it wrote (R112, R120). -/
def dropOwn (s : State) (m : StreamMsg) : State :=
  if m.src = s.fab.ep then
    match look s.fab.strms m.strm with
    | some r => dropFar s r.core (bodyRange m.body).1 (bodyRange m.body).2
    | none => s
  else s
/-- Notes what the home refused of a message, for a sender that asks again; numbers its stream can no longer hold are forgotten
(R324). -/
def noteErr (s : State) (m : StreamMsg) (err off : Nat) : State :=
  let key := weirKey m.src m.strm
  match look s.fab.weir key with
  | some w =>
    let recent := w.errs.filter fun e => decide ((m.seq + 2 ^ 32 - e.1) % 2 ^ 32 < 4096)
    if err = 0 then s else { s with fab := { s.fab with weir := put s.fab.weir key { w with errs := (m.seq, err, off) :: recent } } }
  | none => s
/-- Commits a message and answers it. -/
def commitMsg (s : State) (m : StreamMsg) : State :=
  let c := commitBody s m.src m.body
  reply (noteErr (dropOwn c.st m) m c.err c.off) m.src m.strm m.seq c.err c.off (bodyRet m.body) c.resp
/-- A ticketed message that no group of this package admits: not performed (R327). -/
def refuseMsg (s : State) (m : StreamMsg) : State :=
  reply (noteErr s m errNoGroup (bodyRange m.body).1) m.src m.strm m.seq errNoGroup (bodyRange m.body).1 (bodyRet m.body) (some ⟨[], errNoGroup, 0⟩)
/-- The message is a CLOSE. -/
def isClose (m : StreamMsg) : Bool := match m.body with
  | .close _ => true
  | _ => false
/-- Sets an entry. -/
def setWeir (s : State) (key : Nat) (w : Weir) : State := { s with fab := { s.fab with weir := put s.fab.weir key w } }
/-- The entry past number x. -/
def Weir.next (w : Weir) : Weir :=
  { w with x := (w.x + 1) % 2 ^ 32, held := w.held.filter fun m => m.seq != w.x, voids := w.voids.filter fun n => n != w.x,
           refused := w.refused.filter fun n => n != w.x }
/-- Moves an entry past its number. -/
def passWeir (s : State) (key : Nat) : State :=
  match look s.fab.weir key with
  | some w => setWeir s key w.next
  | none => s
/-- Commits the message that has reached its turn in its stream; CLOSE frees the entry, of which its refusals are kept: a copy of
an earlier message may still come. -/
def commitHeld (s : State) (key : Nat) (w : Weir) (m : StreamMsg) : State :=
  let s := commitMsg s m
  if isClose m then
    { s with fab := { s.fab with weir := del s.fab.weir key, gone := put s.fab.gone key (w.closeId, w.errs) } }
  else passWeir s key
/-- The loop of R325: everything that has reached its turn commits; a ticketed message waits for its wave. -/
def weirRun (key : Nat) : Nat → State → State
  | 0, s => s
  | fuel + 1, s =>
    match look s.fab.weir key with
    | none => s
    | some w =>
      if w.voids.contains w.x then
        weirRun key fuel (reply (setWeir s key w.next) (key / 65536) (key % 65536) w.x 0 0 none none)
      else
        match w.held.find? fun m => m.seq == w.x with
        | none => s
        | some m =>
          if w.refused.contains w.x then weirRun key fuel (refuseMsg (setWeir s key w.next) m)
          else if m.tick.isSome then s
          else weirRun key fuel (commitHeld s key w m)
/-- The loop, as far as it can go. -/
def weirGo (s : State) (key : Nat) : State :=
  match look s.fab.weir key with
  | none => s
  | some w => weirRun key (w.held.length + w.voids.length + 1) s

/-! ### Ticketed messages (R327, R329, R330) -/

/-- A launch runs under FTGCFG of a group. -/
def inFtg (l : Launch) (gid : Nat) : Bool :=
  (l.st == .running || l.st == .granting) && l.ftgcfg.getLsbD 63 && (l.ftgcfg.extractLsb' 0 16).toNat == gid
/-- The launch of a fabric ticket group here. -/
def ftgLaunch (s : State) (gid : Nat) : Option Launch := (s.launches.find? fun p => inFtg p.2 gid).map (·.2)
/-- The peer range of a launch (R327). -/
def ftgRange (l : Launch) : Nat × Nat := ((l.ftgcfg.extractLsb' 32 10).toNat, (l.ftgcfg.extractLsb' 48 10).toNat)
/-- The peer range of a group here: of its launch, or of the one that has completed while operations of its peers may still
wait (R329). -/
def groupRange (s : State) (gid : Nat) : Option (Nat × Nat) := ((ftgLaunch s gid).map ftgRange).or (look s.fab.ranges gid)
/-- Endpoints of a range. -/
def rangeEps (r : Nat × Nat) : List Nat := List.range' r.1 (r.2 + 1 - r.1)
/-- An endpoint lies in a launch's range. -/
def inRange (l : Launch) (p : Nat) : Bool := (rangeEps (ftgRange l)).contains p
/-- Home stacks of the commit-buffer entries a message takes (R303, R329, R442); an offset that does not translate takes
none. -/
def entryStacks (s : State) (b : StreamBody) : List Nat :=
  let at1 := fun (off : Nat) (n : Need) => match xlateExp s off n with
    | .ok pa => [stackOf pa]
    | .error _ => []
  match b with
  | .write bs => ((bs.map fun p => p.1 / 128).dedup).flatMap fun l => at1 (128 * l) .wr
  | .acc _ off _ _ => at1 off .at_
  | .cas _ off _ _ _ => at1 off .at_
  | .zero off a => at1 off (if a then .at_ else .wr)
  | .node id _ _ _ => [8 + idDie id]
  | _ => []
/-- Entries in use of a commit buffer or node commit stage. -/
def entriesUsed (s : State) (st : Nat) : Nat :=
  if st < 8 then cbUsed s st
  else stageUsed s (st - 8)
/-- The entries a ticketed message takes. -/
def entriesOf (s : State) (m : StreamMsg) (k : RTicket) : List CbOp :=
  let e := fun (st : Nat) (op : TOp) =>
    ({ stack := st, scope := 0, ticket := k.ticket, idx := k.idx, elem := k.elem, cmd := weirKey m.src m.strm, task := m.seq,
       op := op, peer := some (k.origin, k.id.toNat, k.wave) } : CbOp)
  let l := entryStacks s m.body
  let op := match m.body with
    | .node id _ op _ => TOp.node id op
    | _ => TOp.zero
  if l.isEmpty then [e 10 .zero] else l.map fun st => e st op
/-- Room for a ticketed message. -/
def entriesFit (s : State) (m : StreamMsg) : Bool :=
  let l := entryStacks s m.body
  l.all fun st => decide (entriesUsed s st + (l.filter fun k => k == st).length ≤ 4096)
/-- A fabric wave is closed here (R329, R330). -/
def waveClosed (s : State) (r : Nat × Nat) (gid w : Nat) : Bool :=
  (rangeEps r).all fun p => s.fab.unreach.contains p || s.fab.closedTo.any fun e => e.1 == gid && e.2.1 == p && decide (w ≤ e.2.2)
/-- Order of the remote ticketed operations of a group (R123, R329). -/
def peerBefore (a b : CbOp) : Bool :=
  let k := fun (o : CbOp) => match o.peer with
    | some (p, _, w) => [w, p, o.ticket.toNat, o.idx, o.elem]
    | none => []
  decide (k a ≤ k b)
/-- WAVE_CLOSE: the operations of closed waves are applied in order, each once its stream predecessor has committed. -/
def waveRun (gid : Nat) : Nat → State → State
  | 0, s => s
  | fuel + 1, s =>
    match sortBy peerBefore (s.cb.filter fun o => (o.peer.map fun p => p.2.1) == some gid), groupRange s gid with
    | o :: _, some rg =>
      let wv := (o.peer.map fun p => p.2.2).getD 0
      match look s.fab.weir o.cmd with
      | none => s
      | some w =>
        match w.held.find? fun m => m.seq == w.x with
        | none => s
        | some m =>
          if waveClosed s rg gid wv && w.x == o.task then
            let s := { s with cb := s.cb.filter fun q => !(q.peer.isSome && q.cmd == o.cmd && q.task == o.task) }
            waveRun gid fuel (weirGo (commitHeld s o.cmd w m) o.cmd)
          else s
    | _, _ => s
/-- Applies what the closed waves of a group allow. -/
def waveApply (s : State) (gid : Nat) : State := waveRun gid (s.cb.length + 1) s
/-- A group whose launch here has completed is forgotten once nothing of it can come any more. -/
def dropGroup (s : State) (gid : Nat) : State :=
  match look s.fab.ranges gid with
  | none => s
  | some r =>
    if (ftgLaunch s gid).isSome || (s.cb.any fun o => (o.peer.map fun p => p.2.1) == some gid) || !waveClosed s r gid 0xFFFF then s
    else { s with fab := { s.fab with ranges := del s.fab.ranges gid, closedTo := s.fab.closedTo.filter fun e => e.1 != gid } }
/-- Groups whose operations wait here. -/
def groupsHere (s : State) : List Nat := (s.cb.filterMap fun o => o.peer.map fun p => p.2.1).dedup

/-! ### Arrival (R325) -/

/-- A message with a number joins its entry, unless it is a duplicate; a ticketed one takes its entries, or is refused with a
retry notice (R330), or is of no group here (R327). -/
def weirHold (s : State) (key : Nat) (w : Weir) (m : StreamMsg) : State :=
  if w.held.any fun h => h.seq == m.seq then s
  else
    let w := { w with held := w.held ++ [m] }
    match m.tick with
    | none => setWeir s key w
    | some k =>
      match (ftgLaunch s k.id.toNat).filter fun l => inRange l k.origin with
      | none =>
        let s := logViol s 0 none 0xFFFF 0xFF (some m.src) none
        setWeir s key { w with refused := w.refused ++ [m.seq] }
      | some _ =>
        if entriesFit s m then setWeir { s with cb := s.cb ++ entriesOf s m k } key w
        else formMsg s { dst := m.src, msg := .retry m.strm m.seq, task := 0, addr := 0 }
/-- A message that waits at the Weir is told to its sender: it has left the receive buffer (R328, R331). -/
def tellHeld (s : State) (key : Nat) (m : StreamMsg) : State :=
  if ((look s.fab.weir key).map fun w => w.held.any fun h => h.seq == m.seq).getD false then
    formMsg s { dst := m.src, msg := .held m.strm m.seq, task := 0, addr := 0 }
  else s
/-- A duplicate is acknowledged again, with what was refused of it (R325, log entry 35). -/
def replyAgain (s : State) (m : StreamMsg) (errs : List (Nat × Nat × Nat)) (n : Nat) : State :=
  match errs.find? fun e => e.1 == n with
  | some (_, err, off) => reply s m.src m.strm n err off none none
  | none => reply s m.src m.strm n 0 0 none none
/-- The holes a message reports. -/
def holesOf : StreamBody → List Nat
  | .fill h => h
  | .close h => h
  | _ => []
/-- A message of a stream that has been closed here, sent before its CLOSE: its numbers are acknowledged again, with what was
refused of them. -/
def weirLate (s : State) (m : StreamMsg) (errs : List (Nat × Nat × Nat)) : State :=
  match m.body with
  | .fill h => h.foldl (fun s n => replyAgain s m errs n) s
  | _ => replyAgain s m errs m.seq
/-- WEIR_ARRIVAL of the message its sender names `id` (R325). -/
def weirArrive (s : State) (id : Nat) (m : StreamMsg) : State :=
  let key := weirKey m.src m.strm
  match (look s.fab.gone key).filter fun g => decide (id ≤ g.1) with
  | some g => weirLate s m g.2
  | none =>
    if (look s.fab.weir key).isNone && decide (65536 ≤ s.fab.weir.length) then
      formMsg s { dst := m.src, msg := .refused m.strm, task := 0, addr := 0 }
    else
      let w := (look s.fab.weir key).getD {}
      let old := fun (n : Nat) => decide (4096 ≤ (n + 2 ^ 32 - w.x) % 2 ^ 32)
      let w := { w with voids := w.voids ++ (holesOf m.body).filter fun n => !old n && !w.voids.contains n,
                        closeId := if isClose m then id else w.closeId }
      let fill := match m.body with
        | .fill _ => true
        | _ => false
      let s :=
        if fill then
          -- holes already committed are acknowledged again
          ((holesOf m.body).filter old).foldl (fun s n => replyAgain s m w.errs n) (setWeir s key w)
        else if old m.seq then replyAgain s m w.errs m.seq
        else weirHold s key w m
      let s := tellHeld (weirGo s key) key m
      (groupsHere s).foldl waveApply s

/-! ### Waves of this package (R328) -/

/-- The wave of a ticket (R17). -/
def waveOf (tk : W64) : Nat := (tk.extractLsb' 32 16).toNat
/-- A ticketed command has remote elements it has not formed messages of. -/
def Cmd.farLeft (q : Cmd) : Bool :=
  let far := fun (a : W64) => a.extractLsb' 61 3 == 0 && isRemote a
  q.tick.isSome && !q.issued && match q.kind with
    | .accr _ a _ _ => far a
    | .cas _ a _ _ _ => far a
    | _ => if q.total = 0 then far q.dst else q.open_.isSome || (List.range' q.elem (q.total - q.elem)).any fun k => far (q.dstAt k)
/-- An engine or a context still holds a remote ticketed operation of a wave of a scope before w. -/
def wavesHeld (s : State) (sc w : Nat) : Bool :=
  (s.cores.any fun p => (p.2.cq0 ++ p.2.cq1).any fun q => scopeOf s q.task == sc && decide (waveOf (ticketOf s q.task) < w) && q.farLeft) ||
  s.ctxs.any fun p => scopeOf s p.1 == sc && decide (waveOf (ticketOf s p.1) < w) && p.2.rels.any fun e => match e.acc with
    | .rstore _ _ tk _ => tk.isSome
    | _ => false
/-- The highest wave of a launch's scope all of whose tickets' retirements are recorded, with every remote operation accepted
(R328, log entry 21). -/
def doneWave (s : State) (l : Launch) : Option Nat :=
  let gid := l.ftgcfg.extractLsb' 0 16
  match look s.scopes l.scope with
  | none => none
  | some g =>
    if l.entryTask.isNone then none
    else
      let w := if unretired s l.scope then g.wave else g.wave + 1
      let waits := (s.fab.out ++ s.fab.retry ++ s.fab.sent.filter fun o => !o.accepted).any fun o => match o.msg with
        | .strm b => match b.tick with
          | some k => k.id == gid && decide (k.wave < w)
          | none => false
        | _ => false
      if w = 0 || waits || wavesHeld s l.scope w then none else some (w - 1)
/-- Tells every reachable peer of a launch's group that its waves up to w are done. -/
def sendDone (s : State) (l : Launch) (w : Nat) : State :=
  let gid := l.ftgcfg.extractLsb' 0 16
  let ps := (rangeEps (ftgRange l)).filter (reaches s)
  let s := ps.foldl (fun s p => formMsg s { dst := p, msg := .wavedone gid w, task := 0, addr := 0 }) s
  { s with fab := { s.fab with doneSent := (gid.toNat, w) :: s.fab.doneSent.filter fun e => e.1 != gid.toNat } }
/-- The wave a WAVEDONE of the launch is due for. -/
def doneDue (s : State) (l : Launch) : Option Nat :=
  let gid := (l.ftgcfg.extractLsb' 0 16).toNat
  if !l.ftgcfg.getLsbD 63 || l.st != .running || l.scope == 0 then none
  else match doneWave s l with
    | none => none
    | some w => if s.fab.doneSent.any fun e => e.1 == gid && decide (w ≤ e.2) then none else some w

/-! ### Steps -/

/-- WEIR_ARRIVAL of the message in the step's body (R325). -/
def execWeirArrival (s : State) : Host.Outcome State Fault Refusal :=
  match s.ev.body with
  | .strm m => .next (weirArrive s s.ev.num m)
  | _ => .next s
/-- WAVEDONE of launch `num` (R328). -/
def execWavedone (s : State) : Host.Outcome State Fault Refusal :=
  match look s.launches s.ev.num with
  | none => .next s
  | some l => match doneDue s l with
    | none => .next s
    | some w => .next (sendDone s l w)
/-- WAVE_CLOSE of group `num` (R329). -/
def execWaveClose (s : State) : Host.Outcome State Fault Refusal := .next (dropGroup (waveApply s s.ev.num) s.ev.num)

end Sys2Proof.Machine
end

