-- ==== Sys2Proof/Machine/DeviceOps.lean ====
section
/-!
DEFINITION. The device (R15-R24, R400, R471-R495): messages to the host, launches from admission to completion, Final
Cut and power-down, RDMA, logs and snapshots.
-/

namespace Sys2Proof.Machine

/-! ### Messages to the host (R475, R480) -/

/-- The little-endian number of n bytes from an offset. -/
def le (b : List Byte) (o n : Nat) : Nat := leNat ((b.drop o).take n)
/-- Sends a Plohus message on a queue pair; its own MSGID is the module's choice (R475, log entry 20). A queue pair that
has been torn down carries nothing. -/
def hostSend (s : State) (qp hq opc : Nat) (body : List Byte) : State :=
  if s.dev.qps.contains qp then
    let h := leBytes 0x504C4F48 4 ++ leBytes opc 2 ++ leBytes hq 1 ++ [0] ++ leBytes (Config.unstated s.fresh).toNat 4 ++ leBytes body.length 4
    { s.tick with dev := { s.dev with sent := s.dev.sent ++ [(qp, h ++ body)] } }
  else s
/-- A completion message (R480). -/
structure Done where
  qp : Nat
  hq : Nat
  msgid : W32
  opc : Nat
  status : Nat := 0
  cause : Nat := 0
  cookie : W64 := 0
  void : Nat := 0
  dlost : Bool := false
  err : W64 := 0
  data : List Byte := []
/-- Sends a completion. -/
def complete (s : State) (d : Done) : State :=
  hostSend s d.qp d.hq 0x80 (leBytes d.msgid.toNat 4 ++ leBytes d.opc 2 ++ leBytes d.status 1 ++ leBytes d.cause 1 ++
    leBytes d.cookie.toNat 8 ++ leBytes d.void 4 ++ leBytes (bit d.dlost) 1 ++ [0, 0, 0] ++ leBytes d.err.toNat 8 ++ d.data)
/-- Status codes (R480). -/
def statusCode : LStatus → Nat
  | .ok => 0 | .error => 1 | .killed => 2 | .fenced => 3
/-- The completion of a launch (R22 step 8). -/
def launchDone (s : State) (r : Launch) : State :=
  complete s { qp := r.qp, hq := r.hq, msgid := r.msgid, opc := 0x01, status := statusCode r.status, cookie := r.cookie,
               void := r.voids, dlost := r.dlost, err := r.err.getD 0 }

/-! ### Admission (R20-R22) -/

/-- A field of the launch record breaks its limit (R20). -/
def recField (hq : Nat) (b : List Byte) : Bool :=
  let part : W32 := BitVec.ofNat 32 (le b 0x0C 4)
  let det := (le b 0x06 2).testBit 0
  let w1 := le b 0x44 4
  let w2 := le b 0x48 4
  let w3 := le b 0x4C 4
  le b 0 4 != 0xAD011A0C || le b 4 2 != 1 || le b 8 1 != hq || le b 9 1 == 0 || decide (32 < le b 9 1) ||
  decide (32 < le b 0x0A 1) || decide (32 < le b 0x0B 1) ||
  decide (rcBank part < 4) || decide (16 < rcBank part) || decide (32 < acBank part) ||
  decide (48 < rcBank part + acBank part + 8) || decide (40 < spBank part) || decide (spBank part < dcBank part + 4) ||
  le b 0x10 8 % 4 != 0 || le b 0x18 4 == 0 || le b 0x20 8 % 64 != 0 || le b 0x28 2 == 0 || decide (256 < le b 0x28 2) ||
  (if det then le b 0x2A 2 == 0 else le b 0x2A 2 != 0) || decide (le b 0x28 2 ≤ le b 0x2C 2) ||
  (if w1 = 0 then w2 != 0 || w3 != 0 else decide (w2 ≤ w1) || decide (w3 ≤ w2))
/-- A reserved bit or byte of the launch record is nonzero (R20). -/
def recRsvd (b : List Byte) : Bool :=
  le b 0x06 2 / 16 != 0 || le b 0x0C 4 / 2 ^ 18 != 0 || le b 0x2E 2 != 0 || le b 0x58 40 != 0
/-- An entry of the launch's group table, read at the LLC under its host queue's root; none where it cannot be read
(R21, R412). -/
def gtRead (s : State) (root va : W64) : Option (List Byte) :=
  if va.extractLsb' 48 16 ≠ 0 ∨ !root.getLsbD 0 then none
  else
    match walk s.mem s.poison va.toNat 3 ((root.extractLsb' 12 27).toNat * 4096) with
    | .error _ => none
    | .ok (lvl, e) =>
      let pa := leafPa e lvl va.toNat
      if Need.rd.ok e && !hidden s pa && !s.poison.contains (pa / 128) && (look s.dir (pa / 128)).isNone then some (rdBytes s.mem pa 64)
      else none
/-- The root of a host queue (R96). -/
def rootOf (s : State) (hq : Nat) : W64 := s.root.getD hq 0
/-- The group entries of a record. -/
def groupsOf (s : State) (hq : Nat) (b : List Byte) : List (Option (List Byte)) :=
  (List.range (le b 0x28 2)).map fun i => gtRead s (rootOf s hq) (BitVec.ofNat 64 (le b 0x20 8 + 64 * i))
/-- Members of a group entry. -/
def membersOf (e : List Byte) : BitVec 320 := BitVec.ofNat 320 (le e 0 40)
/-- Free entries of the package group table. -/
def freeEntries (s : State) : List Nat := (List.range 256).filter fun i => (look s.gtab i).isNone
/-- Why a launch is refused (R21), in the order of R480; 0 where it is not. The groups of every launch that has been admitted
and is not complete count, of those that still wait for cores too (log entry 85). -/
def refusal (s : State) (hq : Nat) (b : List Byte) : Nat :=
  if recField hq b then 1
  else
    let gs := groupsOf s hq b
    let es := gs.filterMap id
    let ms := es.map membersOf
    if es.any fun e => le e 0 40 == 0 then 1
    else if recRsvd b || es.any (fun e => le e 40 24 != 0) then 2
    else if gs.any Option.isNone then 3
    else if (List.range 320).any fun c =>
        decide (4 < ((s.gtab.map (·.2) ++ ms).filter fun (m : BitVec 320) => m.getLsbD c).length) then 4
    else if (freeEntries s).length < gs.length then 5
    else 0
/-- Fills free entries of the package table with groups: their places (R22 step 3, R446). -/
def fillGroups (s : State) : List (BitVec 320) → State × List Nat
  | [] => (s, [])
  | m :: r =>
    let e := (pickOf s (freeEntries s)).getD 0
    let s := gsReset s.tick e
    let q := fillGroups { s with gtab := put s.gtab e m } r
    (q.1, e :: q.2)
/-- A launch as its record describes it. -/
def parseLaunch (r : Launch) (b : List Byte) : Launch :=
  let f := le b 0x06 2
  { r with
    det := f.testBit 0, renorm := f.testBit 1, chk := f.testBit 2, serial := f.testBit 3
    nks := le b 9 1, nva := le b 0x0A 1, nvb := le b 0x0B 1, part := BitVec.ofNat 32 (le b 0x0C 4)
    entry := BitVec.ofNat 64 (le b 0x10 8), ecyc := le b 0x18 4, prio := BitVec.ofNat 32 (le b 0x1C 4)
    wavew := le b 0x2A 2, entgrp := le b 0x2C 2, aff := BitVec.ofNat 64 (le b 0x30 8), arg := BitVec.ofNat 64 (le b 0x38 8)
    arglen := BitVec.ofNat 32 (le b 0x40 4), wd1 := le b 0x44 4, wd2 := le b 0x48 4, wd3 := le b 0x4C 4, raw := [] }
/-- Validates a launch and gives it its group entries, or refuses it (R21, R22 step 3). -/
def admitOne (s : State) (l : Nat) (r : Launch) : State :=
  let c := refusal s r.hq r.raw
  if c ≠ 0 then
    let s := { s with launches := put s.launches l { r with st := .done, raw := [] } }
    complete s { qp := r.qp, hq := r.hq, msgid := r.msgid, opc := 0x01, status := 4, cause := c, cookie := r.cookie }
  else
    let ms := (groupsOf s r.hq r.raw).filterMap fun e => e.map membersOf
    let q := fillGroups s ms
    let cores := (List.range 320).filter fun c => ms.any fun m => m.getLsbD c
    { q.1 with launches := put q.1.launches l { parseLaunch r r.raw with st := .granting, groups := q.2, cores := cores } }
/-- A launch that is admitted and not complete. -/
def admitted (r : Launch) : Bool := r.st == .granting || r.st == .running
/-- A queued launch may be admitted (R22 step 2): first of its host queue, SERIAL and DET allowing. -/
def admissible (s : State) (p : Nat × Launch) : Bool :=
  let f := le p.2.raw 0x06 2
  let earlier := s.launches.filter fun q => decide (q.1 < p.1) && q.2.hq == p.2.hq
  p.2.st == .queued && !(earlier.any fun q => q.2.st == .queued) &&
    !(f.testBit 3 && earlier.any fun q => q.2.st != .done) &&
    !(f.testBit 0 && decide (255 ≤ s.scopes.length))
/-- Admits launches as long as one may be. -/
def admitAll : Nat → State → State
  | 0, s => s
  | n + 1, s =>
    match s.launches.find? (admissible s) with
    | some (l, r) => admitAll n (admitOne s l r)
    | none => s
/-- Admits what may be admitted. -/
def pump (s : State) : State :=
  if s.dev.mode = .ready then admitAll (s.launches.filter fun p => p.2.st == .queued).length s else s

/-! ### Grants and the entry task (R19, R22 steps 4 and 5) -/

/-- Waiting launches in the order they are served: host-queue priority, then arrival. -/
def waitingLaunches (s : State) : List (Nat × Launch) :=
  sortBy (fun a b =>
    let p := fun (r : Nat × Launch) => (s.prio.getD r.2.hq 0).toNat
    decide (p b < p a) || (p a == p b && decide (a.1 ≤ b.1))) (s.launches.filter fun p => p.2.st == .granting)
/-- The launch a core is granted to next: it serves none and is not fenced. -/
def grantee (s : State) (c : Nat) : Option (Nat × Launch) :=
  let k := s.core c
  if k.launch.isSome ∨ k.fenced then none
  else (waitingLaunches s).find? fun p => p.2.cores.contains c
/-- The state R19 leaves of a core: all at reset, but senders that wait for room in its receive path (R335). -/
def freshCore (k : Core) : Core := { wantRx := k.wantRx }
/-- The grant of a core (R19, R96, R97). -/
def grantCore (s : State) (c l : Nat) (r : Launch) : State :=
  let s := s.modCore c fun k => { freshCore k with part := r.part, trroot := rootOf s r.hq, launch := some l }
  { s with ctlb := del s.ctlb (c / 8),
           launches := put s.launches l { r with granted := insN r.granted c, readyAt := s.acyc[0] + 2048 } }
/-- Scope numbers that are free. -/
def freeScope (s : State) : Option Nat := (List.range' 1 255).find? fun n => (look s.scopes n).isNone
/-- Every core of a launch is granted and has run R19. -/
def grantsDone (s : State) (r : Launch) : Bool :=
  r.st == .granting && r.cores.all (fun c => r.granted.contains c) && decide (r.readyAt.toNat ≤ (s.acyc[0]).toNat)
/-- The scope of a DET launch whose cores are granted opens (R22 step 5, R390). Where several DET launches were taken on under
the limit and no scope is free, one waits here with its cores (DESIGN CHOICE, log entry 94). -/
def openScope (s : State) (l : Nat) : State :=
  match look s.launches l with
  | some r =>
    if grantsDone s r && r.det && r.scope == 0 then
      match freeScope s with
      | some n => { s with scopes := put s.scopes n { launch := l, width := r.wavew }, launches := put s.launches l { r with scope := n } }
      | none => s
    else s
  | none => s
/-- The entry task of a launch may be created (R22 step 5): its scope is open, and a record is free. -/
def entryDue (s : State) (r : Launch) : Bool := grantsDone s r && (!r.det || r.scope != 0) && (pickRec s).isSome
/-- Creates the entry task of a launch, which runs from then on: the watchdog's count starts (R22 steps 5 and 6, R400). -/
def startLaunch (s : State) (l : Nat) (r : Launch) : State :=
  let s1 := { s with launches := put s.launches l { r with st := .running, wdFrom := s.acyc[0] } }
  match createTask s1 { launch := l, grp := r.entgrp, entry := r.entry, dcyc := r.ecyc, key := r.prio, arg := r.arg,
                        k1 := r.arglen.setWidth 64, aff := r.aff, expchk := r.chk } false 0 with
  | some (s', i) =>
    let s' := modLaunch s' l fun r => { r with entryTask := some i }
    if r.det then chooseTask s' r.scope 0 0 i else s'
  | none => s

/-! ### Completion (R15, R22 step 8, R124) -/

/-- A task belongs to a launch. -/
def taskOf (s : State) (l t : Nat) : Bool := ((look s.tasks t).map (·.launch)) == some l
/-- Nothing of a core's launch is under way on it. -/
def coreQuiet (l : Nat) (k : Core) : Bool :=
  let loads := fun (h : Half) => h.st == .loading && h.launch == l
  k.cq0.isEmpty && k.cq1.isEmpty && !loads k.me.h0 && !loads k.me.h1 && k.orphans.isEmpty && k.tx.full.isEmpty && k.rtx.isEmpty
/-- A launch is complete (R15): its tasks have ended and every operation they issued is done. -/
def launchQuiet (s : State) (l : Nat) (r : Launch) : Bool :=
  r.st == .running && r.entryTask.isSome &&
  (s.tasks.all fun p => p.2.launch != l || p.2.st == .free || p.2.st == .ended) &&
  (s.ctxs.all fun p => p.2.launch != l) && (r.granted.all fun c => coreQuiet l (s.core c)) &&
  (r.scope == 0 || !openTickets s r.scope) &&
  !(s.cb.any fun o => o.peer.isNone && taskOf s l o.task) && !(s.nops.any fun o => o.launch == l) &&
  !(s.gsops.any fun o => taskOf s l o.task) && !(s.phops.any fun o => taskOf s l o.task) &&
  !(s.fab.colls.any fun c => c.launch == l && !c.fin) && !(s.fab.strms.any fun p => taskOf s l p.2.task) &&
  !(s.batches.any fun b => b.2.launch == l && b.2.task.isNone && !b.2.leaves.isEmpty)
/-- Frees what a launch holds and completes it; what waits for it is admitted after that. -/
def endLaunch (s : State) (l : Nat) : State :=
  match look s.launches l with
  | none => s
  | some r =>
    let gid := (r.ftgcfg.extractLsb' 0 16).toNat
    let s := r.granted.foldl (fun s c => writeBackCore s c) s
    let s := if r.ftgcfg.getLsbD 63 then
        let s := sendDone s r 0xFFFF
        { s with fab := { s.fab with doneSent := s.fab.doneSent.filter fun e => e.1 != gid, ranges := put s.fab.ranges gid (ftgRange r) } }
      else s
    let s := freeOwned s s.fab.ep l
    let s := r.granted.foldl (fun s c => s.modCore c fun k => if k.launch = some l then { k with launch := none } else k) s
    let s := { s with
      gtab := s.gtab.filter fun p => !r.groups.contains p.1
      gsq := s.gsq.filter fun p => !r.groups.contains p.1
      scopes := if r.scope = 0 then s.scopes else del s.scopes r.scope
      batches := s.batches.filter fun b => b.2.launch != l
      tasks := s.tasks.map fun p => if p.2.launch = l then (p.1, { p.2 with st := .free }) else p
      fab := { s.fab with colls := s.fab.colls.filter fun c => c.launch != l, expect := s.fab.expect.filter fun e => e.1.1 != l }
      launches := put s.launches l { r with st := .done } }
    launchDone s r
/-- A launch completes, and others may be admitted (R15, R22). -/
def finishLaunch (s : State) (l : Nat) : State := pump (endLaunch s l)
/-- A kill by the management interface (R24, R476): a launch that has not started completes at once. -/
def killAny (s : State) (l : Nat) (r : Launch) : State :=
  match r.st with
  | .running => killLaunch s l
  | .queued | .granting =>
    endLaunch (modLaunch s l fun r => { r with status := .killed }) l
  | .done => s

/-! ### The watchdog (R400, R495) -/

/-- Whole units of 65,536 die-0 cycles since the count began. -/
def wdUnits (s : State) (r : Launch) : Nat := (s.acyc[0] - r.wdFrom).toNat / 65536
/-- A stage of the watchdog is due. -/
def wdDue (s : State) (r : Launch) (stage : Nat) : Bool :=
  r.st == .running && r.wd1 != 0 &&
  match stage with
  | 1 => !r.stage1 && !r.stage2 && decide (r.wd1 ≤ wdUnits s r)
  | 2 => !r.stage2 && decide (r.wd2 ≤ wdUnits s r)
  | _ => decide (r.wd3 ≤ wdUnits s r)
/-- The contexts of a launch park, its tasks wait, the host is told (R400, R480). -/
def watchStage1 (s : State) (l : Nat) (r : Launch) : State :=
  let s := modLaunch s l fun r => { r with stage1 := true }
  let s := { s with ctxs := s.ctxs.map fun p =>
    if p.2.launch = l ∧ ((look s.tasks p.1).map fun k => k.st == .running).getD false then (p.1, { p.2 with park := true }) else p }
  hostSend s r.qp r.hq 0x81 (leBytes r.cookie.toNat 8 ++ leBytes 1 8)
/-- Messages of a launch that have not left the package are dropped: the numbers of its streams become holes, which its CLOSE
reports; an ABORT, a FILL and a CLOSE still leave (R323, R339, R495). -/
def dropUnsent (s : State) (l : Nat) : State :=
  let s := dropMsgs s fun o b => taskOf s l o.task && (match b.body with
    | .close _ => false
    | .fill _ => false
    | _ => true)
  let mine := fun (o : OutMsg) => match o.msg with
    | .fifo _ => taskOf s l o.task
    | .load rq _ _ _ _ => ((look s.fab.reqs rq).map (·.launch)) == some l
    | .coll m => taskOf s l o.task && m.body != .abort
    | _ => false
  { s with fab := { s.fab with out := s.fab.out.filter fun o => !mine o } }
/-- What a killed context has not sent yet: its numbers become holes (R495). -/
def dropRest (s : State) (t : Nat) (x : Context) : State :=
  let s := x.rels.foldl (fun s e => match e.acc with
    | .release _ _ (some (n, k)) false => holeAt s n k
    | .rstore n k _ _ => holeAt s n k
    | _ => s) s
  { s with ctxs := del s.ctxs t }
/-- What a fenced core keeps of its launch: nothing that runs (R495). -/
def fenceCore (k : Core) : Core :=
  { k with cq0 := [], cq1 := [], orphans := [], rings := Vector.replicate 8 {}, tx := {}, rtx := k.rtx.filter (·.sent),
           me := { k.me with h0 := if k.me.h0.st = .loading then {} else k.me.h0, h1 := if k.me.h1.st = .loading then {} else k.me.h1 } }
/-- Stage 3 (R400, R495). -/
def fenceLaunch (s : State) (l : Nat) (r : Launch) : State :=
  let lost := r.scope != 0 && openTickets s r.scope
  let s := modLaunch s l fun r => { r with status := .fenced }
  let s := killLaunch s l
  let s := dropUnsent s l
  let s := (s.ctxs.filter fun p => p.2.launch == l).foldl (fun s p => dropRest s p.1 p.2) s
  let s := r.granted.foldl (fun s c => s.modCore c fenceCore) s
  let ts := (s.tasks.filter fun p => p.2.launch == l).map (·.1)
  let s := ts.foldl (fun s t => closeDying (endStreams (voidTicket (collAbort s t) t) t)) s
  let s := { s with
    cb := s.cb.filter fun o => o.peer.isSome || !taskOf s l o.task
    nops := s.nops.filter fun o => o.launch != l || o.begun
    gsops := s.gsops.filter fun o => !taskOf s l o.task
    phops := s.phops.filter fun o => !taskOf s l o.task
    fab := { s.fab with reqs := s.fab.reqs.filter fun p => p.2.launch != l } }
  let s := r.granted.foldl (fun s c => s.modCore c fun k => { k with fenced := true }) s
  finishLaunch (modLaunch s l fun r => { r with dlost := r.dlost || lost }) l

/-! ### Regions and RDMA (R479) -/

/-- The region an R_Key names. -/
def regionOf (s : State) (key : Nat) : Option Region := s.dev.regions.find? fun r => r.idx == key % 4096 && r.gen == key / 4096 % 2 ^ 20
/-- Regions removed: each advances its index's generation. -/
def dropRegions (d : Dev) (f : Region → Bool) : Dev :=
  let gone := d.regions.filter f
  { d with regions := d.regions.filter fun r => !f r, gens := gone.foldl (fun g r => put g r.idx ((r.gen + 1) % 2 ^ 20)) d.gens }
/-- The index a new region takes (log entry 4). -/
def freeRegion (s : State) : Option Nat := pickOf s ((List.range 4096).filter fun i => !(s.dev.regions.any fun r => r.idx == i))
/-- The lines of an access to a region, translated at the LLC; none where it is refused (R95, R124, R127, R479). -/
def rdmaLines (s : State) (r : Region) (va n : Nat) (nd : Need) : Option (List ((Nat × Nat) × Nat)) :=
  let root := rootOf s r.hq
  if va < r.base.toNat ∨ r.base.toNat + r.len < va + n ∨ 2 ^ 48 < va + n ∨ !root.getLsbD 0 then none
  else (pieces va n).mapM fun p =>
    match walk s.mem s.poison p.1 3 ((root.extractLsb' 12 27).toNat * 4096) with
    | .error _ => none
    | .ok (lvl, e) =>
      let pa := leafPa e lvl p.1
      if nd.ok e && !hidden s pa && (look s.dir (pa / 128)).isNone then some (p, pa) else none
/-- The answer to an RDMA request. -/
def rdmaAnswer (s : State) (qp : Nat) (a : RdmaAns) : State := { s with dev := { s.dev with rdma := s.dev.rdma ++ [(qp, a)] } }
/-- A refused request of the host (R474, R479, R487). -/
def rdmaRefuse (s : State) (qp : Nat) (va : W64) (key : Nat) : State :=
  rdmaAnswer (logViol s 0 (some 2) 0xFFFF 0xFF (some (qp + 0x8000)) (some va)) qp .nak
/-- An RDMA WRITE (R479). -/
def rdmaWrite (s : State) (qp key : Nat) (va : W64) (bs : List Byte) : State :=
  match regionOf s key with
  | some r =>
    if !r.wr then rdmaRefuse s qp va key
    else match rdmaLines s r va.toNat bs.length .wr with
      | none => rdmaRefuse s qp va key
      | some ps =>
        let m := ps.foldl (fun s p => memWrite s (place p.2 ((bs.drop (p.1.1 - va.toNat)).take p.1.2))) s
        rdmaAnswer m qp .ack
  | none => rdmaRefuse s qp va key
/-- An RDMA READ (R479, R486). -/
def rdmaRead (s : State) (qp key : Nat) (va : W64) (n : Nat) : State :=
  match regionOf s key with
  | some r =>
    if !r.rd then rdmaRefuse s qp va key
    else match rdmaLines s r va.toNat n .rd with
      | none => rdmaRefuse s qp va key
      | some ps =>
        match ps.find? fun p => s.poison.contains (p.2 / 128) with
        | some p => rdmaAnswer (noteUe s (dieOfPa p.2) 0xFFFF 0xFF va) qp .nak
        | none => rdmaAnswer s qp (.data (ps.flatMap fun p => rdBytes s.mem p.2 p.1.2))
  | none => rdmaRefuse s qp va key

/-! ### Power-down and Final Cut (R471, R472, R477) -/

/-- Steps that reach the management controller from outside the dies: messages of the host, its own reports. -/
def fromOutside : Instr → Bool
  | .launch | .kill | .resume | .finalcut | .reset | .setroot | .setprio | .setexp | .xlinv | .mrreg | .reach | .kekset | .keyset
  | .fencerel | .pwrcap | .mrdereg | .attest | .certread | .snapcmd | .snapread | .logread | .plohusUnknown | .plohusDrop
  | .qpEstablish | .qpTeardown | .rdmaWrite | .rdmaRead | .rdmaAtomicOrUd | .powerGood | .finalCutStepDone | .throttleStep | .trip => true
  | _ => false
/-- The compute dies and HBM are powered down: what stays is the management controller's, the flash's and the logs', and what is
still to reach the controller. -/
def powerDown (s : State) : State :=
  { agenda := s.agenda.filter fun p => fromOutside p.1
    dev := { (dropRegions s.dev fun _ => true) with
      fc := none, waiting := [], port1 := false, delays := [],
      clk := s.dev.clk.map fun k => { tj := k.tj }, snaps := s.dev.snaps.map fun p => { p with busy := none, words := [] } }
    pg := { flash := s.pg.flash }, viol := s.viol, ras := s.ras, rascnt := s.rascnt, fresh := s.fresh, nlaunch := s.nlaunch
    fab := { ep := s.fab.ep, domHi := s.fab.domHi } }
/-- Every launch that is not complete completes FENCED. -/
def fenceAll (s : State) : State :=
  s.launches.foldl (fun s p =>
    if p.2.st = .done then s
    else launchDone s { p.2 with status := .fenced, dlost := p.2.dlost || (p.2.scope != 0 && openTickets s p.2.scope) }) s
/-- A RESET or a trip (R471): launches fenced, power down; the commands that waited for a Final Cut come before later ones
(R478). -/
def goDown (s : State) (m : DevMode) : State :=
  let w := s.dev.waiting
  let s := powerDown (fenceAll s)
  { s with dev := { s.dev with mode := m }, agenda := w ++ s.agenda }
/-- Rounds up to 4 KiB. -/
def up4k (n : Nat) : Nat := (n + 4095) / 4096 * 4096
/-- Sizes of the regions below the image frames, highest first (R477). -/
def regionSizes (b : List Byte) : List Nat :=
  let fr := up4k (le b 0x0C 4 * 0x9000)
  [0x200000, 0x4000000, up4k (2 * 16 * le b 0x08 4), up4k (1024 * le b 0x14 4), fr, fr]
/-- The base of the i-th of them. -/
def regionBase (b : List Byte) (i : Nat) : Nat := 0x7FD8000000 - ((regionSizes b).take (i + 1)).foldl (· + ·) 0
/-- The FINALCUT payload breaks a limit (R477). -/
def cutField (b : List Byte) : Bool :=
  decide (le b 2 2 < le b 0 2) || decide (1023 < le b 2 2) || !([1, 2, 4, 8, 16, 32].contains (le b 4 1)) ||
  le b 6 2 == 0 || decide (4095 < le b 6 2) || decide (2 ^ 23 < le b 8 4) ||
  decide (0x7FD8000000 < (regionSizes b).foldl (· + ·) 0) || decide (2 ^ 44 < le b 0x10 4 * 0x9000)
/-- A reserved byte of it is nonzero. -/
def cutRsvd (b : List Byte) : Bool := le b 5 1 != 0 || le b 0x18 40 != 0
/-- Step 2 of R472. -/
def cutZero (s : State) : State :=
  { s with dir := [], cb := [], fab := { s.fab with weir := [] }, basin := Vector.replicate 2 [], tasks := [], taken := 0,
           pg := { flash := s.pg.flash }, gtab := [], gsq := [], nops := [], gsops := [] }
/-- Step 3 of R472. -/
def cutRegions (s : State) (b : List Byte) : State :=
  { s with
    fab := { s.fab with ep := le b 0 2, domHi := le b 2 2, nplane := le b 4 1 }
    recBase := BitVec.ofNat 64 (regionBase b 1)
    pg := { s.pg with mapn := le b 8 4, frames := le b 0x0C 4, fslots := le b 0x10 4, hslots := le b 0x14 4,
                      mbase := regionBase b 2, hbase := regionBase b 3, base1 := regionBase b 4, base0 := regionBase b 5 }
    dev := { s.dev with dsw := le b 6 2, port1 := true } }
/-- A step of Final Cut that has succeeded; `mask` and `ds` are the links up and the station delays of step 5. -/
def cutStep (s : State) (step : Nat) (mask : W64) (ds : List Byte) : State :=
  match step with
  | 2 => cutZero s
  | 3 => cutRegions s (s.dev.payload.getD [])
  | 4 => { s with acyc := Vector.replicate 2 0, dev := { s.dev with clk := s.dev.clk.map fun k => { k with part := 0 } } }
  | 5 => { s with fab := { s.fab with up := mask.setWidth 32 }, dev := { s.dev with delays := (List.range 32).map fun i => le ds (2 * i) 2 } }
  | _ => s
/-- The cores run (R472 step 4). -/
def released (s : State) : Bool :=
  s.dev.mode == .ready || (s.dev.mode == .finalising && (s.dev.fc.map fun f => decide (4 < f.2.2.2)).getD false)

/-! ### Logs and snapshots (R483, R488) -/

/-- The 32 bytes of entry n of log g (R488). -/
def logBytes (g n : Nat) (e : LogE) : List Byte :=
  let free := Config.logField g n e.acyc
  leBytes e.acyc.toNat 8 ++ leBytes (e.kind.getD (free 0).toNat) 2 ++ leBytes e.core 2 ++ leBytes e.ctx 1 ++ [0] ++
    leBytes (e.src.getD (free 1).toNat) 2 ++ leBytes (e.addr.getD (free 2)).toNat 8 ++ leBytes (e.info.getD (free 3)).toNat 8
/-- LOGREAD's data of log g (R488). -/
def logRead (g : Nat) (l : Log) (first n : Nat) : List Byte :=
  leBytes l.n 4 ++ (List.range n).flatMap fun i =>
    let k := first + i
    if k < l.n ∧ l.n ≤ k + l.es.length then ((l.es[l.n - 1 - k]?).map (logBytes g k)).getD (List.replicate 32 0) else List.replicate 32 0
/-- First byte of a die's snapshot area (R477). -/
def snapBase (d : Fin 2) : Nat := 0x7FD8000000 - 0x200000 + 0x100000 * d.val
/-- Code of a context's state for a snapshot: running, in trap mode. -/
def ctxCode (x : Context) : W64 := if x.trapMode then 1 else 0
/-- The registers a capture latches of a core (R483). -/
def latchCore (s : State) (c : Nat) : List W64 :=
  let k := s.core c
  (k.res.toList.filterMap fun o => o.bind s.ctx?).flatMap (fun x =>
    [x.pc, BitVec.ofNat 64 x.ccyc, ctxCode x, BitVec.ofNat 64 (x.fr.pending x.ccyc), BitVec.ofNat 64 x.mrgwait]) ++
  [BitVec.ofNat 64 k.cq.length, mestat s c (2 ^ 20), k.me.beats, ceStat k none, rxStat k] ++
  k.rings.toList.map (fun g => crDepth g none) ++ k.rings.toList.map crPos
/-- Every register a capture latches of a die (R483). -/
def latchDie (s : State) (d : Fin 2) : List W64 :=
  ((List.range 160).flatMap fun i => latchCore s (160 * d.val + i)) ++
  [tteFree s d, pgFree s, pgSlots s, nsFreeWord s] ++ s.scopes.map (fun p => scopeWord s p.1) ++
  (List.range (s.fab.domHi + 1)).map (peerWord s) ++ s.fab.sends.map (fun p => BitVec.ofNat 64 p.2.ctr) ++
  s.gsq.map (fun p => gsStat p.2) ++ [s.acyc[d], therm s d, rasCnt s d]
/-- The four words of a capture's header in the order R483 names their fields: SNAPSEQ, the tag, the trigger kind with its source,
ACYC (DESIGN CHOICE: the places in the header, log entry 93). -/
def snapHead (s : State) (f : Firing) (d : Fin 2) : List W64 :=
  [snapSeq s d, f.tag, fields [(f.kind % 256, 0), (f.src.getD f.core % 65536, 8), (f.ctx % 256, 24)], s.acyc[d]]
/-- The bytes of a capture: its header, then what Config gives for the latched registers, within the die's area (R483). -/
def captureBytes (ws : List W64) : List Byte :=
  (((ws.take 4).flatMap fun w => leBytes w.toNat 8) ++ Config.snapBytes (ws.drop 4)).take 0x100000
/-- A firing at a die (R483): every register latched, or a trigger dropped while a capture is under way. -/
def captureDie (s : State) (f : Firing) (d : Fin 2) : State :=
  let p := s.dev.snaps[d]
  if p.busy.isSome then
    let s := { s with dev := { s.dev with snaps := s.dev.snaps.set d { p with drop := p.drop + 1 } } }
    logRas s d 0x107 f.core f.ctx f.src none none
  else
    let p' : SnapSt := { p with seq := p.seq + 1, busy := some (s.acyc[d] + 4096) }
    let s := { s with dev := { s.dev with snaps := s.dev.snaps.set d p' } }
    { s with dev := { s.dev with snaps := s.dev.snaps.set d { p' with words := snapHead s f d ++ latchDie s d } } }

end Sys2Proof.Machine
end

