-- ==== Sys2Proof/Machine/Device.lean ====
section
/-!
DEFINITION. What the host and the management controller do (R471-R488, R492, R493), and the steps of a launch (R22, R400).
-/

namespace Sys2Proof.Machine

/-! ### Commands (R474-R478, R480) -/

/-- A command of R476: its operation code, whether only the management queue pair may send it, the states it is accepted
in, its payload's length. -/
structure HostCmd where
  opc : Nat
  priv : Bool
  modes : List DevMode
  len : Nat
/-- The states of R476's 'not OFF'. -/
def notOff : List DevMode := [.rough, .finalising, .ready, .tripped]
/-- A completion of the message's command. -/
def doneOf (qp opc : Nat) (m : HostMsg) : Done := { qp := qp, hq := m.hq.toNat, msgid := m.msgid, opc := opc }
/-- The first refusal cause of R480 that holds, checks of the launch's own aside; 0 where none does. -/
def hostCause (s : State) (c : HostCmd) (qp : Nat) (m : HostMsg) (field rsvd : Bool) : Nat :=
  if c.priv && s.dev.mqp != some qp then 7
  else if !c.modes.contains s.dev.mode then 6
  else if m.payload.length != c.len then 9
  else if decide (63 < m.hq.toNat) || field then 1
  else if m.resv != 0 || rsvd then 2
  else 0
/-- The queue pair waits for a Final Cut it has started (R478); a RESET does not (R471). -/
def cutHolds (s : State) (qp : Nat) (i : Instr) : Bool := (s.dev.fc.map (·.1)) == some qp && i != .reset
/-- A command of queue pair `num` (R476, R478, R480): refused, or performed. A queue pair that is not established brings
none. -/
def hostStep (i : Instr) (c : HostCmd) (field rsvd : State → HostMsg → Bool) (act : State → Nat → HostMsg → State)
    (s : State) : Host.Outcome State Fault Refusal :=
  match s.ev.body with
  | .host m =>
    let qp := s.ev.num
    if s.dev.mode = .off ∨ !s.dev.qps.contains qp then .next s
    else if cutHolds s qp i then .next { s with dev := { s.dev with waiting := s.dev.waiting ++ [(i, s.ev)] } }
    else
      let k := hostCause s c qp m (field s m) (rsvd s m)
      .next (if k = 0 then act s qp m else
        let ck := if c.opc ≤ 3 then BitVec.ofNat 64 (le m.payload (if c.opc = 1 then 0x50 else 8) 8) else 0
        complete s { doneOf qp c.opc m with status := 4, cause := k, cookie := ck })
  | _ => .next s
/-- No limit, no reserved byte. -/
def noLimit (_ : State) (_ : HostMsg) : Bool := false
/-- OK without data. -/
def okDone (s : State) (qp opc : Nat) (m : HostMsg) (data : List Byte := []) : State := complete s { doneOf qp opc m with data := data }

/-- LAUNCH (R22, R476): taken onto its host queue. -/
def execLaunch (s : State) : Host.Outcome State Fault Refusal :=
  hostStep .launch ⟨0x01, false, [.ready], 128⟩ noLimit noLimit (fun s qp m =>
    let r : Launch := { qp := qp, msgid := m.msgid, hq := m.hq.toNat, raw := m.payload, cookie := BitVec.ofNat 64 (le m.payload 0x50 8) }
    pump { s with launches := put s.launches s.nlaunch r, nlaunch := s.nlaunch + 1 }) s
/-- KILL (R24, R476): every launch that matches is killed before another is admitted. -/
def execKill (s : State) : Host.Outcome State Fault Refusal :=
  hostStep .kill ⟨0x02, false, [.ready], 16⟩ noLimit (fun _ m => le m.payload 0 8 != 0) (fun s qp m =>
    let ck : W64 := BitVec.ofNat 64 (le m.payload 8 8)
    let hit := s.launches.filter fun p => p.2.st != .done && p.2.hq == m.hq.toNat && p.2.cookie == ck
    let s := hit.foldl (fun s p => match look s.launches p.1 with
      | some r => killAny s p.1 r
      | none => s) s
    pump (complete s { doneOf qp 0x02 m with cookie := ck, data := leBytes hit.length 4 })) s
/-- RESUME (R400, R476). -/
def execResume (s : State) : Host.Outcome State Fault Refusal :=
  hostStep .resume ⟨0x03, false, [.ready], 16⟩ noLimit (fun _ m => le m.payload 0 8 != 0) (fun s qp m =>
    let ck : W64 := BitVec.ofNat 64 (le m.payload 8 8)
    let hit := fun (r : Launch) => r.st == .running && r.hq == m.hq.toNat && r.cookie == ck && r.stage1 && !r.stage2
    let d := { doneOf qp 0x03 m with cookie := ck }
    if (s.launches.any fun p => hit p.2) = true then
      let go := fun (p : Nat × Launch) => if hit p.2 then (p.1, { p.2 with stage1 := false, wdFrom := s.acyc[0] }) else p
      complete { s with launches := s.launches.map go } d
    else complete s { d with status := 4, cause := 10 }) s
/-- FINALCUT (R471, R472, R477): its completion comes with the last step. -/
def execFinalcut (s : State) : Host.Outcome State Fault Refusal :=
  hostStep .finalcut ⟨0x10, true, [.rough], 64⟩ (fun _ m => cutField m.payload) (fun _ m => cutRsvd m.payload) (fun s qp m =>
    { s with viol := Vector.replicate 2 {}, ras := Vector.replicate 2 {}, rascnt := Vector.replicate 2 (0, 0),
             dev := { s.dev with mode := .finalising, payload := some m.payload, fc := some (qp, m.hq.toNat, m.msgid, 1),
                                 snaps := Vector.replicate 2 {} } }) s
/-- Every junction sensor is below 85 °C (R471). -/
def cool (s : State) : Bool := s.dev.clk.all fun k => decide (k.tj.toNat < 85)
/-- RESET (R471): refused in TRIPPED while a sensor is hot. -/
def execReset (s : State) : Host.Outcome State Fault Refusal :=
  hostStep .reset ⟨0x11, true, if cool s then notOff else [.rough, .finalising, .ready], 0⟩ noLimit noLimit (fun s qp m =>
    okDone (if s.dev.mode = .tripped then { s with dev := { s.dev with mode := .rough } } else goDown s .rough) qp 0x11 m) s
/-- A root word with a reserved bit (R96). -/
def rootRsvd (m : HostMsg) : Bool := (BitVec.ofNat 64 (le m.payload 0 8) : W64) &&& 0xFFFFFF8000000FFE != 0
/-- SETROOT (R96, R476). -/
def execSetroot (s : State) : Host.Outcome State Fault Refusal :=
  hostStep .setroot ⟨0x12, true, [.ready], 8⟩ noLimit (fun _ m => rootRsvd m) (fun s qp m =>
    okDone { s with root := s.root.setIfInBounds m.hq.toNat (BitVec.ofNat 64 (le m.payload 0 8)) } qp 0x12 m) s
/-- SETPRIO (R22, R476). -/
def execSetprio (s : State) : Host.Outcome State Fault Refusal :=
  hostStep .setprio ⟨0x13, true, [.ready], 1⟩ noLimit noLimit (fun s qp m =>
    okDone { s with prio := s.prio.setIfInBounds m.hq.toNat (BitVec.ofNat 32 (le m.payload 0 1)) } qp 0x13 m) s
/-- SETEXP (R90, R476, R478). -/
def execSetexp (s : State) : Host.Outcome State Fault Refusal :=
  hostStep .setexp ⟨0x14, true, [.ready], 8⟩ noLimit (fun _ m => rootRsvd m) (fun s qp m =>
    okDone { s with exproot := BitVec.ofNat 64 (le m.payload 0 8) } qp 0x14 m) s
/-- XLINV (R97, R478): every TLB entry of the package goes. -/
def execXlinv (s : State) : Host.Outcome State Fault Refusal :=
  hostStep .xlinv ⟨0x15, true, [.ready], 0⟩ noLimit noLimit (fun s qp m =>
    okDone { s with ctlb := [], cores := s.cores.map fun p => (p.1, { p.2 with tlb := [] }) } qp 0x15 m) s
/-- MRREG (R476, R479). -/
def execMrreg (s : State) : Host.Outcome State Fault Refusal :=
  hostStep .mrreg ⟨0x16, true, [.ready], 17⟩ (fun s m => decide (3 < le m.payload 16 1) || (freeRegion s).isNone) noLimit (fun s qp m =>
    match freeRegion s with
    | none => s
    | some i =>
      let g := (look s.dev.gens i).getD 0
      let a := le m.payload 16 1
      let r : Region := { idx := i, gen := g, base := BitVec.ofNat 64 (le m.payload 0 8), len := le m.payload 8 8,
                          rd := a.testBit 0, wr := a.testBit 1, hq := m.hq.toNat }
      okDone { s.tick with dev := { s.dev with regions := s.dev.regions ++ [r] } } qp 0x16 m (leBytes (g * 4096 + i) 4)) s
/-- REACH (R318, R476). -/
def execReach (s : State) : Host.Outcome State Fault Refusal :=
  hostStep .reach ⟨0x17, true, [.ready], 2⟩ (fun s m => decide (s.fab.domHi < le m.payload 0 2)) noLimit (fun s qp m =>
    okDone { s with fab := { s.fab with unreach := s.fab.unreach.filter fun p => p != le m.payload 0 2 } } qp 0x17 m) s
/-- KEKSET (R476). -/
def execKekset (s : State) : Host.Outcome State Fault Refusal :=
  hostStep .kekset ⟨0x18, true, [.rough], 32⟩ noLimit noLimit (fun s qp m =>
    okDone { s with dev := { s.dev with kek := some m.payload } } qp 0x18 m) s
/-- The key a KEYSET payload wraps (R476). -/
def keyOf (s : State) (m : HostMsg) : Option (List Byte) := s.dev.kek.bind fun k => unwrapKey k (m.payload.drop 4)
/-- KEYSET (R316, R317, R476): a payload that does not unwrap is refused. -/
def execKeyset (s : State) : Host.Outcome State Fault Refusal :=
  hostStep .keyset ⟨0x19, true, [.ready], 44⟩
    (fun s m => decide (s.fab.domHi < le m.payload 0 2) || decide (1 < le m.payload 2 1) || decide (15 < le m.payload 3 1) || (keyOf s m).isNone)
    noLimit (fun s qp m =>
      let p := le m.payload 0 2
      let e : BitVec 4 := BitVec.ofNat 4 (le m.payload 3 1)
      let s := if le m.payload 2 1 = 0 then
          { s with fab := { s.fab with sends := put s.fab.sends p { epoch := e, key := keyOf s m } } }
        else
          let d := (look s.fab.recvs p).getD {}
          let prev := if d.key.isSome then some d.epoch else none
          { s with fab := { s.fab with recvs := put s.fab.recvs p { epoch := e, key := keyOf s m, prev := prev, keyPrev := d.key, seenPrev := d.seen } } }
      okDone s qp 0x19 m) s
/-- FENCEREL (R19, R400, R476). -/
def execFencerel (s : State) : Host.Outcome State Fault Refusal :=
  hostStep .fencerel ⟨0x1A, true, [.ready], 2⟩ (fun s m => decide (319 < le m.payload 0 2) || !(s.core (le m.payload 0 2)).fenced) noLimit
    (fun s qp m => okDone (s.modCore (le m.payload 0 2) freshCore) qp 0x1A m) s
/-- PWRCAP (R476, R492). -/
def execPwrcap (s : State) : Host.Outcome State Fault Refusal :=
  hostStep .pwrcap ⟨0x1B, true, [.rough, .ready], 2⟩ (fun _ m => decide (le m.payload 0 2 < 800) || decide (1900 < le m.payload 0 2)) noLimit
    (fun s qp m => okDone { s with dev := { s.dev with pwrcap := le m.payload 0 2 } } qp 0x1B m) s
/-- MRDEREG (R476, R479). -/
def execMrdereg (s : State) : Host.Outcome State Fault Refusal :=
  hostStep .mrdereg ⟨0x1C, true, [.ready], 8⟩ (fun s m => (regionOf s (le m.payload 0 4)).isNone) (fun _ m => le m.payload 4 4 != 0)
    (fun s qp m =>
      let k := le m.payload 0 4
      okDone { s with dev := dropRegions s.dev fun r => r.idx == k % 4096 && r.gen == k / 4096 } qp 0x1C m) s
/-- Code of the module's state (R481). -/
def modeCode : DevMode → Nat
  | .off => 0 | .rough => 1 | .finalising => 2 | .ready => 3 | .tripped => 4
/-- The signed bytes of the n-th attestation report (R481). -/
def reportBytes (s : State) (nonce : List Byte) (n : Nat) : List Byte :=
  nonce ++ (List.range 48).map (Config.digest 0) ++ (List.range 48).map (Config.digest 1) ++ ((s.dev.payload.map sha384).getD (List.replicate 48 0)) ++
    leBytes (modeCode s.dev.mode) 8 ++ leBytes n 8
/-- ATTEST (R481). -/
def execAttest (s : State) : Host.Outcome State Fault Refusal :=
  hostStep .attest ⟨0x20, false, notOff, 48⟩ noLimit noLimit (fun s qp m =>
    let n := s.dev.attests + 1
    let b := reportBytes s m.payload n
    okDone { s with dev := { s.dev with attests := n } } qp 0x20 m (b ++ (List.range 96).map (Config.attestSig n b))) s
/-- CERTREAD (R475, R476, R481): a completion of 32 bytes and the chain are one message. -/
def execCertread (s : State) : Host.Outcome State Fault Refusal :=
  hostStep .certread ⟨0x21, false, notOff, 0⟩ noLimit noLimit (fun s qp m => okDone s qp 0x21 m (Config.certChain.take 4048)) s
/-- SNAPCMD (R476, R482). -/
def execSnapcmd (s : State) : Host.Outcome State Fault Refusal :=
  hostStep .snapcmd ⟨0x22, true, [.ready], 9⟩ (fun _ m => decide (1 < le m.payload 8 1)) noLimit (fun s qp m =>
    okDone (fire s { tag := BitVec.ofNat 64 (le m.payload 0 8), kind := 3 } (le m.payload 8 1 == 1)) qp 0x22 m) s
/-- SNAPREAD (R476, R483). -/
def execSnapread (s : State) : Host.Outcome State Fault Refusal :=
  hostStep .snapread ⟨0x23, true, [.ready], 9⟩
    (fun _ m => decide (1 < le m.payload 0 1) || decide (3968 < le m.payload 5 4) || decide (0x100000 < le m.payload 1 4 + le m.payload 5 4))
    noLimit (fun s qp m =>
      okDone s qp 0x23 m (rdBytes s.mem (snapBase (if le m.payload 0 1 = 0 then 0 else 1) + le m.payload 1 4) (le m.payload 5 4))) s
/-- LOGREAD (R476, R488). -/
def execLogread (s : State) : Host.Outcome State Fault Refusal :=
  hostStep .logread ⟨0x24, true, notOff, 8⟩
    (fun _ m => decide (1 < le m.payload 0 1) || decide (1 < le m.payload 1 1) || decide (124 < le m.payload 6 2)) noLimit (fun s qp m =>
      let d : Fin 2 := if le m.payload 0 1 = 0 then 0 else 1
      let v := decide (le m.payload 1 1 = 0)
      okDone s qp 0x24 m (logRead (d.val + if v then 0 else 2) (if v then s.viol[d] else s.ras[d]) (le m.payload 2 4) (le m.payload 6 2))) s
/-- PLOHUS_UNKNOWN: a message whose operation `cnt` is none of R476's (R480). -/
def execPlohusUnknown (s : State) : Host.Outcome State Fault Refusal :=
  match s.ev.body with
  | .host m =>
    if s.dev.mode = .off ∨ !s.dev.qps.contains s.ev.num then .next s
    else if cutHolds s s.ev.num .plohusUnknown then
      .next { s with dev := { s.dev with waiting := s.dev.waiting ++ [(.plohusUnknown, s.ev)] } }
    else .next (complete s { doneOf s.ev.num s.ev.cnt m with status := 4, cause := 8 })
  | _ => .next s
/-- PLOHUS_DROP: a message with a wrong LMAGIC (R480). -/
def execPlohusDrop (s : State) : Host.Outcome State Fault Refusal :=
  .next (if s.dev.mode = .off ∨ !s.dev.qps.contains s.ev.num then s else logRas s 0 0x108 0xFFFF 0xFF (some (s.ev.num + 0x8000)) none none)

/-! ### Queue pairs and RDMA (R474, R479) -/

/-- The port is up (R471, R472). -/
def portUp (s : State) (port : Nat) : Bool := s.dev.mode != .off && (port == 0 || (port == 1 && s.dev.port1))
/-- QP_ESTABLISH on port `num` (R474). -/
def execQpEstablish (s : State) : Host.Outcome State Fault Refusal :=
  let port := s.ev.num
  if !portUp s port then .next s
  else
    match (List.range 256).find? fun i => !s.dev.qps.contains (256 * port + i) with
    | none => .next s
    | some i =>
      let first := port == 0 && !s.dev.mqpSeen
      .next { s with dev := { s.dev with qps := s.dev.qps ++ [256 * port + i],
                                         mqp := if first then some i else s.dev.mqp, mqpSeen := s.dev.mqpSeen || first } }
/-- QP_TEARDOWN of queue pair `num` (R474). -/
def execQpTeardown (s : State) : Host.Outcome State Fault Refusal :=
  .next { s with dev := { s.dev with qps := s.dev.qps.filter fun q => q != s.ev.num,
                                     mqp := if s.dev.mqp = some s.ev.num then none else s.dev.mqp } }
/-- RDMA_WRITE of the step's bytes under key `cnt` at `val` on queue pair `num` (R479). -/
def execRdmaWrite (s : State) : Host.Outcome State Fault Refusal :=
  match s.ev.body with
  | .data bs => .next (if s.dev.qps.contains s.ev.num then rdmaWrite s s.ev.num s.ev.cnt s.ev.val bs else s)
  | _ => .next s
/-- RDMA_READ of `task` bytes under key `cnt` at `val` on queue pair `num` (R479). -/
def execRdmaRead (s : State) : Host.Outcome State Fault Refusal :=
  .next (if s.dev.qps.contains s.ev.num then rdmaRead s s.ev.num s.ev.cnt s.ev.val s.ev.task else s)
/-- RDMA_ATOMIC_OR_UD on queue pair `num` (R474). -/
def execRdmaAtomicOrUd (s : State) : Host.Outcome State Fault Refusal :=
  .next (if s.dev.qps.contains s.ev.num then rdmaRefuse s s.ev.num s.ev.val s.ev.cnt else s)

/-! ### Power, heat, Final Cut (R471, R472, R491-R493) -/

/-- POWER_GOOD; `flag` says that the firmware's digest matches (R471). -/
def execPowerGood (s : State) : Host.Outcome State Fault Refusal :=
  .next (if s.dev.mode = .off ∧ s.ev.flag then { agenda := s.agenda, pg := { flash := s.pg.flash }, fresh := s.fresh, dev := { mode := .rough } } else s)
/-- The commands that waited for a Final Cut come next, before later ones (R478). -/
def endCut (s : State) (m : DevMode) : State :=
  { s with agenda := s.dev.waiting ++ s.agenda, dev := { s.dev with mode := m, fc := none, waiting := [] } }
/-- FINAL_CUT_STEP_DONE of step `num`; `flag` says that it succeeded (R471, R472, R489). -/
def execFinalCutStepDone (s : State) : Host.Outcome State Fault Refusal :=
  match s.dev.fc with
  | some (qp, hq, id, n) =>
    let d : Done := { qp := qp, hq := hq, msgid := id, opc := 0x10 }
    let ds := match s.ev.body with
      | .data b => b
      | _ => []
    if s.ev.num ≠ n then .next s
    else if !s.ev.flag then
      let w := s.dev.waiting
      let s := powerDown s
      .next (endCut (complete { s with dev := { s.dev with waiting := w } } { d with status := 5, cause := n }) .rough)
    else
      let s := cutStep s n s.ev.val ds
      .next (if n < 6 then { s with dev := { s.dev with fc := some (qp, hq, id, n + 1) } }
        else endCut (complete s { d with data := s.dev.delays.flatMap fun v => leBytes v 2 }) .ready)
  | none => .next s
/-- The clock of a die after a report of its junction and of the power, which is over its cap with `high`, under it with `low`
(R492). -/
def throttle (k : DieClk) (tj : BitVec 8) (high low : Bool) : DieClk :=
  let k := { k with tj := tj }
  let hot := decide (95 ≤ tj.toNat)
  if hot || high then { k with mhz := max 425 (k.mhz - 25), hot := k.hot || hot, cap := k.cap || high }
  else if tj.toNat < 90 ∧ low then
    let m := min 850 (k.mhz + 25)
    if m = 850 then { k with mhz := m, hot := false, cap := false } else { k with mhz := m }
  else k
/-- One die takes the report of a millisecond (R492); a change of its ACLK is logged (R488). -/
def throttleDie (s : State) (d : Fin 2) (tj : BitVec 8) (mw : Nat) : State :=
  let k := s.dev.clk[d]
  let k' := if released s then throttle k tj (decide (1000 * s.dev.pwrcap < mw)) (decide (mw < 1000 * s.dev.pwrcap)) else { k with tj := tj }
  let s := { s with dev := { s.dev with clk := s.dev.clk.set d k' } }
  if k'.mhz ≠ k.mhz then logRas s d 0x106 0xFFFF 0xFF none none none else s
/-- A trip (R471, R493), logged on both dies (R488). -/
def tripped (s : State) : State :=
  logRas (logRas (goDown s .tripped) 0 0x106 0xFFFF 0xFF none none none) 1 0x106 0xFFFF 0xFF none none none
/-- THROTTLE_STEP: the report of a millisecond: the hottest junctions of die 0 in `cnt` and of die 1 in `num`, the 10 ms mean power
in milliwatts in `val` (R492); a junction at 105 °C is a trip (R493). -/
def execThrottleStep (s : State) : Host.Outcome State Fault Refusal :=
  let t0 : BitVec 8 := BitVec.ofNat 8 s.ev.cnt
  let t1 : BitVec 8 := BitVec.ofNat 8 s.ev.num
  if s.dev.mode = .off then .next s
  else
    let s' := throttleDie (throttleDie s 0 t0 s.ev.val.toNat) 1 t1 s.ev.val.toNat
    .next (if s.dev.mode ≠ .tripped ∧ (105 ≤ t0.toNat ∨ 105 ≤ t1.toNat) then tripped s' else s')
/-- TRIP (R471, R493). -/
def execTrip (s : State) : Host.Outcome State Fault Refusal := .next (if s.dev.mode = .off then s else tripped s)

/-! ### A launch's steps (R22, R400) -/

/-- CORE_GRANT of core `core` (R19, R22 step 4). -/
def execCoreGrant (s : State) : Host.Outcome State Fault Refusal :=
  match grantee s s.ev.core with
  | some (l, r) => .next (grantCore s s.ev.core l r)
  | none => .next s
/-- ENTRY_TASK_CREATE of launch `num` (R22 steps 5 and 6): its scope opens, and its entry task is created where a record is
free. -/
def execEntryTaskCreate (s : State) : Host.Outcome State Fault Refusal :=
  let s := openScope s s.ev.num
  match look s.launches s.ev.num with
  | some r => .next (if entryDue s r then startLaunch s s.ev.num r else s)
  | none => .next s
/-- LAUNCH_COMPLETE of launch `num` (R15, R22 step 8). -/
def execLaunchComplete (s : State) : Host.Outcome State Fault Refusal :=
  match look s.launches s.ev.num with
  | some r => .next (if launchQuiet s s.ev.num r then finishLaunch s s.ev.num else s)
  | none => .next s
/-- WATCHDOG_STAGE1 of launch `num` (R400). -/
def execWatchdogStage1 (s : State) : Host.Outcome State Fault Refusal :=
  match look s.launches s.ev.num with
  | some r => .next (if wdDue s r 1 then watchStage1 s s.ev.num r else s)
  | none => .next s
/-- WATCHDOG_STAGE2 of launch `num` (R24, R400). -/
def execWatchdogStage2 (s : State) : Host.Outcome State Fault Refusal :=
  match look s.launches s.ev.num with
  | some r => .next (if wdDue s r 2 then killLaunch (modLaunch s s.ev.num fun r => { r with stage2 := true }) s.ev.num else s)
  | none => .next s
/-- WATCHDOG_STAGE3 of launch `num` (R400, R495). -/
def execWatchdogStage3 (s : State) : Host.Outcome State Fault Refusal :=
  match look s.launches s.ev.num with
  | some r => .next (if wdDue s r 3 then fenceLaunch s s.ev.num r else s)
  | none => .next s

/-! ### The Clapper and errors (R482-R487) -/

/-- CLAPPER_CAPTURE of the firing in the step's body, on both dies (R483). -/
def execClapperCapture (s : State) : Host.Outcome State Fault Refusal :=
  match s.ev.body with
  | .firing f => .next (if s.dev.mode = .ready then captureDie (captureDie s f 0) f 1 else s)
  | _ => .next s
/-- CAPTURE_DONE of die `num`: the capture is written to its area, and later triggers latch again (R483). -/
def execCaptureDone (s : State) : Host.Outcome State Fault Refusal :=
  let d : Fin 2 := if s.ev.num = 0 then 0 else 1
  .next (match s.dev.snaps[d].busy with
    | some c =>
      if c.toNat ≤ (s.acyc[d]).toNat then
        { s with mem := wrBytes s.mem (place (snapBase d) (captureBytes s.dev.snaps[d].words)),
                 dev := { s.dev with snaps := s.dev.snaps.set d { s.dev.snaps[d] with busy := none, words := [] } } }
      else s
    | none => s)
/-- CLAPPER_MESSAGE of endpoint `num` with tag `val` (R482). -/
def execClapperMessage (s : State) : Host.Outcome State Fault Refusal :=
  .next (fire s { tag := s.ev.val, kind := 4, src := some s.ev.num } false)
/-- A corrected error of a die's storage, in the order of R485 (R488, R494). -/
def noteCe (s : State) (d : Fin 2) (core : Nat) (addr : W64) (storage : Nat) : State :=
  let s := { s with rascnt := s.rascnt.set d ((s.rascnt[d].1 + 1) % 2 ^ 32, s.rascnt[d].2) }
  logRas s d 0x100 core 0xFF none (some addr) (some (BitVec.ofNat 64 storage))
/-- The launch of a task ends in ERROR for an error of the task's record: its first error address is not given (R154, log entry
20). -/
def recordErr (s : State) (t : Nat) : State :=
  match look s.tasks t with
  | some k => launchErr s.tick k.launch (Config.unstated s.fresh)
  | none => s
/-- The end of a task whose record holds an uncorrectable error (R154, R485); a leaf of a batch that runs is cancelled, and ends
with the batch (DESIGN CHOICE, log entry 96). -/
def killRecord (s : State) (t : Nat) : State :=
  let st := (look s.tasks t).map fun (k : Task) => k.st
  let s := if st.any fun x => x != .free && x != .ended then recordErr s t else s
  match st with
  | some .running | some .parked => killTask s t
  | some .chosen => endTask (voidTicket s t) t .killed 0
  | some .batched => endTask (leaveBatch s t) t .killed 0
  | some .waiting | some .ready => endTask s t .killed 0
  | some .inbatch => cancelBatch (modTask s t fun k => { k with cancel := true }) t
  | _ => s
/-- An uncorrectable error in the storages of R485 that a core holds: of the first, a 64-bit word of the SRAM pool, a register
block, a line of the data cache or a granule of the LLC, as `kind` 0 to 3 says; of the second, a weight-buffer half, or a word of
the accumulator store with `kind` 2; of the third, a node of a tree. -/
def spoilCore (s : State) (c t storage kind : Nat) (a : W64) (b : EvBody) : State :=
  match storage, kind with
  | 1, 0 | 2, 2 => s.modCore c fun k => { k with bad := insN k.bad (a.toNat / 8) }
  | 1, 1 => match b with
    | .block r => s.modCore c fun k => if k.rc.contains (t, r) then { k with rcBad := (t, r) :: k.rcBad } else k
    | _ => s
  | 1, 2 => s.modCore c fun k => { k with dc := k.dc.map fun p => if p.1 = a.toNat / 128 then (p.1, { p.2 with bad := true }) else p }
  | 1, _ => poisonLine s (a.toNat / 128)
  | 2, n => s.modMe c fun m => let h := m.half n; if h.st = .ready then m.setHalf n { h with bad := true } else m
  | 3, n => s.modCore c fun k =>
        let d := k.ttf.getD n {}
    { k with ttf := k.ttf.setIfInBounds n { d with nodes := d.nodes.modify t fun e => { e with bad := true } } }
  | _, _ => s
/-- PATROL_SCRUB finds an error on die `num` in the storage `sel` of R485: corrected, or uncorrectable with `flag`. The place is
address `val` of memory or of the pool, Basin record `cnt`, task record `task`, or what `spoilCore` finds of core `core`
(R485, R486, log entry 28). -/
def execPatrolScrub (s : State) : Host.Outcome State Fault Refusal :=
  let d : Fin 2 := if s.ev.num = 0 then 0 else 1
  let st := s.ev.sel.toNat
  let core := if st ≤ 3 then s.ev.core else 0xFFFF
  if !released s then .next s
  else if !s.ev.flag then .next (noteCe s d core s.ev.val st)
  else
    let s := noteUe s d core 0xFF s.ev.val
    .next (match st with
      | 4 => { s with basin := s.basin.set d ((s.basin[d]).map fun p => if p.1 = s.ev.cnt then (p.1, { p.2 with bad := true }) else p) }
      | 5 => killRecord s s.ev.task
      | 6 => poisonLine s (s.ev.val.toNat / 128)
      | _ => spoilCore s s.ev.core s.ev.task st s.ev.cnt s.ev.val s.ev.body)
/-- FETCH_AHEAD_FAULT: the bundle of task `task` whose fetch ahead faulted is not the one that issues next: its line is dropped
and the event logged (R153). -/
def execFetchAheadFault (s : State) : Host.Outcome State Fault Refusal :=
  match s.ctx? s.ev.task with
  | some x =>
    if x.ffault.any fun f => f.1 != x.pc then .next ((aheadFault s x).setCtx s.ev.task { x with ffault := none }) else .next s
  | none => .next s

end Sys2Proof.Machine
end

