-- ==== Sys2Proof/Machine/Engine.lean ====
section
/-!
DEFINITION. The steps of the copy engines: a granule of a command (R291) and a command's end (R285, R296).
-/

namespace Sys2Proof.Machine

/-- The next granule of a command of a copy engine, where its turn has come and nothing stops it (R291, R294). -/
def granuleOf (s : State) (c : Nat) (e : Bool) (q : Cmd) : State :=
  if q.isPage then
    match pageBoundary s c e q with
    | some s => s
    | none => pageGranule s c e q
  else
    match boundary s c e q with
    | some s => s
    | none => runGranule s c e q
/-- COPY_GRANULE: command `num` of engine `flag` of core `core` (R291); a command whose turn has not come, whose issuer
has still to perform what comes before it (R111), or that has performed its last granule, does nothing. -/
def execCopyGranule (s : State) : Host.Outcome State Fault Refusal :=
  let c := s.ev.core
  let e := s.ev.flag
  match (cmds s c e)[s.ev.num]? with
  | some q =>
    match q.kind with
    | .coll cid => .next (if q.stop then collDiscard s cid else collStart s cid)
    | _ =>
      match turnOf s c e s.ev.num with
      | some q => .next (if forked s q.task q.fork then granuleOf s c e q else s)
      | none => .next s
  | none => .next s
/-- COMMAND_COMPLETE: command `num` of engine `flag` of core `core` ends once nothing of it is outstanding (R285, R296); a
stream of an ended task that it bore may then close (R323). Before that, what it has at commit buffers is applied as its
turn comes (R123). -/
def execCommandComplete (s : State) : Host.Outcome State Fault Refusal :=
  let c := s.ev.core
  let e := s.ev.flag
  match (cmds s c e)[s.ev.num]? with
  | some q => if cmdQuiet s q then .next (closeDying (completeCmd s c e q)) else .next (applyHeld s q)
  | none => .next s

end Sys2Proof.Machine
end

