-- ==== Sys2Proof/Machine/Gen.lean ====
section
/-!
DEFINITION. The generation instructions (R446-R468) and GSQ_OP_ARRIVAL.
-/

namespace Sys2Proof.Machine

/-- Own-scratchpad bytes a generation instruction reads: the offset is aligned and inside the extent (R101, R468). -/
def gsBytes (s : State) (t : Nat) (x : Context) (o : W64) (n al : Nat) : Res (List Byte) := do
  let (c, off) ← target s x .own o n al
  if drainHeld s x t c then .error .hold
  spEcc s c off n o
  return spRead s c off n
/-- A Q slot that sends an operation and pushes nothing: `f` checks operand A and gives the operation. -/
def gsSend (g : Guard) (os : List Opd) (f : State → Nat → Context → Res GsAct) (s : State) : Host.Outcome State Fault Refusal :=
  conclude s do
    let (t, x) ← s.issuer
    let on := gTrue g x
    guardOps s x on os 0
    if !on then return s
    let a ← f s t x
    return sendGs (popOps s x on os) t x.core a
/-- An operation that is sent once the actions of a FENCE of pkg scope are done (R457). -/
def gsRelease (s : State) (t : Nat) (a : GsAct) : State := s.modCtx t fun x => { x with holds := x.holds ++ [.gs a] }

/-! ### Schedules and registers (R448, R467) -/

/-- The bucket of a descriptor within its limits (R448). -/
def bucketOf (b : List Byte) : Option Bucket :=
  let e := BitVec.ofNat 64 (fld b 0 8)
  let oc := fld b 8 2
  let dl := fld b 10 2
  let dp := fld b 12 1
  if e.extractLsb' 56 8 == 0 && e.extractLsb' 0 2 == 0 && decide (1 ≤ oc) && decide (oc ≤ 256) && decide (dl ≤ 255) &&
      decide (1 ≤ dp) && decide (dp ≤ 8) && fld b 13 19 == 0 then
    some { entry := e, occMax := oc, dlMax := dl, depthp := dp }
  else none
/-- GSCFG (R448). -/
def execGscfg (g : Guard) (a : SSel) (clr : Bool) (n : BitVec 4) (s : State) : Host.Outcome State Fault Refusal :=
  if clr then gsSend g [] (fun _ _ _ => return .bucket n.toFin none) s
  else gsSend g [.s a] (fun s t x => do
    let v := sVal s x true a
    let b ← gsBytes s t x v 32 32
    match bucketOf b with
    | some k => return .bucket n.toFin (some k)
    | none => operand 0x30 v) s
/-- GSOCC (R467). -/
def execGsocc (g : Guard) (a : SSel) (s : State) : Host.Outcome State Fault Refusal :=
  gsSend g [.s a] (fun s _ x => do
    let v := sVal s x true a
    if v.toNat < 1 ∨ 256 < v.toNat then operand 0x31 v
    return .occ v.toNat) s
/-- GSDLEN (R467). -/
def execGsdlen (g : Guard) (a : SSel) (s : State) : Host.Outcome State Fault Refusal :=
  gsSend g [.s a] (fun s _ x => do
    let v := sVal s x true a
    if 255 < v.toNat then operand 0x32 v
    return .dlen v.toNat) s
/-- GSSEED (R467). -/
def execGsseed (g : Guard) (a : SSel) (s : State) : Host.Outcome State Fault Refusal :=
  gsSend g [.s a] (fun s _ x => return .seed (sVal s x true a)) s

/-! ### Passes (R450-R454) -/

/-- The passes other tasks' starts on their way to an instance will open, by number. -/
def openingSoon (s : State) (e t : Nat) : List Nat :=
  let g := gsqOf s e
  let st := s.gsops.filter fun o => o.inst == e && o.task != t && (match o.act with | .start _ => true | _ => false)
  let ks := st.zipIdx.map fun p =>
    (look g.parts p.1.task).getD 0 + 1 + ((st.take p.2).filter fun o => o.task == p.1.task).length
  (ks.filter fun k => g.opened < k).dedup
/-- A start that would open a pass waits while DEPTHP passes are in flight (R450); the operations its own context has on
their way reach the instance first. A joining start does not wait. -/
def startHold (s : State) (t e : Nat) : Res Unit :=
  let g := gsqOf s e
  let own := (s.gsops.filter fun o => o.task == t && (match o.act with | .start _ => true | _ => false)).length
  let k := (look g.parts t).getD 0 + own + 1
  let part := (look g.parts t).isSome || decide (g.parts.length < g.npart)
  let soon := openingSoon s e t
  if !part || decide (k ≤ g.opened) || soon.contains k then .ok ()
  else if gsFly s t then .error .hold
  else match g.fit with
    | some (_, b) => need (decide (g.nopen + soon.length < b.depthp)) (.error .hold)
    | none => .ok ()
/-- GSITER.start (R450, R451). -/
def execGsiterStart (g : Guard) (a : SSel) (s : State) : Host.Outcome State Fault Refusal :=
  gsSend g [.s a] (fun s t x => do
    let v := sVal s x true a
    if v.extractLsb' 8 23 ≠ 0 then operand 0x34 v
    match groupEntry s t with
    | some e => startHold s t e
    | none => pure ()
    return .start v) s
/-- GSITER.layer (R453, R457). -/
def execGsiterLayer (g : Guard) (a b : SSel) (s : State) : Host.Outcome State Fault Refusal :=
  conclude s do
    let (t, x) ← s.issuer
    let on := gTrue g x
    guardOps s x on [.s a, .s b] 0
    if !on then return s
    let v := sVal s x on a
    if 4095 < v.toNat then operand 0x34 v
    return gsRelease (popOps s x on [.s a, .s b]) t (.layer v.toNat ((sVal s x on b).setWidth 32))
/-- GSITER.end (R453, R457). -/
def execGsiterEnd (g : Guard) (b : SSel) (s : State) : Host.Outcome State Fault Refusal :=
  conclude s do
    let (t, x) ← s.issuer
    let on := gTrue g x
    guardOps s x on [.s b] 0
    if !on then return s
    return gsRelease (popOps s x on [.s b]) t (.fin ((sVal s x on b).setWidth 32))
/-- A wait on a pass is over (R454). -/
def gsReleased (g : Gsq) (f : Found) (lay : Bool) (l : Nat) : Bool :=
  match f with
  | .gone => true
  | .future => false
  | .pass p => p.drained || p.closed || (if lay then decide (l < g.mark p) else p.acc.isSome)
/-- GSWAIT (R454). -/
def execGswait (g : Guard) (a b : SSel) (lay : Bool) (s : State) : Host.Outcome State Fault Refusal :=
  conclude s do
    let (t, x) ← s.issuer
    let on := gTrue g x
    let os := Opd.s a :: (if lay then [.s b] else [])
    guardOps s x on os 1
    if !on then return pushS s t 2 0
    let v := sVal s x on a
    let l := if lay then sVal s x on b else 0
    if v.extractLsb' 32 32 ≠ 0 then operand 0x38 v
    if 4095 < l.toNat then operand 0x38 l
    let q := gsqOf s ((groupEntry s t).getD 256)
    let f := q.find (v.setWidth 32)
    if !gsReleased q f lay l.toNat then .error .hold
    return pushS (dropClean (popOps s x on os) x.core) t 2 f.word

/-! ### Acceptance (R458) -/

/-- The walk from node n, at most `fuel` nodes down: the accepted node and the token sampled there. -/
def accWalk (d : TtDesc) (toks : List W32) : Nat → Nat → Nat × W32
  | 0, n => (n, toks.getD n 0)
  | fuel + 1, n =>
    let t := toks.getD n 0
    match (List.range d.nodes.length).find? fun k => decide (n < k) && (d.node k).parent == n && (d.node k).token == t with
    | some c => accWalk d toks fuel c
    | none => (n, t)
/-- GSACC (R458, R457). -/
def execGsacc (g : Guard) (a b : SSel) (s : State) : Host.Outcome State Fault Refusal :=
  conclude s do
    let (t, x) ← s.issuer
    let on := gTrue g x
    guardOps s x on [.s a, .s b] 1
    if !on then return pushS s t 4 0
    let v := sVal s x on a
    if v.extractLsb' 8 24 ≠ 0 then operand 0x37 v
    match treeOf s x.core t (v &&& 0xFF) false with
    | none => operand 0x37 v
    | some (_, d, _) =>
      let cnt := d.nodes.length
      let bs ← gsBytes s t x (sVal s x on b) (4 * cnt) 4
      let toks := (List.range cnt).map fun i => laneOf ((bs.drop (4 * i)).take 4)
      let (n, tok) := accWalk d toks cnt 0
      ttEcc d (n :: List.range' 1 (cnt - 1))
      let s := gsRelease (popOps s x on [.s a, .s b]) t (.acc (v.extractLsb' 32 32) n tok)
      return pushS s t 4 (BitVec.ofNat 64 (tok.toNat * 2 ^ 32 + (d.node n).depth * 2 ^ 8 + n))

/-! ### Noise and sampling (R461-R465) -/

/-- GSNOISE (R461). -/
def execGsnoise (g : Guard) (a b : SSel) (cl : Clu) (s : State) : Host.Outcome State Fault Refusal :=
  conclude s do
    let (t, x) ← s.issuer
    let on := gTrue g x
    guardOps s x on [.s a, .s b] 1 (priv := x.trapMode)
    if !on then return pushAll s t cl 6 false VReg.zero
    let v := sVal s x on a
    let w := sVal s x on b
    if w.extractLsb' 32 32 ≠ 0 then operand 0x35 w
    let id := nextId s t
    let s := sendGs (popOps s x on [.s a, .s b]) t x.core (.noise (v.setWidth 32) (v.extractLsb' 32 32) (w.setWidth 32) id)
    return pushQ s t (cluQ cl) 6 none
/-- Limits of a sampling descriptor that do not concern its tree (R462). -/
def sampOk (s : State) (b : List Byte) : Bool :=
  let lo := fld b 4 2
  let nm := fld b 2 2
  let lg := BitVec.ofNat 64 (fld b 0x20 8)
  let tag := lg.extractLsb' 61 3
  decide (1 ≤ fld b 0 2) && decide (1 ≤ nm) && decide (nm ≤ 1024) && decide (lo + nm - 1 ≤ s.fab.domHi) &&
  decide (lo ≤ s.fab.ep) && decide (s.fab.ep < lo + nm) && decide (1 ≤ fld b 6 2) && decide (fld b 6 2 ≤ 256) &&
  decide (1 ≤ fld b 0x10 4) && decide (fld b 0x10 4 ≤ 2 ^ 20) && decide (fld b 0x0C 4 + fld b 0x10 4 ≤ 2 ^ 32) &&
  fld b 0x28 4 % 4 == 0 && fld b 0x38 8 == 0 &&
  ((tag == 0 && !lg.getLsbD 56) || tag == 0b100 || tag == 0b101)
/-- SYNC of a descriptor: zero, or an aligned sync word of the own scratchpad (R462, R339). -/
def syncOk (s : State) (c : Nat) (b : List Byte) : Bool :=
  let sy := BitVec.ofNat 64 (fld b 0x30 8)
  sy == 0 || (sy.extractLsb' 61 3 == 0b100 && !badTag sy && tagOff sy % 16 == 0 && decide (tagOff sy + 16 ≤ spExt (s.core c).part))
/-- GSSAMP (R462-R465). -/
def execGssamp (g : Guard) (a : SSel) (s : State) : Host.Outcome State Fault Refusal :=
  conclude s do
    let (t, x) ← s.issuer
    let on := gTrue g x
    guardOps s x on [.s a] 0
    if !on then return s
    let v := sVal s x on a
    if 4 ≤ (s.fab.colls.filter fun c => c.task == t && !c.fin && c.key.kind == .samp).length then .error .hold
    let b ← gsBytes s t x v 64 64
    let nrow := fld b 6 2
    if !(sampOk s b && syncOk s x.core b) || collBusy s (fld b 0 2) then operand 0x36 v
    match treeOf s x.core t (BitVec.ofNat 64 (fld b 0x18 8)) false with
    | none => operand 0x36 v
    | some (_, d, _) =>
      if d.nodes.length < nrow then operand 0x36 v
      let out := fld b 0x2C 4
      let _ ← target s x .own (BitVec.ofNat 64 out) (4 * nrow) 4
      ttEcc d (List.range nrow)
      let sy := BitVec.ofNat 64 (fld b 0x30 8)
      let itn := fld b 0x14 4
      let e := (groupEntry s t).getD 256
      let gone := match (gsqOf s e).find (BitVec.ofNat 32 itn) with
        | .pass p => p.drained
        | _ => false
      let c : Coll := {
        key := { kind := .samp, cid := fld b 0 2, fields := [fld b 2 2, fld b 4 2, nrow, fld b 8 4, itn] }, inst := 0
        task := t, launch := x.launch, core := x.core, src := BitVec.ofNat 64 (fld b 0x20 8)
        dst := BitVec.ofNat 64 (4 * 2 ^ 61 + out), sync := if sy = 0 then none else some (tagOff sy)
        pos := (List.range nrow).map fun i => d.basePos + BitVec.ofNat 32 ((d.node i).depth + 1)
        seed := (gsqOf s e).seed, vlo := BitVec.ofNat 32 (fld b 0x0C 4), vn := fld b 0x10 4, lstr := fld b 0x28 4
        pass := if gone then none else some (e, itn), fork := forkOf s t x }
      return collIssue (popOps s x on [.s a]) c
/-- GSQ_OP_ARRIVAL: the operation whose cycle has come reaches its instance (R446). -/
def execGsqOpArrival (s : State) : Host.Outcome State Fault Refusal := .next (gsStep s)

end Sys2Proof.Machine
end

