-- ==== Sys2Proof/Machine/Matrix.lean ====
section
/-!
DEFINITION. The M slot (R262-R273) and the steps of the matrix engine: a tile transfer (R264), an array fill (R260), a
sweep rollback (R274).
-/

namespace Sys2Proof.Machine

/-- How MPUSH reads its row (R256). -/
def rowEf : AFmt → EF
  | .bf16 => .flt .bf16
  | .mxf8 => .act .mxf8
  | .mxf8b => .act .mxf8b
  | .mxi8 => .act .mxi8
  | .mxf4 => .act .mxf4

/-- MWLD (R255, R264). -/
def execMwld (g : Guard) (a : SSel) (h : BitVec 1) (s : State) : Host.Outcome State Fault Refusal :=
  conclude s do
    let (t, x) ← s.issuer
    noTrapMode x
    let on := gTrue g x
    guardOps s x on [.s a] 0
    if !on then return s
    let m := (s.core x.core).me
    let hf := m.half h.toNat
    meStop [((m.selv && m.sel == h.toNat) || hf.st == .loading, 4, BitVec.ofNat 64 h.toNat), busySweep s x.core t]
    let src := sVal s x on a
    if drainHeld s x t x.core then .error .hold
    let s := popOps s x on [.s a]
    return s.modMe x.core fun m =>
      let m := m.setHalf h.toNat
        { st := .loading, src := src, task := t, launch := x.launch, fetch := inSweep s x.core t, fork := forkOf s t x }
      { m with filled := if (m.filled.map (·.1)) = some h.toNat then none else m.filled }

/-- MWSEL (R255, R265). -/
def execMwsel (g : Guard) (h : BitVec 1) (s : State) : Host.Outcome State Fault Refusal :=
  conclude s do
    let (t, x) ← s.issuer
    noTrapMode x
    let on := gTrue g x
    guardOps s x on [] 0
    if !on then return s
    let m := (s.core x.core).me
    let hf := m.half h.toNat
    meStop [(hf.st == .empty, 2, BitVec.ofNat 64 h.toNat)]
    if hf.st = .failed then
      .error (.trap { code := cMatrix, sub := 3, info := BitVec.ofNat 64 hf.detail, addr := hf.addr, aux := h.toNat, fetch := hf.fetch })
    meStop [busySweep s x.core t]
    if hf.st = .loading then .error .hold
    if m.selv ∧ m.sel = h.toNat then return s
    return s.modMe x.core fun m => { m with sel := h.toNat, selv := true, filled := none, filling := none }

/-- The checks of a beat on the selected half (R266): NOHALF, FMTMIX, SELRANGE. -/
def beatChecks (m : MatrixEng) (seg : Nat) : List (Bool × Nat × W64) :=
  let h := m.half m.sel
  [(!m.selv || h.st != .ready, 2, BitVec.ofNat 64 m.sel),
   (aWidth m.afmt != aWidth h.bfmt, 5, BitVec.ofNat 64 (aCode m.afmt + aCode h.bfmt * 256)),
   (decide (h.nslice ≤ seg), 6, BitVec.ofNat 64 seg)]
/-- The row an accumulating beat adds into: ROWRANGE, and OUTWIN (R266). -/
def accChecks (s : State) (c t row : Nat) (acc : Bool) : (Bool × Nat × W64) × (Bool × Nat × W64) :=
  let r := rowRange s c row 1
  let o := outWin s c t row 1
  ((acc && r.1, r.2), (acc && o.1, o.2))
/-- MECC of what a beat reads: the half, and the row it adds into (R277). -/
def beatEcc (s : State) (c row : Nat) (acc : Bool) : List (Bool × Nat × W64) :=
  let m := (s.core c).me
  let r := rowEcc s c row 1
  [halfEcc (m.half m.sel), (acc && r.1, r.2)]
/-- A beat has formed OUT; it accumulates where ACC is set (R257, R258). -/
def beatDone (s : State) (c row : Nat) (acc : Bool) (out : List (Option Arith.Ext)) : State :=
  let s := s.modMe c fun m => { m with out := out, outv := true, beats := m.beats + 1 }
  if acc then accumulate s c row else s

/-- MPUSH (R266). A swapped one does not test FMTMIX, a half that is READY and selected or not (DESIGN CHOICE, log entry 101). -/
def execMpush (g : Guard) (a : VSel) (b : SSel) (cl : Clu) (acc : Bool) (seg : BitVec 4) (s : State) :
    Host.Outcome State Fault Refusal :=
  conclude s do
    let (t, x) ← s.issuer
    noTrapMode x
    let on := gTrue g x
    guardOps s x on [.v cl a, .s b] 0
    if !on then return s
    let m := (s.core x.core).me
    let row := vVal x cl (rowEf m.afmt) a
    let ctl := sVal s x on b
    let n := (ctl.extractLsb' 0 12).toNat
    if m.gw = .normal then
      let (rr, ow) := accChecks s x.core t n acc
      meStop ([rr] ++ beatChecks m seg.toNat ++ [ow, busySweep s x.core t] ++ beatEcc s x.core n acc)
      match needFill s x.core seg.toNat with
      | some s' => if s'.latch.isSome then return s'.modLatch fun l => { l with held := true } else return s'
      | none =>
        let s := popOps s x on [.s b]
        let m := { m with inRow := row, inv := true }
        let s := s.modMe x.core fun _ => m
        return beatDone s x.core n acc (beatNormal m (m.half m.sel) seg.toNat)
    else
      meStop [(decide (gwWidth m.gw ≤ n), 6, BitVec.ofNat 64 n), busySweep s x.core t,
        (acc || seg != 0, 12, BitVec.ofNat 64 (gwCode m.gw))]
      let s := popOps s x on [.s b]
      return s.modMe x.core fun m => { m with slots := put m.slots n row }

/-- MSHIFT (R266). -/
def execMshift (g : Guard) (b : SSel) (acc : Bool) (seg : BitVec 4) (s : State) : Host.Outcome State Fault Refusal :=
  conclude s do
    let (t, x) ← s.issuer
    noTrapMode x
    let on := gTrue g x
    guardOps s x on [.s b] 0
    if !on then return s
    let m := (s.core x.core).me
    let ctl := sVal s x on b
    let n := (ctl.extractLsb' 0 12).toNat
    let cg := (ctl.extractLsb' 16 7).toNat
    let (rr, ow) := accChecks s x.core t n acc
    if m.gw = .normal then
      meStop ([rr] ++ beatChecks m seg.toNat ++ [(!m.inv, 7, 0), ow, busySweep s x.core t] ++ beatEcc s x.core n acc)
      match needFill s x.core seg.toNat with
      | some s' => if s'.latch.isSome then return s'.modLatch fun l => { l with held := true } else return s'
      | none =>
        let s := popOps s x on [.s b]
        return beatDone s x.core n acc (beatNormal m (m.half m.sel) seg.toNat)
    else
      meStop ([rr] ++ beatChecks m seg.toNat ++
        [(decide (gwWidth m.gw ≤ cg), 6, BitVec.ofNat 64 cg), ow, busySweep s x.core t] ++ beatEcc s x.core n acc)
      let s := popOps s x on [.s b]
      return beatDone s x.core n acc (beatSwapped m (m.half m.sel) seg.toNat cg)

/-- MACC (R267). -/
def execMacc (g : Guard) (a : SSel) (s : State) : Host.Outcome State Fault Refusal :=
  conclude s do
    let (t, x) ← s.issuer
    noTrapMode x
    let on := gTrue g x
    guardOps s x on [.s a] 0
    if !on then return s
    let n := (sVal s x on a).toNat
    meStop [rowRange s x.core n 1, (!(s.core x.core).me.outv, 7, 0), outWin s x.core t n 1, busySweep s x.core t, rowEcc s x.core n 1]
    let s := popOps s x on [.s a]
    return accumulate s x.core n

/-- MDRN (R269). -/
def execMdrn (g : Guard) (a b : SSel) (cl : Clu) (df : DrainFmt) (clr : Bool) (s : State) : Host.Outcome State Fault Refusal :=
  conclude s do
    let (t, x) ← s.issuer
    noTrapMode x
    let on := gTrue g x
    guardOps s x on [.s a, .s b] 1
    if !on then return pushAll s t cl 6 false VReg.zero
    let n := (sVal s x on a).toNat
    let ow := outWin s x.core t n 1
    meStop [rowRange s x.core n 1, (clr && ow.1, ow.2), busySweep s x.core t, rowEcc s x.core n 1]
    let sc := (sVal s x on b).toNat % 2 ^ 32
    let v := drainRow df (accElem s x.core n) sc
    let s := popOps s x on [.s a, .s b]
    let s := if clr then accWrite s x.core n (List.replicate 128 0) else s
    return pushAll s t cl 6 true v

/-- MZERO (R268); n is the field, one less than the count. -/
def execMzero (g : Guard) (a : SSel) (n : BitVec 6) (s : State) : Host.Outcome State Fault Refusal :=
  conclude s do
    let (t, x) ← s.issuer
    noTrapMode x
    let on := gTrue g x
    guardOps s x on [.s a] 0
    if !on then return s
    let r := (sVal s x on a).toNat
    let k := n.toNat + 1
    meStop [rowRange s x.core r k, outWin s x.core t r k, busySweep s x.core t]
    let s := popOps s x on [.s a]
    return (List.range k).foldl (fun s i => accWrite s x.core (r + i) (List.replicate 128 0)) s

/-- MSWEEP (R272); n is the field, one less than the window's rows. -/
def execMsweep (g : Guard) (a : SSel) (n : BitVec 6) (s : State) : Host.Outcome State Fault Refusal :=
  conclude s do
    let (t, x) ← s.issuer
    noTrapMode x
    let on := gTrue g x
    guardOps s x on [.s a] 0
    if !on then return s
    let r := (sVal s x on a).toNat
    let k := n.toNat + 1
    let c := s.core x.core
    meStop [rowRange s x.core r k, (c.me.sweep.isSome || !x.fr.nest.act.isEmpty, 8, 0), busySweep s x.core t,
      rowEcc s x.core r k]
    let s := popOps s x on [.s a]
    let lim := (s.latch.map (·.fresh0)).getD s.fresh
    let tag := fun (q : Cmd) => if q.task = t ∧ lim ≤ q.id then { q with sweep := true } else q
    return s.modCore x.core fun c => { c with
      cq0 := c.cq0.map tag, cq1 := c.cq1.map tag,
      me := { c.me with sweep := some {
        owner := t, wbase := r, wlen := k, rows := c.ports (acBase c.part + 512 * r) (512 * k), slots := c.me.slots,
        sel := c.me.sel, selv := c.me.selv, gw := c.me.gw, afmt := c.me.afmt, pc := x.pc } } }

/-- MEND (R273). -/
def execMend (g : Guard) (s : State) : Host.Outcome State Fault Refusal :=
  conclude s do
    let (t, x) ← s.issuer
    noTrapMode x
    let on := gTrue g x
    guardOps s x on [] 0
    if !on then return s
    let m := (s.core x.core).me
    meStop [((m.sweep.map (·.owner)) != some t, 9, 0)]
    if fetchOpen s x.core then .error .hold
    let bad := fun (h : Half) (n : Nat) => if h.st = .failed ∧ h.fetch then
      (.error (.trap { code := cMatrix, sub := 3, info := BitVec.ofNat 64 h.detail, addr := h.addr, aux := n, fetch := true }) : Res Unit)
      else .ok ()
    bad m.h0 0
    bad m.h1 1
    return closeSweep s x.core

/-- MSWAP (R270). -/
def execMswap (g : Guard) (gw : Gw) (s : State) : Host.Outcome State Fault Refusal :=
  conclude s do
    let (t, x) ← s.issuer
    noTrapMode x
    let on := gTrue g x
    guardOps s x on [] 0
    if !on then return s
    meStop [busySweep s x.core t]
    return s.modMe x.core fun m => { m with gw := gw, slots := [], inv := false, outv := false, filled := none, filling := none }

/-- MFMT (R270). -/
def execMfmt (g : Guard) (ft : AFmt) (s : State) : Host.Outcome State Fault Refusal :=
  conclude s do
    let (t, x) ← s.issuer
    noTrapMode x
    let on := gTrue g x
    guardOps s x on [] 0
    if !on then return s
    meStop [busySweep s x.core t]
    return s.modMe x.core fun m => { m with afmt := ft, slots := [], inv := false, outv := false, filled := none, filling := none }

/-- MSTAT (R271). -/
def execMstat (g : Guard) (s : State) : Host.Outcome State Fault Refusal :=
  conclude s do
    let (t, x) ← s.issuer
    noTrapMode x
    let on := gTrue g x
    guardOps s x on [] 1
    return pushS s t 2 (if on then mestat s x.core t else 0)

/-! ### Steps of the engine -/

/-- The next part of a tile transfer: the whole image from a local source, or the next answer of a remote one. The body is read
before its indices are tested, so that a source fault comes first (DESIGN CHOICE, log entry 102). -/
def tileStep (s : State) (c n : Nat) : State :=
  let h := (s.core c).me.half n
  let set := fun (s : State) (h : Half) => s.modMe c fun m => m.setHalf n h
  if h.src.extractLsb' 61 3 = 0 ∧ isRemote h.src then
    match h.asked with
    | some _ => s
    | none =>
      match tileBad h.src, remoteChk s h.src with
      | some d, _ => set s (h.fail d h.src)
      | none, .error m => set s (h.fail (if m = .ecc then 0x100 else m.code) h.src)
      | none, .ok _ =>
        if 4096 ≤ tagsOut s c then s
        else if h.hdr.isEmpty then
          set (sendReq s h.src 64 0 none h.launch h.task (.half c n)) { h with asked := some s.fresh }
        else
          match tileHeader h.hdr with
          | none => set s (h.fail 0x100 h.src)
          | some (_, _, ns, sb) =>
            set (sendReq s (h.src + 64) (ns * sb) 0 none h.launch h.task (.half c n)) { h with asked := some s.fresh }
  else
    match tileRead s c h.src 64 with
    | (s, .error (d, a)) => set s (h.fail d a)
    | (s, .ok hdr) =>
      match tileHeader hdr with
      | none => set s (h.fail 0x100 h.src)
      | some (_, _, ns, sb) =>
        match tileRead s c h.src (64 + ns * sb) with
        | (s, .error (d, a)) => set s (h.fail d a)
        | (s, .ok bs) => set s (h.load hdr (bs.drop 64))

/-- MWLD_COMPLETE: the transfer of half `num` of core `core` (R255, R264) behind what comes before it (R111); none due, or held by a PHASE drain: no effect. -/
def execMwldComplete (s : State) : Host.Outcome State Fault Refusal :=
  let k := s.core s.ev.core
  let h := k.me.half s.ev.num
  if h.st = .loading ∧ forked s h.task h.fork ∧ !(k.drain.isSome && h.src.extractLsb' 61 3 == 0b100) then .next (tileStep s s.ev.core s.ev.num)
  else .next s

/-- ARRAY_FILL: the fill of core `core` ends and FILLED names the new pair (R260). -/
def execArrayFill (s : State) : Host.Outcome State Fault Refusal :=
  match (s.core s.ev.core).me.filling with
  | some (h, seg, due) =>
    if due.toNat ≤ (s.acyc[dieOf s.ev.core]).toNat then
      .next (s.modMe s.ev.core fun m => { m with filled := some (h, seg), filling := none })
    else .next s
  | none => .next s

/-- SWEEP_ROLLBACK: a due rollback of core `core`, once its commands are quiet, and the trap that follows it (R274). -/
def execSweepRollback (s : State) : Host.Outcome State Fault Refusal :=
  match (s.core s.ev.core).me.sweep with
  | some w =>
    match w.roll with
    | some next =>
      if fetchQuiet s s.ev.core then
        let s := rollBack s s.ev.core w
        match next with
        | some (c, m, async) => .next (trapEntry s w.owner c m async true w.pc)
        | none => .next s
      else .next s
    | none => .next s
  | none => .next s

end Sys2Proof.Machine
end

