-- ==== Sys2Proof/Machine/Node.lean ====
section
/-!
DEFINITION. The node instructions (R433-R442) and the steps of the Basin.
-/

namespace Sys2Proof.Machine

/-- A stream slot is BOUND to an endpoint (R323, R434). -/
def slotBound (s : State) (x : Context) (slot ep : Nat) : Bool :=
  match strmOf s x slot with
  | some (_, r) => !r.failed && r.holes.isEmpty && r.ep == ep
  | none => false
/-- The checks of R434 up to the scratchpad's, in their order: the issue index of a ticketed operation. -/
def nodeChecks (opc : Nat) (s : State) (t : Nat) (x : Context) (va vb : W64) (ok needRec tb : Bool) : Res (Option Nat) := do
  let id : W32 := va.setWidth 32
  if va.extractLsb' 36 28 ≠ 0 then operand opc va
  if !ok then operand opc vb
  if (id == nullId && needRec) || (id != nullId && (decide (2 ^ 20 ≤ idIndex id) || decide (s.fab.domHi < idPkg id))) then
    trapWith cStats 1 (id.setWidth 64)
  let slot := (va.extractLsb' 32 4).toNat
  if id != nullId && idPkg id != s.fab.ep && !slotBound s x slot (idPkg id) then trapWith cStats 2 (BitVec.ofNat 64 slot)
  if !tb || scopeOf s t == 0 then return none
  if ((look s.tasks t).map (·.retired)).getD false then trapWith cStats 3 (ticketOf s t)
  return some (((s.ctx? t).map (·.tkiss)).getD x.tkiss)
/-- A local operation joins those outstanding (R435, R442); its bundle waits while the commit stage is full. -/
def nodeLocal (s : State) (t : Nat) (x : Context) (id : W32) (op : NsOp) (tick : Option Nat) (ret : Bool) : Res State := do
  let q : NodeOp := { id := s.fresh, task := t, launch := x.launch, core := x.core, node := id, op := op, tick := tick, cur := id,
                      fork := forkOf s t x, pend := if ret then some (nextId s t) else none }
  if tick.isSome && !isHead s t && decide (4096 ≤ stageUsed s q.die) then .error .hold
  let s := countTick { s.tick with nops := s.nops ++ [q] } t tick
  return if ret then pushQ s t .s 24 none else s
/-- Sends a node operation on the stream of its slot: at once, or on the number it takes, once what comes before it at its issue
has been performed (R111, R435). The writes of its own stream come before it there. -/
def nodeSend (s : State) (t : Nat) (x : Context) (n : Nat) (r : Strm) (a : W64) (tk : Option RTicket) (body : StreamBody) : State :=
  let f := forkOf s t x
  let acks := f.acks.filter fun p => p.1 != n
  if f.waits.isEmpty && acks.isEmpty && f.pends.isEmpty then strmSend s t n r a tk body
  else addLater (takeNum s n r []) t { name := 0, va := a, acc := .rstore n r.next tk body, acks := acks, pends := f.pends }
/-- A remote operation leaves on the stream of its slot (R441); a ticketed one that no fabric group admits is not
performed (R327). -/
def nodeFar (s : State) (t : Nat) (x : Context) (id : W32) (slot : Nat) (op : NsOp) (tick : Option Nat) (ret : Bool) : Res State := do
  let a : W64 := id.setWidth 64
  if strmFull s x slot || (ret && decide (4096 ≤ tagsOut s x.core + ((s.latch.map (·.far)).getD []).length)) then .error .hold
  let pend := nextId s t
  let s := countTick s t tick
  if tick.isSome && !ftgAdmits s x.launch (idPkg id) then
    let s := tickApplied (postAsync s t (fabCause 8 a a)) t tick
    return if ret then pushS s.tick t 24 (Config.unstated s.fresh) else s
  match strmOf s x slot with
  | none => return s
  | some (n, r) =>
    let rq := s.fresh
    let (off, sp) := match op with
      | .rd .sp o => (o, true)
      | _ => (0, false)
    let w : Req := { dst := idPkg id, addr := a, launch := x.launch, kind := .node t pend x.core off sp }
    let s := if ret then { s.tick with fab := { s.fab with reqs := put s.fab.reqs rq w } } else s
    let tk := tick.map fun i => rticketOf s x.launch t i 0
    let s := if tick.isSome then ftgUse s x.launch else s
    let s := nodeSend s t x n r a tk (.node id x.launch op (if ret then some rq else none))
    return if ret then pushQ s t .s 24 none else s
/-- A node instruction (R433-R435): `ok` holds the limits of its operands, `mk` reads the scratchpad and forms it. -/
def nodeInstr (opc : Nat) (g : Guard) (a : SSel) (b : Option SSel) (tb ret needRec : Bool) (ok : W64 → W64 → Bool)
    (mk : State → Nat → Context → W64 → Res NsOp) (s : State) : Host.Outcome State Fault Refusal :=
  conclude s do
    let (t, x) ← s.issuer
    let on := gTrue g x
    let os := Opd.s a :: (b.map Opd.s).toList
    guardOps s x on os (if ret then 1 else 0)
    if !on then return if ret then pushS s t 24 0 else s
    let va := sVal s x on a
    let vb := (b.map fun k => sVal s x on k).getD 0
    let tick ← nodeChecks opc s t x va vb (ok va vb) needRec tb
    let op ← mk s t x vb
    let id : W32 := va.setWidth 32
    let s := popOps s x on os
    if id == nullId || idPkg id == s.fab.ep then nodeLocal s t x id op tick ret
    else nodeFar s t x id (va.extractLsb' 32 4).toNat op tick ret
/-- Own-scratchpad bytes of a node operation (R434, R438, R440). -/
def nodeSp (s : State) (t : Nat) (x : Context) (o : W64) (n al : Nat) : Res Nat := do
  let (c, off) ← target s x .own o n al
  if drainHeld s x t c then .error .hold
  return off

/-! ### Meanings -/

/-- NSVL (R436). -/
def execNsvl (g : Guard) (a b : SSel) (tb : Bool) (s : State) : Host.Outcome State Fault Refusal :=
  nodeInstr 0x20 g a (some b) tb false true (fun _ v => v.extractLsb' 16 48 == 0) (fun _ _ _ v => return .vl (v.setWidth 16)) s
/-- NSBACK (R436). -/
def execNsback (g : Guard) (a b : SSel) (tb alt : Bool) (s : State) : Host.Outcome State Fault Refusal :=
  nodeInstr 0x21 g a (some b) tb false true (fun _ v => v.extractLsb' 32 16 == 0)
    (fun _ _ _ v => return .back (v.setWidth 32) (v.extractLsb' 48 16) alt) s
/-- NSSEL (R437). -/
def execNssel (g : Guard) (a b : SSel) (tb : Bool) (s : State) : Host.Outcome State Fault Refusal :=
  nodeInstr 0x22 g a (some b) tb true true (fun _ _ => true) (fun _ _ _ v => return .sel (v.extractLsb' 32 32) (v.setWidth 32)) s
/-- NSRD (R438). -/
def execNsrd (g : Guard) (a b : SSel) (tb : Bool) (ft : NsRd) (s : State) : Host.Outcome State Fault Refusal :=
  match ft with
  | .word w => nodeInstr 0x23 g a none tb true true (fun _ _ => true) (fun _ _ _ _ => return .rd (.word w) 0) s
  | .sp => nodeInstr 0x23 g a (some b) tb true true (fun _ _ => true)
      (fun s t x v => do let o ← nodeSp s t x v 32 32; return .rd .sp o) s
/-- Limits of NSWR (R439). -/
def nswrOk (ft : NsField) (a b : W64) : Bool :=
  let first : W32 := b.setWidth 32
  let nch := (b.extractLsb' 32 16).toNat
  match ft with
  | .n | .user => b.extractLsb' 32 32 == 0
  | .vl | .p => b.extractLsb' 16 48 == 0
  | .w => true
  | .flags => b &&& ~~~0xFF04 == 0
  | .parent => b.extractLsb' 32 32 == 0 && (first == nullId || idPkg first == idPkg (a.setWidth 32))
  | .link => b.extractLsb' 48 16 == 0 && decide (nch ≤ 4096) &&
      (nch == 0 || (first.extractLsb' 21 11 == a.extractLsb' 21 11 && decide (idIndex first + nch ≤ 2 ^ 20)))
/-- NSWR (R439). -/
def execNswr (g : Guard) (a b : SSel) (tb : Bool) (ft : NsField) (s : State) : Host.Outcome State Fault Refusal :=
  nodeInstr 0x24 g a (some b) tb false true (nswrOk ft) (fun _ _ _ v => return .wr ft v) s
/-- The priors of NSALLOC (R440). -/
def readPriors (s : State) (c off n : Nat) : List (BitVec 16) :=
  let bs := spRead s c off (2 * n)
  (List.range n).map fun i => BitVec.ofNat 16 (leNat ((bs.drop (2 * i)).take 2))
/-- NSALLOC (R440). -/
def execNsalloc (g : Guard) (a b : SSel) (tb : Bool) (s : State) : Host.Outcome State Fault Refusal :=
  nodeInstr 0x25 g a (some b) tb true false (fun _ v => decide (1 ≤ (v.extractLsb' 0 16).toNat) && decide ((v.extractLsb' 0 16).toNat ≤ 4096))
    (fun s t x v => do
      let n := (v.extractLsb' 0 16).toNat
      let o ← nodeSp s t x ((v.extractLsb' 32 22).setWidth 64) (2 * n) 2
      spEcc s x.core o (2 * n) ((v.extractLsb' 32 22).setWidth 64)
      return .alloc (readPriors s x.core o n)) s
/-- NSALLOC.FREE (R440). -/
def execNsallocFree (g : Guard) (a : SSel) (tb : Bool) (s : State) : Host.Outcome State Fault Refusal :=
  nodeInstr 0x25 g a none tb true true (fun _ _ => true) (fun _ _ _ _ => return .free) s
/-- NODE_WALK_STEP of the operation named `num` (R436). -/
def execNodeWalkStep (s : State) : Host.Outcome State Fault Refusal := .next (nopStep s s.ev.num true)
/-- BASIN_APPLY of the operation named `num` (R435). -/
def execBasinApply (s : State) : Host.Outcome State Fault Refusal := .next (nopStep s s.ev.num false)

end Sys2Proof.Machine
end

