-- ==== Sys2Proof/Machine/Page.lean ====
section
/-!
DEFINITION. The page instructions at their issue (R357-R374) and the steps of the flash pager and the set store.
-/

namespace Sys2Proof.Machine

/-- A page command joins the engine of its slot (R358), a KVLD with DST and its stride from the registers (R359). -/
def pageCmd (s : State) (t : Nat) (x : Context) (ck : Nat) (obj : Option (Nat × Nat)) (k : CmdKind) (r : CeRegs := {}) : State :=
  let q : Cmd := { id := s.fresh, task := t, launch := x.launch, kind := k, ck := ck, obj := obj, sweep := inSweep s x.core t,
                   dst := r.dst, dstr := r.dstr, fork := forkOf s t x }
  modCmds s.tick x.core (ceOf s) fun l => l ++ [q]
/-- The completion object of a page command (R282, R358). -/
def pageObj (s : State) (x : Context) (op : Nat) (a : W64) (ck : Nat) : Res (Option (Nat × Nat)) := do
  if ck = 1 then return some (← objAt s x op a 16 16)
  else if ck = 3 then return some (← objAt s x op a 1 1)
  else if a ≠ 0 then operand op a
  else return none
/-- KVLD (R359). -/
def execKvld (g : Guard) (a b : SSel) (s : State) : Host.Outcome State Fault Refusal :=
  conclude s do
    let (t, x) ← s.issuer
    let on := gTrue g x
    guardOps s x on [.s a, .s b] 0
    if !on then return s
    let v := sVal s x on b
    let r := ceRegs s x.core (ceOf s)
    claimHold s x.core t
    roomHold s x.core t
    if r.wt ≠ some t then operand 0x28 0
    let ck := (v.extractLsb' 4 2).toNat
    let tag := r.dst.extractLsb' 61 3
    if v.extractLsb' 54 10 ≠ 0 ∨ v.extractLsb' 0 2 ≠ 0 ∨ v.extractLsb' 6 2 = 3 ∨ v.extractLsb' 2 2 = 3 ∨
      v.extractLsb' 32 2 ≠ 0 ∨ (ck = 2 ∧ tag ≠ 0b100 ∧ tag ≠ 0b101) then operand 0x28 v
    let obj ← pageObj s x 0x28 (sVal s x on a) ck
    let k : CmdKind := .kvld (v.extractLsb' 32 22).toNat ((v.extractLsb' 24 8).toNat + 1) (v.extractLsb' 16 8).toNat
      ((v.extractLsb' 8 8).toNat + 1) (v.extractLsb' 6 2).toNat (v.extractLsb' 2 2).toNat
    let s := pageCmd (popOps s x on [.s a, .s b]) t x ck obj k r
    return unclaim s x.core (ceOf s) t
/-- KVST (R364). -/
def execKvst (g : Guard) (a b : SSel) (s : State) : Host.Outcome State Fault Refusal :=
  conclude s do
    let (t, x) ← s.issuer
    let on := gTrue g x
    guardOps s x on [.s a, .s b] 0
    if !on then return s
    let v := sVal s x on b
    roomHold s x.core t
    let ck := (v.extractLsb' 22 2).toNat
    if ck = 2 ∨ v.extractLsb' 0 2 ≠ 0 then operand 0x29 v
    let obj ← pageObj s x 0x29 (sVal s x on a) ck
    return pageCmd (popOps s x on [.s a, .s b]) t x ck obj
      (.kvst (v.extractLsb' 32 32).toNat (v.extractLsb' 24 8).toNat (v.extractLsb' 0 22).toNat)
/-- PSEL (R366). -/
def execPsel (g : Guard) (a b : SSel) (s : State) : Host.Outcome State Fault Refusal :=
  conclude s do
    let (t, x) ← s.issuer
    let on := gTrue g x
    guardOps s x on [.s a, .s b] 0
    if !on then return s
    let v := sVal s x on b
    roomHold s x.core t
    let ck := (v.extractLsb' 4 2).toNat
    if v.extractLsb' 54 10 ≠ 0 ∨ v.extractLsb' 6 26 ≠ 0 ∨ v.extractLsb' 0 4 ≠ 0 ∨ v.extractLsb' 32 5 ≠ 0 then operand 0x2A v
    let obj ← pageObj s x 0x2A (sVal s x on a) ck
    return pageCmd (popOps s x on [.s a, .s b]) t x ck obj (.psel (v.extractLsb' 32 22).toNat)
/-- PMAP with operation `op` (R369): the command joins its engine and its word is pushed at latency 24. -/
def issuePmap (g : Guard) (a b : SSel) (op : Nat) (s : State) : Res State := do
  let (t, x) ← s.issuer
  let on := gTrue g x
  guardOps s x on [.s a, .s b] 1
  if !on then return pushS s t 24 0
  let h := sVal s x on a
  let v := sVal s x on b
  roomHold s x.core t
  if h.extractLsb' 32 32 ≠ 0 ∨ !pgOk s h.toNat then operand 0x2B h
  if op = 2 then need (v.extractLsb' 2 30 == 0 && v.extractLsb' 0 2 != 3) (operand 0x2B v)
  else need (v == 0) (operand 0x2B v)
  let p := nextId s t
  return pushQ (pageCmd (popOps s x on [.s a, .s b]) t x 0 none (.pmap op h.toNat v p)) t .s 24 none
/-- PMAP.READ (R369). -/
def execPmapRead (g : Guard) (a b : SSel) (s : State) : Host.Outcome State Fault Refusal := conclude s (issuePmap g a b 0 s)
/-- PMAP.READREF (R369). -/
def execPmapReadref (g : Guard) (a b : SSel) (s : State) : Host.Outcome State Fault Refusal := conclude s (issuePmap g a b 1 s)
/-- PMAP.MAPNEW (R369). -/
def execPmapMapnew (g : Guard) (a b : SSel) (s : State) : Host.Outcome State Fault Refusal := conclude s (issuePmap g a b 2 s)
/-- PMAP.REVOKE (R369). -/
def execPmapRevoke (g : Guard) (a b : SSel) (s : State) : Host.Outcome State Fault Refusal := conclude s (issuePmap g a b 3 s)
/-- PMAP.EVICT (R369, R370). -/
def execPmapEvict (g : Guard) (a b : SSel) (s : State) : Host.Outcome State Fault Refusal := conclude s (issuePmap g a b 4 s)
/-- PMAP.PREFETCH (R369). -/
def execPmapPrefetch (g : Guard) (a b : SSel) (s : State) : Host.Outcome State Fault Refusal := conclude s (issuePmap g a b 5 s)
/-- References a record would hold once every PSREF for it has been applied (R373). -/
def refsOf (s : State) (i : Nat) : Nat :=
  let held := ((look s.tasks i).map (·.refs.length)).getD 0
  s.cores.foldl (fun n p => n + ((p.2.cq0 ++ p.2.cq1).filter fun q =>
    match q.kind with
    | .psref _ _ _ _ _ h => h == some i && !q.busy && !q.issued
    | _ => false).length) held
/-- A child that has not started (R373). -/
def notStarted (k : Task) : Bool :=
  match k.st with
  | .waiting | .ready | .chosen | .batched | .inbatch => true
  | _ => false
/-- PSREF (R373). -/
def execPsref (g : Guard) (a b : SSel) (pin new : Bool) (s : State) : Host.Outcome State Fault Refusal :=
  conclude s do
    let (t, x) ← s.issuer
    let on := gTrue g x
    guardOps s x on [.s a, .s b] 0
    if !on then return s
    let u := sVal s x on a
    let v := sVal s x on b
    roomHold s x.core t
    let set := (u.extractLsb' 0 16).toNat
    if 16384 ≤ set then operand 0x2C u
    let holder ← if new then do
        if u.extractLsb' 16 16 ≠ 0 ∨ u.extractLsb' 50 14 ≠ 0 ∨ u.extractLsb' 48 2 = 3 ∨ (look s.pg.sets set).isSome then operand 0x2C u
        if v.extractLsb' 0 2 ≠ 0 ∨ isRemote v then operand 0x2C v
        pure (if pin then none else some t)
      else do
        if u.extractLsb' 16 48 ≠ 0 ∨ (look s.pg.sets set).isNone then operand 0x2C u
        if pin then
          if v ≠ 0 then operand 0x2C v else pure none
        else if v = 0 then pure (some t)
        else match childOf s t v with
          | some (i, k) => if notStarted k then pure (some i) else operand 0x2C v
          | none => operand 0x2C v
    match holder with
    | some i => if 16 ≤ refsOf s i then operand 0x2C u
    | none => pure ()
    let k : CmdKind := .psref set ((u.extractLsb' 32 16).toNat + 1) (u.extractLsb' 48 2).toNat new v holder
    return pageCmd (popOps s x on [.s a, .s b]) t x 0 none k
/-- PSDROP (R374). -/
def execPsdrop (g : Guard) (a : SSel) (pin : Bool) (s : State) : Host.Outcome State Fault Refusal :=
  conclude s do
    let (t, x) ← s.issuer
    let on := gTrue g x
    guardOps s x on [.s a] 0
    if !on then return s
    let u := sVal s x on a
    roomHold s x.core t
    if 16384 ≤ u.toNat then operand 0x2D u
    let held := match look s.pg.sets u.toNat with
      | some g => if pin then decide (0 < g.pins) else ((look s.tasks t).map (·.refs.contains u.toNat)).getD false
      | none => false
    if !held then operand 0x2D u
    return pageCmd (popOps s x on [.s a]) t x 0 none (.psdrop u.toNat pin)

/-! ### Steps -/

/-- FLASH_FILL: the flash pager begins its next fill, or ends the one in progress; `flag` says that the flash could not
be read (R363). -/
def execFlashFill (s : State) : Host.Outcome State Fault Refusal :=
  match s.pg.filling with
  | some h => .next (fillEnd s h s.ev.flag)
  | none => .next (fillBegin s)
/-- EVICT_COMPLETE: the write-out of page `num` ends (R370). -/
def execEvictComplete (s : State) : Host.Outcome State Fault Refusal := .next (evictEnd s s.ev.num)
/-- SET_BUILD_COMPLETE: the copy of the list of set `num` ends (R372). -/
def execSetBuildComplete (s : State) : Host.Outcome State Fault Refusal := .next (setBuilt s s.ev.num)

end Sys2Proof.Machine
end

