-- ==== Sys2Proof/Machine/ScalarArith.lean ====
section
/-!
DEFINITION. The S slot: arithmetic, logic, predicates and index registers (R161-R174).
-/

namespace Sys2Proof.Machine

/-- A two-operand instruction that pushes one result (R160): `f` of A and B, or A where the guard is false (R31). -/
def sBin (g : Guard) (a b : SSel) (lat : Nat) (f : W64 → W64 → W64) (s : State) : Host.Outcome State Fault Refusal :=
  conclude s do
    let (t, x) ← s.issuer
    let on := gTrue g x
    guardOps s x on [.s a, .s b] 1
    let va := sVal s x on a
    return pushS (popOps s x on [.s a, .s b]) t lat (if on then f va (sVal s x on b) else va)
/-- A one-operand instruction that pushes one result (R160); `on` is its guard. -/
def sUn (gd : Context → Bool) (a : SSel) (lat : Nat) (f : W64 → W64) (s : State) : Host.Outcome State Fault Refusal :=
  conclude s do
    let (t, x) ← s.issuer
    let on := gd x
    guardOps s x on [.s a] 1
    let va := sVal s x on a
    return pushS (popOps s x on [.s a]) t lat (if on then f va else va)
/-- An integer instruction of a width (R162, R164): the exact result of the two integers read. -/
def intOp (w : Width) (u sat : Bool) (f : Int → Int → Int) (a b : W64) : W64 :=
  let n := Arith.bits w
  Arith.intOut (f (Arith.intIn a.toNat n u) (Arith.intIn b.toNat n u)) n u sat
/-- A bitwise instruction of a width (R164). -/
def bitOp (w : Width) (u : Bool) (f : W64 → W64 → W64) (a b : W64) : W64 :=
  Arith.intOut (f a b).toNat (Arith.bits w) u false
/-- A shift of a width: the amount is every bit of B (R164). -/
def shiftOp (w : Width) (u : Bool) (f : Int → Nat → Nat → Int) (a b : W64) : W64 :=
  let n := Arith.bits w
  Arith.intOut (f (Arith.intIn a.toNat n u) b.toNat n) n u false

/-- ADD (R164). -/
def execAdd (g : Guard) (a b : SSel) (sat u : Bool) (w : Width) (s : State) : Host.Outcome State Fault Refusal :=
  sBin g a b 1 (intOp w u sat fun x y => x + y) s
/-- SUB (R164). -/
def execSub (g : Guard) (a b : SSel) (sat u : Bool) (w : Width) (s : State) : Host.Outcome State Fault Refusal :=
  sBin g a b 1 (intOp w u sat fun x y => x - y) s
/-- ADDI (R166). -/
def execAddi (g : BitVec 3) (a : SSel) (i : BitVec 13) (s : State) : Host.Outcome State Fault Refusal :=
  sUn (gOn g) a 1 (fun x => x + i.signExtend 64) s
/-- MUL (R164). -/
def execMul (g : Guard) (a b : SSel) (sat u : Bool) (w : Width) (s : State) : Host.Outcome State Fault Refusal :=
  sBin g a b 3 (intOp w u sat fun x y => x * y) s
/-- MULH (R164). -/
def execMulh (g : Guard) (a b : SSel) (u : Bool) (w : Width) (s : State) : Host.Outcome State Fault Refusal :=
  sBin g a b 3 (intOp w u false fun x y => x * y / 2 ^ Arith.bits w) s
/-- DIV (R165). -/
def execDiv (g : Guard) (a b : SSel) (sat u : Bool) (w : Width) (s : State) : Host.Outcome State Fault Refusal :=
  sBin g a b 18 (intOp w u false fun x y => (Arith.divRem x y (Arith.bits w) u sat).1) s
/-- REM (R165). -/
def execRem (g : Guard) (a b : SSel) (u : Bool) (w : Width) (s : State) : Host.Outcome State Fault Refusal :=
  sBin g a b 18 (intOp w u false fun x y => (Arith.divRem x y (Arith.bits w) u false).2) s
/-- AND (R164). -/
def execAnd (g : Guard) (a b : SSel) (u : Bool) (w : Width) (s : State) : Host.Outcome State Fault Refusal :=
  sBin g a b 1 (bitOp w u fun x y => x &&& y) s
/-- OR (R164). -/
def execOr (g : Guard) (a b : SSel) (u : Bool) (w : Width) (s : State) : Host.Outcome State Fault Refusal :=
  sBin g a b 1 (bitOp w u fun x y => x ||| y) s
/-- XOR (R164). -/
def execXor (g : Guard) (a b : SSel) (u : Bool) (w : Width) (s : State) : Host.Outcome State Fault Refusal :=
  sBin g a b 1 (bitOp w u fun x y => x ^^^ y) s
/-- ANDI (R166). -/
def execAndi (g : BitVec 3) (a : SSel) (i : BitVec 13) (s : State) : Host.Outcome State Fault Refusal :=
  sUn (gOn g) a 1 (fun x => x &&& i.signExtend 64) s
/-- SHL (R164). -/
def execShl (g : Guard) (a b : SSel) (u : Bool) (w : Width) (s : State) : Host.Outcome State Fault Refusal :=
  sBin g a b 1 (shiftOp w u Arith.shl) s
/-- SHR (R164). -/
def execShr (g : Guard) (a b : SSel) (u : Bool) (w : Width) (s : State) : Host.Outcome State Fault Refusal :=
  sBin g a b 1 (shiftOp w u Arith.shr) s
/-- SHLI (R166). -/
def execShli (g : BitVec 3) (a : SSel) (u : Bool) (w : Width) (sh : BitVec 6) (s : State) : Host.Outcome State Fault Refusal :=
  sUn (gOn g) a 1 (fun x => shiftOp w u Arith.shl x (sh.setWidth 64)) s
/-- SHRI (R166). -/
def execShri (g : BitVec 3) (a : SSel) (u : Bool) (w : Width) (sh : BitVec 6) (s : State) : Host.Outcome State Fault Refusal :=
  sUn (gOn g) a 1 (fun x => shiftOp w u Arith.shr x (sh.setWidth 64)) s
/-- MOVI (R166); a false guard pushes zero (R31). -/
def execMovi (g : BitVec 3) (i : BitVec 13) (s : State) : Host.Outcome State Fault Refusal :=
  conclude s do
    let (t, x) ← s.issuer
    guardOps s x (gOn g x) [] 1
    return pushS s t 1 (if gOn g x then i.signExtend 64 else 0)
/-- SHORI (R166). -/
def execShori (g : BitVec 3) (a : SSel) (i : BitVec 13) (s : State) : Host.Outcome State Fault Refusal :=
  sUn (gOn g) a 1 (fun x => (x <<< 13) ||| i.setWidth 64) s
/-- MIN (R164). -/
def execMin (g : Guard) (a b : SSel) (u : Bool) (w : Width) (s : State) : Host.Outcome State Fault Refusal :=
  sBin g a b 1 (intOp w u false fun x y => min x y) s
/-- MAX (R164). -/
def execMax (g : Guard) (a b : SSel) (u : Bool) (w : Width) (s : State) : Host.Outcome State Fault Refusal :=
  sBin g a b 1 (intOp w u false fun x y => max x y) s
/-- CLZ (R167). -/
def execClz (g : Guard) (a : SSel) (w : Width) (s : State) : Host.Outcome State Fault Refusal :=
  sUn (gTrue g) a 1 (fun x => BitVec.ofNat 64 (Arith.clz x.toNat (Arith.bits w))) s
/-- POPC (R167). -/
def execPopc (g : Guard) (a : SSel) (w : Width) (s : State) : Host.Outcome State Fault Refusal :=
  sUn (gTrue g) a 1 (fun x => BitVec.ofNat 64 (Arith.popc x.toNat (Arith.bits w))) s
/-- SEXT (R167). -/
def execSext (g : Guard) (a : SSel) (u : Bool) (w : Width) (s : State) : Host.Outcome State Fault Refusal :=
  sUn (gTrue g) a 1 (fun x => Arith.intOut (Arith.intIn x.toNat (Arith.bits w) u) (Arith.bits w) u false) s

/-- pos and len of a bit-field control operand; none where they are out of their limits (R168). -/
def fieldOf (b : W64) : Option (Nat × Nat) :=
  let pos := (b.extractLsb' 0 6).toNat
  let len := (b.extractLsb' 8 7).toNat
  if len = 0 ∨ 64 < len ∨ 64 < pos + len then none else some (pos, len)
/-- The field BFX extracts (R168). -/
def bfxVal (a : W64) (pos len : Nat) (u : Bool) : W64 :=
  Arith.intOut (Arith.intIn (a.toNat / 2 ^ pos) len u) len u false
/-- What BFI pushes (R168). -/
def bfiVal (a q : W64) (pos len : Nat) : W64 :=
  let m : W64 := BitVec.ofNat 64 ((2 ^ len - 1) * 2 ^ pos)
  (a &&& ~~~m) ||| ((q <<< pos) &&& m)
/-- BFX (R168). -/
def execBfx (g : Guard) (a b : SSel) (u : Bool) (s : State) : Host.Outcome State Fault Refusal :=
  conclude s do
    let (t, x) ← s.issuer
    let on := gTrue g x
    guardOps s x on [.s a, .s b] 1
    let va := sVal s x on a
    let vb := sVal s x on b
    let s' := popOps s x on [.s a, .s b]
    if !on then return pushS s' t 1 va
    match fieldOf vb with
    | none => operand 0x16 vb
    | some (pos, len) => return pushS s' t 1 (bfxVal va pos len u)
/-- BFI (R168); m is the age of the qs entry that supplies the inserted bits. -/
def execBfi (g : Guard) (a b : SSel) (m : BitVec 4) (s : State) : Host.Outcome State Fault Refusal :=
  conclude s do
    let (t, x) ← s.issuer
    let on := gTrue g x
    guardOps s x on [.s a, .s b, .s (.q m)] 1
    let va := sVal s x on a
    let vb := sVal s x on b
    let s' := popOps s x on [.s a, .s b]
    if !on then return pushS s' t 2 va
    match fieldOf vb with
    | none => operand 0x17 vb
    | some (pos, len) => return pushS s' t 2 (bfiVal va (x.qsAt m) pos len)
/-- SEL (R169). -/
def execSel (g : Guard) (a b : SSel) (p : BitVec 3) (s : State) : Host.Outcome State Fault Refusal :=
  conclude s do
    let (t, x) ← s.issuer
    let on := gTrue g x
    guardOps s x on [.s a, .s b] 1
    let va := sVal s x on a
    let s' := popOps s x on [.s a, .s b]
    return pushS s' t 1 (if on && !(x.fr.ps.getLsbD p.toNat) then sVal s x on b else va)
/-- CMP (R170). -/
def execCmp (g : Guard) (a b : SSel) (cond : CmpCond) (d : BitVec 3) (s : State) : Host.Outcome State Fault Refusal :=
  conclude s do
    let (t, x) ← s.issuer
    let on := gTrue g x
    guardOps s x on [.s a, .s b] 0
    let s' := popOps s x on [.s a, .s b]
    return if on then wrPs s' t d (cmpCond cond (sVal s x on a) (sVal s x on b)) else s'
/-- PLOG (R171). -/
def execPlog (g : Guard) (x y : BitVec 3) (op : PlogOp) (d : BitVec 3) (s : State) : Host.Outcome State Fault Refusal :=
  conclude s do
    let (t, c) ← s.issuer
    guardOps s c (gTrue g c) [] 0
    return if gTrue g c then wrPs s t d (Arith.plog op (c.fr.ps.getLsbD x.toNat) (c.fr.ps.getLsbD y.toNat)) else s
/-- PUTX (R173). -/
def execPutx (g : Guard) (a : SSel) (x : IdxReg) (s : State) : Host.Outcome State Fault Refusal :=
  conclude s do
    let (t, c) ← s.issuer
    let on := gTrue g c
    guardOps s c on [.s a] 0
    let s' := popOps s c on [.s a]
    return if on then wrX s' t x ((sVal s c on a).setWidth 32) else s'
/-- XADDI (R174). -/
def execXaddi (g : BitVec 3) (x : IdxReg) (i : BitVec 13) (s : State) : Host.Outcome State Fault Refusal :=
  conclude s do
    let (t, c) ← s.issuer
    guardOps s c (gOn g c) [] 0
    return if gOn g c then wrX s t x (c.xReg x + i.signExtend 32) else s

end Sys2Proof.Machine
end

