-- ==== Sys2Proof/Machine/ScalarCtl.lean ====
section
/-!
DEFINITION. The S slot: transfers, the replay nest, the count queue and context control (R183-R193).
-/

namespace Sys2Proof.Machine

/-! ### Transfers (R183, R184) -/

/-- The target of a relative transfer: a count of words from the transferring bundle. -/
def relTarget (pc : W64) (off : W64) : W64 := pc + (off <<< 2)
/-- NOP (R42). -/
def execNop (s : State) : Host.Outcome State Fault Refusal :=
  conclude s do
    let (_, x) ← s.issuer
    guardOps s x true [] 0
    return s
/-- BR. -/
def execBr (g : BitVec 3) (i : BitVec 13) (s : State) : Host.Outcome State Fault Refusal :=
  conclude s do
    let (t, x) ← s.issuer
    guardOps s x (gOn g x) [] 0
    return if gOn g x then transfer s t x.pc (relTarget x.pc (i.signExtend 64)) else s
/-- The mask stacks a BRME tests are empty at their tops (R183, R201). -/
def topsEmpty (x : Context) : Cl3 → Bool
  | .a => topMask x .a == 0
  | .b => topMask x .b == 0
  | .ab => topMask x .a == 0 && topMask x .b == 0
/-- BRME. -/
def execBrme (g : BitVec 3) (cl : Cl3) (i : BitVec 13) (s : State) : Host.Outcome State Fault Refusal :=
  conclude s do
    let (t, x) ← s.issuer
    guardOps s x (gOn g x) [] 0
    return if gOn g x && topsEmpty x cl then transfer s t x.pc (relTarget x.pc (i.signExtend 64)) else s
/-- JMP. -/
def execJmp (off : BitVec 22) (s : State) : Host.Outcome State Fault Refusal :=
  conclude s do
    let (t, x) ← s.issuer
    return transfer s t x.pc (relTarget x.pc (off.signExtend 64))
/-- CALL. -/
def execCall (off : BitVec 22) (s : State) : Host.Outcome State Fault Refusal :=
  conclude s do
    let (t, x) ← s.issuer
    guardOps s x true [] 1
    return transfer (pushS s t 1 x.npc) t x.pc (relTarget x.pc (off.signExtend 64))
/-- A register target (R184). -/
def regTarget (op : Nat) (v : W64) : Res Unit :=
  need (v.extractLsb' 57 7 == 0 && v.extractLsb' 0 2 == 0) (operand op v)
/-- A transfer to a register target that pushes nothing. -/
def jumpReg (op : Nat) (g : Guard) (a : SSel) (s : State) : Host.Outcome State Fault Refusal :=
  conclude s do
    let (t, x) ← s.issuer
    let on := gTrue g x
    guardOps s x on [.s a] 0
    if !on then return s
    regTarget op (sVal s x on a)
    return transfer (popOps s x on [.s a]) t x.pc (sVal s x on a)
/-- JMPR. -/
def execJmpr (g : Guard) (a : SSel) (s : State) : Host.Outcome State Fault Refusal := jumpReg 0x2C g a s
/-- RET. -/
def execRet (g : Guard) (a : SSel) (s : State) : Host.Outcome State Fault Refusal := jumpReg 0x2E g a s
/-- CALLR; a false guard pushes A (R184). -/
def execCallr (g : Guard) (a : SSel) (s : State) : Host.Outcome State Fault Refusal :=
  conclude s do
    let (t, x) ← s.issuer
    let on := gTrue g x
    guardOps s x on [.s a] 1
    let va := sVal s x on a
    if !on then return pushS s t 1 va
    regTarget 0x2D va
    return transfer (pushS (popOps s x on [.s a]) t 1 x.npc) t x.pc va

/-! ### The replay nest (R185, R186) -/

/-- A level may open with this body (R185): fewer than six are active, and the body lies in the enclosing one. -/
def nestRoom (x : Context) (len : Nat) : Bool :=
  match x.fr.nest.act with
  | [] => decide (len ≤ 64)
  | l :: r => decide (r.length < 5) && decide (x.fr.nest.pos + 1 + len ≤ l.base + l.len)
/-- Opens the level of a NEST: after its bundle, or at once behind it where the slot executes alone. -/
def nestOpen (s : State) (t trip stages len : Nat) : State :=
  match s.latch with
  | some _ => s.modCtx t fun x => { x with opening := some (trip, stages, len) }
  | none =>
    nestSkip (s.modCtx t fun x =>
      openLevel { (if x.fr.nest.act.isEmpty then x else x.modNest fun n => { n with pos := n.pos + 1 }) with pc := x.npc }
        trip stages len) t skipFuel
/-- NEST (R185); len is the field, one less than the body's length. -/
def execNest (g : Guard) (a : SSel) (bs : NestB) (len : BitVec 6) (s : State) : Host.Outcome State Fault Refusal :=
  conclude s do
    let (t, x) ← s.issuer
    let on := gTrue g x
    let src : SSel := if bs.cq then .cq else a
    guardOps s x on [.s src] 0
    if !on then return s
    if !nestRoom x (len.toNat + 1) then operand 0x30 (Config.freeInfo s.fresh)
    let trip := (sVal s x on src).toNat % 2 ^ 32
    return nestOpen (popOps s x on [.s src]) t trip bs.stages.toNat (len.toNat + 1)
/-- Number of a nest level. -/
def lvlNum : Lvl → Nat
  | .l0 => 0 | .l1 => 1 | .l2 => 2 | .l3 => 3 | .l4 => 4 | .l5 => 5
/-- Changes the settings of a level. -/
def modSet (s : State) (t : Nat) (l : Lvl) (f : NestSet → NestSet) : State :=
  s.modCtx t fun x => x.modNest fun n => { n with set := n.set.setIfInBounds (lvlNum l) (f (n.set.getD (lvlNum l) {})) }
/-- NSTRIDE (R186). -/
def execNstride (g : Guard) (a : SSel) (k : StrideB) (clr : Bool) (j : BitVec 2) (l : Lvl) (s : State) :
    Host.Outcome State Fault Refusal :=
  conclude s do
    let (t, x) ← s.issuer
    let on := gTrue g x
    match k, clr with
    | .reg r, false =>
      guardOps s x on [.s a, .d (.k r)] 0
      if !on then return s
      let amt := sVal s x on a
      return modSet (popOps s x on [.s a]) t l fun m => { m with stride := m.stride.setIfInBounds j.toNat (some (r, amt)) }
    | _, _ =>
      guardOps s x on [] 0
      return if on then modSet s t l fun m => { m with stride := m.stride.setIfInBounds j.toNat none } else s
/-- NESTMASK (R186). -/
def execNestmask (g : Guard) (a b : SSel) (l : Lvl) (s : State) : Host.Outcome State Fault Refusal :=
  conclude s do
    let (t, x) ← s.issuer
    let on := gTrue g x
    guardOps s x on [.s a, .s b] 0
    if !on then return s
    let va := sVal s x on a
    let vb := sVal s x on b
    return modSet (popOps s x on [.s a, .s b]) t l fun m => { m with first := va, last := vb }

/-! ### The count queue (R187) -/

/-- CQPUSH. -/
def execCqpush (g : Guard) (a : SSel) (s : State) : Host.Outcome State Fault Refusal :=
  conclude s do
    let (t, x) ← s.issuer
    let on := gTrue g x
    guardOps s x on [.s a] 0
    let _ := t
    if !on then return s
    need (decide (cqHeld s x.core (a == .cq) < 64)) (trapWith cCqFull)
    let v := (sVal s x on a).setWidth 32
    return cqPush (popOps s x on [.s a]) x.core [v]
/-- CQCLR. -/
def execCqclr (s : State) : Host.Outcome State Fault Refusal :=
  conclude s do
    let (_, x) ← s.issuer
    return if s.latch.isSome then s.modLatch fun l => { l with cqClr := true } else s.modCore x.core fun k => { k with cq := [] }

/-! ### Context control (R188-R193) -/

/-- The declared registers of a file as a mask (R20). -/
def declMask (x : Context) (f : File3) : W32 := BitVec.ofNat 32 (2 ^ x.declared f - 1)
/-- Registers kept by a new liveness mask; one that dies, or was dead, holds zero (R133, R188). -/
def keepLive {α : Type} (z : α) (old new : W32) (v : Vector α 32) : Vector α 32 :=
  Vector.ofFn fun i => if new.getLsbD i.val && old.getLsbD i.val then v[i] else z
/-- Sets the liveness mask of a file. -/
def setLive (y : Context) (ft : File3) (m : W32) : Context :=
  match ft with
  | .k => { y with liveK := m, k := keepLive 0 y.liveK m y.k }
  | .va => { y with liveA := m, va := keepLive VReg.zero y.liveA m y.va }
  | .vb => { y with liveB := m, vb := keepLive VReg.zero y.liveB m y.vb }
/-- Register blocks of a context that hold no live register. -/
def deadBlock (x : Context) : RcBlock → Bool
  | .k => x.liveK == 0
  | .va r => !x.liveA.getLsbD r.toNat
  | .vb r => !x.liveB.getLsbD r.toNat
/-- They are released without write-back (R133). -/
def dropDead (s : State) (t : Nat) : State :=
  match s.ctx? t with
  | some x =>
    let keep := fun (p : Nat × RcBlock) => p.1 != t || !deadBlock x p.2
    let k := s.core x.core
    if k.rc.all keep && k.rcBad.all keep then s else s.modCore x.core fun k => { k with rc := k.rc.filter keep, rcBad := k.rcBad.filter keep }
  | none => s
/-- LIVE (R133, R188): a register that dies loses its value, and its block is released after the bundle. -/
def execLive (g : Guard) (a : SSel) (ft : File3) (s : State) : Host.Outcome State Fault Refusal :=
  conclude s do
    let (t, x) ← s.issuer
    let on := gTrue g x
    guardOps s x on [.s a] 0
    if !on then return s
    let m := (sVal s x on a).setWidth 32 &&& declMask x ft
    let s := (popOps s x on [.s a]).modCtx t fun y => setLive y ft m
    return if s.latch.isSome then s else dropDead s t
/-- TRAP (R191). -/
def execTrap (g : BitVec 3) (i : BitVec 8) (s : State) : Host.Outcome State Fault Refusal :=
  conclude s do
    let (_, x) ← s.issuer
    guardOps s x (gOn g x) [] 0
    if gOn g x then trapWith cSoft i.toNat x.npc
    return s
/-- RTE (R151, R192): its wait is that of the results its bundle leaves pending. -/
def execRte (s : State) : Host.Outcome State Fault Refusal :=
  conclude s do
    let (t, x) ← s.issuer
    guardOps s x true [] 0 (priv := !x.trapMode)
    let s := s.modCtx t fun y => { y with rte := true, wait := rteWait y x.ccyc }
    return if s.latch.isSome then s else rteFinish s t x.ccyc
/-- WAITCY (R193). -/
def execWaitcy (g : BitVec 3) (i : BitVec 13) (s : State) : Host.Outcome State Fault Refusal :=
  conclude s do
    let (t, x) ← s.issuer
    guardOps s x (gOn g x) [] 0
    return if gOn g x then s.modCtx t fun y => { y with wait := y.wait + i.toNat } else s
/-- SNAP (R194, R482). -/
def execSnap (g : Guard) (a : SSel) (s : State) : Host.Outcome State Fault Refusal :=
  conclude s do
    let (_, x) ← s.issuer
    let on := gTrue g x
    guardOps s x on [.s a] 0
    if !on then return s
    return fireFor (popOps s x on [.s a]) x 1 (sVal s x on a)

/-- EXIT (R195): in a bundle it takes effect at the bundle's end. -/
def execExit (g : Guard) (a : SSel) (s : State) : Host.Outcome State Fault Refusal :=
  conclude s do
    let (t, x) ← s.issuer
    let on := gTrue g x
    guardOps s x on [.s a] 0
    if !on then return s
    let v := sVal s x on a
    let s := popOps s x on [.s a]
    return if s.latch.isSome then s.modCtx t fun y => { y with exit := some v } else exitTask s t v

/-! ### PHASE (R145, R189) -/

/-- A plain access to local memory, through the data cache. -/
def Later.isPlain (e : Later) : Bool :=
  match e.acc with
  | .load _ _ _ _ _ | .row _ _ _ _ | .store _ => true
  | _ => false
/-- Everything already issued on the core that touches its scratchpad or its data cache has been performed (R145). -/
def phaseQuiet (s : State) (c : Nat) : Bool :=
  let k := s.core c
  let sp := fun (h : Half) => h.st == .loading && h.src.extractLsb' 61 3 == 0b100
  k.drain.isNone && k.cq0.isEmpty && k.cq1.isEmpty && !sp k.me.h0 && !sp k.me.h1 &&
    (s.ctxs.all fun p => p.2.core != c || !(p.2.rels.any Later.isPlain))
/-- PHASE: the drain starts and its context waits (R145 steps 1, 2, 5). -/
def execPhase (g : Guard) (a : SSel) (s : State) : Host.Outcome State Fault Refusal :=
  conclude s do
    let (t, x) ← s.issuer
    let on := gTrue g x
    guardOps s x on [.s a] 0
    if !on then return s
    let d := sVal s x on a
    let p := (s.core x.core).part
    if spBank p - 4 < d.toNat then operand 0x36 d
    if !phaseQuiet s x.core then .error .hold
    let b := if dcBank p ≤ d.toNat then d.toNat - dcBank p else dcBank p - d.toNat
    let s := (popOps s x on [.s a]).modCore x.core fun k => { k with drain := some { task := t, d := d.toNat } }
    return s.modCtx t fun y => { y with wait := y.wait + 16 + 512 * b }
/-- Evicts the lowest lines of a data cache until n are left. -/
def shrinkDc (s : State) (c n : Nat) : Nat → State
  | 0 => s
  | fuel + 1 =>
    match (s.core c).dc with
    | (ln, _) :: _ => if n < (s.core c).dc.length then shrinkDc (evictLine s c ln) c n fuel else s
    | [] => s
/-- The banks of a PHASE move (R145 steps 3 and 4), at the end of its drain (log entry 83). -/
def moveBanks (s : State) (c d : Nat) : State :=
  let k := s.core c
  let old := spExt k.part
  let s := shrinkDc s c (512 * d) k.dc.length
  s.modCore c fun k =>
    let part : W32 := (k.part &&& ~~~(0x3F000 : W32)) ||| BitVec.ofNat 32 (d * 4096)
    let new := spExt part
    let lo := spBase part + min old new
    let hi := spBase part + max old new
    { k with part := part, drain := none,
             pool := k.pool.filter fun p => decide (p.1 < lo) || decide (hi ≤ p.1),
             was := k.was.filter fun p => decide (p.1 < lo) || decide (hi ≤ p.1),
             bad := k.bad.filter fun w => decide (8 * w < lo) || decide (hi ≤ 8 * w),
             wasFull := k.wasFull.filter fun p => decide (128 * p.1 < min old new),
             full := k.full.filter fun l => decide (128 * l < min old new) }
/-- PHASE_DRAIN_COMPLETE: the drain of core `core` ends once its context's wait has, or its context is gone (R145). A cause
taken in the wait prolongs the drain by the handler (R147, log entry 83). -/
def execPhaseDrainComplete (s : State) : Host.Outcome State Fault Refusal :=
  match (s.core s.ev.core).drain with
  | some d =>
    let left := match s.ctx? d.task with
      | some x => x.wait + (x.frozen.map (·.2)).getD 0
      | none => 0
    .next (if left = 0 then moveBanks s s.ev.core d.d else s)
  | none => .next s

end Sys2Proof.Machine
end

