-- ==== Sys2Proof/Machine/ScalarMem.lean ====
section
/-!
DEFINITION. The S slot: loads, stores, acquires, releases and fences (R175-R182).
-/

namespace Sys2Proof.Machine

/-- A scratchpad or window load (R175-R177). -/
def spLd (g : Guard) (a b : SSel) (fe : FeL) (u : Bool) (sz : Size) (w : Space) (lat : Nat) (s : State) :
    Host.Outcome State Fault Refusal :=
  conclude s do
    let (t, x) ← s.issuer
    let on := gTrue g x
    guardOps s x on [.s a, .s b] 1
    let va := sVal s x on a
    if !on then return pushS (popOps s x on [.s a, .s b]) t lat va
    let ad := va + sVal s x on b
    let n := szBytes sz
    let (c, o) ← target s x w ad n n
    if drainHeld s x t c then .error .hold
    feHold s c (feLWant fe) (linesOf o n)
    wfeHold s c fe (linesOf o n)
    spEcc s c o n ad
    let v := extend n u (spRead s c o n)
    return pushS (feLoaded (popOps s x on [.s a, .s b]) c x.core fe (linesOf o n)) t lat v
/-- A scratchpad or window store (R175-R177). -/
def spSt (g : Guard) (a b : SSel) (fe : FeS) (sz : Size) (w : Space) (s : State) : Host.Outcome State Fault Refusal :=
  conclude s do
    let (t, x) ← s.issuer
    let on := gTrue g x
    guardOps s x on [.s a, .s b] 0
    if !on then return s
    let ad := sVal s x on a
    let n := szBytes sz
    let (c, o) ← target s x w ad n n
    if drainHeld s x t c then .error .hold
    feSHold s c x fe (linesOf o n)
    let s' := popOps s x on [.s a, .s b]
    return spStore s' c x.core o fe (place 0 (leBytes (sVal s x on b).toNat n)) (linesOf o n)

/-- LD (R175). -/
def execLd (g : Guard) (a b : SSel) (fe : FeL) (u : Bool) (sz : Size) (s : State) : Host.Outcome State Fault Refusal :=
  spLd g a b fe u sz .own 6 s
/-- ST (R175). -/
def execSt (g : Guard) (a b : SSel) (fe : FeS) (sz : Size) (s : State) : Host.Outcome State Fault Refusal :=
  spSt g a b fe sz .own s
/-- LDW (R175). -/
def execLdw (g : Guard) (a b : SSel) (fe : FeL) (u : Bool) (sz : Size) (s : State) : Host.Outcome State Fault Refusal :=
  spLd g a b fe u sz .win 9 s
/-- STW (R175). -/
def execStw (g : Guard) (a b : SSel) (fe : FeS) (sz : Size) (s : State) : Host.Outcome State Fault Refusal :=
  spSt g a b fe sz .win s
/-- LDG (R178). -/
def execLdg (g : Guard) (a b : SSel) (u : Bool) (sz : Size) (s : State) : Host.Outcome State Fault Refusal :=
  conclude s do
    let (t, x) ← s.issuer
    let on := gTrue g x
    guardOps s x on [.s a, .s b] 1
    let va := sVal s x on a
    let s' := popOps s x on [.s a, .s b]
    if !on then return pushS s' t 14 va
    ldgAt s' t x (va + sVal s x on b) (szBytes sz) u
/-- STG (R178). -/
def execStg (g : Guard) (a b : SSel) (slot : BitVec 4) (sz : Size) (s : State) : Host.Outcome State Fault Refusal :=
  conclude s do
    let (t, x) ← s.issuer
    let on := gTrue g x
    guardOps s x on [.s a, .s b] 0
    if !on then return s
    stgAt (popOps s x on [.s a, .s b]) t x (sVal s x on a) slot.toNat (szBytes sz) (sVal s x on b)
/-- LDA (R180). -/
def execLda (g : Guard) (a b : SSel) (sc : Scope) (u : Bool) (sz : Size) (s : State) : Host.Outcome State Fault Refusal :=
  conclude s do
    let (t, x) ← s.issuer
    let on := gTrue g x
    guardOps s x on [.s a, .s b] 1
    let va := sVal s x on a
    let s' := popOps s x on [.s a, .s b]
    if !on then return pushS s' t 14 va
    ldaAt s' t x (va + sVal s x on b) (szBytes sz) u sc
/-- STRL (R181): the release is pending until it is performed (RELEASE_PERFORM). -/
def execStrl (g : Guard) (a b : SSel) (slot : BitVec 3) (sc : Scope) (s : State) : Host.Outcome State Fault Refusal :=
  conclude s do
    let (t, x) ← s.issuer
    let on := gTrue g x
    guardOps s x on [.s a, .s b] 0
    if !on then return s
    strlAt (popOps s x on [.s a, .s b]) t x (sVal s x on a) (sVal s x on b) slot.toNat sc
/-- FENCE (R182): its actions follow its bundle, once the earlier accesses are done. -/
def execFence (g : Guard) (sc : Scope) (s : State) : Host.Outcome State Fault Refusal :=
  conclude s do
    let (t, x) ← s.issuer
    guardOps s x (gTrue g x) [] 0
    if !(gTrue g x) then return s
    let s := s.modCtx t fun y => { y with holds := y.holds ++ [.fence sc] }
    return if s.latch.isSome then s else settle s t

end Sys2Proof.Machine
end

