-- ==== Sys2Proof/Machine/VectorA.lean ====
section
/-!
DEFINITION. The VA slot: every vector instruction on cluster A (R45, R200-R225).
-/

namespace Sys2Proof.Machine

/-- VADD_VA. -/
def execVaddA (g : Guard) (a b : VSel) (ty : VTy) (s : State) : Host.Outcome State Fault Refusal :=
  vAdd .a g a b ty s
/-- VSUB_VA. -/
def execVsubA (g : Guard) (a b : VSel) (ty : VTy) (s : State) : Host.Outcome State Fault Refusal :=
  vSub .a g a b ty s
/-- VMUL_VA. -/
def execVmulA (g : Guard) (a b : VSel) (ty : VTy) (s : State) : Host.Outcome State Fault Refusal :=
  vMul .a g a b ty s
/-- VFMA_VA. -/
def execVfmaA (g : Guard) (a b : VSel) (ty : FFmt) (m : BitVec 4) (s : State) : Host.Outcome State Fault Refusal :=
  vFma .a g a b ty m false s
/-- VFMS_VA. -/
def execVfmsA (g : Guard) (a b : VSel) (ty : FFmt) (m : BitVec 4) (s : State) : Host.Outcome State Fault Refusal :=
  vFma .a g a b ty m true s
/-- VADDMIN_VA. -/
def execVaddminA (g : Guard) (a b : VSel) (ty : MinTy) (m : BitVec 4) (s : State) : Host.Outcome State Fault Refusal :=
  vAddmin .a g a b ty m s
/-- VMIN_VA. -/
def execVminA (g : Guard) (a b : VSel) (ty : VTy) (s : State) : Host.Outcome State Fault Refusal :=
  vMin .a g a b ty s
/-- VMAX_VA. -/
def execVmaxA (g : Guard) (a b : VSel) (ty : VTy) (s : State) : Host.Outcome State Fault Refusal :=
  vMax .a g a b ty s
/-- VABS_VA. -/
def execVabsA (g : Guard) (a : VSel) (ty : VTy) (s : State) : Host.Outcome State Fault Refusal :=
  vAbs .a g a ty s
/-- VNEG_VA. -/
def execVnegA (g : Guard) (a : VSel) (ty : VTy) (s : State) : Host.Outcome State Fault Refusal :=
  vNeg .a g a ty s
/-- VAND_VA. -/
def execVandA (g : Guard) (a b : VSel) (s : State) : Host.Outcome State Fault Refusal :=
  vBit .a g a b (fun x y => x &&& y) s
/-- VOR_VA. -/
def execVorA (g : Guard) (a b : VSel) (s : State) : Host.Outcome State Fault Refusal :=
  vBit .a g a b (fun x y => x ||| y) s
/-- VXOR_VA. -/
def execVxorA (g : Guard) (a b : VSel) (s : State) : Host.Outcome State Fault Refusal :=
  vBit .a g a b (fun x y => x ^^^ y) s
/-- VSHL_VA. -/
def execVshlA (g : Guard) (a b : VSel) (ty : VTy) (s : State) : Host.Outcome State Fault Refusal :=
  vShl .a g a b ty s
/-- VSHR_VA. -/
def execVshrA (g : Guard) (a b : VSel) (ty : VTy) (s : State) : Host.Outcome State Fault Refusal :=
  vShr .a g a b ty s
/-- VCMP_VA. -/
def execVcmpA (g : Guard) (a b : VSel) (cond : VCmpCond) (d : BitVec 3) (s : State) : Host.Outcome State Fault Refusal :=
  vCmp .a g a b cond d s
/-- VSEL_VA. -/
def execVselA (g : Guard) (a b : VSel) (p : BitVec 3) (s : State) : Host.Outcome State Fault Refusal :=
  vSel .a g a b p s
/-- VPLOG_VA. -/
def execVplogA (g : Guard) (x y : BitVec 3) (op : PlogOp) (d : BitVec 3) (s : State) : Host.Outcome State Fault Refusal :=
  vPlog .a g x y op d s
/-- VCVT_VA. -/
def execVcvtA (g : Guard) (a : VSel) (ft : CvtB) (p : BitVec 2) (su : Bool) (rm : Rm) (s : State) : Host.Outcome State Fault Refusal :=
  vCvt .a g a ft p su rm s
/-- VMXQ_VA. -/
def execVmxqA (g : Guard) (a : VSel) (ft : MxFmt) (p : BitVec 3) (s : State) : Host.Outcome State Fault Refusal :=
  vMxq .a g a ft p s
/-- VMXD_VA. -/
def execVmxdA (g : Guard) (a b : VSel) (ft : MxFmt) (p : BitVec 3) (s : State) : Host.Outcome State Fault Refusal :=
  vMxd .a g a b ft p s
/-- VRCP_VA. -/
def execVrcpA (g : Guard) (a : VSel) (ft : FFmt) (s : State) : Host.Outcome State Fault Refusal :=
  vFun .a g a ft Arith.fRcp s
/-- VRSQ_VA. -/
def execVrsqA (g : Guard) (a : VSel) (ft : FFmt) (s : State) : Host.Outcome State Fault Refusal :=
  vFun .a g a ft Arith.fRsq s
/-- VEXP_VA. -/
def execVexpA (g : Guard) (a : VSel) (ft : FFmt) (s : State) : Host.Outcome State Fault Refusal :=
  vFun .a g a ft Arith.fExp s
/-- VLOG_VA. -/
def execVlogA (g : Guard) (a : VSel) (ft : FFmt) (s : State) : Host.Outcome State Fault Refusal :=
  vFun .a g a ft Arith.fLog s
/-- VTANH_VA. -/
def execVtanhA (g : Guard) (a : VSel) (ft : FFmt) (s : State) : Host.Outcome State Fault Refusal :=
  vFun .a g a ft Arith.fTanh s
/-- VMOVI_VA. -/
def execVmoviA (g : BitVec 3) (i : BitVec 13) (s : State) : Host.Outcome State Fault Refusal :=
  vMovi .a g i s
/-- VPUT_VA. -/
def execVputA (g : Guard) (a : VSel) (d : VDst) (s : State) : Host.Outcome State Fault Refusal :=
  vPut .a g a d s
/-- VPUTX_VA. -/
def execVputxA (g : Guard) (a : VSel) (l : BitVec 6) (s : State) : Host.Outcome State Fault Refusal :=
  vPutx .a g a l s
/-- VXMOV_VA. -/
def execVxmovA (g : Guard) (r : BitVec 5) (s : State) : Host.Outcome State Fault Refusal :=
  vXmov .a g r s
/-- VMPUSH_VA. -/
def execVmpushA (inv : Bool) (p : BitVec 3) (s : State) : Host.Outcome State Fault Refusal :=
  vMpush .a inv p s
/-- VMINV_VA. -/
def execVminvA (s : State) : Host.Outcome State Fault Refusal :=
  vMinv .a s
/-- VMPOP_VA. -/
def execVmpopA (s : State) : Host.Outcome State Fault Refusal :=
  vMpop .a s
/-- VLD_VA. -/
def execVldA (g : Guard) (a b : VSel) (fe : FeL) (s : State) : Host.Outcome State Fault Refusal :=
  vLdRow .a g a b fe .own 6 s
/-- VST_VA. -/
def execVstA (g : Guard) (a b : VSel) (fe : FeS) (s : State) : Host.Outcome State Fault Refusal :=
  vStRow .a g a b fe .own s
/-- VLDW_VA. -/
def execVldwA (g : Guard) (a b : VSel) (fe : FeL) (s : State) : Host.Outcome State Fault Refusal :=
  vLdRow .a g a b fe .win 9 s
/-- VSTW_VA. -/
def execVstwA (g : Guard) (a b : VSel) (fe : FeS) (s : State) : Host.Outcome State Fault Refusal :=
  vStRow .a g a b fe .win s
/-- VLDG_VA. -/
def execVldgA (g : Guard) (a b h : VSel) (s : State) : Host.Outcome State Fault Refusal :=
  vLdg .a g a b h s
/-- VSTG_VA. -/
def execVstgA (g : Guard) (a b h : VSel) (s : State) : Host.Outcome State Fault Refusal :=
  vStg .a g a b h s
/-- VGATH_VA. -/
def execVgathA (g : Guard) (a b : VSel) (gsp : GSpace) (sz : GSize) (u : Bool) (s : State) : Host.Outcome State Fault Refusal :=
  vGath .a g a b gsp sz u s
/-- VSCAT_VA. -/
def execVscatA (g : Guard) (a b : VSel) (gsp : GSpace) (sz : GSize) (s : State) : Host.Outcome State Fault Refusal :=
  vScat .a g a b gsp sz s
/-- VLSHU_VA. -/
def execVlshuA (g : Guard) (a b : VSel) (n : BitVec 6) (s : State) : Host.Outcome State Fault Refusal :=
  vLshu .a g a b n s
/-- VLSHD_VA. -/
def execVlshdA (g : Guard) (a b : VSel) (n : BitVec 6) (s : State) : Host.Outcome State Fault Refusal :=
  vLshd .a g a b n s
/-- VBCAST_VA. -/
def execVbcastA (g : Guard) (a : VSel) (l : BitVec 6) (s : State) : Host.Outcome State Fault Refusal :=
  vBcast .a g a l s
/-- VIOTA_VA. -/
def execViotaA (g : Guard) (a : VSel) (step : BitVec 6) (s : State) : Host.Outcome State Fault Refusal :=
  vIota .a g a step s
/-- VPERM_VA. -/
def execVpermA (g : Guard) (a b : VSel) (s : State) : Host.Outcome State Fault Refusal :=
  vPerm .a g a b s
/-- VRED_VA. -/
def execVredA (g : Guard) (a : VSel) (op : RedOp) (s : State) : Host.Outcome State Fault Refusal :=
  vRed .a g a op s

end Sys2Proof.Machine
end

