-- ==== Sys2Proof/Machine/VectorB.lean ====
section
/-!
DEFINITION. The VB slot: every vector instruction on cluster B (R45, R200-R225).
-/

namespace Sys2Proof.Machine

/-- VADD_VB. -/
def execVaddB (g : Guard) (a b : VSel) (ty : VTy) (s : State) : Host.Outcome State Fault Refusal :=
  vAdd .b g a b ty s
/-- VSUB_VB. -/
def execVsubB (g : Guard) (a b : VSel) (ty : VTy) (s : State) : Host.Outcome State Fault Refusal :=
  vSub .b g a b ty s
/-- VMUL_VB. -/
def execVmulB (g : Guard) (a b : VSel) (ty : VTy) (s : State) : Host.Outcome State Fault Refusal :=
  vMul .b g a b ty s
/-- VFMA_VB. -/
def execVfmaB (g : Guard) (a b : VSel) (ty : FFmt) (m : BitVec 4) (s : State) : Host.Outcome State Fault Refusal :=
  vFma .b g a b ty m false s
/-- VFMS_VB. -/
def execVfmsB (g : Guard) (a b : VSel) (ty : FFmt) (m : BitVec 4) (s : State) : Host.Outcome State Fault Refusal :=
  vFma .b g a b ty m true s
/-- VADDMIN_VB. -/
def execVaddminB (g : Guard) (a b : VSel) (ty : MinTy) (m : BitVec 4) (s : State) : Host.Outcome State Fault Refusal :=
  vAddmin .b g a b ty m s
/-- VMIN_VB. -/
def execVminB (g : Guard) (a b : VSel) (ty : VTy) (s : State) : Host.Outcome State Fault Refusal :=
  vMin .b g a b ty s
/-- VMAX_VB. -/
def execVmaxB (g : Guard) (a b : VSel) (ty : VTy) (s : State) : Host.Outcome State Fault Refusal :=
  vMax .b g a b ty s
/-- VABS_VB. -/
def execVabsB (g : Guard) (a : VSel) (ty : VTy) (s : State) : Host.Outcome State Fault Refusal :=
  vAbs .b g a ty s
/-- VNEG_VB. -/
def execVnegB (g : Guard) (a : VSel) (ty : VTy) (s : State) : Host.Outcome State Fault Refusal :=
  vNeg .b g a ty s
/-- VAND_VB. -/
def execVandB (g : Guard) (a b : VSel) (s : State) : Host.Outcome State Fault Refusal :=
  vBit .b g a b (fun x y => x &&& y) s
/-- VOR_VB. -/
def execVorB (g : Guard) (a b : VSel) (s : State) : Host.Outcome State Fault Refusal :=
  vBit .b g a b (fun x y => x ||| y) s
/-- VXOR_VB. -/
def execVxorB (g : Guard) (a b : VSel) (s : State) : Host.Outcome State Fault Refusal :=
  vBit .b g a b (fun x y => x ^^^ y) s
/-- VSHL_VB. -/
def execVshlB (g : Guard) (a b : VSel) (ty : VTy) (s : State) : Host.Outcome State Fault Refusal :=
  vShl .b g a b ty s
/-- VSHR_VB. -/
def execVshrB (g : Guard) (a b : VSel) (ty : VTy) (s : State) : Host.Outcome State Fault Refusal :=
  vShr .b g a b ty s
/-- VCMP_VB. -/
def execVcmpB (g : Guard) (a b : VSel) (cond : VCmpCond) (d : BitVec 3) (s : State) : Host.Outcome State Fault Refusal :=
  vCmp .b g a b cond d s
/-- VSEL_VB. -/
def execVselB (g : Guard) (a b : VSel) (p : BitVec 3) (s : State) : Host.Outcome State Fault Refusal :=
  vSel .b g a b p s
/-- VPLOG_VB. -/
def execVplogB (g : Guard) (x y : BitVec 3) (op : PlogOp) (d : BitVec 3) (s : State) : Host.Outcome State Fault Refusal :=
  vPlog .b g x y op d s
/-- VCVT_VB. -/
def execVcvtB (g : Guard) (a : VSel) (ft : CvtB) (p : BitVec 2) (su : Bool) (rm : Rm) (s : State) : Host.Outcome State Fault Refusal :=
  vCvt .b g a ft p su rm s
/-- VMXQ_VB. -/
def execVmxqB (g : Guard) (a : VSel) (ft : MxFmt) (p : BitVec 3) (s : State) : Host.Outcome State Fault Refusal :=
  vMxq .b g a ft p s
/-- VMXD_VB. -/
def execVmxdB (g : Guard) (a b : VSel) (ft : MxFmt) (p : BitVec 3) (s : State) : Host.Outcome State Fault Refusal :=
  vMxd .b g a b ft p s
/-- VRCP_VB. -/
def execVrcpB (g : Guard) (a : VSel) (ft : FFmt) (s : State) : Host.Outcome State Fault Refusal :=
  vFun .b g a ft Arith.fRcp s
/-- VRSQ_VB. -/
def execVrsqB (g : Guard) (a : VSel) (ft : FFmt) (s : State) : Host.Outcome State Fault Refusal :=
  vFun .b g a ft Arith.fRsq s
/-- VEXP_VB. -/
def execVexpB (g : Guard) (a : VSel) (ft : FFmt) (s : State) : Host.Outcome State Fault Refusal :=
  vFun .b g a ft Arith.fExp s
/-- VLOG_VB. -/
def execVlogB (g : Guard) (a : VSel) (ft : FFmt) (s : State) : Host.Outcome State Fault Refusal :=
  vFun .b g a ft Arith.fLog s
/-- VTANH_VB. -/
def execVtanhB (g : Guard) (a : VSel) (ft : FFmt) (s : State) : Host.Outcome State Fault Refusal :=
  vFun .b g a ft Arith.fTanh s
/-- VMOVI_VB. -/
def execVmoviB (g : BitVec 3) (i : BitVec 13) (s : State) : Host.Outcome State Fault Refusal :=
  vMovi .b g i s
/-- VPUT_VB. -/
def execVputB (g : Guard) (a : VSel) (d : VDst) (s : State) : Host.Outcome State Fault Refusal :=
  vPut .b g a d s
/-- VPUTX_VB. -/
def execVputxB (g : Guard) (a : VSel) (l : BitVec 6) (s : State) : Host.Outcome State Fault Refusal :=
  vPutx .b g a l s
/-- VXMOV_VB. -/
def execVxmovB (g : Guard) (r : BitVec 5) (s : State) : Host.Outcome State Fault Refusal :=
  vXmov .b g r s
/-- VMPUSH_VB. -/
def execVmpushB (inv : Bool) (p : BitVec 3) (s : State) : Host.Outcome State Fault Refusal :=
  vMpush .b inv p s
/-- VMINV_VB. -/
def execVminvB (s : State) : Host.Outcome State Fault Refusal :=
  vMinv .b s
/-- VMPOP_VB. -/
def execVmpopB (s : State) : Host.Outcome State Fault Refusal :=
  vMpop .b s
/-- VLD_VB. -/
def execVldB (g : Guard) (a b : VSel) (fe : FeL) (s : State) : Host.Outcome State Fault Refusal :=
  vLdRow .b g a b fe .own 6 s
/-- VST_VB. -/
def execVstB (g : Guard) (a b : VSel) (fe : FeS) (s : State) : Host.Outcome State Fault Refusal :=
  vStRow .b g a b fe .own s
/-- VLDW_VB. -/
def execVldwB (g : Guard) (a b : VSel) (fe : FeL) (s : State) : Host.Outcome State Fault Refusal :=
  vLdRow .b g a b fe .win 9 s
/-- VSTW_VB. -/
def execVstwB (g : Guard) (a b : VSel) (fe : FeS) (s : State) : Host.Outcome State Fault Refusal :=
  vStRow .b g a b fe .win s
/-- VLDG_VB. -/
def execVldgB (g : Guard) (a b h : VSel) (s : State) : Host.Outcome State Fault Refusal :=
  vLdg .b g a b h s
/-- VSTG_VB. -/
def execVstgB (g : Guard) (a b h : VSel) (s : State) : Host.Outcome State Fault Refusal :=
  vStg .b g a b h s
/-- VGATH_VB. -/
def execVgathB (g : Guard) (a b : VSel) (gsp : GSpace) (sz : GSize) (u : Bool) (s : State) : Host.Outcome State Fault Refusal :=
  vGath .b g a b gsp sz u s
/-- VSCAT_VB. -/
def execVscatB (g : Guard) (a b : VSel) (gsp : GSpace) (sz : GSize) (s : State) : Host.Outcome State Fault Refusal :=
  vScat .b g a b gsp sz s
/-- VLSHU_VB. -/
def execVlshuB (g : Guard) (a b : VSel) (n : BitVec 6) (s : State) : Host.Outcome State Fault Refusal :=
  vLshu .b g a b n s
/-- VLSHD_VB. -/
def execVlshdB (g : Guard) (a b : VSel) (n : BitVec 6) (s : State) : Host.Outcome State Fault Refusal :=
  vLshd .b g a b n s
/-- VBCAST_VB. -/
def execVbcastB (g : Guard) (a : VSel) (l : BitVec 6) (s : State) : Host.Outcome State Fault Refusal :=
  vBcast .b g a l s
/-- VIOTA_VB. -/
def execViotaB (g : Guard) (a : VSel) (step : BitVec 6) (s : State) : Host.Outcome State Fault Refusal :=
  vIota .b g a step s
/-- VPERM_VB. -/
def execVpermB (g : Guard) (a b : VSel) (s : State) : Host.Outcome State Fault Refusal :=
  vPerm .b g a b s
/-- VRED_VB. -/
def execVredB (g : Guard) (a : VSel) (op : RedOp) (s : State) : Host.Outcome State Fault Refusal :=
  vRed .b g a op s

end Sys2Proof.Machine
end

