-- ==== Sys2Proof/Machine/Slots.lean ====
section
/-!
DEFINITION. The slots of a bundle: which meaning each word has, and what the checks of R37-R40, R136 and R179 need to
know of it: operands, writes, ports, pushes.
-/

namespace Sys2Proof.Machine

/-- What a slot does to the state (R14); a step without a word is no slot. -/
def slotExec (i : Instr) (s : State) : Host.Outcome State Fault Refusal :=
  match i with
  | .add g a b sat u w => execAdd g a b sat u w s
  | .sub g a b sat u w => execSub g a b sat u w s
  | .addi g a i => execAddi g a i s
  | .mul g a b sat u w => execMul g a b sat u w s
  | .mulh g a b u w => execMulh g a b u w s
  | .div g a b sat u w => execDiv g a b sat u w s
  | .rem g a b u w => execRem g a b u w s
  | .and g a b u w => execAnd g a b u w s
  | .or g a b u w => execOr g a b u w s
  | .xor g a b u w => execXor g a b u w s
  | .andi g a i => execAndi g a i s
  | .shl g a b u w => execShl g a b u w s
  | .shr g a b u w => execShr g a b u w s
  | .shli g a u w sh => execShli g a u w sh s
  | .shri g a u w sh => execShri g a u w sh s
  | .movi g i => execMovi g i s
  | .shori g a i => execShori g a i s
  | .min g a b u w => execMin g a b u w s
  | .max g a b u w => execMax g a b u w s
  | .clz g a w => execClz g a w s
  | .popc g a w => execPopc g a w s
  | .bfx g a b u => execBfx g a b u s
  | .bfi g a b m => execBfi g a b m s
  | .sext g a u w => execSext g a u w s
  | .sel g a b p => execSel g a b p s
  | .cmp g a b cond d => execCmp g a b cond d s
  | .plog g x y op d => execPlog g x y op d s
  | .put g a d => execPut g a d s
  | .putx g a x => execPutx g a x s
  | .xaddi g x i => execXaddi g x i s
  | .fence g sc => execFence g sc s
  | .ld g a b fe u sz => execLd g a b fe u sz s
  | .st g a b fe sz => execSt g a b fe sz s
  | .ldw g a b fe u sz => execLdw g a b fe u sz s
  | .stw g a b fe sz => execStw g a b fe sz s
  | .ldg g a b u sz => execLdg g a b u sz s
  | .stg g a b slot sz => execStg g a b slot sz s
  | .lda g a b sc u sz => execLda g a b sc u sz s
  | .strl g a b slot sc => execStrl g a b slot sc s
  | .br g i => execBr g i s
  | .brme g cl i => execBrme g cl i s
  | .jmp off => execJmp off s
  | .call off => execCall off s
  | .jmpr g a => execJmpr g a s
  | .callr g a => execCallr g a s
  | .ret g a => execRet g a s
  | .nest g a bs len => execNest g a bs len s
  | .nstride g a k clr j l => execNstride g a k clr j l s
  | .nestmask g a b l => execNestmask g a b l s
  | .cqpush g a => execCqpush g a s
  | .live g a ft => execLive g a ft s
  | .phase g a => execPhase g a s
  | .csrr g n => execCsrr g n s
  | .csrw g a n => execCsrw g a n s
  | .trap g i => execTrap g i s
  | .waitcy g i => execWaitcy g i s
  | .snap g a => execSnap g a s
  | .exit g a => execExit g a s
  | .vaddA g a b ty => execVaddA g a b ty s
  | .vaddB g a b ty => execVaddB g a b ty s
  | .vsubA g a b ty => execVsubA g a b ty s
  | .vsubB g a b ty => execVsubB g a b ty s
  | .vmulA g a b ty => execVmulA g a b ty s
  | .vmulB g a b ty => execVmulB g a b ty s
  | .vfmaA g a b ty m => execVfmaA g a b ty m s
  | .vfmaB g a b ty m => execVfmaB g a b ty m s
  | .vfmsA g a b ty m => execVfmsA g a b ty m s
  | .vfmsB g a b ty m => execVfmsB g a b ty m s
  | .vaddminA g a b ty m => execVaddminA g a b ty m s
  | .vaddminB g a b ty m => execVaddminB g a b ty m s
  | .vminA g a b ty => execVminA g a b ty s
  | .vminB g a b ty => execVminB g a b ty s
  | .vmaxA g a b ty => execVmaxA g a b ty s
  | .vmaxB g a b ty => execVmaxB g a b ty s
  | .vabsA g a ty => execVabsA g a ty s
  | .vabsB g a ty => execVabsB g a ty s
  | .vnegA g a ty => execVnegA g a ty s
  | .vnegB g a ty => execVnegB g a ty s
  | .vandA g a b => execVandA g a b s
  | .vandB g a b => execVandB g a b s
  | .vorA g a b => execVorA g a b s
  | .vorB g a b => execVorB g a b s
  | .vxorA g a b => execVxorA g a b s
  | .vxorB g a b => execVxorB g a b s
  | .vshlA g a b ty => execVshlA g a b ty s
  | .vshlB g a b ty => execVshlB g a b ty s
  | .vshrA g a b ty => execVshrA g a b ty s
  | .vshrB g a b ty => execVshrB g a b ty s
  | .vcmpA g a b cond d => execVcmpA g a b cond d s
  | .vcmpB g a b cond d => execVcmpB g a b cond d s
  | .vselA g a b p => execVselA g a b p s
  | .vselB g a b p => execVselB g a b p s
  | .vplogA g x y op d => execVplogA g x y op d s
  | .vplogB g x y op d => execVplogB g x y op d s
  | .vcvtA g a ft p su rm => execVcvtA g a ft p su rm s
  | .vcvtB g a ft p su rm => execVcvtB g a ft p su rm s
  | .vmxqA g a ft p => execVmxqA g a ft p s
  | .vmxqB g a ft p => execVmxqB g a ft p s
  | .vmxdA g a b ft p => execVmxdA g a b ft p s
  | .vmxdB g a b ft p => execVmxdB g a b ft p s
  | .vrcpA g a ft => execVrcpA g a ft s
  | .vrcpB g a ft => execVrcpB g a ft s
  | .vrsqA g a ft => execVrsqA g a ft s
  | .vrsqB g a ft => execVrsqB g a ft s
  | .vexpA g a ft => execVexpA g a ft s
  | .vexpB g a ft => execVexpB g a ft s
  | .vlogA g a ft => execVlogA g a ft s
  | .vlogB g a ft => execVlogB g a ft s
  | .vtanhA g a ft => execVtanhA g a ft s
  | .vtanhB g a ft => execVtanhB g a ft s
  | .vmoviA g i => execVmoviA g i s
  | .vmoviB g i => execVmoviB g i s
  | .vputA g a d => execVputA g a d s
  | .vputB g a d => execVputB g a d s
  | .vputxA g a l => execVputxA g a l s
  | .vputxB g a l => execVputxB g a l s
  | .vxmovA g r => execVxmovA g r s
  | .vxmovB g r => execVxmovB g r s
  | .vmpushA inv p => execVmpushA inv p s
  | .vmpushB inv p => execVmpushB inv p s
  | .vldA g a b fe => execVldA g a b fe s
  | .vldB g a b fe => execVldB g a b fe s
  | .vstA g a b fe => execVstA g a b fe s
  | .vstB g a b fe => execVstB g a b fe s
  | .vldwA g a b fe => execVldwA g a b fe s
  | .vldwB g a b fe => execVldwB g a b fe s
  | .vstwA g a b fe => execVstwA g a b fe s
  | .vstwB g a b fe => execVstwB g a b fe s
  | .vldgA g a b h => execVldgA g a b h s
  | .vldgB g a b h => execVldgB g a b h s
  | .vstgA g a b h => execVstgA g a b h s
  | .vstgB g a b h => execVstgB g a b h s
  | .vgathA g a b gsp sz u => execVgathA g a b gsp sz u s
  | .vgathB g a b gsp sz u => execVgathB g a b gsp sz u s
  | .vscatA g a b gsp sz => execVscatA g a b gsp sz s
  | .vscatB g a b gsp sz => execVscatB g a b gsp sz s
  | .vlshuA g a b n => execVlshuA g a b n s
  | .vlshuB g a b n => execVlshuB g a b n s
  | .vlshdA g a b n => execVlshdA g a b n s
  | .vlshdB g a b n => execVlshdB g a b n s
  | .vbcastA g a l => execVbcastA g a l s
  | .vbcastB g a l => execVbcastB g a l s
  | .viotaA g a step => execViotaA g a step s
  | .viotaB g a step => execViotaB g a step s
  | .vpermA g a b => execVpermA g a b s
  | .vpermB g a b => execVpermB g a b s
  | .vredA g a op => execVredA g a op s
  | .vredB g a op => execVredB g a op s
  | .mwld g a h => execMwld g a h s
  | .mwsel g h => execMwsel g h s
  | .mpush g a b cl acc seg => execMpush g a b cl acc seg s
  | .mshift g b acc seg => execMshift g b acc seg s
  | .macc g a => execMacc g a s
  | .mdrn g a b cl df clr => execMdrn g a b cl df clr s
  | .mzero g a n => execMzero g a n s
  | .msweep g a n => execMsweep g a n s
  | .mend g => execMend g s
  | .mswap g gw => execMswap g gw s
  | .mfmt g ft => execMfmt g ft s
  | .mstat g => execMstat g s
  | .cnest g a l => execCnest g a l s
  | .cstride g a b l => execCstride g a b l s
  | .cbase g a b slot => execCbase g a b slot s
  | .ccopy g a b t => execCcopy g a b t s
  | .cacc g a b t op => execCacc g a b t op s
  | .caccr g a b t op => execCaccr g a b t op s
  | .ccas g a b t sz m => execCcas g a b t sz m s
  | .csync g a b rgen => execCsync g a b rgen s
  | .cswait g a b => execCswait g a b s
  | .cfeset g a b ft => execCfeset g a b ft s
  | .cring g a b r => execCring g a b r s
  | .crsub g a b dir r => execCrsub g a b dir r s
  | .crunsub g r => execCrunsub g r s
  | .crfin g r => execCrfin g r s
  | .cwait g => execCwait g s
  | .stream g a q => execStream g a q s
  | .sclose g fill q => execSclose g fill q s
  | .clred g a => execClred g a s
  | .clbc g a => execClbc g a s
  | .cla2a g a => execCla2a g a s
  | .clvir g a => execClvir g a s
  | .clrowDisp g a => execClrowDisp g a s
  | .clrowComb g a => execClrowComb g a s
  | .clwait g a => execClwait g a s
  | .fbstat g a what => execFbstat g a what s
  | .kvld g a b => execKvld g a b s
  | .kvst g a b => execKvst g a b s
  | .psel g a b => execPsel g a b s
  | .pmapRead g a b => execPmapRead g a b s
  | .pmapReadref g a b => execPmapReadref g a b s
  | .pmapMapnew g a b => execPmapMapnew g a b s
  | .pmapRevoke g a b => execPmapRevoke g a b s
  | .pmapEvict g a b => execPmapEvict g a b s
  | .pmapPrefetch g a b => execPmapPrefetch g a b s
  | .psref g a b pin new => execPsref g a b pin new s
  | .psdrop g a pin => execPsdrop g a pin s
  | .spawn g a b desc nj => execSpawn g a b desc nj s
  | .spawnb g a b wsid => execSpawnb g a b wsid s
  | .cancel g a => execCancel g a s
  | .reprio g a b => execReprio g a b s
  | .join g a any => execJoin g a any s
  | .tkdone g => execTkdone g s
  | .tstat g => execTstat g s
  | .phreg g a mode => execPhreg g a mode s
  | .phdrop g a => execPhdrop g a s
  | .pharr g a sc => execPharr g a sc s
  | .phwait g a sc => execPhwait g a sc s
  | .phaw g a sc => execPhaw g a sc s
  | .phrd g a => execPhrd g a s
  | .nsvl g a b t => execNsvl g a b t s
  | .nsback g a b t alt => execNsback g a b t alt s
  | .nssel g a b t => execNssel g a b t s
  | .nsrd g a b t ft => execNsrd g a b t ft s
  | .nswr g a b t ft => execNswr g a b t ft s
  | .nsalloc g a b t => execNsalloc g a b t s
  | .nsallocFree g a t => execNsallocFree g a t s
  | .gscfg g a clr n => execGscfg g a clr n s
  | .gsocc g a => execGsocc g a s
  | .gsdlen g a => execGsdlen g a s
  | .gsseed g a => execGsseed g a s
  | .gsiterStart g a => execGsiterStart g a s
  | .gsiterLayer g a b => execGsiterLayer g a b s
  | .gsiterEnd g b => execGsiterEnd g b s
  | .gsnoise g a b cl => execGsnoise g a b cl s
  | .gssamp g a => execGssamp g a s
  | .gsacc g a b => execGsacc g a b s
  | .gswait g a b lay => execGswait g a b lay s
  | .cxs g a b cl sg => execCxs g a b cl sg s
  | .thrc g a b cl ty ge => execThrc g a b cl ty ge s
  | .hist g a b cl dir => execHist g a b cl dir s
  | .ttnew g a b => execTtnew g a b s
  | .ttadd g a b fl => execTtadd g a b fl s
  | .ttpos g a cl blk => execTtpos g a cl blk s
  | .ttmask g a cl col form blk => execTtmask g a cl col form blk s
  | .ttpath g a cl fld blk => execTtpath g a cl fld blk s
  | .ttprune g a b sf => execTtprune g a b sf s
  | .ttfree g a => execTtfree g a s
  | .ttrd g a what => execTtrd g a what s
  | .nop => execNop s
  | .cqclr => execCqclr s
  | .rte => execRte s
  | .vminvA => execVminvA s
  | .vmpopA => execVmpopA s
  | .vminvB => execVminvB s
  | .vmpopB => execVmpopB s
  | _ => .next s
/-- The operands a slot reads (R31, R32). -/
def opdsOf : Instr → List Opd
  | .add _ a b _ _ _ => [.s a, .s b]
  | .sub _ a b _ _ _ => [.s a, .s b]
  | .addi _ a _ => [.s a]
  | .mul _ a b _ _ _ => [.s a, .s b]
  | .mulh _ a b _ _ => [.s a, .s b]
  | .div _ a b _ _ _ => [.s a, .s b]
  | .rem _ a b _ _ => [.s a, .s b]
  | .and _ a b _ _ => [.s a, .s b]
  | .or _ a b _ _ => [.s a, .s b]
  | .xor _ a b _ _ => [.s a, .s b]
  | .andi _ a _ => [.s a]
  | .shl _ a b _ _ => [.s a, .s b]
  | .shr _ a b _ _ => [.s a, .s b]
  | .shli _ a _ _ _ => [.s a]
  | .shri _ a _ _ _ => [.s a]
  | .shori _ a _ => [.s a]
  | .min _ a b _ _ => [.s a, .s b]
  | .max _ a b _ _ => [.s a, .s b]
  | .clz _ a _ => [.s a]
  | .popc _ a _ => [.s a]
  | .bfx _ a b _ => [.s a, .s b]
  | .bfi _ a b _ => [.s a, .s b]
  | .sext _ a _ _ => [.s a]
  | .sel _ a b _ => [.s a, .s b]
  | .cmp _ a b _ _ => [.s a, .s b]
  | .put _ a _ => [.s a]
  | .putx _ a _ => [.s a]
  | .ld _ a b _ _ _ => [.s a, .s b]
  | .st _ a b _ _ => [.s a, .s b]
  | .ldw _ a b _ _ _ => [.s a, .s b]
  | .stw _ a b _ _ => [.s a, .s b]
  | .ldg _ a b _ _ => [.s a, .s b]
  | .stg _ a b _ _ => [.s a, .s b]
  | .lda _ a b _ _ _ => [.s a, .s b]
  | .strl _ a b _ _ => [.s a, .s b]
  | .jmpr _ a => [.s a]
  | .callr _ a => [.s a]
  | .ret _ a => [.s a]
  | .nest _ a _ _ => [.s a]
  | .nstride _ a _ _ _ _ => [.s a]
  | .nestmask _ a b _ => [.s a, .s b]
  | .cqpush _ a => [.s a]
  | .live _ a _ => [.s a]
  | .phase _ a => [.s a]
  | .csrw _ a _ => [.s a]
  | .snap _ a => [.s a]
  | .exit _ a => [.s a]
  | .vaddA _ a b _ => [.v .a a, .v .a b]
  | .vaddB _ a b _ => [.v .b a, .v .b b]
  | .vsubA _ a b _ => [.v .a a, .v .a b]
  | .vsubB _ a b _ => [.v .b a, .v .b b]
  | .vmulA _ a b _ => [.v .a a, .v .a b]
  | .vmulB _ a b _ => [.v .b a, .v .b b]
  | .vfmaA _ a b _ _ => [.v .a a, .v .a b]
  | .vfmaB _ a b _ _ => [.v .b a, .v .b b]
  | .vfmsA _ a b _ _ => [.v .a a, .v .a b]
  | .vfmsB _ a b _ _ => [.v .b a, .v .b b]
  | .vaddminA _ a b _ _ => [.v .a a, .v .a b]
  | .vaddminB _ a b _ _ => [.v .b a, .v .b b]
  | .vminA _ a b _ => [.v .a a, .v .a b]
  | .vminB _ a b _ => [.v .b a, .v .b b]
  | .vmaxA _ a b _ => [.v .a a, .v .a b]
  | .vmaxB _ a b _ => [.v .b a, .v .b b]
  | .vabsA _ a _ => [.v .a a]
  | .vabsB _ a _ => [.v .b a]
  | .vnegA _ a _ => [.v .a a]
  | .vnegB _ a _ => [.v .b a]
  | .vandA _ a b => [.v .a a, .v .a b]
  | .vandB _ a b => [.v .b a, .v .b b]
  | .vorA _ a b => [.v .a a, .v .a b]
  | .vorB _ a b => [.v .b a, .v .b b]
  | .vxorA _ a b => [.v .a a, .v .a b]
  | .vxorB _ a b => [.v .b a, .v .b b]
  | .vshlA _ a b _ => [.v .a a, .v .a b]
  | .vshlB _ a b _ => [.v .b a, .v .b b]
  | .vshrA _ a b _ => [.v .a a, .v .a b]
  | .vshrB _ a b _ => [.v .b a, .v .b b]
  | .vcmpA _ a b _ _ => [.v .a a, .v .a b]
  | .vcmpB _ a b _ _ => [.v .b a, .v .b b]
  | .vselA _ a b _ => [.v .a a, .v .a b]
  | .vselB _ a b _ => [.v .b a, .v .b b]
  | .vcvtA _ a _ _ _ _ => [.v .a a]
  | .vcvtB _ a _ _ _ _ => [.v .b a]
  | .vmxqA _ a _ _ => [.v .a a]
  | .vmxqB _ a _ _ => [.v .b a]
  | .vmxdA _ a b _ _ => [.v .a a, .v .a b]
  | .vmxdB _ a b _ _ => [.v .b a, .v .b b]
  | .vrcpA _ a _ => [.v .a a]
  | .vrcpB _ a _ => [.v .b a]
  | .vrsqA _ a _ => [.v .a a]
  | .vrsqB _ a _ => [.v .b a]
  | .vexpA _ a _ => [.v .a a]
  | .vexpB _ a _ => [.v .b a]
  | .vlogA _ a _ => [.v .a a]
  | .vlogB _ a _ => [.v .b a]
  | .vtanhA _ a _ => [.v .a a]
  | .vtanhB _ a _ => [.v .b a]
  | .vputA _ a _ => [.v .a a]
  | .vputB _ a _ => [.v .b a]
  | .vputxA _ a _ => [.v .a a]
  | .vputxB _ a _ => [.v .b a]
  | .vxmovA _ r => [.vr .b r]
  | .vxmovB _ r => [.vr .a r]
  | .vldA _ a b _ => [.v .a a, .v .a b]
  | .vldB _ a b _ => [.v .b a, .v .b b]
  | .vstA _ a b _ => [.v .a a, .v .a b]
  | .vstB _ a b _ => [.v .b a, .v .b b]
  | .vldwA _ a b _ => [.v .a a, .v .a b]
  | .vldwB _ a b _ => [.v .b a, .v .b b]
  | .vstwA _ a b _ => [.v .a a, .v .a b]
  | .vstwB _ a b _ => [.v .b a, .v .b b]
  | .vldgA _ a b h => [.v .a a, .v .a b, .v .a h]
  | .vldgB _ a b h => [.v .b a, .v .b b, .v .b h]
  | .vstgA _ a b h => [.v .a a, .v .a b, .v .a h]
  | .vstgB _ a b h => [.v .b a, .v .b b, .v .b h]
  | .vgathA _ a b _ _ _ => [.v .a a, .v .a b]
  | .vgathB _ a b _ _ _ => [.v .b a, .v .b b]
  | .vscatA _ a b _ _ => [.v .a a, .v .a b]
  | .vscatB _ a b _ _ => [.v .b a, .v .b b]
  | .vlshuA _ a b _ => [.v .a a, .v .a b]
  | .vlshuB _ a b _ => [.v .b a, .v .b b]
  | .vlshdA _ a b _ => [.v .a a, .v .a b]
  | .vlshdB _ a b _ => [.v .b a, .v .b b]
  | .vbcastA _ a _ => [.v .a a]
  | .vbcastB _ a _ => [.v .b a]
  | .viotaA _ a _ => [.v .a a]
  | .viotaB _ a _ => [.v .b a]
  | .vpermA _ a b => [.v .a a, .v .a b]
  | .vpermB _ a b => [.v .b a, .v .b b]
  | .vredA _ a _ => [.v .a a]
  | .vredB _ a _ => [.v .b a]
  | .mwld _ a _ => [.s a]
  | .mpush _ a b cl _ _ => [.v cl a, .s b]
  | .mshift _ b _ _ => [.s b]
  | .macc _ a => [.s a]
  | .mdrn _ a b _ _ _ => [.s a, .s b]
  | .mzero _ a _ => [.s a]
  | .msweep _ a _ => [.s a]
  | .cnest _ a _ => [.s a]
  | .cstride _ a b _ => [.s a, .s b]
  | .cbase _ a b _ => [.s a, .s b]
  | .ccopy _ a b _ => [.s a, .s b]
  | .cacc _ a b _ _ => [.s a, .s b]
  | .caccr _ a b _ _ => [.s a, .s b]
  | .ccas _ a b _ _ _ => [.s a, .s b]
  | .csync _ a b _ => [.s a, .s b]
  | .cswait _ a b => [.s a, .s b]
  | .cfeset _ a b _ => [.s a, .s b]
  | .cring _ a b _ => [.s a, .s b]
  | .crsub _ a b _ _ => [.s a, .s b]
  | .stream _ a _ => [.s a]
  | .clred _ a => [.s a]
  | .clbc _ a => [.s a]
  | .cla2a _ a => [.s a]
  | .clvir _ a => [.s a]
  | .clrowDisp _ a => [.s a]
  | .clrowComb _ a => [.s a]
  | .clwait _ a => [.s a]
  | .fbstat _ a _ => [.s a]
  | .kvld _ a b => [.s a, .s b]
  | .kvst _ a b => [.s a, .s b]
  | .psel _ a b => [.s a, .s b]
  | .pmapRead _ a b => [.s a, .s b]
  | .pmapReadref _ a b => [.s a, .s b]
  | .pmapMapnew _ a b => [.s a, .s b]
  | .pmapRevoke _ a b => [.s a, .s b]
  | .pmapEvict _ a b => [.s a, .s b]
  | .pmapPrefetch _ a b => [.s a, .s b]
  | .psref _ a b _ _ => [.s a, .s b]
  | .psdrop _ a _ => [.s a]
  | .spawn _ a b _ _ => [.s a, .s b]
  | .spawnb _ a b _ => [.s a, .s b]
  | .cancel _ a => [.s a]
  | .reprio _ a b => [.s a, .s b]
  | .join _ a _ => [.s a]
  | .phreg _ a _ => [.s a]
  | .phdrop _ a => [.s a]
  | .pharr _ a _ => [.s a]
  | .phwait _ a _ => [.s a]
  | .phaw _ a _ => [.s a]
  | .phrd _ a => [.s a]
  | .nsvl _ a b _ => [.s a, .s b]
  | .nsback _ a b _ _ => [.s a, .s b]
  | .nssel _ a b _ => [.s a, .s b]
  | .nsrd _ a b _ _ => [.s a, .s b]
  | .nswr _ a b _ _ => [.s a, .s b]
  | .nsalloc _ a b _ => [.s a, .s b]
  | .nsallocFree _ a _ => [.s a]
  | .gscfg _ a _ _ => [.s a]
  | .gsocc _ a => [.s a]
  | .gsdlen _ a => [.s a]
  | .gsseed _ a => [.s a]
  | .gsiterStart _ a => [.s a]
  | .gsiterLayer _ a b => [.s a, .s b]
  | .gsiterEnd _ b => [.s b]
  | .gsnoise _ a b _ => [.s a, .s b]
  | .gssamp _ a => [.s a]
  | .gsacc _ a b => [.s a, .s b]
  | .gswait _ a b _ => [.s a, .s b]
  | .cxs _ a b cl _ => [.v cl a, .v cl b]
  | .thrc _ a b cl _ _ => [.v cl a, .v cl b]
  | .hist _ a b cl _ => [.v cl a, .v cl b]
  | .ttnew _ a b => [.s a, .s b]
  | .ttadd _ a b _ => [.s a, .s b]
  | .ttpos _ a _ _ => [.s a]
  | .ttmask _ a _ _ _ _ => [.s a]
  | .ttpath _ a _ _ _ => [.s a]
  | .ttprune _ a b _ => [.s a, .s b]
  | .ttfree _ a => [.s a]
  | .ttrd _ a _ => [.s a]
  | _ => []
/-- The destination a PUT form names (R35). -/
def destsOf : Instr → List Opd
  | .put _ _ d => [.d d]
  | .vputA _ _ d => [.vd .a d]
  | .vputB _ _ d => [.vd .b d]
  | _ => []
/-- What conditions 6 and 7 of R39 compare: a named register, a predicate, an index register. -/
inductive Loc where
  | reg (f : File3) (r : Int)
  | ps (p : BitVec 3)
  | pv (c : Clu) (p : BitVec 3)
  | ix (r : IdxReg)
deriving DecidableEq, Repr
/-- The guard of a slot (R30): a scalar predicate, or a lane mask of a cluster. -/
def guardRef : Instr → Option (Option Clu × Guard)
  | .add g _ _ _ _ _ => some (none, g)
  | .sub g _ _ _ _ _ => some (none, g)
  | .addi g _ _ => some (none, ⟨g, false⟩)
  | .mul g _ _ _ _ _ => some (none, g)
  | .mulh g _ _ _ _ => some (none, g)
  | .div g _ _ _ _ _ => some (none, g)
  | .rem g _ _ _ _ => some (none, g)
  | .and g _ _ _ _ => some (none, g)
  | .or g _ _ _ _ => some (none, g)
  | .xor g _ _ _ _ => some (none, g)
  | .andi g _ _ => some (none, ⟨g, false⟩)
  | .shl g _ _ _ _ => some (none, g)
  | .shr g _ _ _ _ => some (none, g)
  | .shli g _ _ _ _ => some (none, ⟨g, false⟩)
  | .shri g _ _ _ _ => some (none, ⟨g, false⟩)
  | .movi g _ => some (none, ⟨g, false⟩)
  | .shori g _ _ => some (none, ⟨g, false⟩)
  | .min g _ _ _ _ => some (none, g)
  | .max g _ _ _ _ => some (none, g)
  | .clz g _ _ => some (none, g)
  | .popc g _ _ => some (none, g)
  | .bfx g _ _ _ => some (none, g)
  | .bfi g _ _ _ => some (none, g)
  | .sext g _ _ _ => some (none, g)
  | .sel g _ _ _ => some (none, g)
  | .cmp g _ _ _ _ => some (none, g)
  | .plog g _ _ _ _ => some (none, g)
  | .put g _ _ => some (none, g)
  | .putx g _ _ => some (none, g)
  | .xaddi g _ _ => some (none, ⟨g, false⟩)
  | .fence g _ => some (none, g)
  | .ld g _ _ _ _ _ => some (none, g)
  | .st g _ _ _ _ => some (none, g)
  | .ldw g _ _ _ _ _ => some (none, g)
  | .stw g _ _ _ _ => some (none, g)
  | .ldg g _ _ _ _ => some (none, g)
  | .stg g _ _ _ _ => some (none, g)
  | .lda g _ _ _ _ _ => some (none, g)
  | .strl g _ _ _ _ => some (none, g)
  | .br g _ => some (none, ⟨g, false⟩)
  | .brme g _ _ => some (none, ⟨g, false⟩)
  | .jmpr g _ => some (none, g)
  | .callr g _ => some (none, g)
  | .ret g _ => some (none, g)
  | .nest g _ _ _ => some (none, g)
  | .nstride g _ _ _ _ _ => some (none, g)
  | .nestmask g _ _ _ => some (none, g)
  | .cqpush g _ => some (none, g)
  | .live g _ _ => some (none, g)
  | .phase g _ => some (none, g)
  | .csrr g _ => some (none, ⟨g, false⟩)
  | .csrw g _ _ => some (none, ⟨g, false⟩)
  | .trap g _ => some (none, ⟨g, false⟩)
  | .waitcy g _ => some (none, ⟨g, false⟩)
  | .snap g _ => some (none, g)
  | .exit g _ => some (none, g)
  | .vaddA g _ _ _ => some (some .a, g)
  | .vaddB g _ _ _ => some (some .b, g)
  | .vsubA g _ _ _ => some (some .a, g)
  | .vsubB g _ _ _ => some (some .b, g)
  | .vmulA g _ _ _ => some (some .a, g)
  | .vmulB g _ _ _ => some (some .b, g)
  | .vfmaA g _ _ _ _ => some (some .a, g)
  | .vfmaB g _ _ _ _ => some (some .b, g)
  | .vfmsA g _ _ _ _ => some (some .a, g)
  | .vfmsB g _ _ _ _ => some (some .b, g)
  | .vaddminA g _ _ _ _ => some (some .a, g)
  | .vaddminB g _ _ _ _ => some (some .b, g)
  | .vminA g _ _ _ => some (some .a, g)
  | .vminB g _ _ _ => some (some .b, g)
  | .vmaxA g _ _ _ => some (some .a, g)
  | .vmaxB g _ _ _ => some (some .b, g)
  | .vabsA g _ _ => some (some .a, g)
  | .vabsB g _ _ => some (some .b, g)
  | .vnegA g _ _ => some (some .a, g)
  | .vnegB g _ _ => some (some .b, g)
  | .vandA g _ _ => some (some .a, g)
  | .vandB g _ _ => some (some .b, g)
  | .vorA g _ _ => some (some .a, g)
  | .vorB g _ _ => some (some .b, g)
  | .vxorA g _ _ => some (some .a, g)
  | .vxorB g _ _ => some (some .b, g)
  | .vshlA g _ _ _ => some (some .a, g)
  | .vshlB g _ _ _ => some (some .b, g)
  | .vshrA g _ _ _ => some (some .a, g)
  | .vshrB g _ _ _ => some (some .b, g)
  | .vcmpA g _ _ _ _ => some (some .a, g)
  | .vcmpB g _ _ _ _ => some (some .b, g)
  | .vselA g _ _ _ => some (some .a, g)
  | .vselB g _ _ _ => some (some .b, g)
  | .vplogA g _ _ _ _ => some (some .a, g)
  | .vplogB g _ _ _ _ => some (some .b, g)
  | .vcvtA g _ _ _ _ _ => some (some .a, g)
  | .vcvtB g _ _ _ _ _ => some (some .b, g)
  | .vmxqA g _ _ _ => some (some .a, g)
  | .vmxqB g _ _ _ => some (some .b, g)
  | .vmxdA g _ _ _ _ => some (some .a, g)
  | .vmxdB g _ _ _ _ => some (some .b, g)
  | .vrcpA g _ _ => some (some .a, g)
  | .vrcpB g _ _ => some (some .b, g)
  | .vrsqA g _ _ => some (some .a, g)
  | .vrsqB g _ _ => some (some .b, g)
  | .vexpA g _ _ => some (some .a, g)
  | .vexpB g _ _ => some (some .b, g)
  | .vlogA g _ _ => some (some .a, g)
  | .vlogB g _ _ => some (some .b, g)
  | .vtanhA g _ _ => some (some .a, g)
  | .vtanhB g _ _ => some (some .b, g)
  | .vmoviA g _ => some (some .a, ⟨g, false⟩)
  | .vmoviB g _ => some (some .b, ⟨g, false⟩)
  | .vputA g _ _ => some (some .a, g)
  | .vputB g _ _ => some (some .b, g)
  | .vputxA g _ _ => some (some .a, g)
  | .vputxB g _ _ => some (some .b, g)
  | .vxmovA g _ => some (some .a, g)
  | .vxmovB g _ => some (some .b, g)
  | .vldA g _ _ _ => some (some .a, g)
  | .vldB g _ _ _ => some (some .b, g)
  | .vstA g _ _ _ => some (some .a, g)
  | .vstB g _ _ _ => some (some .b, g)
  | .vldwA g _ _ _ => some (some .a, g)
  | .vldwB g _ _ _ => some (some .b, g)
  | .vstwA g _ _ _ => some (some .a, g)
  | .vstwB g _ _ _ => some (some .b, g)
  | .vldgA g _ _ _ => some (some .a, g)
  | .vldgB g _ _ _ => some (some .b, g)
  | .vstgA g _ _ _ => some (some .a, g)
  | .vstgB g _ _ _ => some (some .b, g)
  | .vgathA g _ _ _ _ _ => some (some .a, g)
  | .vgathB g _ _ _ _ _ => some (some .b, g)
  | .vscatA g _ _ _ _ => some (some .a, g)
  | .vscatB g _ _ _ _ => some (some .b, g)
  | .vlshuA g _ _ _ => some (some .a, g)
  | .vlshuB g _ _ _ => some (some .b, g)
  | .vlshdA g _ _ _ => some (some .a, g)
  | .vlshdB g _ _ _ => some (some .b, g)
  | .vbcastA g _ _ => some (some .a, g)
  | .vbcastB g _ _ => some (some .b, g)
  | .viotaA g _ _ => some (some .a, g)
  | .viotaB g _ _ => some (some .b, g)
  | .vpermA g _ _ => some (some .a, g)
  | .vpermB g _ _ => some (some .b, g)
  | .vredA g _ _ => some (some .a, g)
  | .vredB g _ _ => some (some .b, g)
  | .mwld g _ _ => some (none, g)
  | .mwsel g _ => some (none, g)
  | .mpush g _ _ _ _ _ => some (none, g)
  | .mshift g _ _ _ => some (none, g)
  | .macc g _ => some (none, g)
  | .mdrn g _ _ _ _ _ => some (none, g)
  | .mzero g _ _ => some (none, g)
  | .msweep g _ _ => some (none, g)
  | .mend g => some (none, g)
  | .mswap g _ => some (none, g)
  | .mfmt g _ => some (none, g)
  | .mstat g => some (none, g)
  | .cnest g _ _ => some (none, g)
  | .cstride g _ _ _ => some (none, g)
  | .cbase g _ _ _ => some (none, g)
  | .ccopy g _ _ _ => some (none, g)
  | .cacc g _ _ _ _ => some (none, g)
  | .caccr g _ _ _ _ => some (none, g)
  | .ccas g _ _ _ _ _ => some (none, g)
  | .csync g _ _ _ => some (none, g)
  | .cswait g _ _ => some (none, g)
  | .cfeset g _ _ _ => some (none, g)
  | .cring g _ _ _ => some (none, g)
  | .crsub g _ _ _ _ => some (none, g)
  | .crunsub g _ => some (none, g)
  | .crfin g _ => some (none, g)
  | .cwait g => some (none, g)
  | .stream g _ _ => some (none, g)
  | .sclose g _ _ => some (none, g)
  | .clred g _ => some (none, g)
  | .clbc g _ => some (none, g)
  | .cla2a g _ => some (none, g)
  | .clvir g _ => some (none, g)
  | .clrowDisp g _ => some (none, g)
  | .clrowComb g _ => some (none, g)
  | .clwait g _ => some (none, g)
  | .fbstat g _ _ => some (none, g)
  | .kvld g _ _ => some (none, g)
  | .kvst g _ _ => some (none, g)
  | .psel g _ _ => some (none, g)
  | .pmapRead g _ _ => some (none, g)
  | .pmapReadref g _ _ => some (none, g)
  | .pmapMapnew g _ _ => some (none, g)
  | .pmapRevoke g _ _ => some (none, g)
  | .pmapEvict g _ _ => some (none, g)
  | .pmapPrefetch g _ _ => some (none, g)
  | .psref g _ _ _ _ => some (none, g)
  | .psdrop g _ _ => some (none, g)
  | .spawn g _ _ _ _ => some (none, g)
  | .spawnb g _ _ _ => some (none, g)
  | .cancel g _ => some (none, g)
  | .reprio g _ _ => some (none, g)
  | .join g _ _ => some (none, g)
  | .tkdone g => some (none, g)
  | .tstat g => some (none, g)
  | .phreg g _ _ => some (none, g)
  | .phdrop g _ => some (none, g)
  | .pharr g _ _ => some (none, g)
  | .phwait g _ _ => some (none, g)
  | .phaw g _ _ => some (none, g)
  | .phrd g _ => some (none, g)
  | .nsvl g _ _ _ => some (none, g)
  | .nsback g _ _ _ _ => some (none, g)
  | .nssel g _ _ _ => some (none, g)
  | .nsrd g _ _ _ _ => some (none, g)
  | .nswr g _ _ _ _ => some (none, g)
  | .nsalloc g _ _ _ => some (none, g)
  | .nsallocFree g _ _ => some (none, g)
  | .gscfg g _ _ _ => some (none, g)
  | .gsocc g _ => some (none, g)
  | .gsdlen g _ => some (none, g)
  | .gsseed g _ => some (none, g)
  | .gsiterStart g _ => some (none, g)
  | .gsiterLayer g _ _ => some (none, g)
  | .gsiterEnd g _ => some (none, g)
  | .gsnoise g _ _ _ => some (none, g)
  | .gssamp g _ => some (none, g)
  | .gsacc g _ _ => some (none, g)
  | .gswait g _ _ _ => some (none, g)
  | .cxs g _ _ _ _ => some (none, g)
  | .thrc g _ _ _ _ _ => some (none, g)
  | .hist g _ _ _ _ => some (none, g)
  | .ttnew g _ _ => some (none, g)
  | .ttadd g _ _ _ => some (none, g)
  | .ttpos g _ _ _ => some (none, g)
  | .ttmask g _ _ _ _ _ => some (none, g)
  | .ttpath g _ _ _ _ => some (none, g)
  | .ttprune g _ _ _ => some (none, g)
  | .ttfree g _ => some (none, g)
  | .ttrd g _ _ => some (none, g)
  | _ => none
/-- The guard a slot reads (R30). -/
def guardOf (i : Instr) : List Loc :=
  match guardRef i with
  | some (none, g) => [.ps g.p]
  | some (some c, g) => [.pv c g.p]
  | none => []
/-- The guard of a slot is true, of a vector slot in some lane (R31). -/
def slotOn (x : Context) (i : Instr) : Bool :=
  match guardRef i with
  | some (none, g) => gTrue g x
  | some (some c, g) => laneMask x c g != 0
  | none => true
/-- A slot pops the count queue (R38, R187). -/
def popsCq (x : Context) (i : Instr) : Bool :=
  slotOn x i && ((opdsOf i).contains (.s .cq) || match i with
    | .nest _ _ bs _ => bs.cq
    | _ => false)
/-- The predicates and index registers a slot reads beside its guard. -/
def predsOf : Instr → List Loc
  | .sel _ _ _ p => [.ps p]
  | .plog _ x y _ _ => [.ps x, .ps y]
  | .xaddi _ x _ => [.ix x]
  | .vselA _ _ _ p => [.pv .a p]
  | .vselB _ _ _ p => [.pv .b p]
  | .vplogA _ x y _ _ => [.pv .a x, .pv .a y]
  | .vplogB _ x y _ _ => [.pv .b x, .pv .b y]
  | .vmpushA _ p => [.pv .a p]
  | .vmpushB _ p => [.pv .b p]
  | _ => []
/-- The predicates and index registers a slot writes. -/
def predsSet : Instr → List Loc
  | .cmp _ _ _ _ d => [.ps d]
  | .plog _ _ _ _ d => [.ps d]
  | .putx _ _ x => [.ix x]
  | .xaddi _ x _ => [.ix x]
  | .vcmpA _ _ _ _ d => [.pv .a d]
  | .vcmpB _ _ _ _ d => [.pv .b d]
  | .vplogA _ _ _ _ d => [.pv .a d]
  | .vplogB _ _ _ _ d => [.pv .b d]
  | .vputxA _ _ _ => [.ix .xa]
  | .vputxB _ _ _ => [.ix .xb]
  | _ => []
/-- Entries a slot pushes (R36, R136). -/
def pushesOf : Instr → Nat
  | .add .. | .sub .. | .addi .. | .mul .. | .mulh .. | .div .. => 1
  | .rem .. | .and .. | .or .. | .xor .. | .andi .. | .shl .. => 1
  | .shr .. | .shli .. | .shri .. | .movi .. | .shori .. | .min .. => 1
  | .max .. | .clz .. | .popc .. | .bfx .. | .bfi .. | .sext .. => 1
  | .sel .. | .ld .. | .ldw .. | .ldg .. | .lda .. | .call .. => 1
  | .callr .. | .csrr .. | .vaddA .. | .vaddB .. | .vsubA .. | .vsubB .. => 1
  | .vmulA .. | .vmulB .. | .vfmaA .. | .vfmaB .. | .vfmsA .. | .vfmsB .. => 1
  | .vaddminA .. | .vaddminB .. | .vminA .. | .vminB .. | .vmaxA .. | .vmaxB .. => 1
  | .vabsA .. | .vabsB .. | .vnegA .. | .vnegB .. | .vandA .. | .vandB .. => 1
  | .vorA .. | .vorB .. | .vxorA .. | .vxorB .. | .vshlA .. | .vshlB .. => 1
  | .vshrA .. | .vshrB .. | .vselA .. | .vselB .. | .vcvtA .. | .vcvtB .. => 1
  | .vmxdA .. | .vmxdB .. | .vrcpA .. | .vrcpB .. | .vrsqA .. | .vrsqB .. => 1
  | .vexpA .. | .vexpB .. | .vlogA .. | .vlogB .. | .vtanhA .. | .vtanhB .. => 1
  | .vmoviA .. | .vmoviB .. | .vxmovA .. | .vxmovB .. | .vldA .. | .vldB .. => 1
  | .vldwA .. | .vldwB .. | .vldgA .. | .vldgB .. | .vgathA .. | .vgathB .. => 1
  | .vlshuA .. | .vlshuB .. | .vlshdA .. | .vlshdB .. | .vbcastA .. | .vbcastB .. => 1
  | .viotaA .. | .viotaB .. | .vpermA .. | .vpermB .. | .vredA .. | .vredB .. => 1
  | .mdrn .. | .mstat .. | .caccr .. | .ccas .. | .clwait .. | .fbstat .. => 1
  | .pmapRead .. | .pmapReadref .. | .pmapMapnew .. | .pmapRevoke .. | .pmapEvict .. | .pmapPrefetch .. => 1
  | .spawn .. | .spawnb .. | .tstat .. | .phrd .. | .nssel .. | .nsrd .. => 1
  | .nsalloc .. | .nsallocFree .. | .gsnoise .. | .gsacc .. | .gswait .. | .hist .. => 1
  | .ttnew .. | .ttadd .. | .ttpos .. | .ttmask .. | .ttpath .. | .ttprune .. => 1
  | .ttrd .. => 1
  | .vmxqA .. | .vmxqB .. | .join .. | .cxs .. => 2
  | .thrc .. => 3
  | _ => 0
/-- An access that makes its bundle ordered beside the C and Q slots (R179). -/
def accessOf : Instr → Bool
  | .ld .. | .st .. | .ldw .. | .stw .. | .ldg .. | .stg .. => true
  | .lda .. | .strl .. | .vldA .. | .vldB .. | .vstA .. | .vstB .. => true
  | .vldwA .. | .vldwB .. | .vstwA .. | .vstwB .. | .vldgA .. | .vldgB .. => true
  | .vstgA .. | .vstgB .. | .vgathA .. | .vgathB .. | .vscatA .. | .vscatB .. => true
  | .mwld .. => true
  | _ => false

end Sys2Proof.Machine
end

