-- ==== Sys2Proof/Machine/Issue.lean ====
section
/-!
DEFINITION. Legality of a bundle (R26, R37-R41), its attempt to issue (R31, R38, R103, R132, R138, R146, R150), its
commit (R36, R113, R134, R142, R143), and the merge stage (R138-R140).
-/

namespace Sys2Proof.Machine

/-! ### Legality (R39-R41) -/

/-- A word of a bundle at its position. -/
structure Slot where
  pos : Nat
  word : W32
  ins : Except DecErr Instr

/-- The words of a bundle (R25). -/
def slotsOf (ws : List W32) : List Slot := ws.zipIdx.map fun p => { pos := p.2, word := p.1, ins := decodeWord p.1 }
/-- CLASS of a word (R28). -/
def Slot.cls (p : Slot) : Nat := (p.word.extractLsb' 28 3).toNat
/-- A word that holds an instruction, with it. -/
def Slot.instr? (p : Slot) : Option Instr :=
  match p.ins with
  | .ok i => some i
  | .error _ => none
/-- Mask bits of some positions (R40). -/
def posMask (ps : List Nat) : BitVec 8 := ps.foldl (fun m n => m ||| BitVec.ofNat 8 (2 ^ n)) 0
/-- At most so many slots of a class (R26). -/
def classLimit (c : Nat) : Nat := if c = 4 then 2 else if c = 7 then 0 else 1

/-- The named register an operand names, as a location. -/
def regLoc (x : Context) (o : Opd) : List Loc :=
  match o.reg x with
  | some (f, r) => [.reg f r]
  | none => []
/-- The index register an indexed code reads. -/
def idxLoc : Opd → List Loc
  | .s (.kx _) | .d (.kx _) => [.ix .xs]
  | .v .a (.vx _) | .vd .a (.vx _) => [.ix .xa]
  | .v .b (.vx _) | .vd .b (.vx _) => [.ix .xb]
  | _ => []
/-- What a slot reads, through a selector, an index or its guard (R39 condition 7). -/
def readsOf (x : Context) (i : Instr) : List Loc :=
  (opdsOf i).flatMap (fun o => regLoc x o ++ idxLoc o) ++ (destsOf i).flatMap idxLoc ++ guardOf i ++ predsOf i
/-- What a slot writes (R39 condition 6). -/
def writesOf (x : Context) (i : Instr) : List Loc := (destsOf i).flatMap (regLoc x) ++ predsSet i
/-- The shared ports (R37). -/
inductive Port where
  | rx | cqPop | cqPush | tx | cross
deriving DecidableEq, Repr
/-- Every shared port. -/
def ports : List Port := [.rx, .cqPop, .cqPush, .tx, .cross]
/-- Port uses of an operand. -/
def opdPort : Opd → List Port
  | .s .fin => [.rx]
  | .s .cq => [.cqPop]
  | .v _ .xq => [.cross]
  | _ => []
/-- Port uses of a slot, whatever its guard (R37). -/
def portsOf (i : Instr) : List Port :=
  (opdsOf i).flatMap opdPort ++
  match i with
  | .nest _ _ bs _ => if bs.cq then [.cqPop] else []
  | .cqpush .. | .hist .. => [.cqPush]
  | .put _ _ .fout => [.tx]
  | .vxmovA .. | .vxmovB .. => [.cross]
  | _ => []
/-- A vector predicate other than the guard pa0 or pb0. -/
def vecPred : Loc → Bool
  | .pv _ p => p != 0
  | _ => false
/-- What trap mode reserves: codes 61 and 62 of a vector file, and vector predicates (R150). -/
def trapReserved (i : Instr) : Bool :=
  (opdsOf i).any (fun o => match o with
    | .v _ .xq | .v _ .sq => true
    | _ => false) ||
  (guardOf i).any vecPred || (predsOf i ++ predsSet i).any fun l => match l with
    | .pv _ _ => true
    | _ => false
/-- The fields of a word that may be at fault, the fewest first: N, parts of MINOR, MINOR, A, B, parts of IMM13, then
several together. -/
def faultMasks : List W32 :=
  [0x40, 0x38, 0x07, 0x30, 0x0F, 0x3F, 0x7E000, 0x1F80, 0x1F00, 0x1FFF, 0x7E040, 0x1FC0, 0x7F, 0x7E03F, 0x1FBF, 0x7FF80, 0x7FFFF]
/-- Contents put into a field at fault. -/
def faultPats : List W32 := (List.range 64).map fun v => BitVec.ofNat 32 (v * 8192 + v * 128 + v)
/-- What a word with a reserved field value would be with other contents of that field: its other fields still name
what they name (R39, R40; log entry 22). -/
def formsOf (w : W32) : List Instr :=
  (faultMasks.findSome? fun m =>
    match faultPats.filterMap fun p => (decodeWord ((w &&& ~~~m) ||| (p &&& m))).toOption with
    | [] => none
    | l => some l).getD []
/-- The instruction of a word, or what its sound fields leave of it. -/
def Slot.forms (p : Slot) : List Instr :=
  match p.ins with
  | .ok i => [i]
  | .error .field => formsOf p.word
  | .error _ => []
/-- The locations a word has whatever stands in a field at fault. -/
def Slot.locs (f : Instr → List Loc) (p : Slot) : List Loc :=
  match p.forms with
  | [] => []
  | i :: r => (f i).filter fun l => r.all fun j => (f j).contains l
/-- How often a word uses a port, likewise. -/
def Slot.portUses (q : Port) (p : Slot) : Nat := ((p.forms.map fun i => (portsOf i).count q).min?).getD 0
/-- Positions of the pairs of distinct words that stand in a relation. -/
def pairs (r : Slot → Slot → Bool) (ps : List Slot) : List Nat :=
  ps.flatMap fun a => ps.flatMap fun b => if a.pos != b.pos && r a b then [a.pos, b.pos] else []
/-- Conditions 2 to 8 of R39, each with the words that take part in it. -/
def conditions (x : Context) (ws : List W32) : List (Nat × List Nat) :=
  let ps := slotsOf ws
  let at_ := fun (f : Slot → Bool) => (ps.filter f).map (·.pos)
  let err := fun (e : DecErr) => at_ fun p => match p.ins with
    | .error d => d == e
    | .ok _ => false
  let uses := fun (q : Port) => ps.flatMap fun a => List.replicate (a.portUses q) a.pos
  [(2, err .cls),
   (3, at_ fun p => decide (classLimit p.cls < (ps.filter fun q => q.cls == p.cls).length)),
   (4, err .opcode),
   (5, err .field ++ if x.trapMode then at_ (fun p => (p.instr?.map trapReserved).getD false) else []),
   (6, pairs (fun a b => (a.locs (writesOf x)).any fun l => (b.locs (writesOf x)).contains l) ps),
   (7, pairs (fun a b => (a.locs (readsOf x)).any fun l => (b.locs (writesOf x)).contains l) ps),
   (8, ports.flatMap fun q => if 1 < (uses q).length then uses q else [])]
/-- An illegal bundle (R40): its subcode and its mask. -/
def illegal (x : Context) (ws : List W32) : Option (Nat × BitVec 8) :=
  match (conditions x ws).filter fun c => !c.2.isEmpty with
  | [] => none
  | (n, ps) :: r => some (n, posMask (ps ++ r.flatMap (·.2)))

/-! ### What a bundle needs before it may issue -/

/-- An ordered bundle (R179). -/
def ordered (ps : List Slot) : Bool := ps.any fun p => p.cls == 4 || p.cls == 5 || (p.instr?.map accessOf).getD false
/-- A hold of the ordered bundles that follow (R180, R182, R422, R457). -/
def Hold.ordered : Hold → Bool
  | .phaw _ _ => false
  | _ => true
/-- The phaser a PHAW waits on (R424). -/
def phawOf (x : Context) : Option Nat := x.holds.findSome? fun h => match h with
  | .phaw _ n => some n
  | _ => none
/-- The live register behind a location (R132, R133). -/
def liveBlock (x : Context) : Loc → Option RcBlock
  | .reg .k r => if x.liveK.getLsbD r.toNat then some .k else none
  | .reg .va r => if x.liveA.getLsbD r.toNat then some (.va (BitVec.ofNat 5 r.toNat)) else none
  | .reg .vb r => if x.liveB.getLsbD r.toNat then some (.vb (BitVec.ofNat 5 r.toNat)) else none
  | _ => none
/-- The register blocks a bundle needs (R132). -/
def blocksOf (x : Context) (ps : List Slot) : List RcBlock :=
  ((ps.filterMap Slot.instr?).flatMap fun i => (readsOf x i ++ writesOf x i).filterMap (liveBlock x)).dedup
/-- Those of them that are not cached. -/
def missing (s : State) (t : Nat) (x : Context) (ps : List Slot) : List RcBlock :=
  (blocksOf x ps).filter fun b => !(s.core x.core).rc.contains (t, b)
/-- The place of a slot in the order of execution: S, VA, VB, first C, second C, Q, X, M (R36). -/
def orderRank (c : Nat) : Nat :=
  match c with
  | 0 => 0 | 1 => 1 | 2 => 2 | 4 => 3 | 5 => 4 | 6 => 5 | _ => 6
/-- The words of a bundle in the order of execution. -/
def inOrder (ps : List Slot) : List Slot := sortBy (fun a b => decide (orderRank a.cls ≤ orderRank b.cls)) ps
/-- The place of a slot's scratchpad writes in the same-cycle priority of R121. -/
def portRank (c : Nat) : Nat :=
  match c with
  | 0 => 1 | 1 => 2 | 2 => 3 | _ => 4

/-! ### The slots execute -/

/-- Stores with the rank of their source in R121, within its core. -/
abbrev Ranked := List (Nat × Write)
/-- The state, the ranked stores so far, and whether a C slot has executed. -/
structure RunSt where
  s : State
  ws : Ranked := []
  secondC : Bool := false
/-- DATAECC of a slot whose guard is true and one of whose operands lies in a register block with an uncorrectable error
(R31, R148): a cause beside those of its effect, which R146 ranks ahead of it or behind it (log entry 82). -/
def slotEcc (s : State) (x : Context) (i : Instr) : List Cause :=
  if slotOn x i then
    match rcStop s x (opdsOf i) with
    | some (.trap c) => [c]
    | _ => []
  else []
/-- One slot executes in its bundle; its new stores take its rank, those of a C slot the rank of its engine. -/
def runSlot (r : RunSt) (p : Slot) : RunSt :=
  match p.instr? with
  | none => r
  | some i =>
    let s := r.s.modLatch fun l => { l with pos := p.pos, ce := r.secondC, writes := [], cwrites := [] }
    let s := match slotExec i s with
      | .next s' => s'
      | _ => s
    match s.latch with
    | some l =>
      let mine := l.writes.map (fun w => (portRank p.cls, w)) ++ l.cwrites.map fun w => (if r.secondC then 6 else 5, w)
      let ecc := (slotEcc r.s l.ctx i).map fun c => (p.pos, c)
      { s := s.modLatch fun l => { l with causes := l.causes ++ ecc }, ws := mine ++ r.ws, secondC := r.secondC || p.cls == 4 }
    | none => { r with s := s }
/-- The bundle of a context opens: every slot finds the context as it stood before it, and its pushes to the count queue
the room that its pop and its CQCLR leave (R187). -/
def openBundle (s : State) (t : Nat) (x : Context) (ws : List W32) : State :=
  let y := { x with npc := afterWords x.pc ws, fr := x.fr.land x.ccyc, jump := none, opening := none }
  let ins := (slotsOf ws).filterMap Slot.instr?
  { s.setCtx t y with cur := some t, latch := some {
      ctx := y, total := (ins.map pushesOf).foldl (· + ·) 0, cqPop := ins.any (popsCq y), cqClr := ins.contains .cqclr, fresh0 := s.fresh } }
/-- Every slot of a bundle executes (R36). -/
def runSlots (s : State) (t : Nat) (x : Context) (ws : List W32) : RunSt :=
  (inOrder (slotsOf ws)).foldl runSlot { s := openBundle s t x ws }
/-- The causes that stand, with PRIV alone where trap mode forbids a slot (R146). -/
def standing (x : Context) (ps : List Slot) (cs : List (Nat × Cause)) : List (Nat × Cause) :=
  if x.trapMode && ps.any (fun p => p.cls == 1 || p.cls == 2 || p.cls == 3 || p.cls == 6) then cs.filter fun c => c.2.code == cPriv
  else cs
/-- Causes found without regard to what a bundle waits for: they are taken even where another slot holds the bundle. -/
def early (c : Cause) : Bool := decide (causeRank c.code ≤ 6)

/-! ### Commit -/

/-- A scratchpad write, which takes effect with the others of its cycle (R121). -/
def Write.isPool : Write → Bool
  | .pool _ _ _ | .wfe _ _ => true
  | _ => false
/-- Stores in the order they are applied: the highest rank of R121 last (R113). -/
def byRank (ws : Ranked) : Ranked := sortBy (fun a b => decide (b.1 ≤ a.1)) ws
/-- Applies stores of a core. -/
def applyRanked (s : State) (c : Nat) (ws : Ranked) : State := (byRank ws).foldl (fun s w => applyWrite s c w.1 w.2) s
/-- The count queue after a bundle: its pop, its CQCLR, its pushes (R187). -/
def commitCq (s : State) (c : Nat) (l : Latch) : State :=
  if l.cqPop || l.cqClr || !l.cqPush.isEmpty then
    s.modCore c fun k =>
      let q := if l.cqPop then k.cq.drop 1 else k.cq
      { k with cq := (if l.cqClr then [] else q) ++ l.cqPush }
  else s
/-- The place of the next bundle after one that has issued in order. -/
def Context.pass (x : Context) : Context := if x.fr.nest.act.isEmpty then x else x.modNest fun n => { n with pos := n.pos + 1 }
/-- Where a context goes after its bundle at `pc` (R142, R143, R185). -/
def follow (s : State) (x : Context) (pc : W64) : Context :=
  let seq := { x.pass with pc := x.npc, jump := none, opening := none }
  match x.jump, x.opening with
  | none, none => seq
  | none, some (n, st, len) => openLevel seq n st len
  | some a, none => { goto s x pc a with jump := none }
  | some a, some (n, st, len) => { goto s (openLevel seq n st len) x.npc a with jump := none }
/-- An EXIT takes effect once the stores, releases and fences before it have; a remote release has left then (R124, R195). -/
def finishExit (s : State) (t : Nat) : State :=
  match s.ctx? t with
  | some x =>
    match x.exit with
    | some v =>
      let owed := x.holds.any fun h => match h with
        | .fence _ | .arrive _ _ _ | .gs _ => true
        | .lda _ | .phaw _ _ => false
      let sent := fun (e : Later) => match e.acc with
        | .release _ _ (some _) b => b
        | _ => false
      if (leftOf x).all sent && !owed then exitTask s t v else s
    | none => s
  | none => s
/-- The boundary after a bundle: RTE completes where nothing of its handler is pending (R151), masked bundles are
skipped (R142), releases and fences take effect (R181, R182). -/
def boundaryAfter (s : State) (t : Nat) : State :=
  match s.ctx? t with
  | some x => finishExit (settle (nestSkip (rteFinish s t (x.ccyc - 1)) t skipFuel) t) t
  | none => s
/-- The bundle holds a LIVE. -/
def hasLive (ws : List W32) : Bool := (slotsOf ws).any fun p => match p.instr? with
  | some (.live _ _ _) => true
  | _ => false
/-- What a bundle leaves to its end: its control-register write (R190), the wait of its RTE for the results it has pushed
itself among others (R151), the blocks its LIVE releases (R133). -/
def lateEffects (s : State) (t : Nat) (x : Context) (ws : List W32) (l : Latch) : State :=
  let s := match l.csrw with
    | some (n, v) => csrWrite s t x n v
    | none => s
  let s := s.modCtx t fun y => if y.rte then { y with wait := rteWait y x.ccyc } else y
  if hasLive ws then dropDead s t else s
/-- Commits a bundle whose slots have executed: its stores in memory, the count queue, the context cycle, the next bundle
(R113, R134, R187). Its scratchpad writes are left to the cycle (R121). -/
def commit (r : RunSt) (t : Nat) (x : Context) (ws : List W32) : State × Ranked :=
  match r.s.latch with
  | none => (r.s, [])
  | some l =>
    let s := { r.s with cur := none, latch := none }
    let s := commitCq (applyRanked s x.core (r.ws.filter fun w => !w.2.isPool)) x.core l
    let s := capture s t x.fr.nest.pos x.pc ws
    let s := s.modCtx t fun y => { follow s y x.pc with ccyc := x.ccyc + 1, mrgwait := 0, fetched := none, ffault := none }
    (boundaryAfter (lateEffects s t x ws l) t, r.ws.filter fun w => w.2.isPool)

/-! ### An attempt to issue (R138, R146) -/

/-- What a context would do in a cycle: nothing (the state then holds what the attempt set going), take a trap, or
issue its bundle, with the words and the scratchpad writes of the cycle. -/
inductive Try where
  | held (s : State)
  | trap (s : State)
  | done (s : State) (ws : List W32) (out : Ranked)
/-- A fill of the weight array that a held beat asks for (R260). -/
def startFill (s : State) (c : Nat) (want : Option (Nat × Nat)) : State :=
  match want with
  | some (h, seg) =>
    if (s.core c).me.filling.isSome then s
    else s.modCore c fun k => { k with me := { k.me with filling := some (h, seg, s.acyc[dieOf c] + 32) } }
  | none => s
/-- The lines a bundle's WFE loads take, with the rank of each: core, line (R104). -/
def taken (ws : Ranked) : List (Nat × Nat × Nat) :=
  ws.flatMap fun w => match w.2 with
    | .wfe c ls => ls.map fun l => (w.1, c, l)
    | _ => []
/-- Two WFE loads of one bundle find one line: one of them waits, and the bundle with it (R103, R104). -/
def twiceTaken (ws : Ranked) : Bool :=
  let l := taken ws
  l.any fun p => l.any fun q => p.2 == q.2 && p.1 != q.1
/-- The bundle of a context executes, and is held, traps or commits. -/
def attempt (s : State) (t : Nat) (x : Context) (ws : List W32) : Try :=
  let ps := slotsOf ws
  let r := runSlots s t x ws
  match r.s.latch with
  | none => .held s
  | some l =>
    let cs := standing x ps l.causes
    let wait := l.held || (ordered ps && x.holds.any Hold.ordered) || twiceTaken r.ws
    if cs.any (fun c => early c.2) || (!wait && !cs.isEmpty) then .trap (takeTrap s t cs false)
    else if wait then .held (startFill s x.core l.want)
    else
      let q := commit r t x ws
      .done q.1 ws q.2
/-- A lowest asynchronous cause and the others, in their order (R147). -/
def lowestAsync : List Cause → Option (Cause × List Cause)
  | [] => none
  | a :: r =>
    match lowestAsync r with
    | some (b, r') => if a.code ≤ b.code then some (a, r) else some (b, a :: r')
    | none => some (a, [])
/-- A context that can take a cause at its boundary: resident, not ending, no rollback due, at a bundle. -/
def atBoundary (s : State) (t : Nat) (x : Context) : Bool :=
  ((look s.tasks t).map fun k => k.st == .running).getD false && x.exit.isNone && !((sweepOf s t).any fun w => w.roll.isSome) &&
  match x.fr.nest.act with
  | l :: _ => decide (x.fr.nest.pos < l.base + l.len)
  | [] => true
/-- Takes the lowest pending asynchronous cause of a context outside trap mode, if any (R147). -/
def takeAsync (s : State) (t : Nat) : Option State :=
  match s.ctx? t with
  | some x =>
    if x.trapMode || !atBoundary s t x then none
    else (lowestAsync x.asyncs).map fun q => takeTrap (s.setCtx t { x with asyncs := q.2 }) t [(0, q.1)] true
  | none => none
/-- PHASER BROKEN of a context that a PHAW holds (R421). -/
def phawBroken (s : State) (t : Nat) (x : Context) (n : Nat) : State :=
  let y := { x with holds := x.holds.filter Hold.ordered }
  trapEntry (s.setCtx t y) t { code := cPhaser, sub := 3, info := BitVec.ofNat 64 (x.core % 8 * 32 + n) } 0 false false x.pc
/-- What a resident context does in this cycle (R138), other cores aside. It stands at a masked bundle of its nest only where
that could not be fetched; once it can be, it is skipped (R142). -/
def tryBundle (s : State) (t : Nat) : Try :=
  match s.ctx? t with
  | none => .held s
  | some x =>
    match takeAsync s t with
    | some s' => .trap s'
    | none =>
      if !atBoundary s t x || x.park || x.wait != 0 || x.rte then .held s
      else
        match phawOf x with
        | some n => if (phOf s x.core n).brk then .trap (phawBroken s t x n) else .held s
        | none =>
          let skips := masked x.fr.nest.set x.fr.nest.pos x.fr.nest.act
          match bundleAt s x x.fr.nest.pos x.pc with
          | (s, .fault sub a) => .trap (trapEntry (s.modCtx t fun y => { y with ffault := none }) t { code := cFetch, sub := sub, addr := a } 0 false false x.pc)
          | (s, .long _) => .trap (trapEntry s t { code := cIllegal, sub := 1, addr := x.pc } 0xFF false false x.pc)
          | (s, .ok ws) =>
            if skips then .held (nestSkip s t skipFuel)
            else match illegal x ws with
            | some (n, m) => .trap (trapEntry s t { code := cIllegal, sub := n, addr := x.pc } m false false x.pc)
            | none => if !(missing s t x (slotsOf ws)).isEmpty then .held s else attempt s t x ws

/-! ### The merge stage (R139, R140) -/

/-- The resident contexts of a core in rank order: priority key, a REPRIO of this cycle aside, then context number (R139, R406). -/
def rankOrder (s : State) (c : Nat) : List Nat :=
  let rs := (s.core c).res.toList.filterMap fun o => o.bind fun t => (look s.tasks t).map fun k => (t, Arith.totalKey (k.oldKey.getD k.key))
  (sortBy (fun a b => decide (b.2 ≤ a.2)) rs).map (·.1)
/-- The first ready context of some, by what `f` finds of each, with what its bundle does and the contexts after it. -/
def firstReady (f : State → Nat → Try) (s : State) : List Nat → State × Option (Nat × Try × List Nat)
  | [] => (s, none)
  | t :: r =>
    match f s t with
    | .held s' => firstReady f s' r
    | o => (s, some (t, o, r))
/-- Two bundles hold slots of one class, or use one port (R140). -/
def collide (a b : List W32) : Bool :=
  let cls := fun (ws : List W32) => (slotsOf ws).map Slot.cls
  let pts := fun (ws : List W32) => ((slotsOf ws).filterMap Slot.instr?).flatMap portsOf
  (cls a).any (fun c => (cls b).contains c) || (pts a).any fun p => (pts b).contains p
/-- Of two bundles whose WFE loads find one line full, whether the first must wait (some true) or the second (R104). Where each
loses a line to the other, the first pair found decides and one bundle issues (DESIGN CHOICE, log entry 26). -/
def losesWfe (a b : Ranked) : Option Bool :=
  ((taken a).flatMap fun p => (taken b).filterMap fun q => if p.2 = q.2 then some (decide (q.1 < p.1)) else none).head?
/-- What two ready contexts do by rank, with the writes of the bundles that issue: the one that issues alone, or both, the
lead first (R104, R139, R140). -/
inductive Pick where
  | one (t : Nat) (counts : Bool)
  | two (p q : Nat)
deriving DecidableEq, Repr
/-- Which of two ready contexts issue, `swap` where the second has waited 64 cycles (R139). -/
def pickPair (a b : Nat) (swap : Bool) (ra rb : Try) : Pick :=
  let lead := if swap then b else a
  let other := if swap then a else b
  match ra, rb with
  | .done _ wa oa, .done _ wb ob =>
    if collide wa wb then .one lead (!swap)
    else
      match losesWfe oa ob with
      | some true => .one b false
      | some false => .one a false
      | none => .two lead other
  | _, _ => .two lead other
/-- The wait count of a context stands at its end (R139). -/
def swapDue (s : State) (t : Nat) : Bool := ((s.ctx? t).map fun x => x.mrgwait == 64).getD false
/-- The writes a bundle leaves to its cycle. -/
def Try.out : Try → Ranked
  | .done _ _ o => o
  | _ => []
/-- The lines the merge stage of a core would take in this cycle, what other cores take aside (R104). -/
def claims (s : State) (c : Nat) : List (Nat × Nat) :=
  let lines := fun (o : Ranked) => (taken o).map (·.2)
  match firstReady tryBundle s (rankOrder s c) with
  | (_, none) => []
  | (s, some (a, ra, r)) =>
    match firstReady tryBundle s r with
    | (_, none) => lines ra.out
    | (s, some (b, rb, _)) =>
      match pickPair a b (swapDue s b) ra rb with
      | .one t _ => lines (if t = a then ra.out else rb.out)
      | .two _ _ => lines ra.out ++ lines rb.out
/-- A WFE load of core c through the window loses a line to its own core, whose merge stage is still to come in this cycle
(R104, R121). -/
def outranked (s : State) (c : Nat) (out : Ranked) : Bool :=
  let far := ((taken out).filter fun p => p.2.1 != c).map (·.2)
  (far.map (·.1)).dedup.any fun k => s.agenda.contains (.mergeIssueCycle, { core := k }) && (claims s k).any fun l => far.contains l
/-- What a resident context does in this cycle (R104, R138). -/
def tryIssue (s : State) (t : Nat) : Try :=
  match tryBundle s t with
  | .done s' ws out =>
    match s.ctx? t with
    | some x => if outranked s x.core out then .held s else .done s' ws out
    | none => .held s
  | o => o
/-- One context acts in the cycle; what it leaves to the cycle's end comes with the state. -/
def act (s : State) (t : Nat) : State × Ranked :=
  match tryIssue s t with
  | .held s' => (s', [])
  | .trap s' => (s', [])
  | .done s' _ out => (s', out)
/-- The wait count of a context (R139). -/
def setWait (s : State) (t : Nat) (f : Nat → Nat) : State := s.modCtx t fun x => { x with mrgwait := f x.mrgwait }
/-- Another context comes second: the wait count of the former one is reset (R139). -/
def noteSecond (s : State) (c t : Nat) : State :=
  let s := match (s.core c).rank1 with
    | some u => if u = t then s else setWait s u fun _ => 0
    | none => s
  s.modCore c fun k => { k with rank1 := some t }
/-- One context of a core issues alone. -/
def issueOne (s : State) (c t : Nat) : State :=
  let a := act s t
  applyRanked a.1 c a.2
/-- Two contexts of a core issue, the lead first; their scratchpad writes meet at the end of the cycle (R121). -/
def issueTwo (s : State) (c p q : Nat) : State :=
  let a := act s p
  let b := act a.1 q
  applyRanked b.1 c (a.2 ++ b.2)
/-- A cycle with two ready contexts, by rank (R139, R140). -/
def issuePair (s : State) (c a b : Nat) (ra rb : Try) : State :=
  let s := noteSecond s c b
  match pickPair a b (swapDue s b) ra rb with
  | .one t counts => issueOne (if counts then setWait s b fun n => min 64 (n + 1) else s) c t
  | .two p q => issueTwo s c p q
/-- One cycle of a core's merge stage. -/
def mergeCycle (s : State) (c : Nat) : State :=
  match firstReady tryIssue s (rankOrder s c) with
  | (s, none) => s
  | (s, some (a, ra, r)) =>
    match firstReady tryIssue s r with
    | (s, none) => issueOne s c a
    | (s, some (b, rb, _)) => issuePair s c a b ra rb

end Sys2Proof.Machine
end

