-- ==== Sys2Proof/Machine/Sequence.lean ====
section
/-!
DEFINITION. The steps of the sequencer, the caches and the directory: the merge stage (R139), causes at a boundary
(R147), landings, waits and RTE (R129, R134, R151), the replay nest (R142), fetch and register cache (R132, R138), page
walks (R94), the directory (R118, R119), evictions (R108), releases (R181).
-/

namespace Sys2Proof.Machine

/-- MERGE_ISSUE_CYCLE: a cycle of the merge stage of core `core` (R139). -/
def execMergeIssueCycle (s : State) : Host.Outcome State Fault Refusal := .next (mergeCycle s s.ev.core)
/-- ASYNC_CAUSE_TAKEN: task `task` takes its lowest pending cause, where it stands at a boundary outside trap mode (R147). -/
def execAsyncCauseTaken (s : State) : Host.Outcome State Fault Refusal := .next ((takeAsync s s.ev.task).getD s)
/-- RESULT_LANDING: the results of task `task` that are due and have arrived land (R129, R135). -/
def execResultLanding (s : State) : Host.Outcome State Fault Refusal :=
  .next (s.modCtx s.ev.task fun x => { x with fr := x.fr.land x.ccyc })

/-! ### Register cache and fetch -/

/-- Blocks the register cache of a core holds at most (R132). -/
def rcRoom (k : Core) : Nat := 256 * rcBank k.part
/-- The blocks the bundles due on a core need (R132). -/
def neededBlocks (s : State) (c : Nat) : List (Nat × RcBlock) :=
  ((s.core c).res.toList.filterMap id).flatMap fun t =>
    match s.ctx? t with
    | some x =>
      match (bundleAt s x x.fr.nest.pos x.pc).2 with
      | .ok ws => (blocksOf x (slotsOf ws)).map fun b => (t, b)
      | _ => []
    | none => []
/-- The cache with one block more; the oldest that no due bundle needs makes room. -/
def fillBlock (s : State) (c t : Nat) (b : RcBlock) : State :=
  let k := s.core c
  if k.rc.contains (t, b) then s
  else
    let keep := neededBlocks s c
    let rc := if k.rc.length < rcRoom k then k.rc
      else match k.rc.reverse.find? fun e => !keep.contains e with
        | some e => k.rc.erase e
        | none => k.rc
    s.modCore c fun k => { k with rc := (t, b) :: rc }
/-- REGCACHE_FILL: a block of task `task`, resident on core `core`, is filled from its image (R132). -/
def execRegcacheFill (s : State) : Host.Outcome State Fault Refusal :=
  match s.ev.body with
  | .block b => .next (if (s.core s.ev.core).res.toList.contains (some s.ev.task) then fillBlock s s.ev.core s.ev.task b else s)
  | _ => .next s
/-- BUNDLE_FETCH: the next bundle of task `task` is fetched ahead, or its fetch faults and is tried again (R138, R153). -/
def execBundleFetch (s : State) : Host.Outcome State Fault Refusal :=
  match s.ctx? s.ev.task with
  | some x =>
    match bundleAt s x x.fr.nest.pos x.pc with
    | (s, .ok ws) => .next (s.modCtx s.ev.task fun x => { x with fetched := some (x.pc, ws) })
    | (s, .fault _ a) => .next (s.modCtx s.ev.task fun y => { y with ffault := some (x.pc, a) })
    | (s, .long _) => .next s
  | none => .next s

/-! ### Waits, RTE, the nest, releases -/

/-- One cycle of an explicit wait (R134). -/
def Context.waitOne (x : Context) : Context := { x with wait := x.wait - 1, ccyc := x.ccyc + 1 }
/-- WAIT_EXPIRY: the last cycle of the explicit wait of task `task` passes (R134, R193). -/
def execWaitExpiry (s : State) : Host.Outcome State Fault Refusal :=
  .next (s.modCtx s.ev.task fun x => if x.wait = 1 then x.waitOne else x)
/-- RTE_RESUME: task `task` leaves trap mode once nothing of its handler is pending (R151). -/
def execRteResume (s : State) : Host.Outcome State Fault Refusal :=
  match s.ctx? s.ev.task with
  | some x => .next (rteFinish s s.ev.task (x.ccyc - 1))
  | none => .next s
/-- REPLAY_ITERATION_END of task `task` (R142). -/
def execReplayIterationEnd (s : State) : Host.Outcome State Fault Refusal := .next (iterationEnd s s.ev.task)
/-- RELEASE_PERFORM: the accesses of task `task` that wait for their turn, then the fences and arrivals behind them, whose
earlier accesses are done (R112, R181, R182, R422); an EXIT that waited for them takes effect (R195), and a killed context
whose stores have all been performed is gone (R15). -/
def execReleasePerform (s : State) : Host.Outcome State Fault Refusal :=
  .next (finishDead (finishExit (settle s s.ev.task) s.ev.task) s.ev.task)

/-! ### Translation, directory, cache -/

/-- PAGE_WALK: core `core` translates `val`; a walk that ends fills its TLBs, one that faults leaves nothing (R94, R97). -/
def execPageWalk (s : State) : Host.Outcome State Fault Refusal :=
  match findLeaf s s.ev.core s.ev.val.toNat with
  | .ok (s, _, _) => .next s
  | .error _ => .next s
/-- A release by context t on core c under variable v reaches a line (R116, R118). -/
def relLine (s : State) (c t v ln : Nat) : State :=
  match look s.dir ln with
  | some (.d c' t') => if c' = c ∧ t' = t then setDir s ln (some (.p c v)) else s
  | some (.k c') => if c' = c then setDir s ln (some (.p c v)) else s
  | some (.p c' w) => if c' = c ∧ w ≠ v then writeBack s c ln else s
  | none => s
/-- An acquire of variable v by context t on core c reaches a line (R117, R118). -/
def acqLine (s : State) (c t v pa : Nat) (va : W64) : State :=
  match look s.dir (pa / 128) with
  | some (.p c' w) => if w = v then writeBack s c' (pa / 128) else if c' = c then s else raceAt s t c pa va
  | some (.k c') => if c' = c then s else raceAt s t c pa va
  | some (.d c' t') => if c' = c ∧ t' = t then s else raceAt s t c pa va
  | none => s
/-- What an access does to the line of physical address pa (R118); `va` is the address it named. -/
def dirAccess (s : State) (c t pa : Nat) (va : W64) (k : DirEvent) : State :=
  let ln := pa / 128
  match k with
  | .load =>
    match plainLoad s c t pa 1 false with
    | (s, .race) => raceAt s t c pa va
    | (s, _) => s
  | .store bs =>
    match plainStore s c t pa (bs.take (128 - pa % 128)) false with
    | some s => s
    | none => raceAt s t c pa va
  | .relCore => match look s.dir ln with
    | some (.d c' t') => if c' = c ∧ t' = t then setDir s ln (some (.k c)) else s
    | _ => s
  | .rel v => relLine s c t v ln
  | .acq v => acqLine s c t v pa va
  | .fence => match look s.dir ln with
    | some d => if d.mine c t then writeBack s c ln else s
    | none => s
  | .engine => (engineLine s c ln).1
  | .remote => if (look s.dir ln).isSome then logViol s (dieOfPa pa) (some 3) 0xFFFF 0xFF (some c) (some va) else s
/-- DIRECTORY_ACCESS: an access of task `task` on core `core` (of endpoint `core` for a remote one) reaches the line of
physical address `num`; `val` is the address it named (R118, R119). -/
def execDirectoryAccess (s : State) : Host.Outcome State Fault Refusal :=
  match s.ev.body with
  | .dir k => .next (dirAccess s s.ev.core s.ev.task s.ev.num s.ev.val k)
  | _ => .next s
/-- CACHE_EVICTION: core `core` evicts line `num` of its data cache (R108). -/
def execCacheEviction (s : State) : Host.Outcome State Fault Refusal := .next (evictLine s s.ev.core s.ev.num)

end Sys2Proof.Machine
end

