-- ==== Sys2Proof/Machine/Dispatch.lean ====
section
/-!
DEFINITION. One arm per constructor of Instr: its meaning.
-/

namespace Sys2Proof.Machine

/-- What an instruction does to the state. -/
def exec (i : Instr) (s : State) : Host.Outcome State Fault Refusal :=
  match i with
  | .add g a b sat u w => Sys2Proof.Machine.execAdd g a b sat u w s
  | .sub g a b sat u w => Sys2Proof.Machine.execSub g a b sat u w s
  | .addi g a imm => Sys2Proof.Machine.execAddi g a imm s
  | .mul g a b sat u w => Sys2Proof.Machine.execMul g a b sat u w s
  | .mulh g a b u w => Sys2Proof.Machine.execMulh g a b u w s
  | .div g a b sat u w => Sys2Proof.Machine.execDiv g a b sat u w s
  | .rem g a b u w => Sys2Proof.Machine.execRem g a b u w s
  | .and g a b u w => Sys2Proof.Machine.execAnd g a b u w s
  | .or g a b u w => Sys2Proof.Machine.execOr g a b u w s
  | .xor g a b u w => Sys2Proof.Machine.execXor g a b u w s
  | .andi g a imm => Sys2Proof.Machine.execAndi g a imm s
  | .shl g a b u w => Sys2Proof.Machine.execShl g a b u w s
  | .shr g a b u w => Sys2Proof.Machine.execShr g a b u w s
  | .shli g a u w sh => Sys2Proof.Machine.execShli g a u w sh s
  | .shri g a u w sh => Sys2Proof.Machine.execShri g a u w sh s
  | .movi g imm => Sys2Proof.Machine.execMovi g imm s
  | .shori g a imm => Sys2Proof.Machine.execShori g a imm s
  | .min g a b u w => Sys2Proof.Machine.execMin g a b u w s
  | .max g a b u w => Sys2Proof.Machine.execMax g a b u w s
  | .clz g a w => Sys2Proof.Machine.execClz g a w s
  | .popc g a w => Sys2Proof.Machine.execPopc g a w s
  | .bfx g a b u => Sys2Proof.Machine.execBfx g a b u s
  | .bfi g a b m => Sys2Proof.Machine.execBfi g a b m s
  | .sext g a u w => Sys2Proof.Machine.execSext g a u w s
  | .sel g a b p => Sys2Proof.Machine.execSel g a b p s
  | .cmp g a b cond d => Sys2Proof.Machine.execCmp g a b cond d s
  | .plog g x y op d => Sys2Proof.Machine.execPlog g x y op d s
  | .put g a d => Sys2Proof.Machine.execPut g a d s
  | .putx g a x => Sys2Proof.Machine.execPutx g a x s
  | .xaddi g x imm => Sys2Proof.Machine.execXaddi g x imm s
  | .fence g sc => Sys2Proof.Machine.execFence g sc s
  | .ld g a b fe u sz => Sys2Proof.Machine.execLd g a b fe u sz s
  | .st g a b fe sz => Sys2Proof.Machine.execSt g a b fe sz s
  | .ldw g a b fe u sz => Sys2Proof.Machine.execLdw g a b fe u sz s
  | .stw g a b fe sz => Sys2Proof.Machine.execStw g a b fe sz s
  | .ldg g a b u sz => Sys2Proof.Machine.execLdg g a b u sz s
  | .stg g a b slot sz => Sys2Proof.Machine.execStg g a b slot sz s
  | .lda g a b sc u sz => Sys2Proof.Machine.execLda g a b sc u sz s
  | .strl g a b slot sc => Sys2Proof.Machine.execStrl g a b slot sc s
  | .br g imm => Sys2Proof.Machine.execBr g imm s
  | .brme g cl imm => Sys2Proof.Machine.execBrme g cl imm s
  | .jmp off => Sys2Proof.Machine.execJmp off s
  | .call off => Sys2Proof.Machine.execCall off s
  | .jmpr g a => Sys2Proof.Machine.execJmpr g a s
  | .callr g a => Sys2Proof.Machine.execCallr g a s
  | .ret g a => Sys2Proof.Machine.execRet g a s
  | .nest g a bs len => Sys2Proof.Machine.execNest g a bs len s
  | .nstride g a k clr j l => Sys2Proof.Machine.execNstride g a k clr j l s
  | .nestmask g a b l => Sys2Proof.Machine.execNestmask g a b l s
  | .cqpush g a => Sys2Proof.Machine.execCqpush g a s
  | .live g a ft => Sys2Proof.Machine.execLive g a ft s
  | .phase g a => Sys2Proof.Machine.execPhase g a s
  | .csrr g n => Sys2Proof.Machine.execCsrr g n s
  | .csrw g a n => Sys2Proof.Machine.execCsrw g a n s
  | .trap g imm => Sys2Proof.Machine.execTrap g imm s
  | .waitcy g imm => Sys2Proof.Machine.execWaitcy g imm s
  | .snap g a => Sys2Proof.Machine.execSnap g a s
  | .exit g a => Sys2Proof.Machine.execExit g a s
  | .vaddA g a b ty => Sys2Proof.Machine.execVaddA g a b ty s
  | .vaddB g a b ty => Sys2Proof.Machine.execVaddB g a b ty s
  | .vsubA g a b ty => Sys2Proof.Machine.execVsubA g a b ty s
  | .vsubB g a b ty => Sys2Proof.Machine.execVsubB g a b ty s
  | .vmulA g a b ty => Sys2Proof.Machine.execVmulA g a b ty s
  | .vmulB g a b ty => Sys2Proof.Machine.execVmulB g a b ty s
  | .vfmaA g a b ty m => Sys2Proof.Machine.execVfmaA g a b ty m s
  | .vfmaB g a b ty m => Sys2Proof.Machine.execVfmaB g a b ty m s
  | .vfmsA g a b ty m => Sys2Proof.Machine.execVfmsA g a b ty m s
  | .vfmsB g a b ty m => Sys2Proof.Machine.execVfmsB g a b ty m s
  | .vaddminA g a b ty m => Sys2Proof.Machine.execVaddminA g a b ty m s
  | .vaddminB g a b ty m => Sys2Proof.Machine.execVaddminB g a b ty m s
  | .vminA g a b ty => Sys2Proof.Machine.execVminA g a b ty s
  | .vminB g a b ty => Sys2Proof.Machine.execVminB g a b ty s
  | .vmaxA g a b ty => Sys2Proof.Machine.execVmaxA g a b ty s
  | .vmaxB g a b ty => Sys2Proof.Machine.execVmaxB g a b ty s
  | .vabsA g a ty => Sys2Proof.Machine.execVabsA g a ty s
  | .vabsB g a ty => Sys2Proof.Machine.execVabsB g a ty s
  | .vnegA g a ty => Sys2Proof.Machine.execVnegA g a ty s
  | .vnegB g a ty => Sys2Proof.Machine.execVnegB g a ty s
  | .vandA g a b => Sys2Proof.Machine.execVandA g a b s
  | .vandB g a b => Sys2Proof.Machine.execVandB g a b s
  | .vorA g a b => Sys2Proof.Machine.execVorA g a b s
  | .vorB g a b => Sys2Proof.Machine.execVorB g a b s
  | .vxorA g a b => Sys2Proof.Machine.execVxorA g a b s
  | .vxorB g a b => Sys2Proof.Machine.execVxorB g a b s
  | .vshlA g a b ty => Sys2Proof.Machine.execVshlA g a b ty s
  | .vshlB g a b ty => Sys2Proof.Machine.execVshlB g a b ty s
  | .vshrA g a b ty => Sys2Proof.Machine.execVshrA g a b ty s
  | .vshrB g a b ty => Sys2Proof.Machine.execVshrB g a b ty s
  | .vcmpA g a b cond d => Sys2Proof.Machine.execVcmpA g a b cond d s
  | .vcmpB g a b cond d => Sys2Proof.Machine.execVcmpB g a b cond d s
  | .vselA g a b p => Sys2Proof.Machine.execVselA g a b p s
  | .vselB g a b p => Sys2Proof.Machine.execVselB g a b p s
  | .vplogA g x y op d => Sys2Proof.Machine.execVplogA g x y op d s
  | .vplogB g x y op d => Sys2Proof.Machine.execVplogB g x y op d s
  | .vcvtA g a ft p su rm => Sys2Proof.Machine.execVcvtA g a ft p su rm s
  | .vcvtB g a ft p su rm => Sys2Proof.Machine.execVcvtB g a ft p su rm s
  | .vmxqA g a ft p => Sys2Proof.Machine.execVmxqA g a ft p s
  | .vmxqB g a ft p => Sys2Proof.Machine.execVmxqB g a ft p s
  | .vmxdA g a b ft p => Sys2Proof.Machine.execVmxdA g a b ft p s
  | .vmxdB g a b ft p => Sys2Proof.Machine.execVmxdB g a b ft p s
  | .vrcpA g a ft => Sys2Proof.Machine.execVrcpA g a ft s
  | .vrcpB g a ft => Sys2Proof.Machine.execVrcpB g a ft s
  | .vrsqA g a ft => Sys2Proof.Machine.execVrsqA g a ft s
  | .vrsqB g a ft => Sys2Proof.Machine.execVrsqB g a ft s
  | .vexpA g a ft => Sys2Proof.Machine.execVexpA g a ft s
  | .vexpB g a ft => Sys2Proof.Machine.execVexpB g a ft s
  | .vlogA g a ft => Sys2Proof.Machine.execVlogA g a ft s
  | .vlogB g a ft => Sys2Proof.Machine.execVlogB g a ft s
  | .vtanhA g a ft => Sys2Proof.Machine.execVtanhA g a ft s
  | .vtanhB g a ft => Sys2Proof.Machine.execVtanhB g a ft s
  | .vmoviA g imm => Sys2Proof.Machine.execVmoviA g imm s
  | .vmoviB g imm => Sys2Proof.Machine.execVmoviB g imm s
  | .vputA g a d => Sys2Proof.Machine.execVputA g a d s
  | .vputB g a d => Sys2Proof.Machine.execVputB g a d s
  | .vputxA g a l => Sys2Proof.Machine.execVputxA g a l s
  | .vputxB g a l => Sys2Proof.Machine.execVputxB g a l s
  | .vxmovA g r => Sys2Proof.Machine.execVxmovA g r s
  | .vxmovB g r => Sys2Proof.Machine.execVxmovB g r s
  | .vmpushA inv p => Sys2Proof.Machine.execVmpushA inv p s
  | .vmpushB inv p => Sys2Proof.Machine.execVmpushB inv p s
  | .vldA g a b fe => Sys2Proof.Machine.execVldA g a b fe s
  | .vldB g a b fe => Sys2Proof.Machine.execVldB g a b fe s
  | .vstA g a b fe => Sys2Proof.Machine.execVstA g a b fe s
  | .vstB g a b fe => Sys2Proof.Machine.execVstB g a b fe s
  | .vldwA g a b fe => Sys2Proof.Machine.execVldwA g a b fe s
  | .vldwB g a b fe => Sys2Proof.Machine.execVldwB g a b fe s
  | .vstwA g a b fe => Sys2Proof.Machine.execVstwA g a b fe s
  | .vstwB g a b fe => Sys2Proof.Machine.execVstwB g a b fe s
  | .vldgA g a b h => Sys2Proof.Machine.execVldgA g a b h s
  | .vldgB g a b h => Sys2Proof.Machine.execVldgB g a b h s
  | .vstgA g a b h => Sys2Proof.Machine.execVstgA g a b h s
  | .vstgB g a b h => Sys2Proof.Machine.execVstgB g a b h s
  | .vgathA g a b gsp sz u => Sys2Proof.Machine.execVgathA g a b gsp sz u s
  | .vgathB g a b gsp sz u => Sys2Proof.Machine.execVgathB g a b gsp sz u s
  | .vscatA g a b gsp sz => Sys2Proof.Machine.execVscatA g a b gsp sz s
  | .vscatB g a b gsp sz => Sys2Proof.Machine.execVscatB g a b gsp sz s
  | .vlshuA g a b n => Sys2Proof.Machine.execVlshuA g a b n s
  | .vlshuB g a b n => Sys2Proof.Machine.execVlshuB g a b n s
  | .vlshdA g a b n => Sys2Proof.Machine.execVlshdA g a b n s
  | .vlshdB g a b n => Sys2Proof.Machine.execVlshdB g a b n s
  | .vbcastA g a l => Sys2Proof.Machine.execVbcastA g a l s
  | .vbcastB g a l => Sys2Proof.Machine.execVbcastB g a l s
  | .viotaA g a step => Sys2Proof.Machine.execViotaA g a step s
  | .viotaB g a step => Sys2Proof.Machine.execViotaB g a step s
  | .vpermA g a b => Sys2Proof.Machine.execVpermA g a b s
  | .vpermB g a b => Sys2Proof.Machine.execVpermB g a b s
  | .vredA g a op => Sys2Proof.Machine.execVredA g a op s
  | .vredB g a op => Sys2Proof.Machine.execVredB g a op s
  | .mwld g a h => Sys2Proof.Machine.execMwld g a h s
  | .mwsel g h => Sys2Proof.Machine.execMwsel g h s
  | .mpush g a b cl acc seg => Sys2Proof.Machine.execMpush g a b cl acc seg s
  | .mshift g b acc seg => Sys2Proof.Machine.execMshift g b acc seg s
  | .macc g a => Sys2Proof.Machine.execMacc g a s
  | .mdrn g a b cl df clr => Sys2Proof.Machine.execMdrn g a b cl df clr s
  | .mzero g a n => Sys2Proof.Machine.execMzero g a n s
  | .msweep g a n => Sys2Proof.Machine.execMsweep g a n s
  | .mend g => Sys2Proof.Machine.execMend g s
  | .mswap g gw => Sys2Proof.Machine.execMswap g gw s
  | .mfmt g ft => Sys2Proof.Machine.execMfmt g ft s
  | .mstat g => Sys2Proof.Machine.execMstat g s
  | .cnest g a l => Sys2Proof.Machine.execCnest g a l s
  | .cstride g a b l => Sys2Proof.Machine.execCstride g a b l s
  | .cbase g a b slot => Sys2Proof.Machine.execCbase g a b slot s
  | .ccopy g a b t => Sys2Proof.Machine.execCcopy g a b t s
  | .cacc g a b t op => Sys2Proof.Machine.execCacc g a b t op s
  | .caccr g a b t op => Sys2Proof.Machine.execCaccr g a b t op s
  | .ccas g a b t sz m => Sys2Proof.Machine.execCcas g a b t sz m s
  | .csync g a b rgen => Sys2Proof.Machine.execCsync g a b rgen s
  | .cswait g a b => Sys2Proof.Machine.execCswait g a b s
  | .cfeset g a b ft => Sys2Proof.Machine.execCfeset g a b ft s
  | .cring g a b r => Sys2Proof.Machine.execCring g a b r s
  | .crsub g a b dir r => Sys2Proof.Machine.execCrsub g a b dir r s
  | .crunsub g r => Sys2Proof.Machine.execCrunsub g r s
  | .crfin g r => Sys2Proof.Machine.execCrfin g r s
  | .cwait g => Sys2Proof.Machine.execCwait g s
  | .stream g a q => Sys2Proof.Machine.execStream g a q s
  | .sclose g fill q => Sys2Proof.Machine.execSclose g fill q s
  | .clred g a => Sys2Proof.Machine.execClred g a s
  | .clbc g a => Sys2Proof.Machine.execClbc g a s
  | .cla2a g a => Sys2Proof.Machine.execCla2a g a s
  | .clvir g a => Sys2Proof.Machine.execClvir g a s
  | .clrowDisp g a => Sys2Proof.Machine.execClrowDisp g a s
  | .clrowComb g a => Sys2Proof.Machine.execClrowComb g a s
  | .clwait g a => Sys2Proof.Machine.execClwait g a s
  | .fbstat g a what => Sys2Proof.Machine.execFbstat g a what s
  | .kvld g a b => Sys2Proof.Machine.execKvld g a b s
  | .kvst g a b => Sys2Proof.Machine.execKvst g a b s
  | .psel g a b => Sys2Proof.Machine.execPsel g a b s
  | .pmapRead g a b => Sys2Proof.Machine.execPmapRead g a b s
  | .pmapReadref g a b => Sys2Proof.Machine.execPmapReadref g a b s
  | .pmapMapnew g a b => Sys2Proof.Machine.execPmapMapnew g a b s
  | .pmapRevoke g a b => Sys2Proof.Machine.execPmapRevoke g a b s
  | .pmapEvict g a b => Sys2Proof.Machine.execPmapEvict g a b s
  | .pmapPrefetch g a b => Sys2Proof.Machine.execPmapPrefetch g a b s
  | .psref g a b pin new => Sys2Proof.Machine.execPsref g a b pin new s
  | .psdrop g a pin => Sys2Proof.Machine.execPsdrop g a pin s
  | .spawn g a b desc nj => Sys2Proof.Machine.execSpawn g a b desc nj s
  | .spawnb g a b wsid => Sys2Proof.Machine.execSpawnb g a b wsid s
  | .cancel g a => Sys2Proof.Machine.execCancel g a s
  | .reprio g a b => Sys2Proof.Machine.execReprio g a b s
  | .join g a any => Sys2Proof.Machine.execJoin g a any s
  | .tkdone g => Sys2Proof.Machine.execTkdone g s
  | .tstat g => Sys2Proof.Machine.execTstat g s
  | .phreg g a mode => Sys2Proof.Machine.execPhreg g a mode s
  | .phdrop g a => Sys2Proof.Machine.execPhdrop g a s
  | .pharr g a sc => Sys2Proof.Machine.execPharr g a sc s
  | .phwait g a sc => Sys2Proof.Machine.execPhwait g a sc s
  | .phaw g a sc => Sys2Proof.Machine.execPhaw g a sc s
  | .phrd g a => Sys2Proof.Machine.execPhrd g a s
  | .nsvl g a b t => Sys2Proof.Machine.execNsvl g a b t s
  | .nsback g a b t alt => Sys2Proof.Machine.execNsback g a b t alt s
  | .nssel g a b t => Sys2Proof.Machine.execNssel g a b t s
  | .nsrd g a b t ft => Sys2Proof.Machine.execNsrd g a b t ft s
  | .nswr g a b t ft => Sys2Proof.Machine.execNswr g a b t ft s
  | .nsalloc g a b t => Sys2Proof.Machine.execNsalloc g a b t s
  | .nsallocFree g a t => Sys2Proof.Machine.execNsallocFree g a t s
  | .gscfg g a clr n => Sys2Proof.Machine.execGscfg g a clr n s
  | .gsocc g a => Sys2Proof.Machine.execGsocc g a s
  | .gsdlen g a => Sys2Proof.Machine.execGsdlen g a s
  | .gsseed g a => Sys2Proof.Machine.execGsseed g a s
  | .gsiterStart g a => Sys2Proof.Machine.execGsiterStart g a s
  | .gsiterLayer g a b => Sys2Proof.Machine.execGsiterLayer g a b s
  | .gsiterEnd g b => Sys2Proof.Machine.execGsiterEnd g b s
  | .gsnoise g a b cl => Sys2Proof.Machine.execGsnoise g a b cl s
  | .gssamp g a => Sys2Proof.Machine.execGssamp g a s
  | .gsacc g a b => Sys2Proof.Machine.execGsacc g a b s
  | .gswait g a b lay => Sys2Proof.Machine.execGswait g a b lay s
  | .cxs g a b cl sg => Sys2Proof.Machine.execCxs g a b cl sg s
  | .thrc g a b cl ty ge => Sys2Proof.Machine.execThrc g a b cl ty ge s
  | .hist g a b cl dir => Sys2Proof.Machine.execHist g a b cl dir s
  | .ttnew g a b => Sys2Proof.Machine.execTtnew g a b s
  | .ttadd g a b fl => Sys2Proof.Machine.execTtadd g a b fl s
  | .ttpos g a cl blk => Sys2Proof.Machine.execTtpos g a cl blk s
  | .ttmask g a cl col form blk => Sys2Proof.Machine.execTtmask g a cl col form blk s
  | .ttpath g a cl fld blk => Sys2Proof.Machine.execTtpath g a cl fld blk s
  | .ttprune g a b sf => Sys2Proof.Machine.execTtprune g a b sf s
  | .ttfree g a => Sys2Proof.Machine.execTtfree g a s
  | .ttrd g a what => Sys2Proof.Machine.execTtrd g a what s
  | .nop => Sys2Proof.Machine.execNop s
  | .cqclr => Sys2Proof.Machine.execCqclr s
  | .rte => Sys2Proof.Machine.execRte s
  | .vminvA => Sys2Proof.Machine.execVminvA s
  | .vmpopA => Sys2Proof.Machine.execVmpopA s
  | .vminvB => Sys2Proof.Machine.execVminvB s
  | .vmpopB => Sys2Proof.Machine.execVmpopB s
  | .expchkWrite => Sys2Proof.Machine.execExpchkWrite s
  | .trappcWrite => Sys2Proof.Machine.execTrappcWrite s
  | .rxringWrite => Sys2Proof.Machine.execRxringWrite s
  | .ftgcfgWrite => Sys2Proof.Machine.execFtgcfgWrite s
  | .tteageWrite => Sys2Proof.Machine.execTteageWrite s
  | .bfcfgWrite => Sys2Proof.Machine.execBfcfgWrite s
  | .bftabWrite => Sys2Proof.Machine.execBftabWrite s
  | .gsctlWrite => Sys2Proof.Machine.execGsctlWrite s
  | .snapcfgWrite => Sys2Proof.Machine.execSnapcfgWrite s
  | .gscurRead => Sys2Proof.Machine.execGscurRead s
  | .mergeIssueCycle => Sys2Proof.Machine.execMergeIssueCycle s
  | .asyncCauseTaken => Sys2Proof.Machine.execAsyncCauseTaken s
  | .resultLanding => Sys2Proof.Machine.execResultLanding s
  | .regcacheFill => Sys2Proof.Machine.execRegcacheFill s
  | .waitExpiry => Sys2Proof.Machine.execWaitExpiry s
  | .rteResume => Sys2Proof.Machine.execRteResume s
  | .phaseDrainComplete => Sys2Proof.Machine.execPhaseDrainComplete s
  | .replayIterationEnd => Sys2Proof.Machine.execReplayIterationEnd s
  | .contextPark => Sys2Proof.Machine.execContextPark s
  | .contextResume => Sys2Proof.Machine.execContextResume s
  | .priorityPark => Sys2Proof.Machine.execPriorityPark s
  | .taskStart => Sys2Proof.Machine.execTaskStart s
  | .waveFormation => Sys2Proof.Machine.execWaveFormation s
  | .ticketRetire => Sys2Proof.Machine.execTicketRetire s
  | .batchClose => Sys2Proof.Machine.execBatchClose s
  | .batchTaskEnd => Sys2Proof.Machine.execBatchTaskEnd s
  | .phaserOpApply => Sys2Proof.Machine.execPhaserOpApply s
  | .copyGranule => Sys2Proof.Machine.execCopyGranule s
  | .commandComplete => Sys2Proof.Machine.execCommandComplete s
  | .spoutTileTransfer => Sys2Proof.Machine.execSpoutTileTransfer s
  | .spoutDepthUpdate => Sys2Proof.Machine.execSpoutDepthUpdate s
  | .mwldComplete => Sys2Proof.Machine.execMwldComplete s
  | .arrayFill => Sys2Proof.Machine.execArrayFill s
  | .sweepRollback => Sys2Proof.Machine.execSweepRollback s
  | .pageWalk => Sys2Proof.Machine.execPageWalk s
  | .directoryAccess => Sys2Proof.Machine.execDirectoryAccess s
  | .cacheEviction => Sys2Proof.Machine.execCacheEviction s
  | .releasePerform => Sys2Proof.Machine.execReleasePerform s
  | .remoteResponse => Sys2Proof.Machine.execRemoteResponse s
  | .weirArrival => Sys2Proof.Machine.execWeirArrival s
  | .ackReceive => Sys2Proof.Machine.execAckReceive s
  | .flitReceive => Sys2Proof.Machine.execFlitReceive s
  | .retransmitTimeout => Sys2Proof.Machine.execRetransmitTimeout s
  | .endpointUnreachable => Sys2Proof.Machine.execEndpointUnreachable s
  | .linkStateChange => Sys2Proof.Machine.execLinkStateChange s
  | .flitSeal => Sys2Proof.Machine.execFlitSeal s
  | .lendWindow => Sys2Proof.Machine.execLendWindow s
  | .lendReceive => Sys2Proof.Machine.execLendReceive s
  | .fifoDelivery => Sys2Proof.Machine.execFifoDelivery s
  | .resumeNotice => Sys2Proof.Machine.execResumeNotice s
  | .remoteRetryResend => Sys2Proof.Machine.execRemoteRetryResend s
  | .wavedone => Sys2Proof.Machine.execWavedone s
  | .waveClose => Sys2Proof.Machine.execWaveClose s
  | .collectiveArrival => Sys2Proof.Machine.execCollectiveArrival s
  | .collectiveComplete => Sys2Proof.Machine.execCollectiveComplete s
  | .ualinkRefused => Sys2Proof.Machine.execUalinkRefused s
  | .flashFill => Sys2Proof.Machine.execFlashFill s
  | .evictComplete => Sys2Proof.Machine.execEvictComplete s
  | .setBuildComplete => Sys2Proof.Machine.execSetBuildComplete s
  | .nodeWalkStep => Sys2Proof.Machine.execNodeWalkStep s
  | .gsqOpArrival => Sys2Proof.Machine.execGsqOpArrival s
  | .coreGrant => Sys2Proof.Machine.execCoreGrant s
  | .entryTaskCreate => Sys2Proof.Machine.execEntryTaskCreate s
  | .launchComplete => Sys2Proof.Machine.execLaunchComplete s
  | .watchdogStage1 => Sys2Proof.Machine.execWatchdogStage1 s
  | .watchdogStage2 => Sys2Proof.Machine.execWatchdogStage2 s
  | .watchdogStage3 => Sys2Proof.Machine.execWatchdogStage3 s
  | .clapperCapture => Sys2Proof.Machine.execClapperCapture s
  | .clapperMessage => Sys2Proof.Machine.execClapperMessage s
  | .patrolScrub => Sys2Proof.Machine.execPatrolScrub s
  | .fetchAheadFault => Sys2Proof.Machine.execFetchAheadFault s
  | .powerGood => Sys2Proof.Machine.execPowerGood s
  | .finalCutStepDone => Sys2Proof.Machine.execFinalCutStepDone s
  | .throttleStep => Sys2Proof.Machine.execThrottleStep s
  | .trip => Sys2Proof.Machine.execTrip s
  | .qpEstablish => Sys2Proof.Machine.execQpEstablish s
  | .rdmaWrite => Sys2Proof.Machine.execRdmaWrite s
  | .rdmaRead => Sys2Proof.Machine.execRdmaRead s
  | .plohusDrop => Sys2Proof.Machine.execPlohusDrop s
  | .plohusUnknown => Sys2Proof.Machine.execPlohusUnknown s
  | .launch => Sys2Proof.Machine.execLaunch s
  | .kill => Sys2Proof.Machine.execKill s
  | .resume => Sys2Proof.Machine.execResume s
  | .finalcut => Sys2Proof.Machine.execFinalcut s
  | .reset => Sys2Proof.Machine.execReset s
  | .setroot => Sys2Proof.Machine.execSetroot s
  | .setprio => Sys2Proof.Machine.execSetprio s
  | .setexp => Sys2Proof.Machine.execSetexp s
  | .xlinv => Sys2Proof.Machine.execXlinv s
  | .mrreg => Sys2Proof.Machine.execMrreg s
  | .mrdereg => Sys2Proof.Machine.execMrdereg s
  | .reach => Sys2Proof.Machine.execReach s
  | .kekset => Sys2Proof.Machine.execKekset s
  | .keyset => Sys2Proof.Machine.execKeyset s
  | .fencerel => Sys2Proof.Machine.execFencerel s
  | .pwrcap => Sys2Proof.Machine.execPwrcap s
  | .attest => Sys2Proof.Machine.execAttest s
  | .certread => Sys2Proof.Machine.execCertread s
  | .snapcmd => Sys2Proof.Machine.execSnapcmd s
  | .snapread => Sys2Proof.Machine.execSnapread s
  | .logread => Sys2Proof.Machine.execLogread s
  | .basinApply => Sys2Proof.Machine.execBasinApply s
  | .bundleFetch => Sys2Proof.Machine.execBundleFetch s
  | .qpTeardown => Sys2Proof.Machine.execQpTeardown s
  | .rdmaAtomicOrUd => Sys2Proof.Machine.execRdmaAtomicOrUd s
  | .captureDone => Sys2Proof.Machine.execCaptureDone s

end Sys2Proof.Machine
end

