-- ==== Sys2Proof/Machine/Schedule.lean ====
section
/-!
DEFINITION. Which steps are due in a cycle, and their order within it (log entry 3): the manual orders only what its
rules name, so the model takes one order, in which a step that is not due has no effect (log entry 8).
-/

namespace Sys2Proof.Machine

/-- Steps with their operands, in the order they are taken. -/
abbrev Agenda := List (Instr × Ev)

/-- One step, where it may be due. -/
def oneIf (b : Bool) (i : Instr) (e : Ev) : Agenda := if b then [(i, e)] else []
/-- A step for each place of a list, the last place first. -/
def perPlace {α : Type} (l : List α) (i : Instr) (e : Nat → Ev) : Agenda := (List.range l.length).reverse.map fun n => (i, e n)

/-! ### Time (R159, R492) -/

/-- A die's part of a cycle of 850 MHz passes; its count advances with an edge of its ACLK. -/
def tickDie (s : State) (d : Fin 2) : State :=
  let k := s.dev.clk[d]
  let s := if 850 ≤ k.part + k.mhz then { s with acyc := s.acyc.set d (s.acyc[d] + 1) } else s
  { s with dev := { s.dev with clk := s.dev.clk.set d { k with part := (k.part + k.mhz) % 850 } } }

/-- The cycle that has begun is an edge of a die's ACLK. -/
def edge (s : State) (d : Fin 2) : Bool := decide (s.dev.clk[d].part < s.dev.clk[d].mhz)

/-! ### Steps of a core and of its contexts -/

/-- The contexts resident on a core. -/
def resCtxs (s : State) (k : Core) : List (Nat × Context) :=
  k.res.toList.filterMap fun o => o.bind fun t => (s.ctx? t).map fun x => (t, x)
/-- Steps of a resident context ahead of its core's issue. -/
def ctxSteps (s : State) (t : Nat) (x : Context) : Agenda :=
  let atEnd := match x.fr.nest.act with
    | l :: _ => decide (l.base + l.len ≤ x.fr.nest.pos)
    | [] => false
  oneIf (x.fr.pend.any fun p => decide (p.land ≤ x.ccyc) && p.val.isSome) .resultLanding { task := t } ++
  oneIf atEnd .replayIterationEnd { task := t } ++
  oneIf (!x.rels.isEmpty || x.holds.any Hold.ordered || x.exit.isSome) .releasePerform { task := t } ++
  oneIf x.park .contextPark { task := t } ++
  oneIf (x.ffault.any fun f => f.1 != x.pc) .fetchAheadFault { task := t } ++
  oneIf (!x.asyncs.isEmpty) .asyncCauseTaken { task := t } ++
  oneIf (x.rte && x.wait == 0) .rteResume { task := t } ++
  oneIf (x.fetched.isNone && x.wait == 0) .bundleFetch { task := t }
/-- Accesses that wait for their turn of contexts that are parked or have been killed (R15, R112). -/
def restSteps (s : State) : Agenda :=
  s.ctxs.flatMap fun p => oneIf (edge s (dieOf p.2.core) && !(s.core p.2.core).res.toList.contains (some p.1) &&
    (p.2.dead || !p.2.rels.isEmpty)) .releasePerform { task := p.1 }
/-- Register blocks a resident context waits for (R132). -/
def fillSteps (s : State) (c t : Nat) (x : Context) : Agenda :=
  match x.fetched with
  | some (_, ws) => (missing s t x (slotsOf ws)).map fun b => (.regcacheFill, { core := c, task := t, body := .block b })
  | none => []
/-- A command that writes through the window. -/
def Cmd.windowed (q : Cmd) : Bool :=
  (match q.kind with
    | .accr _ a _ _ => a
    | .cas _ a _ _ _ => a
    | _ => q.dst).extractLsb' 61 3 == 0b101
/-- The granules of the commands of a core that write through the window, or of the others: accumulates on one byte apply in
the order of R121, a core's own before its neighbours' (R298). -/
def granuleSteps (c : Nat) (k : Core) (win : Bool) : Agenda :=
  let q := fun (e : Bool) (l : List Cmd) => ((List.range l.length).reverse.filter fun n => (l[n]?.map Cmd.windowed).getD false == win).map
    fun n => (Instr.copyGranule, ({ core := c, flag := e, num := n } : Ev))
  q false k.cq0 ++ q true k.cq1
/-- Steps of the engines of a core, but for the granules of its commands. -/
def engineSteps (s : State) (c : Nat) (k : Core) : Agenda :=
  let window := (s.acyc[dieOf c]).toNat % 4096 == 0
  (List.range 8).flatMap (fun i => oneIf (window && (k.rings.getD i {}).owner.isSome) .spoutDepthUpdate { core := c, num := i }) ++
  perPlace k.cq0 .commandComplete (fun n => { core := c, flag := false, num := n }) ++
  perPlace k.cq1 .commandComplete (fun n => { core := c, flag := true, num := n }) ++
  (List.range 8).flatMap (fun i => oneIf (k.rings.getD i {}).sub.isSome .spoutTileTransfer { core := c, num := i }) ++
  perPlace k.orphans .spoutTileTransfer (fun n => { core := c, num := 8 + n }) ++
  oneIf (k.me.h0.st == .loading) .mwldComplete { core := c, num := 0 } ++
  oneIf (k.me.h1.st == .loading) .mwldComplete { core := c, num := 1 } ++
  oneIf k.me.filling.isSome .arrayFill { core := c } ++
  oneIf ((k.me.sweep.bind (·.roll)).isSome) .sweepRollback { core := c } ++
  oneIf k.drain.isSome .phaseDrainComplete { core := c } ++
  oneIf (!k.wantRx.isEmpty) .resumeNotice { core := c, flag := true }
/-- Starts, parks and resumes of a granted core (R386, R387). -/
def startSteps (c : Nat) (k : Core) : Agenda :=
  oneIf k.launch.isSome .priorityPark { core := c } ++ oneIf k.launch.isSome .contextResume { core := c } ++
  oneIf k.launch.isSome .taskStart { core := c }
/-- The cores of the dies whose clocks make an edge. -/
def liveCores (s : State) : List (Nat × Core) := s.cores.filter fun p => edge s (dieOf p.1)
/-- Every step of the cores of a cycle, their merge stages after them, and the waits that end with it. -/
def coreSteps (s : State) : Agenda :=
  let ks := liveCores s
  ks.flatMap (fun p => granuleSteps p.1 p.2 false) ++ ks.flatMap (fun p => granuleSteps p.1 p.2 true) ++
  ks.flatMap (fun p => engineSteps s p.1 p.2) ++ restSteps s ++
  ks.flatMap (fun p => (resCtxs s p.2).flatMap fun q => ctxSteps s q.1 q.2) ++
  ks.flatMap (fun p => startSteps p.1 p.2) ++
  ks.flatMap (fun p => oneIf (!(resCtxs s p.2).isEmpty) .mergeIssueCycle { core := p.1 }) ++
  ks.flatMap (fun p => (resCtxs s p.2).flatMap fun q => fillSteps s p.1 q.1 q.2) ++
  ks.flatMap (fun p => (resCtxs s p.2).flatMap fun q => oneIf (q.2.wait == 1) .waitExpiry { task := q.1 })
/-- A cycle of an explicit wait that is not its last (R134); a cause that is taken in it interrupts the wait (R147). -/
def passWaits (s : State) : State :=
  (liveCores s).foldl (fun s p => (resCtxs s p.2).foldl (fun s q =>
    if 1 < q.2.wait && (takeAsync s q.1).isNone then s.setCtx q.1 q.2.waitOne else s) s) s

/-! ### Steps of the package -/

/-- Steps of the fabric engine. Messages leave in the order they were formed, past those that cannot leave. -/
def fabSteps (s : State) : Agenda :=
  let w := fun (d : Fin 2) => oneIf (edge s d && (s.acyc[d]).toNat % 1024 == 0) .lendWindow { num := d.val }
  w 0 ++ w 1 ++ s.fab.out.map (fun _ => (.flitSeal, { num := 0 })) ++ perPlace s.fab.out .flitSeal (fun n => { num := n }) ++
  perPlace s.fab.sent .retransmitTimeout (fun n => { num := n }) ++
  perPlace s.fab.retry .remoteRetryResend (fun n => { num := n }) ++
  s.fab.colls.flatMap (fun c => oneIf (!c.started && c.cmd.isNone) .collectiveArrival { num := c.key.cid } ++
    oneIf (c.started && !c.fin) .collectiveComplete { num := c.key.cid })
/-- Steps of generation instances, node statistics and pages. -/
def unitSteps (s : State) : Agenda :=
  s.gsops.map (fun _ => (.gsqOpArrival, ({} : Ev))) ++
  s.nops.flatMap (fun q => [(.nodeWalkStep, { num := q.id }), (.basinApply, { num := q.id })]) ++
  oneIf (s.pg.filling.isSome || !s.pg.demand.isEmpty || !s.pg.pre.isEmpty) .flashFill {} ++
  s.pg.map.flatMap (fun p => oneIf p.2.evict.isSome .evictComplete { num := p.1 }) ++
  s.pg.sets.flatMap (fun p => oneIf (!p.2.live) .setBuildComplete { num := p.1 })
/-- Steps of tickets, waves and batches. -/
def taskSteps (s : State) : Agenda :=
  s.tasks.flatMap (fun p => oneIf (p.2.retired && !p.2.closed && launchScope s p.2.launch != 0) .ticketRetire { task := p.1 }) ++
  s.batches.flatMap (fun p => oneIf (p.2.task.isNone) .batchClose { num := p.1 }) ++
  s.scopes.map (fun p => (.waveFormation, { num := p.1 })) ++
  (groupsHere s ++ s.fab.ranges.map (·.1)).dedup.map fun g => (.waveClose, { num := g })
/-- Steps of launches and captures. -/
def launchSteps (s : State) : Agenda :=
  let live := s.launches.filter fun p => admitted p.2
  ((waitingLaunches s).flatMap fun p => p.2.cores).dedup.map (fun c => (.coreGrant, { core := c })) ++
  live.flatMap (fun p => oneIf (p.2.st == .granting) .entryTaskCreate { num := p.1 } ++
    oneIf (p.2.st == .running) .wavedone { num := p.1 } ++ oneIf (p.2.st == .running) .watchdogStage1 { num := p.1 } ++
    oneIf (p.2.st == .running) .watchdogStage2 { num := p.1 } ++ oneIf (p.2.st == .running) .watchdogStage3 { num := p.1 } ++
    oneIf (p.2.st == .running) .launchComplete { num := p.1 }) ++
  oneIf s.dev.snaps[0].busy.isSome .captureDone { num := 0 } ++ oneIf s.dev.snaps[1].busy.isSome .captureDone { num := 1 }
/-- The phaser operations that reach their phasers in the cycle: after everything that sees the phasers as they stood at its
start (R417, R427). -/
def phSteps (s : State) : Agenda := s.phops.map fun _ => (.phaserOpApply, ({} : Ev))
/-- The steps of a cycle. -/
def cycleSteps (s : State) : Agenda := fabSteps s ++ unitSteps s ++ taskSteps s ++ launchSteps s ++ coreSteps s ++ phSteps s
/-- In a cycle of its die a core's pool has not been written yet (R103, R121). -/
def freshPools (s : State) : State := { s with cores := s.cores.map fun p => (p.1, if edge s (dieOf p.1) then p.2.newCycle else p.2) }
/-- The wait of each PHAW is tested against its phaser as the cycle begins (R417, R424). -/
def phawsTested (s : State) : State :=
  s.ctxs.foldl (fun s p =>
    if edge s (dieOf p.2.core) && !p.2.dead then
      match phawOf p.2 with
      | some n => phawDone s p.1 n
      | none => s
    else s) s
/-- A REPRIO of the last cycle now counts in the ranks (R406). -/
def freshKeys (s : State) : State := { s with tasks := s.tasks.map fun p => (p.1, { p.2 with oldKey := none }) }
/-- The state in which the steps of a cycle find the machine: the clocks advanced, the pools not written, the keys that rank and
the PHAWs that wait. -/
def cycleStart (s : State) : State := phawsTested (freshKeys (freshPools (tickDie (tickDie s 0) 1)))
/-- A cycle begins: the clocks and the waits advance and the steps of the cycle become due. A module whose cores are not
released stands still until something reaches it from outside. -/
def beginCycle (s : State) : State :=
  if released s then
    let s := cycleStart s
    { passWaits s with agenda := cycleSteps s }
  else s

/-! ### One word about to issue (log entry 7) -/

/-- A leaf that maps the lowest 2 MiB onto themselves, readable, writable, executable (R93). -/
def stageLeaf : TlbE := { root := 0, lvl := 1, vpn := 0, leaf := 0x1F }
/-- Every register block of task 0. -/
def stageBlocks : List (Nat × RcBlock) :=
  (0, .k) :: (List.range 32).flatMap fun i => [(0, .va (BitVec.ofNat 5 i)), (0, .vb (BitVec.ofNat 5 i))]
/-- Core 0 granted to launch 0 with one running task, its registers cached. -/
def stageCore : Core :=
  { launch := some 0, trroot := 1, tlb := [stageLeaf], rc := stageBlocks,
    res := (Vector.replicate 16 none).set 0 (some 0), frames := (Vector.replicate 64 none).set 0 (some 0) }
/-- Its context, at address 0, every register declared and live. -/
def stageCtx : Context :=
  { core := 0, nks := 32, nva := 32, nvb := 32, pc := 0, npc := 0, liveK := 0xFFFFFFFF, liveA := 0xFFFFFFFF, liveB := 0xFFFFFFFF }
/-- A module that is READY with the one task of the one launch about to issue a word that ends its bundle, at address 0
of core 0: the next step is a cycle of that core's merge stage. -/
def stage (s : State) (w : W32) : State :=
  { s with
    agenda := [(.mergeIssueCycle, { core := 0 })]
    cur := none, latch := none
    cores := put s.cores 0 stageCore
    ctxs := put s.ctxs 0 stageCtx
    tasks := put s.tasks 0 { st := .running, key := 0, ticket := some 1, core := some 0 }
    taken := 1
    launches := put s.launches 0 { st := .running, nks := 32, nva := 32, nvb := 32, groups := [0], cores := [0], granted := [0], entryTask := some 0 }
    gtab := put s.gtab 0 1
    mem := wrBytes s.mem (place 0 (leBytes (w ||| 0x80000000).toNat 4))
    dev := { s.dev with mode := .ready } }

end Sys2Proof.Machine
end

