-- ==== Sys2Proof/Machine/Step.lean ====
section
/-!
DEFINITION. One step of the module: the next of the steps that are due, or the beginning of a cycle.
-/

namespace Sys2Proof.Machine

/-- One step: the first of the steps that are due executes with its operands; where none is left, a cycle begins. -/
def step (s : State) : Host.Outcome State Fault Refusal :=
  match s.agenda with
  | (i, e) :: r => exec i { s with agenda := r, ev := e }
  | [] => .next (beginCycle s)

/-- The state with a word about to issue as the bundle of a running task (log entry 7). -/
def State.withFetchWord (s : State) (nbits w : Nat) : State := stage s (BitVec.ofNat 32 (w % 2 ^ nbits))

end Sys2Proof.Machine
end

