-- ==== Sys2Proof/Safety.lean ====
section
/-!
DEFINITION. What counts as a safe run, and the words statements are made in: when the operands of a slot can be read
and its results pushed, and the shapes of a completion.
-/

namespace Sys2Proof.Machine

/-! ### Safe runs -/

/-- A step is safe where it answers a next state: it neither stops on a fault nor is refused. -/
def Safe (o : Host.Outcome State Fault Refusal) : Prop := ∃ s', o = .next s'
/-- The issuing bundle has raised no cause and is not held back. -/
def State.clean (s : State) : Bool :=
  match s.latch with
  | some l => l.causes.isEmpty && !l.held
  | none => true

/-! ### Operands -/

/-- The named register of an operand lies in the declared file (R34). -/
def inFile (x : Context) (o : Opd) : Bool :=
  match o.reg x with
  | some (f, r) => decide (0 ≤ r) && decide (r < (x.declared f : Int))
  | none => true
/-- The queue entry of an operand has arrived and, in check mode, is outside its write window (R99, R135). -/
def settled (x : Context) (o : Opd) : Bool :=
  match o.entry? with
  | some (q, n, _) => (!x.expchk || x.fr.rem x.ccyc q n == 0) && (x.fr.entry x.ccyc q n).isSome
  | none => true
/-- The count queue or receive FIFO an operand pops holds an entry (R38). -/
def present (s : State) (x : Context) (on : Bool) (o : Opd) : Bool :=
  !on || (!(o == .s .cq) || !(s.core x.core).cq.isEmpty) && (!(o == .s .fin) || !(s.core x.core).rx.isEmpty)
/-- The landing buffer takes the entries the bundle pushes, or the n of a slot that executes alone (R136). -/
def room (s : State) (x : Context) (n : Nat) : Bool :=
  n == 0 || decide (x.fr.pending x.ccyc + (s.latch.map (·.total)).getD n ≤ landLimit x)
/-- No register block an operand is read from holds an uncorrectable error (R148, R485). -/
def blocksOk (s : State) (x : Context) (os : List Opd) : Bool :=
  !(os.any fun o => ((o.reads x).map fun b => (s.core x.core).rcBad.any fun p => s.cur == some p.1 && p.2 == b).getD false)
/-- Every operand of a slot can be read and its n results pushed; `on` says whether the slot pops. -/
def readable (s : State) (x : Context) (on : Bool) (os : List Opd) (n : Nat) : Bool :=
  os.all (fun o => inFile x o && settled x o && present s x on o) && room s x n && blocksOk s x os

/-! ### Instructions of the two clusters -/

/-- One instruction of the VA slot or its like of the VB slot. -/
def onCl (c : Clu) (a b : Instr) : Instr :=
  match c with
  | .a => a
  | .b => b

/-- The scratchpad form of an access or its window form. -/
def onSp (w : Space) (a b : Instr) : Instr :=
  match w with
  | .own => a
  | .win => b

/-! ### Completions -/

/-- A scalar instruction of two operands pushes `f A B` after `lat` cycles, and A under a false guard (R31). -/
def PushesBin (mk : Guard → SSel → SSel → Instr) (lat : Nat) (f : W64 → W64 → W64) : Prop :=
  ∀ (s : State) (t : Nat) (x : Context) (g : Guard) (a b : SSel), s.issuer = .ok (t, x) →
    readable s x (gTrue g x) [.s a, .s b] 1 = true →
    exec (mk g a b) s = .next (pushS (popOps s x (gTrue g x) [.s a, .s b]) t lat
      (if gTrue g x then f (sVal s x true a) (sVal s x true b) else sVal s x false a))
/-- A scalar instruction of one operand and an operand-form guard pushes `f A`. -/
def PushesUn (mk : Guard → SSel → Instr) (lat : Nat) (f : W64 → W64) : Prop :=
  ∀ (s : State) (t : Nat) (x : Context) (g : Guard) (a : SSel), s.issuer = .ok (t, x) →
    readable s x (gTrue g x) [.s a] 1 = true →
    exec (mk g a) s = .next (pushS (popOps s x (gTrue g x) [.s a]) t lat
      (if gTrue g x then f (sVal s x true a) else sVal s x false a))
/-- A scalar instruction of the immediate form pushes `f A`. -/
def PushesImm (mk : BitVec 3 → SSel → Instr) (f : W64 → W64) : Prop :=
  ∀ (s : State) (t : Nat) (x : Context) (g : BitVec 3) (a : SSel), s.issuer = .ok (t, x) →
    readable s x (gOn g x) [.s a] 1 = true →
    exec (mk g a) s = .next (pushS (popOps s x (gOn g x) [.s a]) t 1
      (if gOn g x then f (sVal s x true a) else sVal s x false a))
/-- A vector instruction that reads `os` pushes `f` after `lat` cycles: active lanes from it, the others from `base`
(R199). -/
def VPushes (c : Clu) (i : Instr) (g : Guard) (os : List Opd) (lat : Nat) (f base : Context → VReg) : Prop :=
  ∀ (s : State) (t : Nat) (x : Context), s.issuer = .ok (t, x) → x.trapMode = false → readable s x true os 1 = true →
    exec i s = .next (pushV s t c lat (laneMask x c g) (f x) (base x))
/-- Two operands, lane by lane. -/
def VPushesBin (c : Clu) (mk : Guard → VSel → VSel → Instr) (e : EF) (lat : Nat) (f : W32 → W32 → W32) : Prop :=
  ∀ (g : Guard) (a b : VSel), VPushes c (mk g a b) g [.v c a, .v c b] lat
    (fun x => VReg.of fun l => f ((vVal x c e a).lane l) ((vVal x c e b).lane l)) (fun x => vVal x c e a)
/-- One operand, lane by lane. -/
def VPushesUn (c : Clu) (mk : Guard → VSel → Instr) (e : EF) (lat : Nat) (f : W32 → W32) : Prop :=
  ∀ (g : Guard) (a : VSel), VPushes c (mk g a) g [.v c a] lat
    (fun x => VReg.of fun l => f ((vVal x c e a).lane l)) (fun x => vVal x c e a)
/-- Two operands and an entry of the own queue, lane by lane (R207). -/
def VPushesTri (c : Clu) (mk : Guard → VSel → VSel → BitVec 4 → Instr) (e : EF) (lat : Nat) (f : W32 → W32 → W32 → W32) :
    Prop :=
  ∀ (g : Guard) (a b : VSel) (m : BitVec 4), VPushes c (mk g a b m) g [.v c a, .v c b, .v c (.q m)] lat
    (fun x => VReg.of fun l => f ((vVal x c e a).lane l) ((vVal x c e b).lane l) ((x.qvAt (cluQ c) m).lane l))
    (fun x => vVal x c e a)
/-- Whole operands A and B. -/
def VPushesVec (c : Clu) (mk : Guard → VSel → VSel → Instr) (e e' : EF) (lat : Nat) (f : VReg → VReg → VReg) : Prop :=
  ∀ (g : Guard) (a b : VSel), VPushes c (mk g a b) g [.v c a, .v c b] lat
    (fun x => f (vVal x c e a) (vVal x c e' b)) (fun x => vVal x c e a)

end Sys2Proof.Machine
end

