-- ==== Sys2Proof/Certificates/Slice0/Obligations.lean ====
section
/-!
DEFINITION. The statements for the provers. Each says what the manual's rules say of an instruction, a step or the
machine; its docstring names them. `readable` and the shapes of a completion stand in Safety.lean.
-/

open Sys2Proof Sys2Proof.Machine

/-! ### Scalar arithmetic -/

/-- R161, R162, R164, R165: the two-operand integer instructions push int_out of the exact result of the operands read
by int_in, after the latency of their row; a false guard pushes A (R31). -/
def Obligations.ScalarIntegerResults : Prop :=
  (∀ sat u w, PushesBin (fun g a b => .add g a b sat u w) 1 fun p q =>
    Arith.intOut (Arith.intIn p.toNat (Arith.bits w) u + Arith.intIn q.toNat (Arith.bits w) u) (Arith.bits w) u sat) ∧
  (∀ sat u w, PushesBin (fun g a b => .sub g a b sat u w) 1 fun p q =>
    Arith.intOut (Arith.intIn p.toNat (Arith.bits w) u - Arith.intIn q.toNat (Arith.bits w) u) (Arith.bits w) u sat) ∧
  (∀ sat u w, PushesBin (fun g a b => .mul g a b sat u w) 3 fun p q =>
    Arith.intOut (Arith.intIn p.toNat (Arith.bits w) u * Arith.intIn q.toNat (Arith.bits w) u) (Arith.bits w) u sat) ∧
  (∀ u w, PushesBin (fun g a b => .mulh g a b u w) 3 fun p q =>
    Arith.intOut (Arith.intIn p.toNat (Arith.bits w) u * Arith.intIn q.toNat (Arith.bits w) u / 2 ^ Arith.bits w)
      (Arith.bits w) u false) ∧
  (∀ u w, PushesBin (fun g a b => .min g a b u w) 1 fun p q =>
    Arith.intOut (min (Arith.intIn p.toNat (Arith.bits w) u) (Arith.intIn q.toNat (Arith.bits w) u)) (Arith.bits w) u false) ∧
  (∀ u w, PushesBin (fun g a b => .max g a b u w) 1 fun p q =>
    Arith.intOut (max (Arith.intIn p.toNat (Arith.bits w) u) (Arith.intIn q.toNat (Arith.bits w) u)) (Arith.bits w) u false) ∧
  (∀ sat u w, PushesBin (fun g a b => .div g a b sat u w) 18 fun p q =>
    Arith.intOut (Arith.divRem (Arith.intIn p.toNat (Arith.bits w) u) (Arith.intIn q.toNat (Arith.bits w) u)
      (Arith.bits w) u sat).1 (Arith.bits w) u false) ∧
  (∀ u w, PushesBin (fun g a b => .rem g a b u w) 18 fun p q =>
    Arith.intOut (Arith.divRem (Arith.intIn p.toNat (Arith.bits w) u) (Arith.intIn q.toNat (Arith.bits w) u)
      (Arith.bits w) u false).2 (Arith.bits w) u false) ∧
  (∀ u w, PushesBin (fun g a b => .shl g a b u w) 1 fun p q =>
    Arith.intOut (if q.toNat < Arith.bits w then Arith.intIn p.toNat (Arith.bits w) u * 2 ^ q.toNat else 0) (Arith.bits w) u false) ∧
  (∀ u w, PushesBin (fun g a b => .shr g a b u w) 1 fun p q =>
    Arith.intOut (Arith.shr (Arith.intIn p.toNat (Arith.bits w) u) q.toNat (Arith.bits w)) (Arith.bits w) u false)

/-- R31, R161, R164, R166 to R169: the bitwise, immediate and bit instructions push their result, and A under a false
guard. -/
def Obligations.ScalarBitResults : Prop :=
  ((∀ u, PushesBin (fun g a b => .and g a b u .w64) 1 fun p q => p &&& q) ∧
   (∀ u, PushesBin (fun g a b => .or g a b u .w64) 1 fun p q => p ||| q) ∧
   (∀ u, PushesBin (fun g a b => .xor g a b u .w64) 1 fun p q => p ^^^ q) ∧
   (∀ u w, PushesBin (fun g a b => .and g a b u w) 1 fun p q => Arith.intOut (p &&& q).toNat (Arith.bits w) u false) ∧
   (∀ u w, PushesBin (fun g a b => .or g a b u w) 1 fun p q => Arith.intOut (p ||| q).toNat (Arith.bits w) u false) ∧
   (∀ u w, PushesBin (fun g a b => .xor g a b u w) 1 fun p q => Arith.intOut (p ^^^ q).toNat (Arith.bits w) u false) ∧
   (∀ i, PushesImm (fun g a => .addi g a i) fun p => p + i.signExtend 64) ∧
   (∀ i, PushesImm (fun g a => .andi g a i) fun p => p &&& i.signExtend 64) ∧
   (∀ i, PushesImm (fun g a => .shori g a i) fun p => (p <<< 13) ||| i.setWidth 64) ∧
   (∀ u w (sh : BitVec 6), PushesImm (fun g a => .shli g a u w sh) fun p =>
     Arith.intOut (if sh.toNat < Arith.bits w then Arith.intIn p.toNat (Arith.bits w) u * 2 ^ sh.toNat else 0) (Arith.bits w) u false) ∧
   (∀ u w (sh : BitVec 6), PushesImm (fun g a => .shri g a u w sh) fun p =>
     Arith.intOut (Arith.shr (Arith.intIn p.toNat (Arith.bits w) u) sh.toNat (Arith.bits w)) (Arith.bits w) u false) ∧
   (∀ (s : State) (t : Nat) (x : Context) (g : BitVec 3) (i : BitVec 13), s.issuer = .ok (t, x) → readable s x (gOn g x) [] 1 = true →
     exec (.movi g i) s = .next (pushS s t 1 (if gOn g x then i.signExtend 64 else 0)))) ∧
  ((∀ w, PushesUn (fun g a => .clz g a w) 1 fun p => BitVec.ofNat 64 (Arith.clz p.toNat (Arith.bits w))) ∧
   (∀ w, PushesUn (fun g a => .popc g a w) 1 fun p => BitVec.ofNat 64 (Arith.popc p.toNat (Arith.bits w))) ∧
   (∀ w, PushesUn (fun g a => .sext g a true w) 1 fun p => BitVec.ofNat 64 (p.toNat % 2 ^ Arith.bits w)) ∧
   (∀ w, PushesUn (fun g a => .sext g a false w) 1 fun p => BitVec.ofInt 64 (Arith.sx p.toNat (Arith.bits w))) ∧
   (∀ (s : State) (t : Nat) (x : Context) (g : Guard) (a b : SSel) (p : BitVec 3), s.issuer = .ok (t, x) →
     readable s x (gTrue g x) [.s a, .s b] 1 = true →
     exec (.sel g a b p) s = .next (pushS (popOps s x (gTrue g x) [.s a, .s b]) t 1
       (if gTrue g x && !x.fr.ps.getLsbD p.toNat then sVal s x true b else sVal s x (gTrue g x) a))) ∧
   (∀ (s : State) (t : Nat) (x : Context) (g : Guard) (a b : SSel) (u : Bool), s.issuer = .ok (t, x) →
     readable s x (gTrue g x) [.s a, .s b] 1 = true →
     exec (.bfx g a b u) s = .next (
       if gTrue g x then
         match fieldOf (sVal s x true b) with
         | some (pos, len) => pushS (popOps s x true [.s a, .s b]) t 1 (bfxVal (sVal s x true a) pos len u)
         | none => raise s { code := cOperand, sub := 0x16, info := sVal s x true b }
       else pushS s t 1 (sVal s x false a))) ∧
   (∀ (s : State) (t : Nat) (x : Context) (g : Guard) (a b : SSel) (m : BitVec 4), s.issuer = .ok (t, x) →
     readable s x (gTrue g x) [.s a, .s b, .s (.q m)] 1 = true →
     exec (.bfi g a b m) s = .next (
       if gTrue g x then
         match fieldOf (sVal s x true b) with
         | some (pos, len) => pushS (popOps s x true [.s a, .s b]) t 2 (bfiVal (sVal s x true a) (x.qsAt m) pos len)
         | none => raise s { code := cOperand, sub := 0x17, info := sVal s x true b }
       else pushS s t 2 (sVal s x false a))))

/-- R59, R70, R162, R165, R168: what fields are in their limits and the bits of what BFX and BFI push; int_in and int_out
are the readings of the low bits as an unsigned or a two's complement number, and a clamped result is the nearest number
of the format; dividing by zero gives −1, or 2^w − 1 unsigned, and the dividend, dividing the least number by −1 gives it
back, or the greatest under SAT, and zero, and otherwise the quotient is rounded toward zero. -/
def Obligations.IntegerCorners : Prop :=
  ((∀ b : W64, fieldOf b = none ↔
     (b.toNat / 256 % 128 = 0 ∨ 64 < b.toNat / 256 % 128 ∨ 64 < b.toNat % 64 + b.toNat / 256 % 128)) ∧
   (∀ (a q : W64) (pos len i : Nat), 0 < len → pos + len ≤ 64 → i < 64 →
     (bfiVal a q pos len).getLsbD i = if pos ≤ i ∧ i < pos + len then q.getLsbD (i - pos) else a.getLsbD i) ∧
   (∀ (a : W64) (pos len i : Nat), 0 < len → pos + len ≤ 64 → i < 64 →
     (bfxVal a pos len true).getLsbD i = if i < len then a.getLsbD (pos + i) else false) ∧
   (∀ (a : W64) (pos len i : Nat), 0 < len → pos + len ≤ 64 → i < 64 →
     (bfxVal a pos len false).getLsbD i = if i < len then a.getLsbD (pos + i) else a.getLsbD (pos + len - 1))) ∧
  ((∀ (w : Width) (p : W64), Arith.intIn p.toNat (Arith.bits w) true = ((p.setWidth (Arith.bits w)).toNat : Int)) ∧
   (∀ (w : Width) (p : W64), Arith.intIn p.toNat (Arith.bits w) false = (p.setWidth (Arith.bits w)).toInt) ∧
   (∀ (w : Width) (v : Int), Arith.intOut v (Arith.bits w) true false = (BitVec.ofInt (Arith.bits w) v).setWidth 64) ∧
   (∀ (w : Width) (v : Int), Arith.intOut v (Arith.bits w) false false = (BitVec.ofInt (Arith.bits w) v).signExtend 64) ∧
   (∀ (w : Width) (v : Int), (Arith.intOut v (Arith.bits w) true true).toNat = (max 0 (min v (2 ^ Arith.bits w - 1))).toNat) ∧
   (∀ (w : Width) (v : Int), (Arith.intOut v (Arith.bits w) false true).toInt =
     max (-(2 ^ (Arith.bits w - 1))) (min v (2 ^ (Arith.bits w - 1) - 1)))) ∧
  (∀ (w : Width) (a b : Int) (sat : Bool),
     (Arith.divRem a 0 (Arith.bits w) false sat = (-1, a) ∧ Arith.divRem a 0 (Arith.bits w) true sat = (2 ^ Arith.bits w - 1, a)) ∧
     (Arith.divRem (-(2 ^ (Arith.bits w - 1))) (-1) (Arith.bits w) false sat =
       (if sat then 2 ^ (Arith.bits w - 1) - 1 else -(2 ^ (Arith.bits w - 1)), 0)) ∧
     (b ≠ 0 → ¬(a = -(2 ^ (Arith.bits w - 1)) ∧ b = -1) → ∀ u,
       let r := Arith.divRem a b (Arith.bits w) u sat
       a = b * r.1 + r.2 ∧ r.2.natAbs < b.natAbs ∧ (r.2 = 0 ∨ r.2.sign = a.sign)))

/-- R170, R171, R173, R174: CMP and PLOG write one scalar predicate, PUTX and XADDI an index register, and a false guard
writes nothing. -/
def Obligations.PredicateAndIndexWrites : Prop :=
  (∀ (s : State) (t : Nat) (x : Context) (g : Guard) (a b : SSel) (cond : CmpCond) (d : BitVec 3), s.issuer = .ok (t, x) →
    readable s x (gTrue g x) [.s a, .s b] 0 = true →
    exec (.cmp g a b cond d) s = .next (
      if gTrue g x then wrPs (popOps s x true [.s a, .s b]) t d (cmpCond cond (sVal s x true a) (sVal s x true b)) else s)) ∧
  (∀ (s : State) (t : Nat) (x : Context) (g : Guard) (p q d : BitVec 3) (op : PlogOp), s.issuer = .ok (t, x) →
    exec (.plog g p q op d) s = .next (
      if gTrue g x then wrPs s t d (Arith.plog op (x.fr.ps.getLsbD p.toNat) (x.fr.ps.getLsbD q.toNat)) else s)) ∧
  (∀ (s : State) (t : Nat) (x : Context) (g : Guard) (a : SSel) (r : IdxReg), s.issuer = .ok (t, x) →
    readable s x (gTrue g x) [.s a] 0 = true →
    exec (.putx g a r) s = .next (
      if gTrue g x then wrX (popOps s x true [.s a]) t r ((sVal s x true a).setWidth 32) else s)) ∧
  (∀ (s : State) (t : Nat) (x : Context) (g : BitVec 3) (r : IdxReg) (i : BitVec 13), s.issuer = .ok (t, x) →
    exec (.xaddi g r i) s = .next (if gOn g x then wrX s t r (x.xReg r + i.signExtend 32) else s))
/-! ### Transfers, the nest, context control -/

/-- R42, R143, R183, R184: the relative transfers go to the bundle's address plus four times the signed offset, where the
guard is true, and for BRME also the tops of the mask stacks it tests are empty; CALL pushes the address of the bundle that
follows; NOP does nothing. In a bundle a taken transfer is noted and the bundle's successor is its target; without one it
is the bundle that stands behind it. While a nest is live the bundle behind it is at the next place of its body; a transfer to a
bundle of the innermost body, at or after its own, goes on in the iteration at that place, and one that lies in no bundle of what
is left of the body abandons every level. -/
def Obligations.RelativeTransfers : Prop :=
  ((∀ (s : State) (t : Nat) (x : Context), s.issuer = .ok (t, x) → exec .nop s = .next s) ∧
   (∀ (s : State) (t : Nat) (x : Context) (g : BitVec 3) (i : BitVec 13), s.issuer = .ok (t, x) →
     exec (.br g i) s = .next (if gOn g x then transfer s t x.pc (x.pc + 4 * i.signExtend 64) else s)) ∧
   (∀ (s : State) (t : Nat) (x : Context) (g : BitVec 3) (cl : Cl3) (i : BitVec 13), s.issuer = .ok (t, x) →
     exec (.brme g cl i) s = .next (
       if gOn g x && (cl == .b || topMask x .a == 0) && (cl == .a || topMask x .b == 0) then
         transfer s t x.pc (x.pc + 4 * i.signExtend 64) else s)) ∧
   (∀ (s : State) (t : Nat) (x : Context) (off : BitVec 22), s.issuer = .ok (t, x) →
     exec (.jmp off) s = .next (transfer s t x.pc (x.pc + 4 * off.signExtend 64))) ∧
   (∀ (s : State) (t : Nat) (x : Context) (off : BitVec 22), s.issuer = .ok (t, x) → readable s x true [] 1 = true →
     exec (.call off) s = .next (transfer (pushS s t 1 x.npc) t x.pc (x.pc + 4 * off.signExtend 64)))) ∧
  ((∀ (s : State) (l : Latch) (t : Nat) (x : Context) (pc a : W64), s.latch = some l → s.ctx? t = some x →
     transfer s t pc a = s.setCtx t { x with jump := some a }) ∧
   (∀ (s : State) (x : Context) (pc a : W64), x.jump = some a → x.opening = none → x.fr.nest.act = [] →
     follow s x pc = { x with pc := a, jump := none }) ∧
   (∀ (s : State) (x : Context) (pc : W64), x.jump = none → x.opening = none → x.fr.nest.act = [] →
     follow s x pc = { x with pc := x.npc })) ∧
  ((∀ (s : State) (x : Context) (pc : W64) (l : Level) (r : List Level), x.jump = none → x.opening = none → x.fr.nest.act = l :: r →
     follow s x pc = { x.modNest (fun n => { n with pos := n.pos + 1 }) with pc := x.npc }) ∧
   (∀ (s : State) (x : Context) (pc a : W64) (l : Level) (r : List Level) (bs : List (List W32)),
     let pos := x.fr.nest.pos
     let va := fun (i : Nat) => (bs.take i).foldl (fun (v : W64) ws => v + BitVec.ofNat 64 (4 * ws.length)) pc
     let within := fun (i : Nat) => (va i).toNat ≤ a.toNat ∧ ∃ ws, bs[i]? = some ws ∧ a.toNat < (va i).toNat + 4 * ws.length
     x.jump = some a → x.opening = none → x.fr.nest.act = l :: r → bs.length ≤ 64 → pos + bs.length ≤ l.base + l.len →
     (∀ i ws, bs[i]? = some ws → (bundleAt s x (pos + i) (va i)).2 = .ok ws) →
     (∀ i, within i → (∀ j, j < i → ¬within j) →
       follow s x pc = { x.modNest (fun n => { n with pos := pos + i }) with pc := a, jump := none }) ∧
     (pos + bs.length = l.base + l.len → (∀ i, ¬within i) →
       follow s x pc = { x.modNest (fun n => { n with act := [], pos := 0, buf := [] }) with pc := a, jump := none })))

/-- R184: the register transfers go to the address A names; one with bits 63:57 or 1:0 set raises OPERAND with the
address in INFO, and a false guard transfers nowhere, where CALLR pushes A. -/
def Obligations.RegisterTransfers : Prop :=
  ∀ (s : State) (t : Nat) (x : Context) (g : Guard) (a : SSel), s.issuer = .ok (t, x) →
    (readable s x (gTrue g x) [.s a] 0 = true →
      let v := sVal s x true a
      (gTrue g x = false → exec (.jmpr g a) s = .next s ∧ exec (.ret g a) s = .next s) ∧
      (gTrue g x = true → v.toNat < 2 ^ 57 → v.toNat % 4 = 0 →
        exec (.jmpr g a) s = .next (transfer (popOps s x true [.s a]) t x.pc v) ∧
        exec (.ret g a) s = .next (transfer (popOps s x true [.s a]) t x.pc v)) ∧
      (gTrue g x = true → (2 ^ 57 ≤ v.toNat ∨ v.toNat % 4 ≠ 0) →
        exec (.jmpr g a) s = .next (raise s { code := cOperand, sub := 0x2C, info := v }) ∧
        exec (.ret g a) s = .next (raise s { code := cOperand, sub := 0x2E, info := v }))) ∧
    (readable s x (gTrue g x) [.s a] 1 = true →
      let v := sVal s x true a
      (gTrue g x = false → exec (.callr g a) s = .next (pushS s t 1 (sVal s x false a))) ∧
      (gTrue g x = true → v.toNat < 2 ^ 57 → v.toNat % 4 = 0 →
        exec (.callr g a) s = .next (transfer (pushS (popOps s x true [.s a]) t 1 x.npc) t x.pc v)) ∧
      (gTrue g x = true → (2 ^ 57 ≤ v.toNat ∨ v.toNat % 4 ≠ 0) →
        exec (.callr g a) s = .next (raise s { code := cOperand, sub := 0x2D, info := v })))

/-- R142, R185, R186: NEST opens a level of the trip count its operand or the count queue gives, modulo 2^32, after its
bundle; NSTRIDE and NESTMASK write the settings of one level. A body that does not fit raises OPERAND, with an INFO the
manual does not name (log entry 15). -/
def Obligations.NestControl : Prop :=
  (∀ (s : State) (t : Nat) (x : Context) (g : Guard) (a : SSel) (bs : NestB) (len : BitVec 6), s.issuer = .ok (t, x) →
    let src : SSel := if bs.cq then .cq else a
    readable s x (gTrue g x) [.s src] 0 = true →
    (gTrue g x = false → exec (.nest g a bs len) s = .next s) ∧
    (gTrue g x = true → nestRoom x (len.toNat + 1) = true →
      exec (.nest g a bs len) s = .next (nestOpen (popOps s x true [.s src]) t ((sVal s x true src).toNat % 2 ^ 32)
        bs.stages.toNat (len.toNat + 1))) ∧
    (gTrue g x = true → nestRoom x (len.toNat + 1) = false →
      exec (.nest g a bs len) s = .next (raise s { code := cOperand, sub := 0x30, info := Config.freeInfo s.fresh }))) ∧
  (∀ (s : State) (t : Nat) (x : Context) (g : Guard) (a : SSel) (r : BitVec 5) (j : BitVec 2) (l : Lvl), s.issuer = .ok (t, x) →
    readable s x (gTrue g x) [.s a, .d (.k r)] 0 = true →
    exec (.nstride g a (.reg r) false j l) s = .next (
      if gTrue g x then modSet (popOps s x true [.s a]) t l fun m =>
        { m with stride := m.stride.setIfInBounds j.toNat (some (r, sVal s x true a)) } else s)) ∧
  (∀ (s : State) (t : Nat) (x : Context) (g : Guard) (a : SSel) (k : StrideB) (j : BitVec 2) (l : Lvl), s.issuer = .ok (t, x) →
    exec (.nstride g a k true j l) s = .next (
      if gTrue g x then modSet s t l fun m => { m with stride := m.stride.setIfInBounds j.toNat none } else s)) ∧
  (∀ (s : State) (t : Nat) (x : Context) (g : Guard) (a b : SSel) (l : Lvl), s.issuer = .ok (t, x) →
    readable s x (gTrue g x) [.s a, .s b] 0 = true →
    exec (.nestmask g a b l) s = .next (
      if gTrue g x then modSet (popOps s x true [.s a, .s b]) t l fun m =>
        { m with first := sVal s x true a, last := sVal s x true b } else s))

/-- R38, R133, R187, R188: CQPUSH adds the low 32 bits of A to a count queue that has room and raises CQFULL at one that has
not; CQCLR is noted for the end of its bundle, and without one empties the queue at once; no bundle leaves more than 64
entries. LIVE sets the liveness mask of a file to A, undeclared registers aside; a register that dies loses its value, one
that is dead reads as zero, and the cached blocks of dead registers are released. -/
def Obligations.CountQueueAndLiveRegisters : Prop :=
  ((∀ (s : State) (t : Nat) (x : Context) (g : Guard) (a : SSel), s.issuer = .ok (t, x) →
     readable s x (gTrue g x) [.s a] 0 = true →
     (gTrue g x = false → exec (.cqpush g a) s = .next s) ∧
     (gTrue g x = true → cqHeld s x.core (a == .cq) < 64 →
       exec (.cqpush g a) s = .next (cqPush (popOps s x true [.s a]) x.core [(sVal s x true a).setWidth 32])) ∧
     (gTrue g x = true → 64 ≤ cqHeld s x.core (a == .cq) →
       exec (.cqpush g a) s = .next (raise s { code := cCqFull }))) ∧
   (∀ (s : State) (l : Latch) (t : Nat) (x : Context), s.issuer = .ok (t, x) → s.latch = some l →
     exec .cqclr s = .next { s with latch := some { l with cqClr := true } }) ∧
   (∀ (s : State) (t : Nat) (x : Context), s.issuer = .ok (t, x) → s.latch = none →
     exec .cqclr s = .next (s.modCore x.core fun k => { k with cq := [] })) ∧
   (∀ (s : State) (c : Nat) (l : Latch), (s.core c).cq.length ≤ 64 →
     l.cqPush.length ≤ 64 - (if l.cqClr then 0 else ((s.core c).cq.drop (if l.cqPop then 1 else 0)).length) →
     ((commitCq s c l).core c).cq.length ≤ 64)) ∧
  ((∀ (s : State) (t : Nat) (x : Context) (g : Guard) (a : SSel) (ft : File3), s.issuer = .ok (t, x) →
     readable s x (gTrue g x) [.s a] 0 = true →
     let s1 := (popOps s x true [.s a]).modCtx t fun y =>
       setLive y ft ((sVal s x true a).setWidth 32 &&& BitVec.ofNat 32 (2 ^ x.declared ft - 1))
     exec (.live g a ft) s = .next (if gTrue g x then (if s.latch.isSome then s1 else dropDead s1 t) else s)) ∧
   (∀ (s : State) (t : Nat) (x : Context), s.ctx? t = some x →
     ∀ p ∈ ((dropDead s t).core x.core).rc, p.1 = t → deadBlock x p.2 = false) ∧
   (∀ (y : Context) (m : W32) (r : Nat), r < 32 →
     (setLive y .k m).kReg r = if m.getLsbD r && y.liveK.getLsbD r then y.kReg r else 0) ∧
   (∀ (y : Context) (m : W32) (r : Nat), r < 32 →
     (setLive y .va m).vReg .a r = (if m.getLsbD r && y.liveA.getLsbD r then y.vReg .a r else VReg.zero) ∧
     (setLive y .vb m).vReg .b r = if m.getLsbD r && y.liveB.getLsbD r then y.vReg .b r else VReg.zero))

/-- R134, R151, R191 to R195: TRAP raises SOFTTRAP with its immediate and the address of the bundle that follows; RTE
raises PRIV outside trap mode, and in trap mode its context waits up to the last landing of a handler's result; WAITCY adds
its count to the explicit wait; SNAP fires the Clapper with its tag; EXIT leaves its result with its context in a bundle,
and ends the task with it at once where its slot executes alone. -/
def Obligations.ContextControl : Prop :=
  (∀ (s : State) (t : Nat) (x : Context) (g : BitVec 3) (i : BitVec 8), s.issuer = .ok (t, x) →
    exec (.trap g i) s = .next (if gOn g x then raise s { code := cSoft, sub := i.toNat, info := x.npc } else s)) ∧
  (∀ (s : State) (t : Nat) (x : Context), s.issuer = .ok (t, x) → x.trapMode = false →
    exec .rte s = .next (raise s { code := cPriv })) ∧
  (∀ (s : State) (l : Latch) (t : Nat) (x : Context), s.issuer = .ok (t, x) → x.trapMode = true → s.latch = some l →
    exec .rte s = .next (s.modCtx t fun y => { y with rte := true, wait := rteWait y x.ccyc })) ∧
  (∀ (s : State) (t : Nat) (x : Context), s.issuer = .ok (t, x) → x.trapMode = true → s.latch = none →
    exec .rte s = .next (rteFinish (s.modCtx t fun y => { y with rte := true, wait := rteWait y x.ccyc }) t x.ccyc)) ∧
  (∀ (s : State) (t : Nat) (x : Context) (g : BitVec 3) (i : BitVec 13), s.issuer = .ok (t, x) →
    exec (.waitcy g i) s = .next (if gOn g x then s.modCtx t fun y => { y with wait := y.wait + i.toNat } else s)) ∧
  (∀ (s : State) (t : Nat) (x : Context) (g : Guard) (a : SSel), s.issuer = .ok (t, x) →
    readable s x (gTrue g x) [.s a] 0 = true →
    exec (.snap g a) s = .next (if gTrue g x then fireFor (popOps s x true [.s a]) x 1 (sVal s x true a) else s)) ∧
  (∀ (s : State) (l : Latch) (t : Nat) (x : Context) (g : Guard) (a : SSel), s.issuer = .ok (t, x) → s.latch = some l →
    readable s x (gTrue g x) [.s a] 0 = true →
    exec (.exit g a) s = .next (
      if gTrue g x then (popOps s x true [.s a]).modCtx t fun y => { y with exit := some (sVal s x true a) } else s)) ∧
  (∀ (s : State) (t : Nat) (x : Context) (g : Guard) (a : SSel), s.issuer = .ok (t, x) → s.latch = none →
    readable s x (gTrue g x) [.s a] 0 = true →
    exec (.exit g a) s = .next (
      if gTrue g x then exitTask (popOps s x true [.s a]) t (sVal s x true a) else s))

/-- R145, R189: PHASE of a count up to SPBANK − 4 starts a drain, where everything already issued on its core has been
performed, and its context waits 16 cycles and 512 for each bank moved; a greater count raises OPERAND, and a false guard
does nothing. The drain ends once the wait has; then DCBANK is the count, the banks that changed hands read zero, their lines
are empty, and every other byte of the pool stands. That the banks move at the end of the drain is the model's choice (log
entry 83). -/
def Obligations.PhaseChange : Prop :=
  (∀ (s : State) (t : Nat) (x : Context) (g : Guard) (a : SSel), s.issuer = .ok (t, x) →
    readable s x (gTrue g x) [.s a] 0 = true →
    let d := sVal s x true a
    let p := (s.core x.core).part
    (gTrue g x = false → exec (.phase g a) s = .next s) ∧
    (gTrue g x = true → spBank p - 4 < d.toNat →
      exec (.phase g a) s = .next (raise s { code := cOperand, sub := 0x36, info := d })) ∧
    (gTrue g x = true → d.toNat ≤ spBank p - 4 → phaseQuiet s x.core = true →
      exec (.phase g a) s = .next (((popOps s x true [.s a]).modCore x.core fun k =>
        { k with drain := some { task := t, d := d.toNat } }).modCtx t fun y =>
          { y with wait := y.wait + 16 + 512 * (if dcBank p ≤ d.toNat then d.toNat - dcBank p else dcBank p - d.toNat) }))) ∧
  (∀ (s : State) (d : Drain), (s.core s.ev.core).drain = some d →
    (∀ x, s.ctx? d.task = some x →
      (x.wait = 0 → x.frozen = none → exec .phaseDrainComplete s = .next (moveBanks s s.ev.core d.d)) ∧
      (x.wait ≠ 0 → exec .phaseDrainComplete s = .next s)) ∧
    (s.ctx? d.task = none → exec .phaseDrainComplete s = .next (moveBanks s s.ev.core d.d))) ∧
  (∀ (s : State) (c d : Nat), d < 64 →
    let p := (s.core c).part
    let k := (moveBanks s c d).core c
    let lo := spBase p + min (spExt p) (spExt k.part)
    let hi := spBase p + max (spExt p) (spExt k.part)
    k.drain = none ∧ dcBank k.part = d ∧ rcBank k.part = rcBank p ∧ acBank k.part = acBank p ∧
    (∀ a, rd8 k.pool a = if lo ≤ a ∧ a < hi then 0 else rd8 (s.core c).pool a) ∧
    (∀ l, k.full.contains l = true ↔ (s.core c).full.contains l = true ∧ 128 * l < min (spExt p) (spExt k.part)) ∧
    (moveBanks s c d).ctxs = s.ctxs)
/-! ### Scalar memory accesses -/

/-- What lets a load of n bytes at offset o of core c proceed: no PHASE drain holds it, its full/empty condition holds, no
other WFE load of the cycle has taken its lines, and its bytes hold no uncorrectable error (R103, R104, R145, R148). -/
def LoadGoes (s : State) (x : Context) (t c o n : Nat) (fe : FeL) : Prop :=
  drainHeld s x t c = false ∧ (fe = .plain ∨ linesAre s c true (linesOf o n) = true) ∧
  (fe = .wfe → ∀ l ∈ linesOf o n, l ∉ (s.core c).wfe) ∧ spBad s c o n = false
/-- What lets a store proceed: no PHASE drain holds it, its condition holds (R103, R145), and one that sets its lines full comes
behind the local releases of its context (log entry 91). -/
def StoreGoes (s : State) (x : Context) (t c o n : Nat) (fe : FeS) : Prop :=
  drainHeld s x t c = false ∧ (fe = .wesf → linesAre s c false (linesOf o n) = true) ∧
  ((fe = .sf ∨ fe = .wesf) → x.rels.any Later.localRel = false)

/-- R85, R86, R100 to R104, R175 to R177: the scratchpad and window loads and stores. LD and LDW push, after 6 and 9
cycles, the extended bytes at A + B; ST and STW leave the low bytes of B to be stored at A with the end of their bundle; a
false guard pushes A or does nothing. Of all four a misaligned address raises MEMORY 2; an own one that reaches past the
scratchpad MEMORY 4; a window one whose window check fails the subcode of that check; and an access whose full/empty
condition does not hold, or that a PHASE drain holds, holds its bundle. That a store which sets its lines full waits for the
local releases before it is the model's choice (log entry 91). -/
def Obligations.ScratchpadAccesses : Prop :=
  (∀ (s : State) (t : Nat) (x : Context) (g : Guard) (a b : SSel) (fe : FeL) (u : Bool) (sz : Size), s.issuer = .ok (t, x) →
    readable s x (gTrue g x) [.s a, .s b] 1 = true →
    let ad := sVal s x true a + sVal s x true b
    let n := szBytes sz
    let s0 := popOps s x true [.s a, .s b]
    let hold := s.modLatch fun l => { l with held := true }
    (gTrue g x = false → exec (.ld g a b fe u sz) s = .next (pushS s t 6 (sVal s x false a)) ∧
      exec (.ldw g a b fe u sz) s = .next (pushS s t 9 (sVal s x false a))) ∧
    (gTrue g x = true → ad.toNat % n = 0 →
      (ad.toNat + n ≤ spExt (s.core x.core).part → LoadGoes s x t x.core ad.toNat n fe →
        exec (.ld g a b fe u sz) s = .next (pushS (feLoaded s0 x.core x.core fe (linesOf ad.toNat n)) t 6
          (extend n u (spRead s x.core ad.toNat n)))) ∧
      (ad.toNat + n ≤ spExt (s.core x.core).part →
        (drainHeld s x t x.core = true ∨ (fe ≠ .plain ∧ linesAre s x.core true (linesOf ad.toNat n) = false)) →
        exec (.ld g a b fe u sz) s = .next hold) ∧
      (spExt (s.core x.core).part < ad.toNat + n →
        exec (.ld g a b fe u sz) s = .next (raise s { code := cMemory, sub := 4, addr := ad })) ∧
      (∀ c o, window s x.core x.launch ad n = .ok (c, o) →
        (LoadGoes s x t c o n fe →
          exec (.ldw g a b fe u sz) s = .next (pushS (feLoaded s0 c x.core fe (linesOf o n)) t 9 (extend n u (spRead s c o n)))) ∧
        ((drainHeld s x t c = true ∨ (fe ≠ .plain ∧ linesAre s c true (linesOf o n) = false)) →
          exec (.ldw g a b fe u sz) s = .next hold)) ∧
      (∀ m out, window s x.core x.launch ad n = .error (m, out) → exec (.ldw g a b fe u sz) s =
        .next (raise s (mmCause m ad (if out then 1 else 0))))) ∧
    (gTrue g x = true → ad.toNat % n ≠ 0 →
      exec (.ld g a b fe u sz) s = .next (raise s { code := cMemory, sub := 2, addr := ad }) ∧
      exec (.ldw g a b fe u sz) s = .next (raise s { code := cMemory, sub := 2, addr := ad }))) ∧
  (∀ (s : State) (t : Nat) (x : Context) (g : Guard) (a b : SSel) (fe : FeS) (sz : Size), s.issuer = .ok (t, x) →
    readable s x (gTrue g x) [.s a, .s b] 0 = true →
    let ad := sVal s x true a
    let n := szBytes sz
    let s0 := popOps s x true [.s a, .s b]
    let bs := place 0 (leBytes (sVal s x true b).toNat n)
    let hold := s.modLatch fun l => { l with held := true }
    (gTrue g x = false → exec (.st g a b fe sz) s = .next s ∧ exec (.stw g a b fe sz) s = .next s) ∧
    (gTrue g x = true → ad.toNat % n = 0 →
      (ad.toNat + n ≤ spExt (s.core x.core).part → StoreGoes s x t x.core ad.toNat n fe →
        exec (.st g a b fe sz) s = .next (spStore s0 x.core x.core ad.toNat fe bs (linesOf ad.toNat n))) ∧
      (ad.toNat + n ≤ spExt (s.core x.core).part → ¬ StoreGoes s x t x.core ad.toNat n fe →
        exec (.st g a b fe sz) s = .next hold) ∧
      (spExt (s.core x.core).part < ad.toNat + n →
        exec (.st g a b fe sz) s = .next (raise s { code := cMemory, sub := 4, addr := ad })) ∧
      (∀ c o, window s x.core x.launch ad n = .ok (c, o) →
        (StoreGoes s x t c o n fe →
          exec (.stw g a b fe sz) s = .next (spStore s0 c x.core o fe bs (linesOf o n))) ∧
        (¬ StoreGoes s x t c o n fe → exec (.stw g a b fe sz) s = .next hold)) ∧
      (∀ m out, window s x.core x.launch ad n = .error (m, out) → exec (.stw g a b fe sz) s =
        .next (raise s (mmCause m ad (if out then 1 else 0))))) ∧
    (gTrue g x = true → ad.toNat % n ≠ 0 →
      exec (.st g a b fe sz) s = .next (raise s { code := cMemory, sub := 2, addr := ad }) ∧
      exec (.stw g a b fe sz) s = .next (raise s { code := cMemory, sub := 2, addr := ad })))

/-- R3, R84, R102, R107, R108, R118, R121: a scratchpad store that is applied puts the bytes of its value, least significant
first, at its offset where nothing has been written in the cycle, and leaves every other byte of every pool, all of HBM and
every context as they were; its lines become full or empty as its full/empty action says and no other line changes; of two
plain writes of one byte in one cycle that of the lower rank stands. A plain store to an uncached page, its line dirty
nowhere, writes HBM, any other the core's line; in both the core's own next read of the line finds the bytes stored, and
every other byte of the line as the core found it before, and in the latter the directory records the storing context. -/
def Obligations.StoreBytes : Prop :=
  (∀ (s : State) (c src rk o n v : Nat) (fe : Option (Bool × List Nat)), Mem.wf (s.core c).pool = true →
     (s.core c).was = [] → (s.core c).wasFull = [] →
     let s' := applyWrite s src rk (.pool c ((place 0 (leBytes v n)).map fun p => (spBase (s.core c).part + o + p.1, p.2)) fe)
     (∀ i, i < n → (rd8 (s'.core c).pool (spBase (s.core c).part + o + i)).toNat = v / 256 ^ i % 256) ∧
     (∀ a, (a < spBase (s.core c).part + o ∨ spBase (s.core c).part + o + n ≤ a) →
       rd8 (s'.core c).pool a = rd8 (s.core c).pool a) ∧
     (∀ d, d ≠ c → s'.core d = s.core d) ∧
     (∀ a, rd8 s'.mem a = rd8 s.mem a) ∧ s'.ctxs = s.ctxs ∧
     (∀ l, ((s'.core c).full.contains l = true ↔ match fe with
       | none => (s.core c).full.contains l = true
       | some (true, ls) => (s.core c).full.contains l = true ∨ l ∈ ls
       | some (false, ls) => (s.core c).full.contains l = true ∧ l ∉ ls))) ∧
  (∀ (s : State) (c src rk a : Nat) (v : Byte), Mem.wf (s.core c).pool = true →
     let s' := applyWrite s src rk (.pool c [(a, v)] none)
     rd8 (s'.core c).pool a = (match look (s.core c).was a with
       | some (_, r) => if r < rankAt src c rk ∧ r < rkAcc then rd8 (s.core c).pool a else v
       | none => v) ∧
     ∀ d, d ≠ a → rd8 (s'.core c).pool d = rd8 (s.core c).pool d) ∧
  (∀ (s s' : State) (c t pa : Nat) (bs : List Byte) (nc : Bool), pa % 128 + bs.length ≤ 128 → Mem.wf s.mem = true →
     plainStore s c t pa bs nc = some s' →
     let see := fun (s : State) (a : Nat) => match dcLine s c (a / 128) with
       | some d => d.data.getD (a % 128) 0
       | none => rd8 s.mem a
     (∀ i, i < bs.length → see s' (pa + i) = bs.getD i 0) ∧
     (∀ a, a / 128 = pa / 128 → (a < pa ∨ pa + bs.length ≤ a) → see s' a = see s a) ∧
     ((nc = true ∨ dcBank (s.core c).part = 0) → look s.dir (pa / 128) = none →
       (∀ i, i < bs.length → rd8 s'.mem (pa + i) = bs.getD i 0) ∧
       (∀ a, (a < pa ∨ pa + bs.length ≤ a) → rd8 s'.mem a = rd8 s.mem a) ∧ s'.dir = s.dir) ∧
     (¬((nc = true ∨ dcBank (s.core c).part = 0) ∧ look s.dir (pa / 128) = none) → look s'.dir (pa / 128) = some (.d c t)))

/-- Nothing of a context that waits, and no remote write of it that is not acknowledged, names a byte of these (R112). -/
def NothingBefore (s : State) (t : Nat) (x : Context) (span : List (Nat × Nat)) : Prop :=
  behind x span = false ∧ ownStores s t span = []

/-- R89, R90, R98 to R101, R112, R118, R176, R178: LDG at A + B. A local one that translates and that follows nothing of its
context pushes, after 14 cycles, the extended bytes a plain load finds; where the race detector refuses the load it pushes
zero and the race is pending; an uncorrectable error raises DATAECC; where a write of the context to those bytes still waits
or is not acknowledged, its entry is pushed without a value and the load waits; one that fails to translate raises MEMORY, or
DATAECC where a table cannot be read. A remote one with a free tag, no access of its context to those bytes before it, is sent,
its entry without a value until the answer comes. A false guard pushes A. That a local load is performed in the step that issues
it is the model's choice (log entry 10). -/
def Obligations.GlobalLoads : Prop :=
  ∀ (s : State) (t : Nat) (x : Context) (g : Guard) (a b : SSel) (u : Bool) (sz : Size), s.issuer = .ok (t, x) →
    readable s x (gTrue g x) [.s a, .s b] 1 = true →
    let ad := sVal s x true a + sVal s x true b
    let n := szBytes sz
    let s0 := popOps s x true [.s a, .s b]
    (gTrue g x = false → exec (.ldg g a b u sz) s = .next (pushS s t 14 (sVal s x false a))) ∧
    (gTrue g x = true → isRemote ad = false → ad.toNat < 2 ^ 48 → ad.toNat % n = 0 → drainHeld s0 x t x.core = false →
      (∀ s1 pa nc, xlate s0 x.core ad .rd = .ok (s1, pa, nc) →
        (NothingBefore s1 t x [(pa, n)] →
          (∀ s2 bs, plainLoad s1 x.core t pa n nc = (s2, .ok bs) →
            exec (.ldg g a b u sz) s = .next (pushS s2 t 14 (extend n u bs))) ∧
          (∀ s2, plainLoad s1 x.core t pa n nc = (s2, .race) →
            exec (.ldg g a b u sz) s = .next (pushS (raceAt s2 t x.core pa ad) t 14 0)) ∧
          (∀ s2 sub, plainLoad s1 x.core t pa n nc = (s2, .ecc sub) →
            exec (.ldg g a b u sz) s = .next (raise s { code := cDataEcc, sub := sub, addr := ad }))) ∧
        (¬ NothingBefore s1 t x [(pa, n)] → exec (.ldg g a b u sz) s =
          .next (pushLater s1 t .s ad [(pa, n)] (ownStores s1 t [(pa, n)]) fun id => .load pa nc n u id))) ∧
      (∀ m, xlate s0 x.core ad .rd = .error m →
        exec (.ldg g a b u sz) s = .next (raise s (mmCause m ad)))) ∧
    (gTrue g x = true → isRemote ad = true → ad.toNat < 2 ^ 57 → ad.toNat % n = 0 → reaches s0 (pkgOf ad) = true →
      drainHeld s0 x t x.core = false → (pkgOf ad = s0.fab.ep ∨ tagsOut s0 x.core + ((s0.latch.map (·.far)).getD []).length < 4096) →
      NothingBefore s0 t x (farSpan s0 (pkgOf ad) (offOf ad) n) → ownLoads s0 t (farSpan s0 (pkgOf ad) (offOf ad) n) = [] →
      exec (.ldg g a b u sz) s = .next (remoteScal s0 t x ad n u none 14))

/-- R89, R101, R112, R118, R119, R178: STG leaves the low bytes of B to be stored at A with its bundle: a local one through
the translation of A with write permission, which raises MEMORY where it fails, a remote one for the stream in its slot. At
the end of the bundle the store of a context that waits for nothing there is performed as a plain store, or refused whole by
the race detector. A false guard does nothing. That the store is performed at the end of its bundle is the model's choice (log
entry 10). -/
def Obligations.GlobalStores : Prop :=
  (∀ (s : State) (t : Nat) (x : Context) (g : Guard) (a b : SSel) (slot : BitVec 4) (sz : Size), s.issuer = .ok (t, x) →
    readable s x (gTrue g x) [.s a, .s b] 0 = true →
    let ad := sVal s x true a
    let n := szBytes sz
    let s0 := popOps s x true [.s a, .s b]
    let bs := leBytes (sVal s x true b).toNat n
    (gTrue g x = false → exec (.stg g a b slot sz) s = .next s) ∧
    (gTrue g x = true → isRemote ad = false → ad.toNat < 2 ^ 48 → ad.toNat % n = 0 → drainHeld s0 x t x.core = false →
      (∀ s1 pa nc, xlate s0 x.core ad .wr = .ok (s1, pa, nc) →
        exec (.stg g a b slot sz) s = .next (deferWrite s1 x.core (.glob t [(ad, pa, bs, nc)]))) ∧
      (∀ m, xlate s0 x.core ad .wr = .error m →
        exec (.stg g a b slot sz) s = .next (raise s (mmCause m ad)))) ∧
    (gTrue g x = true → isRemote ad = true → ad.toNat < 2 ^ 57 → ad.toNat % n = 0 → reaches s0 (pkgOf ad) = true →
      drainHeld s0 x t x.core = false → strmFull s0 x slot.toNat = false →
      exec (.stg g a b slot sz) s =
        .next (deferWrite s0 x.core (.rem t slot.toNat ad (.write (place (offOf ad) bs)))))) ∧
  (∀ (s : State) (t src rk : Nat) (x : Context) (va : W64) (pa : Nat) (bs : List Byte) (nc : Bool), s.ctx? t = some x →
    behind x [(pa, bs.length)] = false →
    (∀ s', plainStore s x.core t pa bs nc = some s' → applyWrite s src rk (.glob t [(va, pa, bs, nc)]) = s') ∧
    (plainStore s x.core t pa bs nc = none → applyWrite s src rk (.glob t [(va, pa, bs, nc)]) = raceAt s t x.core pa va))

/-- R112, R114 to R118, R180 to R182: a local LDA that follows no waiting access and meets no line dirty elsewhere pushes, after
14 cycles, the extended bytes its acquire reads at the home slice, having recalled the lines released under the variable
where its scope is clus or wider; that acquire leaves no clean line in its core's cache; one that meets such a line pushes
zero and the race is pending. STRL takes its place with its bundle, local or on its stream. FENCE holds the later ordered
bundles, and is settled at once where its slot executes alone. A false guard pushes A or does nothing. A local release whose
turn has come performs its actions and then its store. -/
def Obligations.SynchronisingAccesses : Prop :=
  (∀ (s : State) (t : Nat) (x : Context) (g : Guard) (a b : SSel) (sc : Scope) (u : Bool) (sz : Size), s.issuer = .ok (t, x) →
    readable s x (gTrue g x) [.s a, .s b] 1 = true →
    let ad := sVal s x true a + sVal s x true b
    let n := szBytes sz
    let s0 := popOps s x true [.s a, .s b]
    (gTrue g x = false → exec (.lda g a b sc u sz) s = .next (pushS s t 14 (sVal s x false a))) ∧
    (gTrue g x = true → isRemote ad = false → ad.toNat < 2 ^ 48 → ad.toNat % n = 0 → x.rels = [] →
      ∀ s1 pa nc, xlate s0 x.core ad .rd = .ok (s1, pa, nc) → ownStores s1 t [(pa, n)] = [] →
        (syncRace s1 x.core t pa true = false → ∀ s2 bs, acquireAt s1 x.core pa n sc = (s2, some bs) →
          exec (.lda g a b sc u sz) s = .next (pushS s2 t 14 (extend n u bs))) ∧
        (syncRace s1 x.core t pa true = true →
          exec (.lda g a b sc u sz) s = .next (pushS (raceAt s1 t x.core pa ad) t 14 0)))) ∧
  (∀ (s s' : State) (c pa n : Nat) (sc : Scope) (bs : List Byte), acquireAt s c pa n sc = (s', some bs) → scWide sc = true →
    bs = homeBytes (recallVar s pa) c pa n ∧ (∀ p ∈ (s'.core c).dc, p.2.isDirty = true) ∧
    (∀ p ∈ s'.dir, p.2.released pa = false) ∧ s'.ctxs = s.ctxs) ∧
  (∀ (s : State) (t : Nat) (x : Context) (g : Guard) (a b : SSel) (slot : BitVec 3) (sc : Scope), s.issuer = .ok (t, x) →
    readable s x (gTrue g x) [.s a, .s b] 0 = true →
    let ad := sVal s x true a
    let v := sVal s x true b
    let s0 := popOps s x true [.s a, .s b]
    (gTrue g x = false → exec (.strl g a b slot sc) s = .next s) ∧
    (gTrue g x = true → isRemote ad = false → ad.toNat < 2 ^ 48 → ad.toNat % 8 = 0 →
      ∀ s1 pa nc, xlate s0 x.core ad .wr = .ok (s1, pa, nc) →
        exec (.strl g a b slot sc) s = .next (deferWrite s1 x.core (.strl t slot.toNat ad v sc [(pa, 8)]))) ∧
    (gTrue g x = true → isRemote ad = true → ad.toNat < 2 ^ 57 → ad.toNat % 8 = 0 → reaches s0 (pkgOf ad) = true →
      strmFull s0 x slot.toNat = false → exec (.strl g a b slot sc) s =
        .next (deferWrite s0 x.core (.strl t slot.toNat ad v sc (farSpan s0 (pkgOf ad) (offOf ad) 8))))) ∧
  (∀ (s : State) (t : Nat) (x : Context) (g : Guard) (sc : Scope), s.issuer = .ok (t, x) →
    exec (.fence g sc) s = .next (
      let s1 := s.modCtx t fun y => { y with holds := y.holds ++ [.fence sc] }
      if gTrue g x then (if s.latch.isSome then s1 else settle s1 t) else s)) ∧
  (∀ (s : State) (t : Nat) (x : Context) (e : Later) (q : List Later) (val : W64) (sc : Scope) (sent : Bool), s.ctx? t = some x →
    x.rels = e :: q → e.acc = .release val sc none sent → e.ready s t = true →
    releaseStep s t = releaseHere (s.setCtx t { x with rels := q }) t x e.va val sc) ∧
  (∀ (s : State) (t : Nat) (x : Context) (va val : W64) (sc : Scope) (s1 : State) (pa : Nat) (nc : Bool),
    xlate s x.core va .wr = .ok (s1, pa, nc) → syncRace s1 x.core t pa false = false →
    releaseHere s t x va val sc = homeStore (releaseActs s1 x.core t pa sc false) x.core pa (leBytes val.toNat 8))
/-! ### Vector slots -/

/-- R60: the fields, the infinities, the NaN codes, the values and the limits of the six element formats. R66, R68: round_int gives
a neighbour of the exact quotient, the one its mode names. Every code that is no NaN rounds to itself in its own format. R72: total_key,
and its order. R65, R75, R76: the value of an element of a block under its scale, NaN under the scale 0xFF. R74: conversion to and from fx64.
R365: the two header entries of a channel (a NaN in v or in an entry makes both the NaN 0x7FC0). -/
def Obligations.NumberFormats : Prop :=
  (∀ (f : Arith.Fmt) (ew mw bias top : Nat) (te : Int), (f, ew, mw, bias, top, te) ∈ [(Arith.f32, 8, 23, 127, 2 ^ 24 - 1, 104),
      (Arith.f16, 5, 10, 15, 2 ^ 11 - 1, 5), (Arith.bf16, 8, 7, 127, 2 ^ 8 - 1, 120), (Arith.e4m3, 4, 3, 7, 14, 5),
      (Arith.e5m2, 5, 2, 15, 7, 13), (Arith.e2m1, 2, 1, 1, 3, 1)] →
    f.width = 1 + ew + mw ∧ f.val f.maxCode = .fin false top te ∧
    f.val (2 ^ mw) = .fin false (2 ^ mw) (1 - (bias : Int) - mw) ∧ f.val 1 = .fin false 1 (1 - (bias : Int) - mw) ∧
    ∀ x : Nat, x < 2 ^ (1 + ew + mw) →
      let s := decide (2 ^ (ew + mw) ≤ x)
      let E := x / 2 ^ mw % 2 ^ ew
      let M := x % 2 ^ mw
      (f ≠ Arith.e4m3 → f ≠ Arith.e2m1 → (f.isInf x = true ↔ E = 2 ^ ew - 1 ∧ M = 0) ∧ (f.isNan x = true ↔ E = 2 ^ ew - 1 ∧ M ≠ 0)) ∧
      (f = Arith.e4m3 → f.isInf x = false ∧ (f.isNan x = true ↔ E = 15 ∧ M = 7)) ∧
      (f = Arith.e2m1 → f.isInf x = false ∧ f.isNan x = false) ∧
      (f.isInf x = true → f.val x = .inf s) ∧
      (f.isInf x = false → f.isNan x = false → (E = 0 → f.val x = .fin s M (1 - (bias : Int) - mw)) ∧
        (E ≠ 0 → f.val x = .fin s (2 ^ mw + M) ((E : Int) - bias - mw))) ∧
      (f.isNan x = false → ∀ rm, Arith.roundFmt f (f.val x) rm = x)) ∧
  (∀ (m k : Nat) (rm : Rm) (neg : Bool), let q := Arith.roundShift m k rm neg
    (q = m / 2 ^ k ∨ (q = m / 2 ^ k + 1 ∧ m % 2 ^ k ≠ 0)) ∧
    (rm = .rtz → q = m / 2 ^ k) ∧
    ((rm = .rup ∧ neg = false ∨ rm = .rdn ∧ neg = true) → m ≤ q * 2 ^ k) ∧
    ((rm = .rup ∧ neg = true ∨ rm = .rdn ∧ neg = false) → q * 2 ^ k ≤ m) ∧
    ((rm = .rne ∨ rm = .rna) → 2 * m ≤ 2 * q * 2 ^ k + 2 ^ k ∧ 2 * q * 2 ^ k ≤ 2 * m + 2 ^ k) ∧
    (rm = .rne → 0 < k → (2 * m = 2 * q * 2 ^ k + 2 ^ k ∨ 2 * q * 2 ^ k = 2 * m + 2 ^ k) → q % 2 = 0) ∧
    (rm = .rna → 0 < k → 2 * m ≠ 2 * q * 2 ^ k + 2 ^ k)) ∧
  ((∀ x : W32, Arith.totalKey x = if Arith.f32.isNan x.toNat then 0 else if x.getLsbD 31 then (~~~x).toNat else (x ||| 0x80000000).toNat) ∧
   (∀ x y : W32, Arith.f32.isNan x.toNat = false →
     (Arith.f32.isNan y.toNat = true → Arith.totalKey y < Arith.totalKey x) ∧
     (Arith.f32.isNan y.toNat = false → (Arith.totalKey x < Arith.totalKey y ↔
       Arith.ltExt true (Arith.f32.val x.toNat) (Arith.f32.val y.toNat) = true)))) ∧
  (∀ (f : MxFmt) (x8 e : Nat), x8 < 256 → e < 2 ^ Arith.mxWidth f →
    (x8 = 255 → Arith.mxValue f x8 e = none ∧ Arith.mxDequant f x8 e = Arith.f32.canon) ∧
    (x8 < 255 →
      (f = .mxi8 → ∃ s m, Arith.mxValue f x8 e = some (.fin s m ((x8 : Int) - 127 - 6)) ∧ (if s then -(m : Int) else m) = (BitVec.ofNat 8 e).toInt) ∧
      (∀ r, (f, r) ∈ [(MxFmt.mxf8, Arith.e4m3), (.mxf8b, Arith.e5m2), (.mxf4, Arith.e2m1)] →
        (r.isNan e = true → Arith.mxValue f x8 e = none ∧ Arith.mxDequant f x8 e = Arith.f32.canon) ∧
        (∀ s, r.val e = .inf s → r.isNan e = false → Arith.mxValue f x8 e = some (.inf s)) ∧
        (∀ s m k, r.val e = .fin s m k → r.isNan e = false → Arith.mxValue f x8 e = some (.fin s m (k + ((x8 : Int) - 127))))))) ∧
  ((∀ x : W32, (Arith.f32.isNan x.toNat = true → Arith.toFx64 x = 0) ∧
     (∀ s, Arith.f32.isNan x.toNat = false → Arith.f32.val x.toNat = .inf s → Arith.toFx64 x = if s then 0x8000000000000000 else 0x7FFFFFFFFFFFFFFF) ∧
     (∀ s m e, Arith.f32.isNan x.toNat = false → Arith.f32.val x.toNat = .fin s m e →
       let q : Int := if s then -(Arith.roundInt m (e + 32) .rne s : Int) else Arith.roundInt m (e + 32) .rne s
       (Arith.toFx64 x).toInt = max (-(2 ^ 63)) (min q (2 ^ 63 - 1)))) ∧
   (∀ v : W64, Arith.fx64ToF32 v = BitVec.ofNat 32 (Arith.roundFmt Arith.f32 (.fin (v.toInt < 0) v.toInt.natAbs (-32))))) ∧
  (∀ (v : Option Arith.Ext) (mx mn : Nat), let r := hdrUpdate v mx mn
    ((v = none ∨ Arith.bf16.isNan mx = true ∨ Arith.bf16.isNan mn = true) → r = (0x7FC0, 0x7FC0)) ∧
    (∀ x, v = some x → Arith.bf16.isNan mx = false → Arith.bf16.isNan mn = false →
      (let b := Arith.roundFmt Arith.bf16 x .rup
       r.1 = if Arith.ltExt true (Arith.bf16.val mx) (Arith.bf16.val b) then b else mx) ∧
      (let b := Arith.roundFmt Arith.bf16 x .rdn
       r.2 = if Arith.ltExt true (Arith.bf16.val b) (Arith.bf16.val mn) then b else mn)))

/-- R199, R203, R205: the arithmetic, shifts and absolute values of both clusters push, element by element, the float or
integer operation of their format; inactive lanes hold A. -/
def Obligations.VectorArithmeticResults : Prop :=
  ∀ c : Clu,
    (∀ ty, VPushesBin c (fun g a b => onCl c (.vaddA g a b ty) (.vaddB g a b ty)) (vtyEf ty) 2
      (tyOp2 ty Arith.fAdd fun _ p q => p + q)) ∧
    (∀ ty, VPushesBin c (fun g a b => onCl c (.vsubA g a b ty) (.vsubB g a b ty)) (vtyEf ty) 2
      (tyOp2 ty Arith.fSub fun _ p q => p - q)) ∧
    (∀ ty, VPushesBin c (fun g a b => onCl c (.vmulA g a b ty) (.vmulB g a b ty)) (vtyEf ty) 3
      (tyOp2 ty Arith.fMul fun _ p q => p * q)) ∧
    (∀ ty, VPushesBin c (fun g a b => onCl c (.vminA g a b ty) (.vminB g a b ty)) (vtyEf ty) 2
      (tyOp2 ty (fun f _ => Arith.fMin f) fun _ p q => min p q)) ∧
    (∀ ty, VPushesBin c (fun g a b => onCl c (.vmaxA g a b ty) (.vmaxB g a b ty)) (vtyEf ty) 2
      (tyOp2 ty (fun f _ => Arith.fMax f) fun _ p q => max p q)) ∧
    (∀ ty, VPushesUn c (fun g a => onCl c (.vabsA g a ty) (.vabsB g a ty)) (vtyEf ty) 2 (tyOp1 ty Arith.fAbs fun p => |p|)) ∧
    (∀ ty, VPushesUn c (fun g a => onCl c (.vnegA g a ty) (.vnegB g a ty)) (vtyEf ty) 2 (tyOp1 ty Arith.fNeg fun p => -p)) ∧
    (∀ w u sat, VPushesBin c (fun g a b => onCl c (.vshlA g a b (.int w u sat)) (.vshlB g a b (.int w u sat))) (vtyEf (.int w u sat)) 1
      (el2 (vwBits w) fun p q => Arith.intPat (if q < vwBits w then Arith.intIn p (vwBits w) u * 2 ^ q else 0) (vwBits w) u false)) ∧
    (∀ w u sat, VPushesBin c (fun g a b => onCl c (.vshrA g a b (.int w u sat)) (.vshrB g a b (.int w u sat))) (vtyEf (.int w u sat)) 1
      (el2 (vwBits w) fun p q => Arith.intPat (Arith.shr (Arith.intIn p (vwBits w) u) q (vwBits w)) (vwBits w) u false)) ∧
    VPushesBin c (fun g a b => onCl c (.vandA g a b) (.vandB g a b)) .i32 1 (fun p q => p &&& q) ∧
    VPushesBin c (fun g a b => onCl c (.vorA g a b) (.vorB g a b)) .i32 1 (fun p q => p ||| q) ∧
    VPushesBin c (fun g a b => onCl c (.vxorA g a b) (.vxorB g a b)) .i32 1 (fun p q => p ^^^ q)

/-- R207, R211 to R215: the fused and converting instructions and the elementary functions of both clusters push the
results of their formats; VMXQ pushes the elements and then the scales. -/
def Obligations.VectorFloatResults : Prop :=
  ∀ c : Clu,
    (∀ f, VPushesTri c (fun g a b m => onCl c (.vfmaA g a b f m) (.vfmaB g a b f m)) (.flt f) 4
      (el3 (Arith.fmtOf f).width (Arith.fFma (Arith.fmtOf f) false))) ∧
    (∀ f, VPushesTri c (fun g a b m => onCl c (.vfmsA g a b f m) (.vfmsB g a b f m)) (.flt f) 4
      (el3 (Arith.fmtOf f).width (Arith.fFma (Arith.fmtOf f) true))) ∧
    (∀ ty, VPushesTri c (fun g a b m => onCl c (.vaddminA g a b ty m) (.vaddminB g a b ty m)) (minEf ty) 4 (addMin ty)) ∧
    (∀ f, VPushesUn c (fun g a => onCl c (.vrcpA g a f) (.vrcpB g a f)) (.flt f) 8
      (el1 (Arith.fmtOf f).width (Arith.fRcp (Arith.fmtOf f)))) ∧
    (∀ f, VPushesUn c (fun g a => onCl c (.vrsqA g a f) (.vrsqB g a f)) (.flt f) 8
      (el1 (Arith.fmtOf f).width (Arith.fRsq (Arith.fmtOf f)))) ∧
    (∀ f, VPushesUn c (fun g a => onCl c (.vexpA g a f) (.vexpB g a f)) (.flt f) 8
      (el1 (Arith.fmtOf f).width (Arith.fExp (Arith.fmtOf f)))) ∧
    (∀ f, VPushesUn c (fun g a => onCl c (.vlogA g a f) (.vlogB g a f)) (.flt f) 8
      (el1 (Arith.fmtOf f).width (Arith.fLog (Arith.fmtOf f)))) ∧
    (∀ f, VPushesUn c (fun g a => onCl c (.vtanhA g a f) (.vtanhB g a f)) (.flt f) 8
      (el1 (Arith.fmtOf f).width (Arith.fTanh (Arith.fmtOf f)))) ∧
    (∀ g a ft p su rm, VPushes c (onCl c (.vcvtA g a ft p su rm) (.vcvtB g a ft p su rm)) g [.v c a] 3
      (fun x => cvtVec ft p.toNat su rm (vVal x c (cvtEf ft.src) a)) (fun x => vVal x c (cvtEf ft.src) a)) ∧
    (∀ ft p, VPushesVec c (fun g a b => onCl c (.vmxdA g a b ft p) (.vmxdB g a b ft p)) (.mx ft) .i32 4 fun va vb =>
      VReg.of fun l => BitVec.ofNat 32 (Arith.mxDequant ft ((vb.lane l).toNat % 256)
        (elemV (Arith.mxWidth ft) va (64 * p.toNat + l)))) ∧
    (∀ (s : State) (t : Nat) (x : Context) (g : Guard) (a : VSel) (ft : MxFmt) (p : BitVec 3), s.issuer = .ok (t, x) →
      x.trapMode = false → readable s x true [.v c a] 2 = true →
      let va := vVal x c (.flt .f32) a
      exec (onCl c (.vmxqA g a ft p) (.vmxqB g a ft p)) s = .next
        (pushV (pushV s t c 6 (laneMask x c g) (mxqElems ft p.toNat va) va) t c 6 (laneMask x c g) (mxqScales ft va) va))

/-- R198 to R202, R208 to R210: comparison and predicate logic write the active lanes of one lane predicate; VSEL, VMOVI
and VXMOV push; VPUT writes the active lanes of a register, VPUTX an index register from one lane; the mask stack takes
at most 16 masks and an instruction that would leave its limits raises OPERAND with the depth in INFO. -/
def Obligations.VectorPredicatesAndMoves : Prop :=
  ∀ c : Clu,
    (∀ (s : State) (t : Nat) (x : Context) (g : Guard) (a b : VSel) (cond : VCmpCond) (d : BitVec 3), s.issuer = .ok (t, x) →
      x.trapMode = false → readable s x true [.v c a, .v c b] 0 = true →
      exec (onCl c (.vcmpA g a b cond d) (.vcmpB g a b cond d)) s = .next (wrPred s t c d (laneMask x c g)
        (maskOf fun l => vcmpCond cond ((vVal x c (vcmpEf cond) a).lane l) ((vVal x c (vcmpEf cond) b).lane l)))) ∧
    (∀ (s : State) (t : Nat) (x : Context) (g : Guard) (p q d : BitVec 3) (op : PlogOp), s.issuer = .ok (t, x) →
      x.trapMode = false →
      exec (onCl c (.vplogA g p q op d) (.vplogB g p q op d)) s = .next (wrPred s t c d (laneMask x c g)
        (plogMask op (lanePred x c p) (lanePred x c q)))) ∧
    (∀ (s : State) (t : Nat) (x : Context) (g : Guard) (a : VSel) (d : VDst), s.issuer = .ok (t, x) →
      x.trapMode = false → readable s x true [.v c a, .vd c d] 0 = true →
      exec (onCl c (.vputA g a d) (.vputB g a d)) s = .next (wrV s t c (vdstReg x c d) (laneMask x c g) (vVal x c .i32 a))) ∧
    (∀ (s : State) (t : Nat) (x : Context) (g : Guard) (a : VSel) (l : BitVec 6), s.issuer = .ok (t, x) →
      x.trapMode = false → readable s x true [.v c a] 0 = true →
      exec (onCl c (.vputxA g a l) (.vputxB g a l)) s = .next (
        if (laneMask x c g).getLsbD l.toNat then wrX s t (cluX c) ((vVal x c .i32 a).lane l.toNat) else s)) ∧
    (∀ (s : State) (t : Nat) (x : Context) (inv : Bool) (p : BitVec 3), s.issuer = .ok (t, x) → x.trapMode = false →
      let st := maskStack x c
      let m := topMask x c &&& (if inv then ~~~(lanePred x c p) else lanePred x c p)
      (st.length < 16 → exec (onCl c (.vmpushA inv p) (.vmpushB inv p)) s = .next (setStack s t c (m :: st))) ∧
      (16 ≤ st.length → exec (onCl c (.vmpushA inv p) (.vmpushB inv p)) s = .next
        (raise s { code := cOperand, sub := 0x1F, info := BitVec.ofNat 64 st.length })) ∧
      (0 < st.length → exec (onCl c .vminvA .vminvB) s = .next
        (setStack s t c (((st.drop 1).headD (BitVec.allOnes 64) &&& ~~~(st.headD 0)) :: st.drop 1)) ∧
        exec (onCl c .vmpopA .vmpopB) s = .next (setStack s t c (st.drop 1))) ∧
      (st.length = 0 → exec (onCl c .vminvA .vminvB) s = .next (raise s { code := cOperand, sub := 0x20, info := 0 }) ∧
        exec (onCl c .vmpopA .vmpopB) s = .next (raise s { code := cOperand, sub := 0x21, info := 0 }))) ∧
    (∀ g a b p, VPushes c (onCl c (.vselA g a b p) (.vselB g a b p)) g [.v c a, .v c b] 1
      (fun x => mergeLanes (lanePred x c p) (vVal x c .i32 a) (vVal x c .i32 b)) (fun x => vVal x c .i32 a)) ∧
    (∀ g i, VPushes c (onCl c (.vmoviA g i) (.vmoviB g i)) ⟨g, false⟩ [] 1
      (fun _ => VReg.of fun _ => i.signExtend 32) (fun _ => VReg.zero)) ∧
    (∀ g r, VPushes c (onCl c (.vxmovA g r) (.vxmovB g r)) g [.vr (otherClu c) r] 1
      (fun x => x.vReg (otherClu c) r.toNat) (fun _ => VReg.zero))

/-- R80, R224, R225: lane movement and reduction of both clusters. -/
def Obligations.LaneMovement : Prop :=
  ∀ c : Clu,
    (∀ n : BitVec 6, VPushesVec c (fun g a b => onCl c (.vlshuA g a b n) (.vlshuB g a b n)) .i32 .i32 2 fun va vb =>
      VReg.of fun l => if n.toNat ≤ l then va.lane (l - n.toNat) else vb.lane (l + 64 - n.toNat)) ∧
    (∀ n : BitVec 6, VPushesVec c (fun g a b => onCl c (.vlshdA g a b n) (.vlshdB g a b n)) .i32 .i32 2 fun va vb =>
      VReg.of fun l => if l + n.toNat ≤ 63 then va.lane (l + n.toNat) else vb.lane (l + n.toNat - 64)) ∧
    VPushesVec c (fun g a b => onCl c (.vpermA g a b) (.vpermB g a b)) .i32 .i32 3 (fun va vb =>
      VReg.of fun l => va.lane ((vb.lane l).toNat % 64)) ∧
    (∀ g a (l : BitVec 6), VPushes c (onCl c (.vbcastA g a l) (.vbcastB g a l)) g [.v c a] 2
      (fun x => VReg.of fun _ => (vVal x c .i32 a).lane l.toNat) (fun x => vVal x c .i32 a)) ∧
    (∀ g a (st : BitVec 6), VPushes c (onCl c (.viotaA g a st) (.viotaB g a st)) g [.v c a] 1
      (fun x => VReg.of fun l => (vVal x c .i32 a).lane l + BitVec.ofInt 32 (l * st.toInt)) (fun x => vVal x c .i32 a)) ∧
    (∀ g a op, VPushes c (onCl c (.vredA g a op) (.vredB g a op)) g [.v c a] 6
      (fun x => VReg.of fun _ => spread (redW op) (redVal op (laneMask x c g) (vVal x c (redEf op) a)))
      (fun x => vVal x c (redEf op) a))

/-- The lanes of a scratchpad or window access that are active, each with its target core and offset, where every one is
aligned and in its target's scratchpad. -/
def LanesAt (s : State) (x : Context) (w : Space) (n : Nat) (m : W64) (ad : Nat → W64) (ts : List (Nat × Nat × Nat)) : Prop :=
  laneChecks (lanesOf m) (fun l => laneTarget s x w (ad l) n) = .ok ts

/-- No lane of an access reads an uncorrectable error (R148, R485). -/
def LanesSound (s : State) (n : Nat) (ts : List (Nat × Nat × Nat)) : Prop := ∀ p ∈ ts, spBad s p.2.1 p.2.2 n = false

/-- R90, R103, R104, R112, R119, R148, R216 to R223: the row accesses, gathers and scatters of both clusters whose active lanes
pass their checks, that no PHASE drain holds, that read no uncorrectable error, and whose full/empty condition holds, read or
leave to be stored each lane's bytes; an own access whose active lanes are aligned and lie in the scratchpad passes its lane
checks. A global row with no active lane reads and stores nothing; a remote one, with a free tag, is requested, and one to
be stored is left for the stream its header names; a local one that follows nothing of its context is read lane by lane, or
lands as zero whole where the race detector refuses a line of it, and one to be stored is left to its bundle. That a local row is
read in the step that issues it, and that a store which sets lines full waits for the local releases before it, is the model's
choice (log entries 10 and 91). -/
def Obligations.VectorAccesses : Prop :=
  ((∀ (c : Clu) (s : State) (t : Nat) (x : Context) (g : Guard) (a b : VSel) (fe : FeL) (w : Space) (ts : List (Nat × Nat × Nat)),
     s.issuer = .ok (t, x) → x.trapMode = false → readable s x true [.v c a, .v c b] 1 = true →
     LanesAt s x w 4 (laneMask x c g) (rowAddr ((vVal x c .i32 a).lane 0 + (vVal x c .i32 b).lane 0)) ts →
     anyDrain s x t ts = false → (fe = .plain ∨ linesAre s (rowCore x ts) true (rowLines ts) = true) →
     (fe = .wfe → ∀ l ∈ rowLines ts, l ∉ (s.core (rowCore x ts)).wfe) → LanesSound s 4 ts →
     exec (onSp w (onCl c (.vldA g a b fe) (.vldB g a b fe)) (onCl c (.vldwA g a b fe) (.vldwB g a b fe))) s = .next
       (pushV (if ts.isEmpty then s else feLoaded s (rowCore x ts) x.core fe (rowLines ts)) t c (if w = .own then 6 else 9) (laneMask x c g)
         (loaded (vVal x c .i32 a) (ts.map fun p => (p.1, laneOf (spRead s p.2.1 p.2.2 4)))) (vVal x c .i32 a))) ∧
   (∀ (c : Clu) (s : State) (t : Nat) (x : Context) (g : Guard) (a b : VSel) (fe : FeS) (w : Space) (ts : List (Nat × Nat × Nat)),
     s.issuer = .ok (t, x) → x.trapMode = false → readable s x true [.v c a, .v c b] 0 = true →
     LanesAt s x w 4 (laneMask x c g) (rowAddr ((vVal x c .i32 a).lane 0)) ts →
     anyDrain s x t ts = false → (fe = .wesf → linesAre s (rowCore x ts) false (rowLines ts) = true) →
     ((fe = .sf ∨ fe = .wesf) → x.rels.any Later.localRel = false) →
     exec (onSp w (onCl c (.vstA g a b fe) (.vstB g a b fe)) (onCl c (.vstwA g a b fe) (.vstwB g a b fe))) s = .next
       (if ts.isEmpty then s else spStore s (rowCore x ts) x.core 0 fe
         (ts.flatMap fun p => place p.2.2 (leBytes ((vVal x c .i32 b).lane p.1).toNat 4)) (rowLines ts))) ∧
   (∀ (c : Clu) (s : State) (t : Nat) (x : Context) (g : Guard) (a b : VSel) (gsp : GSpace) (sz : GSize) (u : Bool)
     (ts : List (Nat × Nat × Nat)),
     s.issuer = .ok (t, x) → x.trapMode = false → readable s x true [.v c a, .v c b] 1 = true →
     LanesAt s x (gSpace gsp) (gszBytes sz) (laneMask x c g)
       (fun l => ((vVal x c .i32 a).lane l + (vVal x c .i32 b).lane l).setWidth 64) ts → anyDrain s x t ts = false →
     LanesSound s (gszBytes sz) ts →
     exec (onCl c (.vgathA g a b gsp sz u) (.vgathB g a b gsp sz u)) s = .next (pushV s t c 10 (laneMask x c g)
       (loaded (vVal x c .i32 a) (ts.map fun p => (p.1, (extend (gszBytes sz) u (spRead s p.2.1 p.2.2 (gszBytes sz))).setWidth 32)))
       (vVal x c .i32 a))) ∧
   (∀ (c : Clu) (s : State) (t : Nat) (x : Context) (g : Guard) (a b : VSel) (gsp : GSpace) (sz : GSize) (ts : List (Nat × Nat × Nat)),
     s.issuer = .ok (t, x) → x.trapMode = false → readable s x true [.v c a, .v c b] 0 = true →
     LanesAt s x (gSpace gsp) (gszBytes sz) (laneMask x c g) (fun l => ((vVal x c .i32 a).lane l).setWidth 64) ts →
     anyDrain s x t ts = false →
     exec (onCl c (.vscatA g a b gsp sz) (.vscatB g a b gsp sz)) s = .next ((ts.map fun p => p.2.1).dedup.foldl (fun s k =>
       spStore s k x.core 0 .plain ((ts.filter fun p => p.2.1 == k).flatMap fun p =>
         place p.2.2 (leBytes ((vVal x c .i32 b).lane p.1).toNat (gszBytes sz))) []) s)) ∧
   (∀ (s : State) (x : Context) (n : Nat) (m : W64) (ad : Nat → W64), 0 < n →
     (∀ l, l < 64 → m.getLsbD l = true → (ad l).toNat % n = 0 ∧ (ad l).toNat + n ≤ spExt (s.core x.core).part) →
     LanesAt s x .own n m ad ((lanesOf m).map fun l => (l, x.core, (ad l).toNat)))) ∧
  ((∀ (c : Clu) (s : State) (t : Nat) (x : Context) (g : Guard) (a b h : VSel), s.issuer = .ok (t, x) → x.trapMode = false →
     readable s x true [.v c a, .v c b, .v c h] 1 = true →
     let va := vVal x c .i32 a
     let h0 := (vVal x c .i32 h).lane 0
     let ad := gRowAddr h0 (va.lane 0) ((vVal x c .i32 b).lane 0)
     let m := laneMask x c g
     let i := onCl c (.vldgA g a b h) (.vldgB g a b h)
     let far := farSpan s (pkgOf (ad 0)) (offOf (ad 0)) 256
     (m = 0 → exec i s = .next (pushV s t c 14 m va va)) ∧
     (m ≠ 0 → (∀ l ∈ lanesOf m, gLaneOk s (h0.extractLsb' 25 7 != 0) (ad 0) (ad l) = .ok ()) → drainHeld s x t x.core = false →
       (isRemote (ad 0) = true → (pkgOf (ad 0) = s.fab.ep ∨ tagsOut s x.core + ((s.latch.map (·.far)).getD []).length < 4096) →
         NothingBefore s t x far → ownLoads s t far = [] →
         exec i s = .next (rowGo s t x (ad 0) m va (nextId s t) fun s v => pushQ s t (cluQ c) 14 (v.map .v))) ∧
       (isRemote (ad 0) = false → ∀ s1 ps, localLanes s x.core .rd ((lanesOf m).map fun l => (l, ad l)) = .ok (s1, ps) →
         NothingBefore s1 t x (rowSpan ps) →
           (∀ s2 vs, rowRace s1 x.core t ps = none → loadLanes s1 x.core t ps = (s2, vs, none) →
             exec i s = .next (pushV s2 t c 14 m (loaded va vs) va)) ∧
           (∀ ra pa, rowRace s1 x.core t ps = some (ra, pa) →
             exec i s = .next (pushQ (raceAt s1 t x.core pa ra) t (cluQ c) 14 (some (.v VReg.zero))))))) ∧
   (∀ (c : Clu) (s : State) (t : Nat) (x : Context) (g : Guard) (a b h : VSel), s.issuer = .ok (t, x) → x.trapMode = false →
     readable s x true [.v c a, .v c b, .v c h] 0 = true →
     let vb := vVal x c .i32 b
     let h0 := (vVal x c .i32 h).lane 0
     let ad := gRowAddr h0 ((vVal x c .i32 a).lane 0) 0
     let m := laneMask x c g
     let i := onCl c (.vstgA g a b h) (.vstgB g a b h)
     (m = 0 → exec i s = .next s) ∧
     (m ≠ 0 → (∀ l ∈ lanesOf m, gLaneOk s (h0.extractLsb' 25 3 != 0) (ad 0) (ad l) = .ok ()) → drainHeld s x t x.core = false →
       (isRemote (ad 0) = true → strmFull s x (h0.extractLsb' 28 4).toNat = false →
         exec i s = .next (deferWrite s x.core (.rem t (h0.extractLsb' 28 4).toNat (ad 0)
           (.write ((lanesOf m).flatMap fun l => place (offOf (ad l)) (leBytes (vb.lane l).toNat 4)))))) ∧
       (isRemote (ad 0) = false → ∀ s1 ps, localLanes s x.core .wr ((lanesOf m).map fun l => (l, ad l)) = .ok (s1, ps) →
         exec i s = .next (deferWrite s1 x.core
           (.glob t (ps.map fun p => (p.2.1, p.2.2.1, leBytes (vb.lane p.1).toNat 4, p.2.2.2))))))))
/-! ### The select engine and the token tree file -/

/-- R31, R227 to R231: CXS pushes the keys and then the indexes of a compare-exchange stage; THRC the kept values, their
lanes and their count; HIST the counts of the values below its bin number and hands as many to the count queue. A false
guard pushes zeros and hands over nothing. A bitonic stage pairs every lane with another and the pairing is its own
inverse; rank is a strict order in which, of two pairs whose keys or indexes differ, one ranks above the other. -/
def Obligations.SelectEngineResults : Prop :=
  ((∀ (s : State) (t : Nat) (x : Context) (g : Guard) (a b : VSel) (cl : Clu) (sg : Stg), s.issuer = .ok (t, x) →
     x.trapMode = false → readable s x true [.v cl a, .v cl b] 2 = true →
     let k := vVal x cl (.flt .f32) a
     let i := vVal x cl .i32 b
     exec (.cxs g a b cl sg) s = .next (pushAll (pushAll s t cl 3 (gTrue g x) (VReg.of fun l => k.lane (cxsFrom sg.val k i l)))
       t cl 3 (gTrue g x) (VReg.of fun l => i.lane (cxsFrom sg.val k i l)))) ∧
   (∀ (s : State) (t : Nat) (x : Context) (g : Guard) (a b : VSel) (cl : Clu) (ty : ThrTy) (ge : Bool), s.issuer = .ok (t, x) →
     x.trapMode = false → readable s x true [.v cl a, .v cl b] 3 = true →
     let va := vVal x cl (thrEf ty) a
     let kept := (lanesOf (topMask x cl)).filter fun l => thrKeep ty ge (va.lane l) ((vVal x cl (thrEf ty) b).lane 0)
     exec (.thrc g a b cl ty ge) s = .next (pushS (pushAll (pushAll s t cl 4 (gTrue g x)
       (VReg.of fun n => ((kept[n]?).map va.lane).getD 0)) t cl 4 (gTrue g x)
       (VReg.of fun n => ((kept[n]?).map (BitVec.ofNat 32 ·)).getD 0)) t 4 (if gTrue g x then BitVec.ofNat 64 kept.length else 0))) ∧
   (∀ (s : State) (t : Nat) (x : Context) (g : Guard) (a b : VSel) (cl : Clu) (dir : Bool), s.issuer = .ok (t, x) →
     x.trapMode = false → readable s x true [.v cl a, .v cl b] 1 = true →
     let nb := ((vVal x cl .i32 b).lane 0).toNat
     let h := histVec dir (topMask x cl) (vVal x cl .i32 a) nb
     (gTrue g x = false → exec (.hist g a b cl dir) s = .next (pushAll s t cl 4 false VReg.zero)) ∧
     (gTrue g x = true → 0 < nb → nb ≤ 64 → cqHeld s x.core false + nb ≤ 64 →
       exec (.hist g a b cl dir) s = .next (pushAll (cqPush s x.core ((List.range nb).map h.lane)) t cl 4 true h)) ∧
     (gTrue g x = true → (nb = 0 ∨ 64 < nb) →
       exec (.hist g a b cl dir) s = .next (raise s { code := cOperand, sub := 3, info := BitVec.ofNat 64 nb })) ∧
     (gTrue g x = true → 0 < nb → nb ≤ 64 → 64 < cqHeld s x.core false + nb →
       exec (.hist g a b cl dir) s = .next (raise s { code := cCqFull })))) ∧
  ((∀ sg l p up, sg < 22 → l < 64 → stagePair sg l = some (p, up) → p < 64 ∧ p ≠ l ∧ stagePair sg p = some (l, up)) ∧
   (∀ sg l, sg < 21 → l < 64 → (stagePair sg l).isSome = true) ∧
   (∀ k i k' i' : W32, (Arith.totalKey k ≠ Arith.totalKey k' ∨ i ≠ i') → (above k i k' i' = true ↔ above k' i' k i = false)) ∧
   (∀ k i : W32, above k i k i = false) ∧
   (∀ k i k' i' k'' i'' : W32, above k i k' i' = true → above k' i' k'' i'' = true → above k i k'' i'' = true))

/-- No node of a tree holds an uncorrectable error (R148). -/
def TreeSound (d : TtDesc) : Prop := ∀ n, (d.node n).bad = false

/-- R148, R232, R233, R237 to R243, R245: TTNEW opens the lowest released descriptor with its root, under the next generation,
where the file has room, answers all ones where it has not, and raises OPERAND with B where a limit is broken; TTADD appends
a child or answers all ones at a full tree; TTPRUNE keeps a path and leaves its slots to be stored; TTFREE releases. The
instructions that read a tree whose nodes hold no error push what they say: positions, ancestry as words, biases or bits, the
path from the root to a node, and the words of a node and a descriptor; a node in error raises DATAECC in TTRD. A tree word
that names no open tree of the task raises OPERAND with the word, and a false guard pushes zeros or does nothing. That a TTPRUNE
which sets its lines full waits for the local releases before it is the model's choice (log entry 91). -/
def Obligations.TreeInstructions : Prop :=
  ((∀ (s : State) (t : Nat) (x : Context) (g : Guard) (a b : SSel), s.issuer = .ok (t, x) → x.trapMode = false →
     readable s x (gTrue g x) [.s a, .s b] 1 = true →
     let va := sVal s x true a
     let vb := sVal s x true b
     let cap := vb.toNat / 2 ^ 32 % 512
     let s0 := popOps s x true [.s a, .s b]
     let k := s0.core x.core
     (gTrue g x = false → exec (.ttnew g a b) s = .next (pushS s t 2 0)) ∧
     (gTrue g x = true → 0 < cap → cap ≤ 256 → vb.toNat < 2 ^ 41 → va.toNat % 2 ^ 32 ≤ 0xFFFFFEFF →
       va.toNat / 2 ^ 32 + cap - 1 ≤ 0xFFFFFFFF →
       (∀ i : Fin 16, (List.finRange 16).find? (fun i => (k.ttf[i]).tree.isNone) = some i → cap ≤ ttFree k →
         exec (.ttnew g a b) s = .next (pushS (setTree s0 x.core i
           { gen := (k.ttf[i]).gen + 1, tree := some (t, cap), basePos := va.extractLsb' 0 32, kvBase := va.extractLsb' 32 32,
             nodes := [{ token := vb.extractLsb' 0 32, parent := 0, depth := 0, flags := 0 }] }) t 2
           (BitVec.ofNat 64 (((k.ttf[i]).gen + 1).toNat * 16 + i.val)))) ∧
       (((∀ i : Fin 16, (k.ttf[i]).tree.isSome = true) ∨ ttFree k < cap) →
         exec (.ttnew g a b) s = .next (pushS s0 t 2 (BitVec.allOnes 64))))) ∧
   (∀ (s : State) (t : Nat) (x : Context) (g : Guard) (a b : SSel), s.issuer = .ok (t, x) → x.trapMode = false →
     readable s x (gTrue g x) [.s a, .s b] 1 = true →
     let va := sVal s x true a
     let vb := sVal s x true b
     let cap := vb.toNat / 2 ^ 32 % 512
     gTrue g x = true → (cap = 0 ∨ 256 < cap ∨ 2 ^ 41 ≤ vb.toNat ∨ 0xFFFFFEFF < va.toNat % 2 ^ 32 ∨
       0xFFFFFFFF < va.toNat / 2 ^ 32 + cap - 1) → exec (.ttnew g a b) s = .next (raise s { code := cOperand, sub := 4, info := vb })) ∧
   (∀ (s : State) (t : Nat) (x : Context) (g : Guard) (a b : SSel) (fl : BitVec 6), s.issuer = .ok (t, x) → x.trapMode = false →
     readable s x (gTrue g x) [.s a, .s b] 1 = true →
     let s0 := popOps s x true [.s a, .s b]
     (gTrue g x = false → exec (.ttadd g a b fl) s = .next (pushS s t 2 0)) ∧
     (gTrue g x = true → treeOf s x.core t (sVal s x true a) true = none →
       exec (.ttadd g a b fl) s = .next (raise s { code := cOperand, sub := 5, info := sVal s x true a })) ∧
     (∀ i d p, gTrue g x = true → treeOf s x.core t (sVal s x true a) true = some (i, d, p) → (d.node p).bad = false →
       exec (.ttadd g a b fl) s = .next (
         if (d.tree.map (·.2)).getD 0 ≤ d.nodes.length then pushS s0 t 2 (BitVec.allOnes 64)
         else pushS (setTree s0 x.core i { d with nodes := d.nodes ++
           [{ token := (sVal s x true b).setWidth 32, parent := p, depth := (d.node p).depth + 1, flags := fl }] }) t 2
           (BitVec.ofNat 64 d.nodes.length)))) ∧
   (∀ (s : State) (t : Nat) (x : Context) (g : Guard) (a b : SSel) (sf : Bool), s.issuer = .ok (t, x) → x.trapMode = false →
     readable s x (gTrue g x) [.s a, .s b] 1 = true →
     let s0 := popOps s x true [.s a, .s b]
     (gTrue g x = false → exec (.ttprune g a b sf) s = .next (pushS s t 6 0)) ∧
     (gTrue g x = true → treeOf s x.core t (sVal s x true a) true = none →
       exec (.ttprune g a b sf) s = .next (raise s { code := cOperand, sub := 9, info := sVal s x true a })) ∧
     (∀ i d n, gTrue g x = true → treeOf s x.core t (sVal s x true a) true = some (i, d, n) → TreeSound d →
       let p := pathTo d n
       let o := sVal s x true b
       o.toNat % 4 = 0 → o.toNat + 4 * p.length ≤ spExt (s0.core x.core).part → drainHeld s0 x t x.core = false →
       (sf = true → x.rels.any Later.localRel = false) →
       exec (.ttprune g a b sf) s = .next (pushS (setTree (spStore s0 x.core x.core o.toNat (if sf then .sf else .plain)
         (place 0 (p.flatMap fun q => leBytes (d.kvBase + BitVec.ofNat 32 q).toNat 4)) (linesOf o.toNat (4 * p.length)))
         x.core i { d with nodes := pruned d p }) t 6 (BitVec.ofNat 64 p.length)))) ∧
   (∀ (s : State) (t : Nat) (x : Context) (g : Guard) (a : SSel), s.issuer = .ok (t, x) → x.trapMode = false →
     readable s x (gTrue g x) [.s a] 0 = true →
     (gTrue g x = false → exec (.ttfree g a) s = .next s) ∧
     (gTrue g x = true → treeOf s x.core t (sVal s x true a) false = none →
       exec (.ttfree g a) s = .next (raise s { code := cOperand, sub := 10, info := sVal s x true a })) ∧
     (∀ i d n, gTrue g x = true → treeOf s x.core t (sVal s x true a) false = some (i, d, n) →
       exec (.ttfree g a) s = .next (setTree (popOps s x true [.s a]) x.core i { gen := d.gen })))) ∧
  (∀ (s : State) (t : Nat) (x : Context) (g : Guard) (a : SSel), s.issuer = .ok (t, x) → x.trapMode = false →
     readable s x (gTrue g x) [.s a] 1 = true →
     let w := sVal s x true a
     let s0 := popOps s x true [.s a]
     (gTrue g x = false →
       (∀ cl blk, exec (.ttpos g a cl blk) s = .next (pushAll s t cl 3 false VReg.zero)) ∧
       (∀ cl col form blk, exec (.ttmask g a cl col form blk) s = .next (pushAll s t cl 4 false VReg.zero)) ∧
       (∀ cl fld blk, exec (.ttpath g a cl fld blk) s = .next (pushAll s t cl 4 false VReg.zero)) ∧
       (∀ what, exec (.ttrd g a what) s = .next (pushS s t 2 0))) ∧
     (∀ i d n, gTrue g x = true → treeOf s x.core t w false = some (i, d, n) → TreeSound d →
       (∀ cl (blk : BitVec 2), exec (.ttpos g a cl blk) s = .next (pushAll s0 t cl 3 true (VReg.of fun l =>
         if 64 * blk.toNat + l < d.nodes.length then d.basePos + BitVec.ofNat 32 (d.node (64 * blk.toNat + l)).depth
         else BitVec.allOnes 32))) ∧
       exec (.ttrd g a .desc) s = .next (pushS s0 t 2 (ttWord d .desc n)) ∧
       exec (.ttrd g a .pos) s = .next (pushS s0 t 2 (d.basePos.setWidth 64))) ∧
     (∀ i d n, gTrue g x = true → treeOf s x.core t w true = some (i, d, n) → (d.node n).bad = true →
       exec (.ttrd g a .node) s = .next (raise s { code := cDataEcc, sub := 5 })) ∧
     (∀ i d n, gTrue g x = true → treeOf s x.core t w true = some (i, d, n) → TreeSound d →
       (∀ cl col (blk : BitVec 2), exec (.ttmask g a cl col .word blk) s = .next (pushAll s0 t cl 4 true (VReg.of fun l =>
         if relOf d col n (64 * blk.toNat + l) then BitVec.allOnes 32 else 0))) ∧
       (∀ cl col (blk : BitVec 2), exec (.ttmask g a cl col .bias blk) s = .next (pushAll s0 t cl 4 true (VReg.of fun l =>
         if relOf d col n (64 * blk.toNat + l) then 0 else 0xFF800000))) ∧
       (∀ cl col (blk : BitVec 2), exec (.ttmask g a cl col .bits blk) s = .next (pushAll s0 t cl 4 true (VReg.of fun l =>
         if l < 8 then BitVec.ofNat 32 ((List.range 32).foldl (fun v i => if relOf d col n (32 * l + i) then v + 2 ^ i else v) 0)
         else 0))) ∧
       (∀ cl fld (blk : BitVec 2), exec (.ttpath g a cl fld blk) s = .next (pushAll s0 t cl 4 true (VReg.of fun l =>
         (((pathTo d n)[64 * blk.toNat + l]?).map (pathFld d fld)).getD (BitVec.allOnes 32)))) ∧
       exec (.ttrd g a .node) s = .next (pushS s0 t 2 (ttWord d .node n))) ∧
     (gTrue g x = true → treeOf s x.core t w false = none →
       (∀ cl blk, exec (.ttpos g a cl blk) s = .next (raise s { code := cOperand, sub := 6, info := w })) ∧
       (∀ what, what ≠ .node → exec (.ttrd g a what) s = .next (raise s { code := cOperand, sub := 11, info := w }))) ∧
     (gTrue g x = true → treeOf s x.core t w true = none →
       exec (.ttrd g a .node) s = .next (raise s { code := cOperand, sub := 11, info := w }) ∧
       (∀ cl col form blk, exec (.ttmask g a cl col form blk) s = .next (raise s { code := cOperand, sub := 7, info := w })) ∧
       (∀ cl fld blk, exec (.ttpath g a cl fld blk) s = .next (raise s { code := cOperand, sub := 8, info := w }))))
/-! ### The matrix engine -/

/-- R31, R248, R255, R264, R265, R270, R271, R278: MWLD starts a transfer into a half that is neither selected nor loading,
behind what its context has left to be performed; MWSEL selects a ready half and discards what the array holds, does nothing
to one that is selected, is held by one that loads, and raises NOHALF or LOADFAIL for one that is empty or has failed; MSWAP
and MFMT change the mode and the activation format and discard the row, OUT and the array; MSTAT pushes the status word. A
matrix instruction whose guard is false does nothing, and one that pushes then pushes zero. -/
def Obligations.MatrixControl : Prop :=
  (∀ (s : State) (t : Nat) (x : Context) (g : Guard), s.issuer = .ok (t, x) → x.trapMode = false → gTrue g x = true →
     (busySweep s x.core t).1 = false →
     let m := (s.core x.core).me
     (∀ (a : SSel) (h : BitVec 1), readable s x true [.s a] 0 = true →
       ¬(m.selv = true ∧ m.sel = h.toNat) → (m.half h.toNat).st ≠ .loading → drainHeld s x t x.core = false →
       let s0 := popOps s x true [.s a]
       let half : Half := { st := .loading, src := sVal s x true a, task := t, launch := x.launch, fetch := inSweep s0 x.core t,
                            fork := forkOf s0 t x }
       exec (.mwld g a h) s = .next ((popOps s x true [.s a]).modMe x.core fun m =>
         { m.setHalf h.toNat half with filled := if (m.filled.map (·.1)) = some h.toNat then none else m.filled })) ∧
     (∀ h : BitVec 1, (m.half h.toNat).st = .ready → ¬(m.selv = true ∧ m.sel = h.toNat) →
       exec (.mwsel g h) s = .next (s.modMe x.core fun m => { m with sel := h.toNat, selv := true, filled := none, filling := none })) ∧
     (∀ h : BitVec 1, (m.half h.toNat).st = .ready → (m.selv = true ∧ m.sel = h.toNat) → exec (.mwsel g h) s = .next s) ∧
     (∀ h : BitVec 1, (m.half h.toNat).st = .empty →
       exec (.mwsel g h) s = .next (raise s { code := cMatrix, sub := 2, info := BitVec.ofNat 64 h.toNat })) ∧
     (∀ h : BitVec 1, let f := m.half h.toNat
       f.st = .failed → exec (.mwsel g h) s = .next (raise s
         { code := cMatrix, sub := 3, info := BitVec.ofNat 64 f.detail, addr := f.addr, aux := h.toNat, fetch := f.fetch })) ∧
     (∀ h : BitVec 1, (m.half h.toNat).st = .loading → exec (.mwsel g h) s = .next (s.modLatch fun l => { l with held := true })) ∧
     (∀ w, exec (.mswap g w) s = .next (s.modMe x.core fun m =>
       { m with gw := w, slots := [], inv := false, outv := false, filled := none, filling := none })) ∧
     (∀ f, exec (.mfmt g f) s = .next (s.modMe x.core fun m =>
       { m with afmt := f, slots := [], inv := false, outv := false, filled := none, filling := none })) ∧
     (readable s x true [] 1 = true → exec (.mstat g) s = .next (pushS s t 2 (mestat s x.core t)))) ∧
  (∀ (s : State) (t : Nat) (x : Context) (g : Guard), s.issuer = .ok (t, x) → x.trapMode = false → gTrue g x = false →
     (∀ a h, readable s x false [.s a] 0 = true → exec (.mwld g a h) s = .next s) ∧
     (∀ h, exec (.mwsel g h) s = .next s) ∧
     (∀ a b cl acc seg, readable s x false [.v cl a, .s b] 0 = true → exec (.mpush g a b cl acc seg) s = .next s) ∧
     (∀ b acc seg, readable s x false [.s b] 0 = true → exec (.mshift g b acc seg) s = .next s) ∧
     (∀ a, readable s x false [.s a] 0 = true → exec (.macc g a) s = .next s) ∧
     (∀ a b cl df clr, readable s x false [.s a, .s b] 1 = true →
       exec (.mdrn g a b cl df clr) s = .next (pushAll s t cl 6 false VReg.zero)) ∧
     (∀ a n, readable s x false [.s a] 0 = true → exec (.mzero g a n) s = .next s ∧ exec (.msweep g a n) s = .next s) ∧
     exec (.mend g) s = .next s ∧ (∀ w, exec (.mswap g w) s = .next s) ∧ (∀ f, exec (.mfmt g f) s = .next s) ∧
     (readable s x false [] 1 = true → exec (.mstat g) s = .next (pushS s t 2 0)))

/-- R257, R258, R260, R266, R267, R277: a beat in normal mode, whose half is selected, ready and without error, whose formats
agree and whose pair the array holds, forms OUT from its row, and adds it into the row its control operand names where ACC is
set; in a swapped mode MPUSH stores a token row and MSHIFT forms OUT over a column group; MACC adds OUT into a row. What a
beat or MACC adds into lies in the window of its context's sweep and holds no error. -/
def Obligations.MatrixBeats : Prop :=
  ∀ (s : State) (t : Nat) (x : Context) (g : Guard), s.issuer = .ok (t, x) → x.trapMode = false → gTrue g x = true →
    (busySweep s x.core t).1 = false →
    let m := (s.core x.core).me
    let h := m.half m.sel
    (∀ (a : VSel) (b : SSel) (cl : Clu) (acc : Bool) (seg : BitVec 4), readable s x true [.v cl a, .s b] 0 = true →
      let n := (sVal s x true b).toNat % 4096
      let row := vVal x cl (rowEf m.afmt) a
      (m.gw = .normal → m.selv = true → h.st = .ready → aWidth m.afmt = aWidth h.bfmt → seg.toNat < h.nslice →
        h.bad = false → (acc = true → n < acRows s x.core ∧ (outWin s x.core t n 1).1 = false ∧ (rowEcc s x.core n 1).1 = false) →
        m.filled = some (m.sel, seg.toNat) →
        exec (.mpush g a b cl acc seg) s = .next (beatDone ((popOps s x true [.s b]).modMe x.core fun _ =>
          { m with inRow := row, inv := true }) x.core n acc (beatNormal { m with inRow := row, inv := true } h seg.toNat))) ∧
      (m.gw ≠ .normal → n < gwWidth m.gw → acc = false → seg = 0 →
        exec (.mpush g a b cl acc seg) s = .next ((popOps s x true [.s b]).modMe x.core fun m =>
          { m with slots := put m.slots n row }))) ∧
    (∀ (b : SSel) (acc : Bool) (seg : BitVec 4), readable s x true [.s b] 0 = true →
      let n := (sVal s x true b).toNat % 4096
      let cg := (sVal s x true b).toNat / 65536 % 128
      m.selv = true → h.st = .ready → aWidth m.afmt = aWidth h.bfmt → seg.toNat < h.nslice →
      h.bad = false → (acc = true → n < acRows s x.core ∧ (outWin s x.core t n 1).1 = false ∧ (rowEcc s x.core n 1).1 = false) →
      (m.gw = .normal → m.inv = true → m.filled = some (m.sel, seg.toNat) →
        exec (.mshift g b acc seg) s = .next (beatDone (popOps s x true [.s b]) x.core n acc (beatNormal m h seg.toNat))) ∧
      (m.gw ≠ .normal → cg < gwWidth m.gw →
        exec (.mshift g b acc seg) s = .next (beatDone (popOps s x true [.s b]) x.core n acc (beatSwapped m h seg.toNat cg)))) ∧
    (∀ a : SSel, readable s x true [.s a] 0 = true →
      let n := (sVal s x true a).toNat
      m.outv = true → n < acRows s x.core → (outWin s x.core t n 1).1 = false → (rowEcc s x.core n 1).1 = false →
      exec (.macc g a) s = .next (accumulate (popOps s x true [.s a]) x.core n))

/-- R258, R268, R269, R272, R273, R277: MDRN pushes a row of the accumulator store that holds no error, scaled and in its
format, and clears it where CLR is set; MZERO writes zeros; MSWEEP opens a sweep over a window of rows with their contents, as
they stood before the cycle, as its shadow; MEND raises NOSWEEP where no sweep is open, and closes the sweep of its context
once its operand fetch is done and no half of it has failed. -/
def Obligations.MatrixRowsAndSweeps : Prop :=
  ∀ (s : State) (t : Nat) (x : Context) (g : Guard), s.issuer = .ok (t, x) → x.trapMode = false → gTrue g x = true →
    (busySweep s x.core t).1 = false →
    let m := (s.core x.core).me
    (∀ (a b : SSel) (cl : Clu) (df : DrainFmt) (clr : Bool), readable s x true [.s a, .s b] 1 = true →
      let n := (sVal s x true a).toNat
      let s0 := popOps s x true [.s a, .s b]
      n < acRows s x.core → (clr = true → (outWin s x.core t n 1).1 = false) → (rowEcc s x.core n 1).1 = false →
      exec (.mdrn g a b cl df clr) s = .next (pushAll (if clr then accWrite s0 x.core n (List.replicate 128 0) else s0) t cl 6 true
        (drainRow df (accElem s x.core n) ((sVal s x true b).toNat % 2 ^ 32)))) ∧
    (∀ (a : SSel) (n : BitVec 6), readable s x true [.s a] 0 = true →
      let r := (sVal s x true a).toNat
      r + n.toNat + 1 ≤ acRows s x.core → (outWin s x.core t r (n.toNat + 1)).1 = false →
      exec (.mzero g a n) s = .next ((List.range (n.toNat + 1)).foldl
        (fun s i => accWrite s x.core (r + i) (List.replicate 128 0)) (popOps s x true [.s a]))) ∧
    (∀ (a : SSel) (n : BitVec 6), readable s x true [.s a] 0 = true → m.sweep = none → x.fr.nest.act = [] →
      let r := (sVal s x true a).toNat
      r + n.toNat + 1 ≤ acRows s x.core → (rowEcc s x.core r (n.toNat + 1)).1 = false →
      ∃ s' w, exec (.msweep g a n) s = .next s' ∧ (s'.core x.core).me.sweep = some w ∧ w.owner = t ∧ w.wbase = r ∧
        w.wlen = n.toNat + 1 ∧ w.pc = x.pc ∧ w.roll = none ∧ w.sel = m.sel ∧ w.selv = m.selv ∧ w.gw = m.gw ∧ w.afmt = m.afmt ∧
        w.rows = ((popOps s x true [.s a]).core x.core).ports (acBase (s.core x.core).part + 512 * r) (512 * (n.toNat + 1)) ∧
        (s'.core x.core).pool = ((popOps s x true [.s a]).core x.core).pool) ∧
    (m.sweep = none → exec (.mend g) s = .next (raise s { code := cMatrix, sub := 9 })) ∧
    (∀ w, m.sweep = some w → w.owner = t → fetchOpen s x.core = false →
      ¬(m.h0.st = .failed ∧ m.h0.fetch = true) → ¬(m.h1.st = .failed ∧ m.h1.fetch = true) →
      exec (.mend g) s = .next (closeSweep s x.core))

/-- R252, R255, R260, R264, R274: the engine's own steps. A transfer from a scratchpad or local memory, once what comes before
it has been performed, loads its image, or fails with the detail and address of its fault, 0x100 for an invalid image, the address then the image's own, which is the
model's choice (log entry 27); a fill
ends once its cycle has come; a due rollback whose commands are quiet puts the window's rows and the matrix state back and
leaves the owner at its MSWEEP, where the trap that caused it follows. -/
def Obligations.MatrixSteps : Prop :=
  (∀ (s : State), let c := s.ev.core
    let h := (s.core c).me.half s.ev.num
    h.st = .loading → forked s h.task h.fork = true → (s.core c).drain = none → ¬(h.src.extractLsb' 61 3 = 0 ∧ isRemote h.src = true) →
    (∀ s1 d a, tileRead s c h.src 64 = (s1, .error (d, a)) →
      exec .mwldComplete s = .next (s1.modMe c fun m => m.setHalf s.ev.num (h.fail d a))) ∧
    (∀ s1 hdr, tileRead s c h.src 64 = (s1, .ok hdr) → tileHeader hdr = none →
      exec .mwldComplete s = .next (s1.modMe c fun m => m.setHalf s.ev.num (h.fail 0x100 h.src))) ∧
    (∀ s1 hdr f sp ns sb s2 bs, tileRead s c h.src 64 = (s1, .ok hdr) → tileHeader hdr = some (f, sp, ns, sb) →
      tileRead s1 c h.src (64 + ns * sb) = (s2, .ok bs) →
      exec .mwldComplete s = .next (s2.modMe c fun m => m.setHalf s.ev.num (h.load hdr (bs.drop 64))))) ∧
  (∀ (s : State) (h seg : Nat) (due : W64), (s.core s.ev.core).me.filling = some (h, seg, due) →
    due.toNat ≤ (s.acyc[dieOf s.ev.core]).toNat →
    exec .arrayFill s = .next (s.modMe s.ev.core fun m => { m with filled := some (h, seg), filling := none })) ∧
  (∀ (s : State) (w : Sweep) (c : Cause) (m : BitVec 8) (async : Bool), (s.core s.ev.core).me.sweep = some w →
    fetchQuiet s s.ev.core = true →
    (w.roll = some none → exec .sweepRollback s = .next (rollBack s s.ev.core w)) ∧
    (w.roll = some (some (c, m, async)) →
      exec .sweepRollback s = .next (trapEntry (rollBack s s.ev.core w) w.owner c m async true w.pc))) ∧
  (∀ (s : State) (c : Nat) (w : Sweep), let s0 := dropFetch s c
    let s' := rollBack s c w
    let m := (s'.core c).me
    m.sel = w.sel ∧ m.selv = w.selv ∧ m.gw = w.gw ∧ m.afmt = w.afmt ∧ m.slots = w.slots ∧ m.inv = false ∧ m.outv = false ∧
    m.sweep = none ∧ m.replays = (s0.core c).me.replays + 1 ∧
    (s'.core c).pool = wrBytes (s0.core c).pool (place (acBase (s0.core c).part + 512 * w.wbase) w.rows) ∧
    (∀ x, s0.ctx? w.owner = some x → ∃ y, s'.ctx? w.owner = some y ∧ y.pc = w.pc ∧ y.fr.nest.act = [] ∧ y.k = x.k))
/-! ### The copy engines -/

/-- R281, R290: CNEST, CSTRIDE and CBASE write the command registers of the engine their slot drives, and WT and CLAIM with
them; they are held while another task has a claim on them. An extent above 2^32 − 1 raises OPERAND. CWAIT is held while the
engine holds a command of the task; then it ends the task's claim and drops the clean lines of the core's cache. With a false
guard each does nothing. -/
def Obligations.CopyRegisters : Prop :=
  ∀ (s : State) (t : Nat) (x : Context) (g : Guard) (a b : SSel) (l : Lvl) (slot : BitVec 4), s.issuer = .ok (t, x) →
    let u := sVal s x true a
    let v := sVal s x true b
    let held := s.modLatch fun k => { k with held := true }
    (gTrue g x = false →
      (readable s x false [.s a] 0 = true → exec (.cnest g a l) s = .next s) ∧
      (readable s x false [.s a, .s b] 0 = true → exec (.cstride g a b l) s = .next s ∧ exec (.cbase g a b slot) s = .next s) ∧
      exec (.cwait g) s = .next s) ∧
    (gTrue g x = true → claimed s x.core (ceOf s) t = true →
      (readable s x true [.s a] 0 = true → exec (.cnest g a l) s = .next held) ∧
      (readable s x true [.s a, .s b] 0 = true → exec (.cstride g a b l) s = .next held ∧ exec (.cbase g a b slot) s = .next held)) ∧
    (gTrue g x = true → claimed s x.core (ceOf s) t = false →
      (readable s x true [.s a] 0 = true →
        (u.toNat < 2 ^ 32 → exec (.cnest g a l) s = .next (modCe (popOps s x true [.s a]) x.core (ceOf s) fun r =>
          { r with ext := r.ext.setIfInBounds (lvlNat l) u.toNat, wt := some t, claim := true })) ∧
        (2 ^ 32 ≤ u.toNat → exec (.cnest g a l) s = .next (raise s { code := cOperand, sub := 1, info := u }))) ∧
      (readable s x true [.s a, .s b] 0 = true →
        exec (.cstride g a b l) s = .next (modCe (popOps s x true [.s a, .s b]) x.core (ceOf s) fun r =>
          { r with sstr := r.sstr.setIfInBounds (lvlNat l) u, dstr := r.dstr.setIfInBounds (lvlNat l) v,
                   wt := some t, claim := true }) ∧
        exec (.cbase g a b slot) s = .next (modCe (popOps s x true [.s a, .s b]) x.core (ceOf s) fun r =>
          { r with src := u, dst := v, slot := slot.toNat, wt := some t, claim := true }))) ∧
    (gTrue g x = true →
      ((∀ q ∈ cmds s x.core (ceOf s), q.task ≠ t) →
        exec (.cwait g) s = .next (dropClean (unclaim s x.core (ceOf s) t) x.core)) ∧
      (∀ q ∈ cmds s x.core (ceOf s), q.task = t → exec (.cwait g) s = .next held))

/-- CCOPY and CACC join their engine. -/
def CopyJoins : Prop :=
  ∀ (s : State) (t : Nat) (x : Context) (g : Guard) (a b : SSel) (tb : Bool) (acc : Option AccOp), s.issuer = .ok (t, x) →
    let i := match acc with
      | none => Instr.ccopy g a b tb
      | some o => Instr.cacc g a b tb o
    let op := match acc with
      | none => 4
      | some _ => 5
    let e := ceOf s
    let s0 := popOps s x true [.s a, .s b]
    let r := ceRegs s0 x.core e
    let av := sVal s x true a
    let bv := sVal s x true b
    let ck := bv.toNat / 16 % 4
    (gTrue g x = false → readable s x false [.s a, .s b] 0 = true → exec i s = .next s) ∧
    (gTrue g x = true → readable s x true [.s a, .s b] 0 = true → claimed s0 x.core e t = false → roomFor s0 x.core e t = true →
      (r.wt ≠ some t → exec i s = .next (raise s { code := cOperand, sub := op })) ∧
      (r.wt = some t → badCtl bv acc.isSome r.dst = true → exec i s = .next (raise s { code := cOperand, sub := op, info := bv })) ∧
      (∀ obj tick, r.wt = some t → badCtl bv acc.isSome r.dst = false → (acc.isSome = true → r.dst.extractLsb' 61 3 ≠ 0b110) →
        ((ck = 0 ∨ ck = 2) → av = 0 ∧ obj = none) → (ck = 1 → ∃ o, objAt s0 x op av 16 16 = .ok o ∧ obj = some o) →
        (ck = 3 → ∃ o, objAt s0 x op av 1 1 = .ok o ∧ obj = some o) → ticketIdx s0 x t op tb r.dst = .ok tick →
        ∃ s' q, exec i s = .next s' ∧ cmds s' x.core e = cmds s0 x.core e ++ [q] ∧ (ceRegs s' x.core e).claim = false ∧
          q.task = t ∧ q.launch = x.launch ∧ q.obj = obj ∧ q.ck = ck ∧ q.slot = r.slot ∧ q.src = r.src ∧ q.dst = r.dst ∧
          q.ext = r.ext ∧ q.sstr = r.sstr ∧ q.dstr = r.dstr ∧ q.split = bv.toNat / 64 % 8 ∧ q.perm = bv.getLsbD 9 ∧
          q.list = bv.toNat / 2 ^ 32 % 2 ^ 22 ∧ q.tick = tick ∧ q.gran = 0 ∧ q.elem = 0 ∧ q.issued = false ∧ q.stop = false ∧
          q.kind = (match acc with
            | none => .copy (bv.toNat % 8)
            | some o => .acc o) ∧
          s'.mem = s.mem))

/-- CACCR and CCAS join their engine. -/
def ReturningJoins : Prop :=
  ∀ (s : State) (t : Nat) (x : Context) (g : Guard) (a b : SSel) (tb : Bool), s.issuer = .ok (t, x) →
    let e := ceOf s
    let d := sVal s x true a
    let v := sVal s x true b
    let rem := d.extractLsb' 61 3 = 0 ∧ isRemote d = true
    let zero := pushS s t 40 0
    let goes := fun (i : Instr) (op : Nat) (s0 : State) (kind : Nat → CmdKind) =>
      ∀ tick, roomFor s0 x.core e t = true → d.extractLsb' 61 3 ≠ 0b110 → ticketIdx s0 x t op tb d = .ok tick →
        (¬rem → exec i s = .next (pushQ (modCmds (countTick s0 t tick).tick x.core e fun l => l ++
          [{ id := s0.fresh, task := t, launch := x.launch, kind := kind (nextId s0 t), tick := tick,
             sweep := inSweep s0 x.core t, fork := forkOf s0 t x }]) t .s 40 none)) ∧
        (∀ s1 q, rem → (ceRegs s0 x.core e).wt = some t →
          takeRet s0 { id := s0.fresh, task := t, launch := x.launch, kind := kind (nextId s0 t), tick := tick,
                       slot := (ceRegs s0 x.core e).slot, sweep := inSweep s0 x.core t, fork := forkOf s0 t x } d = .ok (s1, q) →
          exec i s = .next (pushQ (modCmds (countTick (if tick.isSome then ftgUse s1 x.launch else s1) t tick).tick x.core e
            fun l => l ++ [q]) t .s 40 none)) ∧
        (rem → (ceRegs s0 x.core e).claim = false → (ceRegs s0 x.core e).wt ≠ some t →
          exec i s = .next (raise s { code := cOperand, sub := op }))
    (gTrue g x = false →
      (∀ op, readable s x false [.s a, .s b] 1 = true → exec (.caccr g a b tb op) s = .next zero) ∧
      (∀ sz m, readable s x false [.s a, .s b, .s (.q m)] 1 = true → exec (.ccas g a b tb sz m) s = .next zero)) ∧
    (gTrue g x = true →
      (∀ op, readable s x true [.s a, .s b] 1 = true →
        goes (.caccr g a b tb op) 6 (popOps s x true [.s a, .s b]) fun p => .accr op d v p) ∧
      (∀ sz m, readable s x true [.s a, .s b, .s (.q m)] 1 = true →
        goes (.ccas g a b tb sz m) 7 (popOps s x true [.s a, .s b]) fun p => .cas (if sz then 4 else 8) d (x.qsAt m) v p))

/-- R281, R282, R295, R299, R301, R324: CCOPY and CACC whose registers the task wrote last, whose control word is legal and
for which the engine has room join it behind its other commands, with the registers as they stand, their completion object
and, where they are ticketed, their issue index, and the claim on the registers ends; where another task wrote the registers
last, or the control word is illegal, they raise OPERAND. CACCR and CCAS for which the engine has room join it likewise with
their operands, and push an entry at latency 40 that has no value yet; one whose destination is remote takes the next number
of its stream, and raises OPERAND where another task wrote the registers last. With a false guard the first two do nothing and
the others push a zero. -/
def Obligations.CopyCommands : Prop := CopyJoins ∧ ReturningJoins

/-- R102, R103, R145, R286 to R289: CSYNC writes TARGET and zeroes COUNT, and GEN under RGEN, in the cycle of its bundle, and
raises OPERAND where B has an upper half; CSWAIT is held until GEN, as it stood before the cycle, has reached B, and then drops
the clean lines of the core's cache; CFESET makes lines full or empty, raises OPERAND for a number of lines that is 0 or above
32,768 and MEMORY 4 where they reach past the scratchpad. Each is held while a PHASE drains the core of its object. An arrival takes every whole TARGET out of COUNT into GEN. With a
false guard the three do nothing. -/
def Obligations.SyncObjects : Prop :=
  (∀ (s : State) (t : Nat) (x : Context) (g : Guard) (a b : SSel), s.issuer = .ok (t, x) →
    readable s x (gTrue g x) [.s a, .s b] 0 = true →
    let av := sVal s x true a
    let v := sVal s x true b
    let s0 := popOps s x true [.s a, .s b]
    let hold := s.modLatch fun l => { l with held := true }
    (∀ o, gTrue g x = true → v.toNat < 2 ^ 32 → drainHeld s x t o.1 = true →
      (objAt s x 8 av 16 16 = .ok o → ∀ rgen, exec (.csync g a b rgen) s = .next hold) ∧
      (objAt s x 9 av 16 16 = .ok o → exec (.cswait g a b) s = .next hold)) ∧
    (gTrue g x = false → (∀ rgen, exec (.csync g a b rgen) s = .next s) ∧ exec (.cswait g a b) s = .next s ∧
      ∀ ft, exec (.cfeset g a b ft) s = .next s) ∧
    (∀ o rgen, gTrue g x = true → v.toNat < 2 ^ 32 → objAt s x 8 av 16 16 = .ok o → drainHeld s x t o.1 = false →
      exec (.csync g a b rgen) s = .next (deferEng s0 x.core (.pool o.1 (place (spBase (s0.core o.1).part + o.2)
        (leBytes v.toNat 4 ++ [0, 0, 0, 0] ++ (if rgen then [0, 0, 0, 0] else []))) none))) ∧
    (gTrue g x = true → 2 ^ 32 ≤ v.toNat →
      (∀ rgen, exec (.csync g a b rgen) s = .next (raise s { code := cOperand, sub := 8, info := v })) ∧
      exec (.cswait g a b) s = .next (raise s { code := cOperand, sub := 9, info := v })) ∧
    (∀ o, gTrue g x = true → v.toNat < 2 ^ 32 → objAt s x 9 av 16 16 = .ok o → drainHeld s x t o.1 = false →
      spBad s o.1 o.2 12 = false →
      exec (.cswait g a b) s = .next
        (if 0 ≤ Arith.sx (((syncWord s o).2.2 + 2 ^ 32 - v.toNat) % 2 ^ 32) 32 then dropClean s0 x.core else hold)) ∧
    (∀ o ft, gTrue g x = true → 0 < v.toNat → v.toNat ≤ 32768 → objAt s x 10 av 1 1 = .ok o →
      exec (.cfeset g a b ft) s = .next
        (if 128 * (o.2 / 128 + v.toNat) ≤ spExt (s.core o.1).part
         then (if drainHeld s x t o.1 then hold else deferEng s0 x.core (.pool o.1 [] (some (ft, List.range' (o.2 / 128) v.toNat))))
         else raise s { code := cMemory, sub := 4, addr := av })) ∧
    (∀ ft, gTrue g x = true → (v.toNat = 0 ∨ 32768 < v.toNat) →
      exec (.cfeset g a b ft) s = .next (raise s { code := cOperand, sub := 10, info := v }))) ∧
  (∀ target count gen n : Nat, 0 < target → count + n < 2 ^ 32 →
    let r := syncStep target count gen n
    r.1 < target ∧ (count + n = r.1 + target * ((count + n) / target)) ∧ r.2 = (gen + (count + n) / target) % 2 ^ 32) ∧
  (∀ count gen n : Nat, syncStep 0 count gen n = ((count + n) % 2 ^ 32, gen))

/-- R306, R308, R309: the instructions of the stage rings. -/
def RingInstructions : Prop :=
  (∀ (s : State) (t : Nat) (x : Context) (g : Guard) (a b : SSel) (r : BitVec 3), s.issuer = .ok (t, x) →
    readable s x (gTrue g x) [.s a, .s b] 0 = true →
    let av := sVal s x true a
    let bv := sVal s x true b
    let k := (s.core x.core).rings[r.toFin]
    let s0 := popOps s x true [.s a, .s b]
    (gTrue g x = false → exec (.cring g a b r) s = .next s ∧ ∀ dir, exec (.crsub g a b dir r) s = .next s) ∧
    (gTrue g x = true → av = 0 → bv = 0 → k.owner = some t → k.sub = none →
      exec (.cring g a b r) s = .next (modRing s0 x.core r fun _ => {})) ∧
    (let sl := av.toNat / 2 ^ 32 % 2048
     let base := av.toNat % 2 ^ 22
     let dmax := bv.toNat / 256 % 128
     let dmin := bv.toNat % 128
     gTrue g x = true → (k.owner = none ∨ k.owner = some t) → k.sub = none → av.toNat < 2 ^ 43 → av.toNat / 2 ^ 22 % 1024 = 0 →
      0 < sl → bv.toNat < 2 ^ 15 → bv.toNat / 128 % 2 = 0 → 0 < dmax → dmax ≤ 64 → 0 < dmin → dmin ≤ dmax →
      (base % 128 = 0 → base + dmax * sl * 128 ≤ spExt (s.core x.core).part →
        exec (.cring g a b r) s = .next (if drainHeld s x t x.core then s.modLatch fun l => { l with held := true } else modRing (deferEng s0 x.core (.pool x.core [] (some (false, List.range' (base / 128) (dmax * sl)))))
          x.core r fun _ => { owner := some t, slotl := sl, base := base, dmax := dmax, dmin := dmin, depth := dmin })) ∧
      (base % 128 ≠ 0 → exec (.cring g a b r) s = .next (raise s { code := cMemory, sub := 2, addr := av })) ∧
      (base % 128 = 0 → spExt (s.core x.core).part < base + dmax * sl * 128 →
        exec (.cring g a b r) s = .next (raise s { code := cMemory, sub := 4, addr := av }))) ∧
    (∀ dir, gTrue g x = true → k.owner = some t → k.sub = none →
      let tag := av.toNat / 2 ^ 61
      let other := tag = 4 ∨ tag = 5 ∨ tag = 6 ∨ (tag = 0 ∧ isRemote av = true)
      let tiles := 0 < bv.toNat % 2 ^ 32 ∧ bv.toNat / 2 ^ 32 % 128 = 0
      (other → exec (.crsub g a b dir r) s = .next (raise s { code := cOperand, sub := 0xC, info := av })) ∧
      (¬other → ¬tiles → exec (.crsub g a b dir r) s = .next (raise s { code := cOperand, sub := 0xC, info := bv })) ∧
      (¬other → tiles → badTag av = true → exec (.crsub g a b dir r) s = .next (raise s { code := cMemory, sub := 1, addr := av })) ∧
      (¬other → tiles → badTag av = false →
        let sub : RingSub := { dir := dir, base := av, ntile := bv.toNat % 2 ^ 32, stride := BitVec.ofNat 64 (bv.toNat / 2 ^ 32),
                               fork := forkOf s t x }
        exec (.crsub g a b dir r) s = .next (modRing s0 x.core r fun q =>
          { q with fins := 0, sub := some sub, tiles := 0, cycles := 0 })))) ∧
  (∀ (s : State) (t : Nat) (x : Context) (g : Guard) (r : BitVec 3), s.issuer = .ok (t, x) →
    let k := (s.core x.core).rings[r.toFin]
    let hold := s.modLatch fun l => { l with held := true }
    let fin := modRing s x.core r fun q => { q with fin := (q.fin + 1) % 2 ^ 32, fins := q.fins + 1 }
    (gTrue g x = false → exec (.crunsub g r) s = .next s ∧ exec (.crfin g r) s = .next s) ∧
    (∀ sub, gTrue g x = true → k.owner = some t → k.sub = some sub →
      exec (.crunsub g r) s = .next (if sub.dir = .out ∧ sub.next < min k.fin sub.ntile then hold
        else dropClean (modRing s x.core r fun q => { q with sub := none }) x.core)) ∧
    (gTrue g x = true → k.owner = some t → k.sub = none → exec (.crfin g r) s = .next fin) ∧
    (∀ sub, gTrue g x = true → k.owner = some t → k.sub = some sub → k.fin < sub.ntile →
      exec (.crfin g r) s = .next (if (sub.dir = .in_ ∧ k.done = k.fin) ∨ drainHeld s x t x.core = true then hold
        else deferEng fin x.core (.pool x.core [] (some (sub.dir == .out, ringLines k k.fin))))))
/-- R307, R310: a tile that is due is moved; the end of a window. -/
def RingSteps : Prop :=
  (∀ (s : State) (sub : RingSub), let c := s.ev.core
    let g := (s.core c).rings.getD s.ev.num {}
    let n := g.slotl * 128
    let off := g.base + sub.next % max g.dmax 1 * n
    let va := sub.base + BitVec.ofNat 64 sub.next * sub.stride
    let done := fun (s1 : State) (v : Bool) (bs : List Byte) =>
      modRing (poolWrite s1.tick c rkSpout (place (spBase (s1.tick.core c).part + off) bs) (some (v, ringLines g sub.next))) c
        (BitVec.ofNat 3 s.ev.num) fun _ =>
          { g with done := sub.next + 1, tiles := g.tiles + 1, cycles := g.cycles + Config.tileCycles s.fresh,
                   sub := some { sub with next := sub.next + 1 } }
    s.ev.num < 8 → g.sub = some sub → (s.core c).drain = none → sub.next < sub.ntile → forked s (g.owner.getD 0) sub.fork = true →
    (∀ s1 bs, sub.dir = .in_ → sub.next < g.fin + g.depth → engRead s c va n = (s1, .ok bs) →
      exec .spoutTileTransfer s = .next (done s1 true bs)) ∧
    (∀ s1 s2 s3 bs d, sub.dir = .out → sub.next < g.fin →
      readSide s c rkSpout { parts := [(.pool c (spBase (s.core c).part + off), n)] } = (s1, .ok bs) →
      resolveMem s1 c va n .wr = (s2, .ok d) → writeSide s2 c rkSpout d bs = (s3, none) →
      exec .spoutTileTransfer s = .next (done s3 false []))) ∧
  (∀ (s : State), let c := s.ev.core
    let r := BitVec.ofNat 3 s.ev.num
    (s.acyc[dieOf c]).toNat % 4096 = 0 →
    ∃ s', exec .spoutDepthUpdate s = .next s' ∧
      let g := (s.core c).rings[r.toFin]
      let h := (s'.core c).rings[r.toFin]
      h.fins = 0 ∧ h.owner = g.owner ∧ h.sub = g.sub ∧ h.fin = g.fin ∧
      ((g.fins = 0 ∨ ∀ sub, g.sub = some sub → sub.dir ≠ .in_) → h.depth = g.depth) ∧
      (∀ sub, g.sub = some sub → sub.dir = .in_ → g.fins ≠ 0 → g.tiles ≠ 0 →
        h.depth = min (max ((g.cycles * g.fins + g.tiles * 4096 - 1) / (g.tiles * 4096) + 1) g.dmin) g.dmax)) ∧
  (∀ (g : StageRing), (∀ sub, g.sub = some sub → sub.dir ≠ .in_) → ringDepth g = g.dmax)

/-- R145, R306 to R310: CRING claims a ring that is released or the task's own and empties its slots' lines, or releases it, and
raises MEMORY 2 or 4 for a slot area misplaced; CRSUB subscribes it to the Spout, raises OPERAND for an address outside local
memory and for its tiles, and after that MEMORY 1 for an illegal address;
CRUNSUB ends the subscription once the finished slots of an OUT ring are written back; CRFIN finishes a slot, held while IN has
not filled it; CRING and CRFIN are held by a PHASE drain. A tile transfer that is due fills or drains the next slot and sets its lines full or empty; the end of a window
in which slots were finished computes DEPTH from the tiles the window completed (log entry 17 says what stands for a tile's
cycles, log entry 40 where windows begin), within DMIN and DMAX, and other rings read DMAX. With a false guard the instructions do nothing. -/
def Obligations.StageRings : Prop := RingInstructions ∧ RingSteps

/-- R283 to R286, R291, R294, R296, R299: the steps of a copy engine. A granule whose turn has come, and whose issuer has
performed what comes before it, is checked once no PHASE drains what it reads beside its elements, and where no check fails it runs its elements in order; one whose first failing
check gives a subcode stops with that. An element of a local copy writes the bytes read at its source to its destination and
counts them at its sync object; CACCR and CCAS apply their operation to a local destination and land the old value; a command
of which nothing is outstanding leaves its engine; before that, what it still has at commit buffers is applied as its turn comes. -/
def Obligations.CopySteps : Prop :=
  (∀ (s : State) (q : Cmd), let c := s.ev.core
    let e := s.ev.flag
    (cmds s c e)[s.ev.num]? = some q → turnOf s c e s.ev.num = some q → (∀ n, q.kind ≠ .coll n) → q.isPage = false →
    forked s q.task q.fork = true → boundary s c e q = none →
    (q.busy = true → exec .copyGranule s = .next (performAll c e q.left s q)) ∧
    (∀ k p, q.busy = false → checkGranule s c q = (k, p) →
      (∀ s1 p', ctlDraining s c q = false → k.err = none → k.hold = false → reserve k.st p k = some (s1, p') →
        let r := { p' with busy := true, plan := k.plan }
        exec .copyGranule s = .next (performAll c e p'.left (setCmd s1 c e r) r)) ∧
      (ctlDraining s c q = true → exec .copyGranule s = .next s) ∧
      (∀ sub a src, ctlDraining s c q = false → k.err = some (sub, a, src) →
        exec .copyGranule s = .next (logOut (copyFault k.st c e p sub a src) c a k.out)))) ∧
  (∀ (s : State) (c : Nat) (e : Bool) (q : Cmd) (s1 s2 : State) (sp dp : List (Spot × Nat)) (bs : List Byte) (sz : Nat),
    q.kind = .copy sz → q.total ≠ 0 → q.tick = none → arriveBad s q = none → q.plan.headD ([], []) = (sp, dp) →
    let ss : Side := { parts := sp }
    let ds : Side := { parts := dp }
    ss.far? = none → ds.far? = none → meets (ss.span s) (q.dueSpan s) = false →
    readSide s c (rkCe e) ss = (s1, .ok bs) → writeSide s1 c (rkCe e) ds bs = (s2, none) →
    elemStep s c e q = .done (arrive s2 q (2 ^ sz)) q.next) ∧
  (∀ (s : State) (c : Nat) (e : Bool) (q : Cmd) (s1 : State) (dp : List (Spot × Nat)) (sp : List (Spot × Nat)) (old : Nat),
    q.tick = none → arriveBad s q = none → q.plan.headD ([], []) = (sp, dp) → ({ parts := dp } : Side).far? = none →
    rmwSide s c (rkCe e) q.esize { parts := dp } q.retVal = (s1, .ok old) →
    (∀ op a v p, q.kind = .accr op a v p → elemStep s c e q = .done (landVal s1 q.task p (.s (BitVec.ofNat 64 old))) q.next) ∧
    (∀ n a v w p, q.kind = .cas n a v w p → elemStep s c e q = .done (landVal s1 q.task p (.s (BitVec.ofNat 64 old))) q.next)) ∧
  (∀ (s : State) (q : Cmd), let c := s.ev.core
    let e := s.ev.flag
    (cmds s c e)[s.ev.num]? = some q →
    exec .commandComplete s = .next (if cmdQuiet s q then closeDying (completeCmd s c e q) else applyHeld s q)) ∧
  (∀ (s : State) (c : Nat) (e : Bool) (q : Cmd), ∀ r ∈ cmds (completeCmd s c e q) c e, r.id ≠ q.id)
/-! ### The fabric -/

/-- The instruction of a collective kind. -/
def collInstr (k : CollKind) (g : Guard) (a : SSel) : Instr :=
  match k with
  | .red => .clred g a
  | .bc => .clbc g a
  | .a2a => .cla2a g a
  | .vir | .samp => .clvir g a
  | .disp => .clrowDisp g a
  | .comb => .clrowComb g a

/-- R172, R334: PUT; R323: STREAM and SCLOSE. -/
def PutsAndStreams : Prop :=
  ∀ (s : State) (t : Nat) (x : Context) (g : Guard), s.issuer = .ok (t, x) →
    let hold := s.modLatch fun l => { l with held := true }
    (∀ (a : SSel) (d : KDst), readable s x (gTrue g x) [.s a, .d d] 0 = true →
      let v := sVal s x true a
      let s0 := popOps s x true [.s a]
      let f := (s.core x.core).tx
      (gTrue g x = false → exec (.put g a d) s = .next s) ∧
      (∀ r, gTrue g x = true → d = .k r → exec (.put g a d) s = .next (wrK s0 t r.toNat v)) ∧
      (∀ j, gTrue g x = true → d = .kx j → exec (.put g a d) s = .next (wrK s0 t (x.fr.xs.toInt + j.toNat).toNat v)) ∧
      (gTrue g x = true → d = .fout → txWords f < 64 → (f.owner = none ∨ f.owner = some t) →
        exec (.put g a d) s = .next (fifoPush s0 x.core t v)) ∧
      (gTrue g x = true → d = .fout → (64 ≤ txWords f ∨ ∃ u, u ≠ t ∧ f.owner = some u) → exec (.put g a d) s = .next hold)) ∧
    (∀ (a : SSel) (q : BitVec 4), readable s x (gTrue g x) [.s a] 0 = true →
      let v := sVal s x true a
      (gTrue g x = false → exec (.stream g a q) s = .next s) ∧
      (∀ n, gTrue g x = true → v.toNat ≤ 1023 → v.toNat ≤ s.fab.domHi → reaches s v.toNat = true →
        x.strm.getD q.toNat none = none → freeNum s = some n →
        n < 65536 ∧ look s.fab.strms n = none ∧
        ∃ s', exec (.stream g a q) s = .next s' ∧
          look s'.fab.strms n = some { task := t, slot := q.toNat, ep := v.toNat, core := x.core } ∧
          (∀ m, m ≠ n → look s'.fab.strms m = look s.fab.strms m) ∧ s'.fab.out = s.fab.out ∧
          (∀ y, s.ctx? t = some y → ∃ z, s'.ctx? t = some z ∧ z.strm = y.strm.setIfInBounds q.toNat (some n) ∧ z.k = y.k)) ∧
      (gTrue g x = true → (1023 < v.toNat ∨ s.fab.domHi < v.toNat ∨ reaches s v.toNat = false) →
        exec (.stream g a q) s = .next (raise s { code := cOperand, sub := 0x18, info := v })) ∧
      (gTrue g x = true → v.toNat ≤ 1023 → v.toNat ≤ s.fab.domHi → reaches s v.toNat = true →
        (x.strm.getD q.toNat none).isSome = true →
        exec (.stream g a q) s = .next (raise s { code := cOperand, sub := 0x18, info := q.setWidth 64 })) ∧
      (gTrue g x = true → v.toNat ≤ 1023 → v.toNat ≤ s.fab.domHi → reaches s v.toNat = true →
        x.strm.getD q.toNat none = none → freeNum s = none → exec (.stream g a q) s = .next hold)) ∧
    (∀ (fill : Bool) (q : BitVec 4),
      ((gTrue g x = false ∨ strmOf s x q.toNat = none) → exec (.sclose g fill q) s = .next s) ∧
      (∀ n r, gTrue g x = true → strmOf s x q.toNat = some (n, r) →
        let used := r.unacked.length + (((s.latch.map (·.far)).getD []).filter fun k => k == q.toNat).length
        (fill = true ∨ r.failed = true ∨ used < 4096 →
          exec (.sclose g fill q) s = .next (if fill = true ∧ r.failed = false then closeStream s n r true
            else (closeStream s n r fill).modCtx t fun y => { y with strm := y.strm.setIfInBounds q.toNat none })) ∧
        (fill = false → r.failed = false → 4096 ≤ used → exec (.sclose g fill q) s = .next hold))) ∧
    -- what SCLOSE without fill sends: CLOSE, with the holes, under a number of its own
    (∀ n r, r.failed = false → ∃ s', closeStream s n r false = s' ∧
      look s'.fab.strms n = some { r with closing := true, holes := [], next := (r.next + 1) % 2 ^ 32, unacked := r.unacked ++ [r.next] } ∧
      ∃ o, s'.fab.out = s.fab.out ++ [o] ∧ o.dst = r.ep ∧
        o.msg = .strm { src := s.fab.ep, strm := n, seq := r.next, tick := none, body := .close r.holes })
/-- R336, R337, R340, R345: the collective instructions, CLWAIT and FBSTAT. -/
def CollectivesAndStatus : Prop :=
  ∀ (s : State) (t : Nat) (x : Context) (g : Guard), s.issuer = .ok (t, x) →
    let hold := s.modLatch fun l => { l with held := true }
    (∀ (k : CollKind) (a : SSel), k ≠ .samp → readable s x (gTrue g x) [.s a] 0 = true →
      (gTrue g x = false → exec (collInstr k g a) s = .next s) ∧
      (let o := sVal s x true a
       let b := spRead s x.core o.toNat 64
       let sy := BitVec.ofNat 64 (fld b 0x20 8)
       gTrue g x = true → roomFor s x.core (ceOf s) t = true → o.toNat % 64 = 0 → o.toNat + 64 ≤ spExt (s.core x.core).part →
        drainHeld s x t x.core = false → spBad s x.core o.toNat 64 = false →
        collOk s k b = true → (sy = 0 ∨ (badTag sy = false ∧ tagOff sy % 16 = 0 ∧ tagOff sy + 16 ≤ spExt (s.core x.core).part)) →
        collBusy s (fld b 0 2) = false →
        let s0 := popOps s x true [.s a]
        exec (collInstr k g a) s = .next (collIssue
          (modCmds s0.tick x.core (ceOf s) fun l => l ++
            [{ id := s.fresh, task := t, launch := x.launch, kind := .coll (fld b 0 2), sweep := inSweep s0 x.core t }])
          { key := { kind := k, cid := fld b 0 2, fields := collFields b }, inst := 0, task := t, launch := x.launch, core := x.core,
            cmd := some (ceOf s, s.fresh), src := BitVec.ofNat 64 (fld b 0x10 8), dst := BitVec.ofNat 64 (fld b 0x18 8),
            fork := forkOf s0 t x, sync := if sy = 0 then none else some (tagOff sy) }))) ∧
    (∀ a : SSel, readable s x (gTrue g x) [.s a] 1 = true →
      let v := sVal s x true a
      (gTrue g x = false → exec (.clwait g a) s = .next (pushS s t 2 0) ∧ ∀ w, exec (.fbstat g a w) s = .next (pushS s t 2 0)) ∧
      (gTrue g x = true → v.extractLsb' 16 48 = 0 → (collOf s v.toNat).filter (fun c => c.task == t) = none →
        exec (.clwait g a) s = .next (pushS (popOps s x true [.s a]) t 2 0x80)) ∧
      (∀ c, gTrue g x = true → v.extractLsb' 16 48 = 0 → collOf s v.toNat = some c → c.task = t → c.fin = false →
        exec (.clwait g a) s = .next hold) ∧
      (∀ c, gTrue g x = true → v.extractLsb' 16 48 = 0 → collOf s v.toNat = some c → c.task = t → c.fin = true →
        ∃ s', exec (.clwait g a) s = .next (pushS s' t 2 (collStatus c)) ∧ c ∉ s'.fab.colls ∧
          (∀ d ∈ s.fab.colls, d ≠ c → d ∈ s'.fab.colls) ∧ s'.ctxs = s.ctxs) ∧
      (gTrue g x = true → v.extractLsb' 10 54 = 0 →
        exec (.fbstat g a false) s = .next (pushS (popOps s x true [.s a]) t 2 (peerWord s v.toNat))) ∧
      (gTrue g x = true → v.extractLsb' 4 60 = 0 →
        exec (.fbstat g a true) s = .next (pushS (popOps s x true [.s a]) t 2 (slotWord s x v.toNat))))

/-- R172, R323, R334, R336, R337, R340, R345: PUT writes a register, or pushes a word to fout, held while that is full or
another task's message is in it; STREAM binds a free number to an endpoint in reach, raises OPERAND for one that is not and
for a slot that holds a stream, and is held while no number is free; SCLOSE closes what its slot holds, and CLOSE, which takes a number of the stream, is held while 4,096 are unacknowledged; a collective
instruction whose descriptor is within its limits joins its engine as a command and becomes an instance; CLWAIT is held until
the instance of the task is finished, takes it away and pushes its status word, and pushes 0x80 where there is none; FBSTAT
pushes the state of an endpoint or of a stream slot. With a false guard each does nothing, or pushes zero. -/
def Obligations.FabricInstructions : Prop := PutsAndStreams ∧ CollectivesAndStatus

/-- R313, R315, R316: what leaves. -/
def FlitsSealed : Prop :=
  (∀ (s : State) (m : OutMsg) (st : Nat), s.fab.out[s.ev.num]? = some m → m.dst ≠ s.fab.ep → sealable s m = true →
    nextStation s.fab (halfOf m) = some st →
    let d := (look s.fab.sends m.dst).getD {}
    let n := msgFlits m.msg
    let m' := { m with tries := m.tries + 1, at_ := s.acyc[(0 : Fin 2)], half := halfOf m, accepted := false }
    d.ctr + n < rekeyAt →
    exec .flitSeal s = .next { s with fab := { s.fab with
      out := s.fab.out.eraseIdx s.ev.num, sent := s.fab.sent ++ (if msgAcked m.msg then [m'] else []), rr := st,
      wire := s.fab.wire ++ (List.range n).map fun i => (st, m.dst, makeFlit s d m' n i),
      sends := put s.fab.sends m.dst { d with ctr := d.ctr + n } } } ∧ s.fab.up.getLsbD st = true ∧ st / 16 = (halfOf m).toNat) ∧
  (∀ (s : State) (d : SendDir) (m : OutMsg) (cnt i : Nat), d.ctr + i < 2 ^ 64 →
    let f := makeFlit s d m cnt i
    flitDst f = m.dst % 1024 ∧ flitSrc f = s.fab.ep % 1024 ∧ flitEpoch f = d.epoch ∧ flitCtr f = d.ctr + i)
/-- R317, R331: what arrives. -/
def FlitsReceived : Prop :=
  ∀ (s : State) (f : Flit), s.ev.body = .flit f →
    let d := (look s.fab.recvs (flitSrc f)).getD {}
    let k := f.half.toNat * 1024 + flitSrc f
    (∀ key, d.key = some key → flitEpoch f = d.epoch → flitTagOk f key = true → flitSays f key = true →
      flitCtr f ∉ d.seen → (d.seen.length < 4096 ∨ d.seen.headD 0 < flitCtr f) →
      let r := ({ d with seen := noteCtr d.seen (flitCtr f) } : RecvDir).note f
      let s1 : State := { s with fab := { s.fab with
        recvs := put s.fab.recvs (flitSrc f) r.1, lendU := put s.fab.lendU k ((look s.fab.lendU k).getD 0 + 256) } }
      exec .flitReceive s = .next (if r.2 then deliver s1 (flitSrc f) f.id f.msg else s1)) ∧
    (look s.fab.recvs (flitSrc f) = some d → d.prev ≠ some (flitEpoch f) →
      (flitEpoch f = d.epoch → ∀ key, d.key = some key → flitTagOk f key = true → flitSays f key = true →
        flitCtr f ∈ d.seen ∨ (4096 ≤ d.seen.length ∧ flitCtr f ≤ d.seen.headD 0)) →
      exec .flitReceive s = .next (logRas { s with fab := { s.fab with
          recvs := put s.fab.recvs (flitSrc f) { d with part := d.part.filter fun p => p.1 != f.id } } }
        (if f.half = 0 then 0 else 1) 0x103 0xFFFF 0xFF (some (flitSrc f)) none none))

/-- R331: the limits a window leaves. -/
def LendLimits : Prop :=
  ∀ (s : State) (h : BitVec 1),
    let s' := lendWindow s h
    let key := fun (e : Nat) => h.toNat * 1024 + e
    let eps := (List.range (s.fab.domHi + 1)).filter fun e => e != s.fab.ep
    let old := fun (e : Nat) => (look s.fab.limit (key e)).getD 256
    let lim := fun (e : Nat) => (look s'.fab.limit (key e)).getD 256
    let w := fun (e : Nat) => (look s.fab.lendU (key e)).getD 0 + (old e - 256) / 2
    let W := (eps.map w).sum
    (∀ e ∈ eps, lim e = 256 + (if W = 0 then 0 else 3932160 * w e / W / 256 * 256)) ∧
    (∀ e ∈ eps, 256 ≤ lim e ∧ lim e % 256 = 0 ∧ look s'.fab.lendU (key e) = none) ∧
    256 * eps.length ≤ (eps.map lim).sum ∧ (eps.map lim).sum ≤ 256 * eps.length + 3932160 ∧
    (∀ e ∈ eps, lim e ≠ old e → reaches s e = true → ∃ o ∈ s'.fab.out, o.dst = e ∧ o.msg = .lend h (lim e)) ∧
    (∀ k, k / 1024 ≠ h.toNat → s.fab.domHi < 1024 → look s'.fab.limit k = look s.fab.limit k ∧ look s'.fab.lendU k = look s.fab.lendU k)

/-- R313 to R318, R331: the steps that send and receive. A message that can be sealed leaves on the next station whose link is
up, its flits under consecutive counter values, and each flit carries its destination, source, epoch and value; a flit of the
current epoch whose tag verifies and whose value has not been accepted is accepted, its bytes are counted for lending, and its
message is delivered once all of its flits are there; one that does not verify, or whose value has been accepted, is discarded
and logged; a message of 65,536 cycles without an answer is sent afresh, or gives its endpoint up after the eighth time; an
unused request is answered by an error response and logged. At the end of a window every channel has 256 bytes and a share of
the 3.75 MiB in proportion to what it received and to half its old share, all shares together at most the 3.75 MiB, and a
sender whose limit has changed is told. The model's choices in it: 256 bytes are counted for each accepted flit (log entry
36), a window ends where the die's cycle count is a multiple of 1,024 (log entry 40), a value below the 4,096 highest counts
as accepted (log entry 79). -/
def Obligations.FabricFlits : Prop :=
  FlitsSealed ∧ FlitsReceived ∧
  (∀ (s : State) (m : OutMsg), s.fab.sent[s.ev.num]? = some m → m.dst ≠ s.fab.ep →
    65536 ≤ (s.acyc[(0 : Fin 2)] - m.at_).toNat →
    let f := { s.fab with sent := s.fab.sent.eraseIdx s.ev.num }
    (m.tries < 8 → exec .retransmitTimeout s = .next { s with fab := { f with out := s.fab.out ++ [m] } }) ∧
    (8 ≤ m.tries → exec .retransmitTimeout s = .next (({ s with fab := f } : State).due .endpointUnreachable { num := m.dst }))) ∧
  (∀ (s : State), exec .endpointUnreachable s =
    .next (if s.ev.num = s.fab.ep then s else collLose (loseEndpoint s s.ev.num) s.ev.num)) ∧
  (∀ (s : State), s.ev.num < 32 → ∃ s', exec .linkStateChange s = .next s' ∧
    (∀ i, i < 32 → s'.fab.up.getLsbD i = if i = s.ev.num then s.ev.flag else s.fab.up.getLsbD i) ∧
    s'.ctxs = s.ctxs ∧ s'.mem = s.mem ∧ (s'.fab.up ≠ 0 → s'.agenda = s.agenda)) ∧
  (∀ s : State, let d := if s.ev.flag then 1 else 0
    let s1 := logViol s d (some 2) 0xFFFF 0xFF (some s.ev.num) (some s.ev.val)
    exec .ualinkRefused s = .next { s1 with fab := { s1.fab with errResp := s1.fab.errResp ++ [(s.ev.num, if s.ev.flag then 1 else 0)] } }) ∧
  (∀ s : State, (s.acyc[(if BitVec.ofNat 1 s.ev.num = 0 then 0 else 1 : Fin 2)]).toNat % 1024 = 0 →
    exec .lendWindow s = .next (lendWindow s (BitVec.ofNat 1 s.ev.num))) ∧ LendLimits ∧
  (∀ s : State, exec .lendReceive s = .next { s with fab := { s.fab with
    mine := put s.fab.mine (s.ev.sel.toNat % 2 * 1024 + s.ev.num) s.ev.cnt } })

/-- A state once request rq has its answer. -/
def Answered (s : State) (rq : Nat) : State :=
  { s with fab := { s.fab with reqs := del s.fab.reqs rq, sent := s.fab.sent.filter fun o => match o.msg with
    | .load i _ _ _ _ => i != rq
    | _ => true } }

/-- R117, R299, R317, R324, R330, R335: what comes back. An acknowledgement without an error takes its number off the stream's
list, counts its bytes at the sync object of the command it belongs to, and frees the stream after its CLOSE, and one of a
number that is not outstanding does nothing more; an answered load
lands the bytes its home read, extended or by lanes, and zero with a pending cause where its home refused it; the answer of a
CACCR or CCAS lands the old value, that of a node read its value, behind the record it has written; a FIFO message is taken
whole and once, in the order of its names, or refused; a ticketed message whose home had no room is sent again after 1,024
cycles. The model's choices in it: a refused row lands wholly zero (log entry 73); a FIFO message is answered by a message of
its own (log entry 77). -/
def Obligations.RemoteAnswers : Prop :=
  (∀ (s : State), (∀ r, look s.fab.strms s.ev.num = some r → s.ev.cnt ∉ r.unacked) →
    exec .ackReceive s = .next (closeDying s)) ∧
  (∀ (s : State) (r : Strm), look s.fab.strms s.ev.num = some r → s.ev.val = 0 → s.ev.cnt ∈ r.unacked →
    let r' : Strm := { r with unacked := r.unacked.filter (fun k => k != s.ev.cnt), mine := r.mine.filter fun p => p.1 != s.ev.cnt }
    let left := if r'.closing = true ∧ r'.unacked = [] then none else some r'
    (cmdOfMsg s s.ev.num s.ev.cnt = none →
      ∃ s', exec .ackReceive s = .next (closeDying s') ∧ look s'.fab.strms s.ev.num = left ∧ s'.mem = s.mem) ∧
    (∀ c e q m, cmdOfMsg s s.ev.num s.ev.cnt = some (c, e, q, m) →
      let q' : Cmd := { q with sent := q.sent.filter fun k => !(k.strm == s.ev.num && k.seq == s.ev.cnt) }
      ∃ s', exec .ackReceive s = .next (closeDying (setCmd (arrive s' q' m.bytes) c e q')) ∧
        look s'.fab.strms s.ev.num = left ∧ s'.mem = s.mem ∧ s'.ctxs = s.ctxs ∧ s'.cores = s.cores)) ∧
  (∀ (s : State) (q : Req) (r : RemoteResp), look s.fab.reqs s.ev.num = some q → s.ev.body = .remote r →
    let s1 := Answered s s.ev.num
    let bad := farCause r.err (failAt q.addr r.off)
    (∀ t id n u sc, q.kind = .scal t id n u false sc → exec .remoteResponse s = .next
      (if r.err = 0 then landVal s1 t id (.s (extend n u r.data)) else postAsync (landVal s1 t id (.s 0)) t bad)) ∧
    (∀ t id mask base, q.kind = .row t id mask base → exec .remoteResponse s = .next
      (if r.err = 0 then landVal s1 t id (.v (farRow mask base r.data)) else postAsync (landVal s1 t id (.v VReg.zero)) t bad)) ∧
    (∀ t id n c e cmd, q.kind = .word t id n c e cmd → r.err = 0 → exec .remoteResponse s =
      .next (freeCmd (landVal s1 t id (.s (BitVec.ofNat 64 (leNat r.data)))) c e cmd)) ∧
    (∀ t id c off, q.kind = .node t id c off false → r.err = 0 → exec .remoteResponse s =
      .next (landVal s1 t id (.s (BitVec.ofNat 64 (leNat (r.data.take 8)))))) ∧
    (∀ t id c off, q.kind = .node t id c off true → r.err = 0 →
      let s2 := spRecord s1 c off (r.data.drop 8)
      ∃ s', exec .remoteResponse s = .next s' ∧ s'.ctxs = s2.ctxs ∧ s'.cores = s2.cores ∧
        ∃ o, s'.nops = s2.nops ++ [o] ∧ o.task = t ∧ o.pend = some id ∧
          o.fin = some (BitVec.ofNat 64 (leNat (r.data.take 8))))) ∧
  (∀ (s : State) (m : FifoMsg), s.ev.body = .fifo m → m.dcore < 320 →
    let key := (m.src * 512 + m.score) * 512 + m.dcore
    let got := fun (s : State) => formMsg s { dst := m.src, msg := .recv s.ev.num, task := 0, addr := 0 }
    let anew := ∀ last, look s.fab.fifoIds key = some last → last < s.ev.num
    (∀ last, look s.fab.fifoIds key = some last → s.ev.num ≤ last → exec .fifoDelivery s = .next (got s)) ∧
    (anew → rxRoom (s.core m.dcore) < m.words.length →
      ∃ s', exec .fifoDelivery s = .next (formMsg s' { dst := m.src, msg := .fifoRetry s.ev.num, task := 0, addr := 0 }) ∧
        (s'.core m.dcore).rx = (s.core m.dcore).rx ∧ (s'.core m.dcore).refused = (s.core m.dcore).refused + 1) ∧
    (∀ h r, anew → m.words = h :: r → (s.core m.dcore).ringN = 0 →
      (s.core m.dcore).rx.length + m.words.length ≤ 64 →
      ∃ s', exec .fifoDelivery s = .next (formMsg s' { dst := m.src, msg := .recv s.ev.num, task := 0, addr := 0 }) ∧
        (s'.core m.dcore).rx = (s.core m.dcore).rx ++ rxHeader h m.src m.score :: r ∧ look s'.fab.fifoIds key = some s.ev.num)) ∧
  (∀ s : State, exec .resumeNotice s = .next (if s.ev.flag then sendResume s s.ev.core else takeResume s s.ev.core s.ev.num)) ∧
  (∀ (s : State) (m : OutMsg), s.fab.retry[s.ev.num]? = some m → 1024 ≤ (s.acyc[(0 : Fin 2)] - m.at_).toNat →
    exec .remoteRetryResend s = .next { s with fab := { s.fab with retry := s.fab.retry.eraseIdx s.ev.num, out := s.fab.out ++ [m] } })

/-- R320, R325, R337, R339: the receiving side. A write message of a stream whose turn it is commits, is acknowledged, and leaves the
entry one number further; one that comes early is held and its sender told; one that comes again is acknowledged again, with the refusal it met the first
time (log entry 35: the model's inference).
WAVEDONE tells of the highest wave that is done; a closed wave lets the operations that waited for it go on. A collective
message joins its instance or waits for it; an instance with every contribution of the members in reach performs its writes,
and ends once every member in reach has reported; a finished one takes nothing more, but tells a sender whose fields were other
than its own of the mismatch (log entry 90: the model's choice). -/
def Obligations.FabricCommits : Prop :=
  (∀ (s : State) (m : StreamMsg) (bs : List (Nat × Byte)), s.ev.body = .strm m → m.tick = none → m.body = .write bs →
    let key := weirKey m.src m.strm
    let w := (look s.fab.weir key).getD {}
    let ack := fun (s : State) (e off : Nat) => formMsg s { dst := m.src, msg := .ack m.strm m.seq e off, task := 0, addr := 0 }
    s.fab.weir.length < 65536 → (∀ g, look s.fab.gone key = some g → g.1 < s.ev.num) → w.held = [] → w.voids = [] → w.refused = [] → w.x < 2 ^ 32 → m.seq < 2 ^ 32 → s.cb = [] →
    (m.seq = w.x →
      let c := commitWrite (setWeir s key { w with held := [m] }) m.src bs
      let kept := if c.err = 0 then w.errs else
        (m.seq, c.err, c.off) :: w.errs.filter fun e => decide ((m.seq + 2 ^ 32 - e.1) % 2 ^ 32 < 4096)
      exec .weirArrival s = .next (setWeir (ack (noteErr (dropOwn c.st m) m c.err c.off) c.err c.off) key
        { w with x := (w.x + 1) % 2 ^ 32, errs := kept })) ∧
    (m.seq ≠ w.x → (m.seq + 2 ^ 32 - w.x) % 2 ^ 32 < 4096 →
      exec .weirArrival s = .next (formMsg (setWeir s key { w with held := [m] })
        { dst := m.src, msg := .held m.strm m.seq, task := 0, addr := 0 })) ∧
    (4096 ≤ (m.seq + 2 ^ 32 - w.x) % 2 ^ 32 →
      ((∀ e ∈ w.errs, e.1 ≠ m.seq) → exec .weirArrival s = .next (ack s 0 0)) ∧
      (∀ e, w.errs.find? (fun e => e.1 == m.seq) = some e → exec .weirArrival s = .next (ack s e.2.1 e.2.2)))) ∧
  (∀ (s : State) (l : Launch) (w : Nat), look s.launches s.ev.num = some l → doneDue s l = some w →
    ∃ s', exec .wavedone s = .next s' ∧ ((l.ftgcfg.extractLsb' 0 16).toNat, w) ∈ s'.fab.doneSent ∧ s'.ctxs = s.ctxs ∧ s'.mem = s.mem) ∧
  (∀ s : State, exec .waveClose s = .next (dropGroup (waveApply s s.ev.num) s.ev.num)) ∧
  (∀ s : State, s.cb = [] → look s.fab.ranges s.ev.num = none → exec .waveClose s = .next s) ∧
  (∀ (s : State) (m : CollMsg), s.ev.body = .coll m →
    let at_ := s.fab.colls.find? fun c => c.key.cid == m.cid && c.inst == m.inst && !c.fin
    let n := (look s.fab.ncoll m.cid).getD 0
    (at_ = none → n ≤ m.inst → exec .collectiveArrival s = .next
      (if s.fab.early.contains m then s else { s with fab := { s.fab with early := s.fab.early ++ [m] } })) ∧
    (at_ = none → m.inst < n → (∀ k d, m.body = .contrib k d → ∀ p ∈ s.fab.past, p.1.cid = m.cid → p.2 = m.inst → p.1 = k) →
      exec .collectiveArrival s = .next s) ∧
    (∀ k d p, at_ = none → m.inst < n → m.body = .contrib k d → p ∈ s.fab.past → p.1.cid = m.cid → p.2 = m.inst → p.1 ≠ k →
      reaches s m.src = true →
      let told : CollMsg := { src := s.fab.ep, cid := m.cid, inst := m.inst, body := .mismatch }
      exec .collectiveArrival s = .next (formMsg s { dst := m.src, msg := .coll told, task := 0, addr := 0 })) ∧
    (∀ c, at_ = some c → exec .collectiveArrival s = .next
      ((collTake s c m.src m.body).due .collectiveComplete { num := m.cid }))) ∧
  (∀ (s : State) (c : Coll), collOf s s.ev.num = some c → c.started = true →
    ((c.cmd.bind fun p => cmdOf s c.core p.1 p.2).map (·.stop)).getD false = false →
    let live := c.members.filter fun e => reaches s e
    (c.fin = true → exec .collectiveComplete s = .next s) ∧
    (c.fin = false → (c.got.any fun p => p.2.1 != c.key) = false →
      (c.wrote = false → c.bits.getLsbD 9 = false →
        (c.cut s = false ∨ c.key.kind = .a2a ∨ c.key.kind = .disp ∨ c.key.kind = .comb) →
        (∀ e ∈ live, (look c.got e).isSome = true) → exec .collectiveComplete s = .next (collPerform s c)) ∧
      (c.wrote = true → c.key.kind ≠ .samp → (∀ e ∈ live, e = s.fab.ep ∨ (look c.dones e).isSome = true) → collUnsent s c = false →
        exec .collectiveComplete s = .next (collRowEnd s c))))
/-! ### Pages -/

/-- The PMAP instruction of an operation. -/
def pmapInstr (op : Fin 6) (g : Guard) (a b : SSel) : Instr :=
  match op with
  | 0 => .pmapRead g a b
  | 1 => .pmapReadref g a b
  | 2 => .pmapMapnew g a b
  | 3 => .pmapRevoke g a b
  | 4 => .pmapEvict g a b
  | 5 => .pmapPrefetch g a b

/-- R358, R359: a page command joins the engine of its slot behind the commands it holds; a KVLD, whose list, token range, part
and form its second operand gives, with DST and its stride from the registers, whose claim ends. -/
def KvldIssues : Prop :=
  (∀ (s : State) (t : Nat) (x : Context) (ck : Nat) (obj : Option (Nat × Nat)) (k : CmdKind) (r : CeRegs),
    cmds (pageCmd s t x ck obj k r) x.core (ceOf s) = cmds s x.core (ceOf s) ++
      [{ id := s.fresh, task := t, launch := x.launch, kind := k, ck := ck, obj := obj, sweep := inSweep s x.core t,
         dst := r.dst, dstr := r.dstr, fork := forkOf s t x }]) ∧
  (∀ (s : State) (t : Nat) (x : Context) (g : Guard) (a b : SSel), s.issuer = .ok (t, x) →
    let e := ceOf s
    let v := sVal s x true b
    let r := ceRegs s x.core e
    let ck := (v.extractLsb' 4 2).toNat
    (gTrue g x = false → readable s x false [.s a, .s b] 0 = true → exec (.kvld g a b) s = .next s) ∧
    (∀ obj, gTrue g x = true → readable s x true [.s a, .s b] 0 = true → roomFor s x.core e t = true →
      r.wt = some t → v.extractLsb' 54 10 = 0 → v.extractLsb' 0 2 = 0 →
      v.extractLsb' 6 2 ≠ 3 → v.extractLsb' 2 2 ≠ 3 → v.extractLsb' 32 2 = 0 →
      (ck = 2 → r.dst.extractLsb' 61 3 = 0b100 ∨ r.dst.extractLsb' 61 3 = 0b101) → pageObj s x 0x28 (sVal s x true a) ck = .ok obj →
      exec (.kvld g a b) s = .next (unclaim (pageCmd (popOps s x true [.s a, .s b]) t x ck obj (.kvld (v.extractLsb' 32 22).toNat
        ((v.extractLsb' 24 8).toNat + 1) (v.extractLsb' 16 8).toNat ((v.extractLsb' 8 8).toNat + 1)
        (v.extractLsb' 6 2).toNat (v.extractLsb' 2 2).toNat) r) x.core e t)) ∧
    (gTrue g x = true → readable s x true [.s a, .s b] 0 = true → roomFor s x.core e t = true → r.claim = false → r.wt ≠ some t →
      exec (.kvld g a b) s = .next (raise s { code := cOperand, sub := 0x28 })))
/-- R364, R366: KVST and PSEL. -/
def KvstAndPselIssue : Prop :=
  ∀ (s : State) (t : Nat) (x : Context) (g : Guard) (a b : SSel), s.issuer = .ok (t, x) →
    let v := sVal s x true b
    let s0 := popOps s x true [.s a, .s b]
    (gTrue g x = false → readable s x false [.s a, .s b] 0 = true → exec (.kvst g a b) s = .next s ∧ exec (.psel g a b) s = .next s) ∧
    (gTrue g x = true → readable s x true [.s a, .s b] 0 = true → roomFor s x.core (ceOf s) t = true →
      (∀ obj, (v.extractLsb' 22 2).toNat ≠ 2 → v.extractLsb' 0 2 = 0 →
        pageObj s x 0x29 (sVal s x true a) (v.extractLsb' 22 2).toNat = .ok obj →
        exec (.kvst g a b) s = .next (pageCmd s0 t x (v.extractLsb' 22 2).toNat obj
          (.kvst (v.extractLsb' 32 32).toNat (v.extractLsb' 24 8).toNat (v.extractLsb' 0 22).toNat))) ∧
      (((v.extractLsb' 22 2).toNat = 2 ∨ v.extractLsb' 0 2 ≠ 0) →
        exec (.kvst g a b) s = .next (raise s { code := cOperand, sub := 0x29, info := v })) ∧
      (∀ obj, v.extractLsb' 54 10 = 0 → v.extractLsb' 6 26 = 0 → v.extractLsb' 0 4 = 0 → v.extractLsb' 32 5 = 0 →
        pageObj s x 0x2A (sVal s x true a) (v.extractLsb' 4 2).toNat = .ok obj →
        exec (.psel g a b) s = .next (pageCmd s0 t x (v.extractLsb' 4 2).toNat obj (.psel (v.extractLsb' 32 22).toNat))) ∧
      ((v.extractLsb' 54 10 ≠ 0 ∨ v.extractLsb' 6 26 ≠ 0 ∨ v.extractLsb' 0 4 ≠ 0 ∨ v.extractLsb' 32 5 ≠ 0) →
        exec (.psel g a b) s = .next (raise s { code := cOperand, sub := 0x2A, info := v })))
/-- R369: PMAP. -/
def PmapIssues : Prop :=
  ∀ (s : State) (t : Nat) (x : Context) (g : Guard) (a b : SSel) (op : Fin 6), s.issuer = .ok (t, x) →
    let u := sVal s x true a
    let v := sVal s x true b
    (gTrue g x = false → readable s x false [.s a, .s b] 1 = true → exec (pmapInstr op g a b) s = .next (pushS s t 24 0)) ∧
    (gTrue g x = true → readable s x true [.s a, .s b] 1 = true → roomFor s x.core (ceOf s) t = true →
      (u.toNat < 2 ^ 32 → pgOk s u.toNat = true → (op = 2 → v.extractLsb' 2 30 = 0 ∧ v.extractLsb' 0 2 ≠ 3) → (op ≠ 2 → v = 0) →
        exec (pmapInstr op g a b) s = .next (pushQ (pageCmd (popOps s x true [.s a, .s b]) t x 0 none
          (.pmap op.val u.toNat v (nextId s t))) t .s 24 none)) ∧
      ((2 ^ 32 ≤ u.toNat ∨ pgOk s u.toNat = false) →
        exec (pmapInstr op g a b) s = .next (raise s { code := cOperand, sub := 0x2B, info := u })))
/-- R373, R374: PSREF and PSDROP. -/
def SetRefsIssue : Prop :=
  ∀ (s : State) (t : Nat) (x : Context) (g : Guard) (a b : SSel) (pin : Bool), s.issuer = .ok (t, x) →
    let u := sVal s x true a
    let v := sVal s x true b
    let set := (u.extractLsb' 0 16).toNat
    let cmd := fun (new : Bool) (holder : Option Nat) => pageCmd (popOps s x true [.s a, .s b]) t x 0 none
      (.psref set ((u.extractLsb' 32 16).toNat + 1) (u.extractLsb' 48 2).toNat new v holder)
    (gTrue g x = false → readable s x false [.s a, .s b] 0 = true →
      (∀ new, exec (.psref g a b pin new) s = .next s)) ∧
    (gTrue g x = false → readable s x false [.s a] 0 = true → exec (.psdrop g a pin) s = .next s) ∧
    (gTrue g x = true → readable s x true [.s a, .s b] 0 = true → roomFor s x.core (ceOf s) t = true → set < 16384 →
      (u.extractLsb' 16 16 = 0 → u.extractLsb' 50 14 = 0 → u.extractLsb' 48 2 ≠ 3 → look s.pg.sets set = none →
        v.extractLsb' 0 2 = 0 → isRemote v = false → (pin = false → refsOf s t < 16) →
        exec (.psref g a b pin true) s = .next (cmd true (if pin then none else some t))) ∧
      (u.extractLsb' 16 48 = 0 → (look s.pg.sets set).isSome = true → v = 0 → (pin = false → refsOf s t < 16) →
        exec (.psref g a b pin false) s = .next (cmd false (if pin then none else some t))) ∧
      (∀ i k, u.extractLsb' 16 48 = 0 → (look s.pg.sets set).isSome = true → pin = false → v ≠ 0 →
        childOf s t v = some (i, k) → notStarted k = true → refsOf s i < 16 →
        exec (.psref g a b false false) s = .next (cmd false (some i)))) ∧
    (gTrue g x = true → readable s x true [.s a] 0 = true → roomFor s x.core (ceOf s) t = true →
      (∀ k, u.toNat < 16384 → look s.pg.sets u.toNat = some k →
        (if pin then 0 < k.pins else ∃ r, look s.tasks t = some r ∧ u.toNat ∈ r.refs) →
        exec (.psdrop g a pin) s = .next (pageCmd (popOps s x true [.s a]) t x 0 none (.psdrop u.toNat pin))) ∧
      (u.toNat < 16384 → look s.pg.sets u.toNat = none →
        exec (.psdrop g a pin) s = .next (raise s { code := cOperand, sub := 0x2D, info := u })))

/-- R281, R357 to R359, R364, R366, R369, R373, R374: a page instruction for which its engine has room and whose operands keep
their limits joins it behind its other commands, as a command that holds what the operands said; KVLD takes its destination
from registers its task wrote last, raises OPERAND where another did, and ends the claim on them; PMAP pushes an entry at
latency 24 that has no value yet, and raises OPERAND for an illegal handle; KVST and PSEL raise it for illegal control words,
PSDROP for a set that does not exist. With a false guard PMAP pushes zero and the others do nothing. -/
def Obligations.PageCommands : Prop := KvldIssues ∧ KvstAndPselIssue ∧ PmapIssues ∧ SetRefsIssue

/-- R354, R356, R363, R369, R370, R372: how pages and sets change. PMAP's reads change nothing; MAPNEW makes an ABSENT or
REVOKED page RESIDENT in a free frame, and no other; REVOKE revokes a RESIDENT or COLD page without references and frees what
it held, and none with references; EVICT wants a RESIDENT page; PREFETCH queues a fill of a COLD one, and of no ABSENT, REVOKED
or RESIDENT one. A fill that begins takes a free frame; one whose check words agree makes its page RESIDENT with the bytes of
its flash slot and frees the slots; one that fails leaves it COLD with the frame free. An eviction ends with its page COLD and
its frame free, or, where the page was written meanwhile, with the slots free. A set whose build has ended becomes LIVE, or is
free again where the build failed. The model's choices in it: a frame whose reference has gone is free at once (log entry 69); a
REVOKED entry keeps its HDC (log entry 70); the eviction of a frame with an unreadable granule leaves the page RESIDENT (log
entry 92). -/
def Obligations.PageSteps : Prop :=
  (∀ (s : State) (h : Nat) (b : W64), let e := pgEnt s h
    pmapDo s 0 h b = some s ∧ pmapDo s 1 h b = some s ∧
    (∀ s1 f, (e.st = .absent ∨ e.st = .revoked) → takeFrame s h = some (s1, f) → ∃ s', pmapDo s 2 h b = some s' ∧
      pgEnt s' h = { e with st := .resident, hdc := (b.extractLsb' 0 2).toNat, frame := some f, slot := 0, hslot := 0 } ∧
      (∀ j, j ≠ h → pgEnt s' j = pgEnt s j)) ∧
    (e.st ≠ .absent → e.st ≠ .revoked → pmapDo s 2 h b = none) ∧
    (e.ref = 0 → e.evict = none →
      (e.st = .resident → ∃ s', pmapDo s 3 h b = some s' ∧ pgEnt s' h = { e with st := .revoked, frame := none, dead := false } ∧
        ∀ f, e.frame = some f → f ∉ usedF s' (pgDie h)) ∧
      (e.st = .cold → ∃ s', pmapDo s 3 h b = some s' ∧
        pgEnt s' h = { e with st := .revoked, slot := 0, hslot := 0, dead := false } ∧ e.slot ∉ s'.pg.usedS ∧ e.hslot ∉ s'.pg.usedH)) ∧
    (0 < e.ref → pmapDo s 3 h b = none) ∧ (e.st ≠ .resident → pmapDo s 4 h b = none) ∧
    (e.st = .cold → ∃ s', pmapDo s 5 h b = some s' ∧ (pgEnt s' h).st = .filling ∧ s'.pg.pre = s.pg.pre ++ [h]) ∧
    (e.st = .absent ∨ e.st = .revoked ∨ e.st = .resident → pmapDo s 5 h b = none)) ∧
  (∀ (s : State) (h f : Nat), s.pg.filling = some h → (pgEnt s h).frame = some f → (pgEnt s h).dead = false →
    let e := pgEnt s h
    let fr := rdBytes s.pg.flash (e.slot * frameB) frameB
    (s.ev.flag = false → checkWords fr = (fr.drop 0x8840).take 140 →
      ∃ s', exec .flashFill s = .next s' ∧ pgEnt s' h = { e with st := .resident, slot := 0, hslot := 0 } ∧ s'.pg.filling = none ∧
        s'.mem = wrBytes s.mem (place (frameAt s h f) fr) ∧ e.slot ∉ s'.pg.usedS ∧ e.hslot ∉ s'.pg.usedH) ∧
    ((s.ev.flag = true ∨ checkWords fr ≠ (fr.drop 0x8840).take 140) →
      ∃ s', exec .flashFill s = .next s' ∧ pgEnt s' h = { e with st := .cold, frame := none } ∧ s'.pg.filling = none ∧
        s'.mem = s.mem ∧ f ∉ usedF s' (pgDie h))) ∧
  (∀ (s s1 : State) (h f : Nat) (r : List Nat), s.pg.filling = none → s.pg.demand ++ s.pg.pre = h :: r →
    takeFrame s h = some (s1, f) → ∃ s', exec .flashFill s = .next s' ∧ s'.pg.filling = some h ∧ (pgEnt s' h).frame = some f ∧
      h ∉ s'.pg.demand ∧ h ∉ s'.pg.pre ∧ s'.mem = s.mem) ∧
  (∀ (s : State) (fs hs f : Nat) (touched : Bool), let h := s.ev.num
    let e := pgEnt s h
    e.evict = some (fs, hs, touched) → e.frame = some f → e.dead = false →
    let whole := (frameRead s (frameAt s h f) frameB).isSome
    ((touched = true ∨ whole = false) → ∃ s', exec .evictComplete s = .next s' ∧ pgEnt s' h = { e with evict := none } ∧ s'.mem = s.mem ∧
      fs ∉ s'.pg.usedS ∧ hs ∉ s'.pg.usedH) ∧
    (touched = false → whole = true → ∃ s', exec .evictComplete s = .next s' ∧
      pgEnt s' h = { e with st := .cold, frame := none, slot := fs, hslot := hs, evict := none } ∧ f ∉ usedF s' (pgDie h))) ∧
  (∀ (s : State) (k : PageSet), look s.pg.sets s.ev.num = some k → k.live = false → findCmd s k.cmd = none →
    (k.fail = none → k.sref ≠ 0 → exec .setBuildComplete s = .next (setSet s s.ev.num (some { k with live := true }))) ∧
    (∀ d, k.fail = some d → ∃ s', exec .setBuildComplete s = .next s' ∧ look s'.pg.sets s.ev.num = none))
/-! ### Tasks -/

/-- R124, R403, R404: SPAWN and SPAWNB, once the releases their task left behind are performed. -/
def SpawnsAnswer : Prop :=
  ∀ (s : State) (t : Nat) (x : Context) (g : Guard) (a b : SSel), s.issuer = .ok (t, x) →
    let u := sVal s x true a
    let v := sVal s x true b
    let k := (look s.tasks t).getD {}
    let l := launchOf s k
    let goes := fun (s1 : State) (n : NewTask) =>
      let r := spawnChild (popOps s1 x true [.s a, .s b]) t x n
      pushS r.1 t 4 r.2
    (gTrue g x = false → readable s x false [.s a, .s b] 1 = true →
      (∀ desc nj, exec (.spawn g a b desc nj) s = .next (pushS s t 4 0)) ∧ ∀ w, exec (.spawnb g a b w) s = .next (pushS s t 4 0)) ∧
    (gTrue g x = true → readable s x true [.s a, .s b] 1 = true → ¬(k.retired = true ∧ scopeOf s t ≠ 0) →
      (∀ s1, relsFirst s t x = .ok s1 →
        (∀ nj, taskWordOk l u = true →
          let w := taskWord u
          exec (.spawn g a b false nj) s = .next (goes s1 { launch := x.launch, grp := w.1, dcyc := w.2.1, entry := w.2.2, key := k.key,
                                                            aff := v, arg := v, nj := nj })) ∧
        (∀ nj n, u.toNat % 64 = 0 → u.toNat + 64 ≤ spExt (s.core x.core).part → drainHeld s x t x.core = false →
          spBad s x.core u.toNat 64 = false → spawnDesc s l x.launch (spRead s x.core u.toNat 64) v nj = .ok n →
          exec (.spawn g a b true nj) s = .next (goes s1 n))) ∧
      (∀ nj, relsFirst s t x = .error .hold → taskWordOk l u = true →
        exec (.spawn g a b false nj) s = .next (s.modLatch fun l => { l with held := true })) ∧
      (∀ w : BitVec 6, l.bftab.getLsbD 0 = true → leavesHeld s < 65536 →
        exec (.spawnb g a b w) s = .next (goes s { launch := x.launch, grp := k.grp, entry := 0, dcyc := 0, key := v.setWidth 32,
                                                   arg := u, leaf := true, wsid := w.toNat })) ∧
      (∀ w : BitVec 6, l.bftab.getLsbD 0 = true → 65536 ≤ leavesHeld s →
        exec (.spawnb g a b w) s = .next (pushS (popOps s x true [.s a, .s b]) t 4 (BitVec.allOnes 64))) ∧
      (∀ w : BitVec 6, l.bftab.getLsbD 0 = false →
        exec (.spawnb g a b w) s = .next (raise s { code := cTask, sub := 3, info := w.setWidth 64 })) ∧
      (∀ nj, taskWordOk l u = false → exec (.spawn g a b false nj) s = .next (raise s { code := cOperand, sub := 1, info := u }))) ∧
    (gTrue g x = true → readable s x true [.s a, .s b] 1 = true → k.retired = true → scopeOf s t ≠ 0 →
      (∀ nj, taskWordOk l u = true → exec (.spawn g a b false nj) s = .next (raise s { code := cTask, sub := 2, info := 1 })) ∧
      ∀ w, exec (.spawnb g a b w) s = .next (raise s { code := cTask, sub := 2, info := 2 }))
/-- R402, R405, R406: CANCEL and REPRIO. -/
def ChildrenAnswer : Prop :=
  ∀ (s : State) (t : Nat) (x : Context) (g : Guard) (a b : SSel), s.issuer = .ok (t, x) →
    let u := sVal s x true a
    let v := sVal s x true b
    let k := (look s.tasks t).getD {}
    let s0 := popOps s x true [.s a, .s b]
    let s1 := popOps s x true [.s a]
    (gTrue g x = false → (readable s x false [.s a, .s b] 0 = true → exec (.reprio g a b) s = .next s) ∧
      (readable s x false [.s a] 0 = true → exec (.cancel g a) s = .next s)) ∧
    (gTrue g x = true → ¬(k.retired = true ∧ scopeOf s t ≠ 0) →
      (readable s x true [.s a, .s b] 0 = true →
        (u = 0 → exec (.reprio g a b) s = .next (reprioOne s0 t t k (v.setWidth 32))) ∧
        (∀ i c, u ≠ 0 → childOf s t u = some (i, c) → exec (.reprio g a b) s = .next (reprioOne s0 t i c (v.setWidth 32)))) ∧
      (∀ i c key, look s.tasks i = some c → (c.st = .running ∨ c.st = .parked ∨ c.st = .chosen) →
        look (reprioOne s t i c key).tasks i = some { c with key := key, oldKey := some (c.oldKey.getD c.key) } ∧
        look (freshKeys (reprioOne s t i c key)).tasks i = some { c with key := key, oldKey := none }) ∧
      (readable s x true [.s a] 0 = true →
        (u = 0 → exec (.cancel g a) s = .next ((childrenOf s t).foldl (fun s p => cancelOne s t p) s1)) ∧
        (∀ p, u ≠ 0 → childOf s t u = some p → exec (.cancel g a) s = .next (cancelOne s1 t p)))) ∧
    (gTrue g x = true → u ≠ 0 → childOf s t u = none →
      (readable s x true [.s a] 0 = true → exec (.cancel g a) s = .next (raise s { code := cTask, sub := 1, info := u })) ∧
      (readable s x true [.s a, .s b] 0 = true → exec (.reprio g a b) s = .next (raise s { code := cTask, sub := 1, info := u })))
/-- R407 to R409: JOIN, TKDONE and TSTAT. -/
def JoinsAnswer : Prop :=
  ∀ (s : State) (t : Nat) (x : Context) (g : Guard) (a : SSel), s.issuer = .ok (t, x) →
    let u := sVal s x true a
    let hold := s.modLatch fun l => { l with held := true }
    let word := fun (i : Nat) (k : Task) => BitVec.ofNat 64 (endCode k.how * 2 ^ 32 + (handleOf s i).toNat)
    (∀ any, gTrue g x = false → readable s x false (if any then [] else [.s a]) 2 = true →
      exec (.join g a any) s = .next (pushS (pushS s t 2 0) t 2 0)) ∧
    (gTrue g x = true → readable s x true [.s a] 2 = true →
      (∀ i k, childOf s t u = some (i, k) → k.nj = false →
        (k.st = .ended → ∃ s', exec (.join g a false) s = .next (pushS (pushS s' t 2 (word i k)) t 2 k.result) ∧
          look s'.tasks i = some { k with st := .free } ∧ (∀ j, j ≠ i → look s'.tasks j = look s.tasks j)) ∧
        (k.st ≠ .ended → exec (.join g a false) s = .next hold)) ∧
      ((childOf s t u = none ∨ ∃ i k, childOf s t u = some (i, k) ∧ k.nj = true) →
        exec (.join g a false) s = .next (raise s { code := cTask, sub := 1, info := u }))) ∧
    (gTrue g x = true → readable s x true [] 2 = true →
      let cs := (childrenOf s t).filter fun p => !p.2.nj
      let es := cs.filter fun p => p.2.st == .ended
      (cs = [] → exec (.join g a true) s = .next (pushS (pushS s t 2 0x300000000) t 2 0)) ∧
      (cs ≠ [] → es = [] → exec (.join g a true) s = .next hold) ∧
      (∀ i k, firstEnded es = some (i, k) → (∀ p ∈ es, k.endSeq ≤ p.2.endSeq) ∧
        ∃ s', exec (.join g a true) s = .next (pushS (pushS s' t 2 (word i k)) t 2 k.result) ∧
          (look s'.tasks i).map (·.st) = some .free ∧ (∀ j, j ≠ i → look s'.tasks j = look s.tasks j))) ∧
    (gTrue g x = false → exec (.tkdone g) s = .next s) ∧
    (gTrue g x = true → ∀ k, look s.tasks t = some k → ∃ s', exec (.tkdone g) s = .next s' ∧
      look s'.tasks t = some { k with retired := true } ∧ (∀ j, j ≠ t → look s'.tasks j = look s.tasks j) ∧
      s'.agenda = s.agenda ++ (if scopeOf s t = 0 then [] else [(.ticketRetire, { task := t })])) ∧
    (readable s x (gTrue g x) [] 1 = true →
      exec (.tstat g) s = .next (if gTrue g x then pushS s.tick t 1 (taskStatus s t ((look s.tasks t).getD {})) else pushS s t 1 0))
/-- R379, R383, R388, R389: what a new record holds. -/
def RecordsTaken : Prop :=
  ∀ (s : State) (n : NewTask) (sp : Nat), (pickRec s = none → createTask s n false sp = none) ∧
    ∀ i, pickRec s = some i → ∃ s' k, createTask s n false sp = some (s', i) ∧
      k.gen = ((look s.tasks i).map (·.gen)).getD 0 + 1 ∧ k.launch = n.launch ∧ k.grp = n.grp ∧ k.entry = n.entry ∧ k.key = n.key ∧
      k.parent = n.parent ∧ k.arg = n.arg ∧ k.k1 = n.k1 ∧ k.sem = n.sem ∧ k.how = none ∧
      k.ticket = (if launchScope s n.launch ≠ 0 then none else some (BitVec.ofNat 64 ((s.taken + 1) % 2 ^ 48))) ∧
      k.st = (if n.leaf then .batched else if condsHold s k then .ready else .waiting) ∧
      ((n.leaf = true ∨ condsHold s k = true ∨ condBroken s k = false) →
        look s'.tasks i = some { k with at_ := if n.leaf = false ∧ condsHold s k then s.acyc[0] else k.at_ } ∧ s'.taken = s.taken + 1 ∧
        (∀ j, j ≠ i → look s'.tasks j = look s.tasks j))

/-- R124, R379, R383, R388, R389, R392, R402 to R409: SPAWN and SPAWNB push the handle of the child they make, or the failure handle where
no record is free or 65,536 leaves are held, SPAWN once the loads of its task have their values and its releases are performed,
and held until then; they raise OPERAND for an illegal
task word, TASK 3 without a batch table, and TASK 2 after TKDONE in a scope. CANCEL and REPRIO act on the children they name,
JOIN is held until its child has ended, pushes its status word and result and frees its record, and they raise TASK 1 for a
handle that names none; the key REPRIO gives a task that runs ranks from the next cycle on; TKDONE records the retirement; TSTAT pushes the status word of its task. A record taken for a task
that is not cancelled holds what it was given, a ticket of its own without a scope, and READY where its conditions hold. With
a false guard they push zeros or do nothing. The model's choices in it: without a scope a ticket is the next of a count of its
own modulo 2^48 (log entry 62); SPAWN performs its releases in its own slot (log entry 84). -/
def Obligations.TaskInstructions : Prop := SpawnsAnswer ∧ ChildrenAnswer ∧ JoinsAnswer ∧ RecordsTaken

/-- R126, R128, R155, R156, R302, R386, R387, R391, R397, R399: the steps of the task tree engine. A core starts the task it
chooses in a free context number, empty but for its two arguments, or resumes it where it is parked; a context asked to make
room parks once nothing of it is under way, its image goes to its frame and its number and blocks are free; a retirement takes
effect once the task's ticketed operations are applied, here or at their homes, or discarded, and its recorded retirement alone
counts for WAVEDONE (log entry 21); a formation gives the first of the eligible tasks of a scope consecutive
tickets of the next wave, and does nothing while tickets are open; a batch that is due closes; the leaves of a batch end with
their batch task. -/
def Obligations.TaskSteps : Prop :=
  (∀ (s : State) (t n f : Nat) (k : Task), let c := s.ev.core
    chooseFor s c = some (t, k) → look s.tasks t = some k → freeNumber (s.core c) = some n →
    (k.st = .parked → (∀ e, ∀ q ∈ cmds s c e, q.task = t → q.pgfail = false) → (∃ s', exec .contextResume s = .next s' ∧ look s'.tasks t = some { k with st := .running } ∧
        (s'.core c).res.getD n none = some t ∧
        (∀ x, s.ctx? t = some x → s'.ctx? t = some { x with num := n, park := false })) ∧ exec .taskStart s = .next s) ∧
    (k.st ≠ .parked → pickOf s (freeFrames (s.core c)) = some f →
      (∃ s', exec .taskStart s = .next s' ∧ look s'.tasks t = some { k with st := .running, core := some c } ∧
        (s'.core c).res.getD n none = some t ∧ (∃ y, s'.ctx? t = some y ∧ y.core = c ∧ y.num = n ∧ y.pc = k.entry ∧
          y.k[0] = k.arg ∧ y.k[1] = k.k1 ∧ y.ccyc = 0 ∧ y.trapMode = false ∧ y.tvec = k.tvec ∧ y.fr = {})) ∧
      exec .contextResume s = .next s)) ∧
  (∀ (s : State) (v : Nat) (n : Option Nat) (x : Context), parkVictim s s.ev.core = some (v, n) → s.ctx? v = some x →
    ∃ s', exec .priorityPark s = .next s' ∧ s'.ctx? v = some { x with park := true } ∧ s'.mem = s.mem ∧ s'.tasks = s.tasks) ∧
  (∀ (s : State) (x : Context) (k : Task), let t := s.ev.task
    s.ctx? t = some x → look s.tasks t = some k → parkReady s t x = true →
    ∃ s', exec .contextPark s = .next s' ∧ look s'.tasks t = some { k with st := .parked, core := some x.core } ∧
      s'.ctx? t = some { x with park := false } ∧ (∀ i, i < 16 → (s'.core x.core).res.getD i none ≠ some t) ∧
      (∀ p ∈ (s'.core x.core).rc, p.1 ≠ t) ∧ s'.mem = (writeImage s t x).mem) ∧
  (∀ (s : State) (k : Task), let t := s.ev.task
    look s.tasks t = some k → k.retired = true → k.closed = false → k.ticket.isSome = true →
    (ticketQuiet s t = false → exec .ticketRetire s = .next s) ∧
    (ticketQuiet s t = true → ∃ s', exec .ticketRetire s = .next (newHead s' (launchScope s k.launch)) ∧
      look s'.tasks t = some { k with closed := true } ∧ (∀ j, j ≠ t → look s'.tasks j = look s.tasks j))) ∧
  (∀ (s s1 : State) (w : Nat) (e : List (Nat × Task)) (g : TScope), let sc := s.ev.num
    formWave s sc = .take s1 w e → look s1.scopes sc = some g →
    exec .waveFormation s = .next (newHead (((e.take g.width).zipIdx).foldl (fun s p => chooseTask s sc w p.2 p.1.1)
      { s1 with scopes := put s1.scopes sc { g with wave := w } }) sc)) ∧
  (∀ (s : State) (sc w i t : Nat) (k : Task), look s.tasks t = some k →
    ∃ k', look (chooseTask s sc w i t).tasks t = some k' ∧ k'.st = .chosen ∧ k'.ticket = some (BitVec.ofNat 64 (sc * 2 ^ 48 + w * 2 ^ 32 + i)) ∧
      k'.key = k.key ∧ k'.entry = k.entry) ∧
  (∀ s : State, look s.scopes s.ev.num ≠ none → openTickets s s.ev.num = true → exec .waveFormation s = .next s) ∧
  (∀ (s : State) (g : Batch), look s.batches s.ev.num = some g →
    exec .batchClose s = .next (if batchDue s g then closeBatch s s.ev.num else s)) ∧
  (∀ s : State, exec .batchTaskEnd s = .next (batchEnded s s.ev.task))
/-! ### Phasers -/

/-- R415, R418, R419, R422 to R424, R427: a phaser instruction on a phaser it may use: a registration or a drop is
sent to the phaser's core; an arrival follows the actions of its fence, and its bundle waits while an earlier arrival of
the task is held for the next phase; a wait holds its bundle until the phase its member waits for has come; PHRD pushes the
state of a local phaser. The model's choice in it: a task's own operations that have been sent and are not applied count at
its instructions (log entry 64). -/
def Obligations.PhaserInstructions : Prop :=
  ∀ (s : State) (t : Nat) (x : Context) (g : Guard) (a : SSel), s.issuer = .ok (t, x) →
    let v := sVal s x true a
    let c := 8 * (x.core / 8) + (v.extractLsb' 5 3).toNat
    let n := (v.extractLsb' 0 5).toNat
    let s0 := popOps s x true [.s a]
    let hold := s.modLatch fun l => { l with held := true }
    let free := phForeign s t x c = (false, false) ∧ (phOf s c n).brk = false
    (readable s x (gTrue g x) [.s a] 0 = true →
      (gTrue g x = false → (∀ m, exec (.phreg g a m) s = .next s) ∧ exec (.phdrop g a) s = .next s ∧
        ∀ sc, exec (.pharr g a sc) s = .next s ∧ exec (.phwait g a sc) s = .next s ∧ exec (.phaw g a sc) s = .next s) ∧
      (gTrue g x = true → v.extractLsb' 8 56 = 0 →
        (∀ m, free → (waits m = true → c = x.core) → memberSeen s t c n = none → membersSeen s c n < 64 → memberships s t < 16 →
          exec (.phreg g a m) s = .next (sendPh s0 t x.core c n (.reg m))) ∧
        (∀ m, memberSeen s t c n = some m → exec (.phdrop g a) s = .next (sendPh s0 t x.core c n .drop)) ∧
        (memberSeen s t c n = none → exec (.phdrop g a) s = .next (raise s { code := cPhaser, sub := 1, info := v })) ∧
        (∀ m sc, free → memberSeen s t c n = some m → signals m = true → arrivalHeld s t c n = false →
          exec (.pharr g a sc) s = .next (arriveAfter s0 t c n sc)) ∧
        (∀ m sc, free → memberSeen s t c n = some m → signals m = true → arrivalHeld s t c n = true →
          exec (.pharr g a sc) s = .next hold) ∧
        (∀ m sc, memberSeen s t c n = some m → c = x.core → waits m = true → (phOf s c n).brk = false → (phOf s c n).passed t = true →
          exec (.phwait g a sc) s = .next (if scWide sc then dropClean (setPh s0 c n ((phOf s c n).waited t)) c
            else setPh s0 c n ((phOf s c n).waited t))) ∧
        (∀ m sc, memberSeen s t c n = some m → c = x.core → waits m = true → (phOf s c n).brk = false → (phOf s c n).passed t = false →
          exec (.phwait g a sc) s = .next hold) ∧
        (∀ sc, free → memberSeen s t c n = some .sw → c = x.core → arrivalHeld s t c n = false →
          exec (.phaw g a sc) s = .next ((arriveAfter s0 t c n sc).modCtx t fun y => { y with holds := y.holds ++ [.phaw sc n] })))) ∧
    (readable s x (gTrue g x) [.s a] 1 = true →
      (gTrue g x = false → exec (.phrd g a) s = .next (pushS s t 2 0)) ∧
      (gTrue g x = true → v.extractLsb' 8 56 = 0 → c = x.core →
        exec (.phrd g a) s = .next (pushS s0 t 2 (phRead (phOf s c n) t))))

/-- R416, R417, R419, R421 to R423: the phase of a phaser. It advances when its last signalling member arrives, which
clears the arrivals; it stands while one has not; a broken one stands; a member that registers waits for the next phase;
a drop takes the member's arrival along, and the last member to leave mends the phaser. The next operation that is due is
applied at its phaser, and ends no PHAW's wait: that is tested as a cycle begins, where a wait whose phase has come ends with
the member's next phase set from the phase of that moment. -/
def Obligations.PhaserPhases : Prop :=
  (∀ (p : Phaser) (t : Nat) (m : PhMember), (p.mem.map (·.task)).Nodup → p.member t = some m → m.arrived = false →
    signals m.mode = true →
    (p.brk = false → p.arr + 1 = p.nsig → (p.arrive t).ph = p.ph + 1 ∧ (p.arrive t).arr = 0 ∧ (p.arrive t).nsig = p.nsig) ∧
    ((p.brk = true ∨ p.arr + 1 < p.nsig) → (p.arrive t).ph = p.ph ∧ (p.arrive t).arr = p.arr + 1)) ∧
  (∀ (p : Phaser) (t : Nat) (m : PhMember), p.member t = some m → m.arrived = true → (p.arrive t).ph = p.ph ∧ (p.arrive t).arr = p.arr) ∧
  (∀ (p : Phaser) (t : Nat) (m : PhMode), p.moved = false → p.member t = none → (p.reg t m).ph = p.ph ∧
    (p.reg t m).member t = some { task := t, mode := m, wph := p.ph + 1 }) ∧
  (∀ (p : Phaser) (t : Nat), (p.mem.filter fun m => m.task != t) = [] → (p.drop t).brk = (p.brk && (p.member t).isNone) ) ∧
  (∀ (p : Phaser) (t : Nat) (m : PhMember), p.member t = some m →
    p.passed t = decide (0 ≤ (p.ph - m.wph).toInt) ∧ ∃ q, (p.waited t).member t = some q ∧ q.wph = p.ph + 1 ∧ (p.waited t).ph = p.ph) ∧
  (∀ (s : State) (o : PhOp) (r : List PhOp), nextPhOp (s.phops.filter fun o => decide (o.due.toNat ≤ (s.acyc[dieOf o.src]).toNat)) = some (o, r) →
    (∀ q ∈ s.phops, q.due.toNat ≤ (s.acyc[dieOf q.src]).toNat → o.due.toNat ≤ q.due.toNat) ∧
    exec .phaserOpApply s = .next (phApply { s with phops := s.phops.erase o } o)) ∧
  (∀ (s : State) (o : PhOp), o.n < 32 → let p := phOf s o.core o.n
    let q := phOf (phApply s o) o.core o.n
    (o.act ≠ .brk → ∀ u, ((phApply s o).ctx? u).map (·.holds) = (s.ctx? u).map (·.holds)) ∧
    (∀ m, o.act = .reg m → q.ph = (p.reg o.task m).ph) ∧ (o.act = .drop → q.ph = (p.drop o.task).ph) ∧
    (o.act = .arrive → q.ph = (p.arriveAll o.task).ph)) ∧
  (∀ (s : State) (t n : Nat) (x : Context) (m : PhMember), s.ctx? t = some x → n < 32 → x.holds = [.phaw .ctx n] →
    (phOf s x.core n).brk = false → (phOf s x.core n).member t = some m →
    ((phOf s x.core n).passed t = true → ∃ y, (phawDone s t n).ctx? t = some y ∧ y.holds = [] ∧
      phOf (phawDone s t n) x.core n = (phOf s x.core n).waited t) ∧
    ((phOf s x.core n).passed t = false → phawDone s t n = s))

/-! ### Node statistics -/

/-- How a node instruction completes: a local operation joins those outstanding, with what of its task comes before it (R111); a
remote one leaves on the stream of its slot, or waits behind that with the number it has taken; one that returns pushes an
entry at latency 24. -/
def NodeIssues (s : State) (t : Nat) (x : Context) (g : Guard) (i : Instr) (a : SSel) (b : Option SSel) (tb ret nul : Bool)
    (ok : Prop) (op : NsOp) : Prop :=
  let os := Opd.s a :: (b.map Opd.s).toList
  let va := sVal s x true a
  let id : W32 := va.setWidth 32
  let slot := (va.extractLsb' 32 4).toNat
  let s0 := popOps s x true os
  let det := tb && scopeOf s t != 0
  let tick := if det then some (((s.ctx? t).map (·.tkiss)).getD x.tkiss) else none
  let fork := forkOf s0 t x
  let q : NodeOp := { id := s.fresh, task := t, launch := x.launch, core := x.core, node := id, op := op, tick := tick, cur := id,
                      fork := fork, pend := if ret then some (nextId s0 t) else none }
  let s1 := countTick { s0.tick with nops := s0.nops ++ [q] } t tick
  readable s x (gTrue g x) os (if ret then 1 else 0) = true →
    (gTrue g x = false → exec i s = .next (if ret then pushS s t 24 0 else s)) ∧
    (gTrue g x = true → va.extractLsb' 36 28 = 0 → ok → ¬(det = true ∧ ((look s.tasks t).map (·.retired)).getD false = true) →
      (((id = nullId ∧ nul = true) ∨ (id ≠ nullId ∧ idIndex id < 2 ^ 20 ∧ idPkg id = s.fab.ep ∧ s.fab.ep ≤ s.fab.domHi)) →
        (det = true → isHead s t = true ∨ stageUsed s q.die < 4096) →
        exec i s = .next (if ret then pushQ s1 t .s 24 none else s1)) ∧
      (∀ n r, id ≠ nullId → idIndex id < 2 ^ 20 → idPkg id ≠ s.fab.ep → idPkg id ≤ s.fab.domHi → strmOf s x slot = some (n, r) →
        r.failed = false → r.holes = [] → r.ep = idPkg id → strmFull s x slot = false →
        (ret = true → tagsOut s x.core + ((s.latch.map (·.far)).getD []).length < 4096) →
        (det = true → ftgAdmits s x.launch (idPkg id) = true) →
        (¬(fork.waits = [] ∧ fork.pends = [] ∧ ∀ p ∈ fork.acks, p.1 = n) →
          ∃ s', exec i s = .next s' ∧ s'.fab.out = s.fab.out ∧ s'.nops = s.nops ∧
            (look s'.fab.strms n).map (·.next) = some ((r.next + 1) % 2 ^ 32) ∧
            ∃ y e, s'.ctx? t = some y ∧ e ∈ y.rels ∧ e.pends = fork.pends ∧ e.acks = fork.acks.filter (fun p => p.1 != n)) ∧
        (fork.waits = [] → fork.pends = [] → (∀ p ∈ fork.acks, p.1 = n) → ∃ s' m k rq, exec i s = .next s' ∧ s'.fab.out = s.fab.out ++ [m] ∧ m.dst = idPkg id ∧ m.task = t ∧ m.msg = .strm k ∧
          k.strm = n ∧ k.seq = r.next ∧ k.tick.isSome = det ∧ k.body = .node id x.launch op rq ∧ rq.isSome = ret ∧ s'.nops = s.nops)))

/-- R433 to R442: the node instructions complete. -/
def Obligations.NodeInstructions : Prop :=
  ∀ (s : State) (t : Nat) (x : Context) (g : Guard) (a b : SSel) (tb : Bool), s.issuer = .ok (t, x) →
    let v := sVal s x true b
    NodeIssues s t x g (.nsvl g a b tb) a (some b) tb false false (v.extractLsb' 16 48 = 0) (.vl (v.setWidth 16)) ∧
    (∀ alt, NodeIssues s t x g (.nsback g a b tb alt) a (some b) tb false false (v.extractLsb' 32 16 = 0)
      (.back (v.setWidth 32) (v.extractLsb' 48 16) alt)) ∧
    NodeIssues s t x g (.nssel g a b tb) a (some b) tb true false True (.sel (v.extractLsb' 32 32) (v.setWidth 32)) ∧
    (∀ w, NodeIssues s t x g (.nsrd g a b tb (.word w)) a none tb true false True (.rd (.word w) 0)) ∧
    NodeIssues s t x g (.nsrd g a b tb .sp) a (some b) tb true false
      (v.toNat % 32 = 0 ∧ v.toNat + 32 ≤ spExt (s.core x.core).part ∧ drainHeld s x t x.core = false) (.rd .sp v.toNat) ∧
    (∀ ft, NodeIssues s t x g (.nswr g a b tb ft) a (some b) tb false false (nswrOk ft (sVal s x true a) v = true) (.wr ft v)) ∧
    (let n := (v.extractLsb' 0 16).toNat
     let o := (v.extractLsb' 32 22).toNat
     NodeIssues s t x g (.nsalloc g a b tb) a (some b) tb true true
      (1 ≤ n ∧ n ≤ 4096 ∧ o % 2 = 0 ∧ o + 2 * n ≤ spExt (s.core x.core).part ∧ drainHeld s x t x.core = false ∧
        spBad s x.core o (2 * n) = false)
      (.alloc (readPriors s x.core o n))) ∧
    NodeIssues s t x g (.nsallocFree g a tb) a none tb true false True .free

/-- R430, R432, R435 to R440: node records. A walk adds at each record up the chain, saturating; a run of records is the
lowest free one; a selection is a child of the highest score; an operation that can begin is applied in one step,
and one whose record has been written gives its value in a later step. -/
def Obligations.NodeRecords : Prop :=
  (∀ (r : NodeRec) (amt : BitVec 16) (neg : Bool), (updateRec (.vl amt) neg r) = { r with vl := BitVec.ofNat 16 (min (r.vl.toNat + amt.toNat) 65535) }) ∧
  (∀ (r : NodeRec) (v : W32) (n : BitVec 16) (alt neg : Bool), let u := updateRec (.back v n alt) neg r
    u.w = (if neg then r.w - Arith.toFx64 v else r.w + Arith.toFx64 v) ∧ u.n.toNat = min (r.n.toNat + 1) 0xFFFFFFFF ∧
    u.vl.toNat = r.vl.toNat - n.toNat ∧ u.parent = r.parent ∧ u.p = r.p ∧ u.user = r.user) ∧
  (∀ (n lo i : Nat) (m : SMap NodeRec), (m.map (·.1)).Pairwise (· < ·) → freeRun n lo m = some i →
    lo ≤ i ∧ i + n ≤ 2 ^ 20 ∧ (∀ j, i ≤ j → j < i + n → look m j = none) ∧
    ∀ h, lo ≤ h → h < i → ∃ j, h ≤ j ∧ j < h + n ∧ (look m j).isSome = true) ∧
  (∀ (l : List (W32 × Nat)) (b : W32 × Nat), bestChild l = some b → b ∈ l ∧
    ∀ a ∈ l, Arith.totalKey (BitVec.ofNat 32 a.2) ≤ Arith.totalKey (BitVec.ofNat 32 b.2)) ∧
  (∀ (s : State) (w : Who) (x : W32) (r : NodeRec), recAt s x = some r → r.owner = (w.ep, w.launch) → r.bad = false → r.parent = nullId →
    ∀ op, nsWalks op = true → (walkStep w op s { cur := x }).1 = putRec s x (updateRec op false r) ∧
      (walkStep w op s { cur := x }).2.2 = .done none) ∧
  (∀ (s : State) (w : Who) (x : W32) (r : NodeRec) (f : NsField) (b : W64), recAt s x = some r → r.bad = false →
    (r.owner = (w.ep, w.launch) → doWr s w x f b = (putRec s x (r.write f b), {})) ∧
    (r.owner ≠ (w.ep, w.launch) → (doWr s w x f b).1.basin = s.basin ∧ (doWr s w x f b).2.err = some (nsNotOwner, x)) ∧
    (∀ i, doRd s w x (.word i) = (s, { val := BitVec.ofNat 64 (r.word i.toNat) }))) ∧
  (∀ (s : State) (q : NodeOp), nopOf s s.ev.num = some q →
    (∀ v, q.fin = some v → exec .basinApply s = .next (lands { s with nops := s.nops.filter fun o => o.id != q.id } q v)) ∧
    (q.fin = none → nopReady s q = true → (nsWalks q.op = false → exec .basinApply s = .next (endNop (applyNs s (q.who s) q.die q.node q.op).1 q (applyNs s (q.who s) q.die q.node q.op).2)) ∧
    (nsWalks q.op = true → ∀ s1 a e, walkStep (q.who s) q.op s { cur := q.cur, neg := q.neg, visited := q.visited } = (s1, a, .done e) →
      exec .nodeWalkStep s = .next (endNop s1 q { err := e })) ∧
    (nsWalks q.op = true → ∀ s1 a, walkStep (q.who s) q.op s { cur := q.cur, neg := q.neg, visited := q.visited } = (s1, a, .more) →
      ∃ s', exec .nodeWalkStep s = .next s' ∧ s'.basin = s1.basin ∧
        nopOf s' s.ev.num = some { q with begun := true, cur := a.cur, neg := a.neg, visited := a.visited })))

/-! ### Generation -/

/-- R446 to R448, R450, R453, R454, R457, R458, R461, R462, R467: the generation instructions. One that sends an operation
sends it to the instance of its task's group, to arrive after 4 cycles on the instance's die and 12 from the other;
GSITER.layer, GSITER.end and GSACC release first; GSACC pushes the accepted node and its token; GSWAIT pushes the status
word of a pass once its condition holds, and holds its bundle till then; GSITER.start holds its bundle while the bucket's
limit of passes is reached; GSSAMP issues a sampling instance. The model's choice in it: GSITER.layer and GSITER.end take the
low 32 bits of the register that holds their ITN (log entry 67). -/
def Obligations.GenerationInstructions : Prop :=
  ∀ (s : State) (t : Nat) (x : Context) (g : Guard) (a b : SSel), s.issuer = .ok (t, x) →
    let u := sVal s x true a
    let v := sVal s x true b
    let s1 := popOps s x true [.s a]
    let s2 := popOps s x true [.s a, .s b]
    let hold := s.modLatch fun l => { l with held := true }
    (∀ n, exec (.gscfg g a true n) s = .next (if gTrue g x then sendGs (popOps s x true []) t x.core (.bucket n.toFin none) else s)) ∧
    (readable s x (gTrue g x) [.s a] 0 = true →
      (gTrue g x = false → (∀ n, exec (.gscfg g a false n) s = .next s) ∧ exec (.gsocc g a) s = .next s ∧ exec (.gsdlen g a) s = .next s ∧
        exec (.gsseed g a) s = .next s ∧ exec (.gsiterStart g a) s = .next s ∧ exec (.gssamp g a) s = .next s) ∧
      (gTrue g x = true →
        (∀ n k, u.toNat % 32 = 0 → u.toNat + 32 ≤ spExt (s.core x.core).part → drainHeld s x t x.core = false →
          spBad s x.core u.toNat 32 = false → bucketOf (spRead s x.core u.toNat 32) = some k →
          exec (.gscfg g a false n) s = .next (sendGs s1 t x.core (.bucket n.toFin (some k)))) ∧
        (1 ≤ u.toNat → u.toNat ≤ 256 → exec (.gsocc g a) s = .next (sendGs s1 t x.core (.occ u.toNat))) ∧
        ((u.toNat = 0 ∨ 256 < u.toNat) → exec (.gsocc g a) s = .next (raise s { code := cOperand, sub := 0x31, info := u })) ∧
        (u.toNat ≤ 255 → exec (.gsdlen g a) s = .next (sendGs s1 t x.core (.dlen u.toNat))) ∧
        (255 < u.toNat → exec (.gsdlen g a) s = .next (raise s { code := cOperand, sub := 0x32, info := u })) ∧
        exec (.gsseed g a) s = .next (sendGs s1 t x.core (.seed u)) ∧
        (∀ e, u.extractLsb' 8 23 = 0 → groupEntry s t = some e → startHold s t e = .ok () →
          exec (.gsiterStart g a) s = .next (sendGs s1 t x.core (.start u))) ∧
        (∀ e, u.extractLsb' 8 23 = 0 → groupEntry s t = some e → startHold s t e = .error .hold → exec (.gsiterStart g a) s = .next hold) ∧
        (∀ i d m, let bs := spRead s x.core u.toNat 64
          let nrow := fld bs 6 2
          let out := BitVec.ofNat 64 (fld bs 0x2C 4)
          (s.fab.colls.filter fun c => c.task == t && !c.fin && c.key.kind == .samp).length < 4 →
          u.toNat % 64 = 0 → u.toNat + 64 ≤ spExt (s.core x.core).part → drainHeld s x t x.core = false →
          spBad s x.core u.toNat 64 = false → TreeSound d → sampOk s bs = true → syncOk s x.core bs = true → collBusy s (fld bs 0 2) = false →
          treeOf s x.core t (BitVec.ofNat 64 (fld bs 0x18 8)) false = some (i, d, m) → nrow ≤ d.nodes.length →
          out.toNat % 4 = 0 → out.toNat + 4 * nrow ≤ spExt (s.core x.core).part →
          ∃ c, exec (.gssamp g a) s = .next (collIssue s1 c) ∧ c.key = ⟨.samp, fld bs 0 2, [fld bs 2 2, fld bs 4 2, nrow, fld bs 8 4, fld bs 0x14 4]⟩ ∧
            c.task = t ∧ c.core = x.core ∧ c.src = BitVec.ofNat 64 (fld bs 0x20 8) ∧ c.vn = fld bs 0x10 4 ∧ c.fork = forkOf s t x ∧
            c.pos = (List.range nrow).map fun i => d.basePos + BitVec.ofNat 32 ((d.node i).depth + 1)))) ∧
    (readable s x (gTrue g x) [.s a, .s b] 0 = true →
      (gTrue g x = false → exec (.gsiterLayer g a b) s = .next s) ∧
      (gTrue g x = true → u.toNat ≤ 4095 → exec (.gsiterLayer g a b) s = .next (gsRelease s2 t (.layer u.toNat (v.setWidth 32))))) ∧
    (readable s x (gTrue g x) [.s b] 0 = true → exec (.gsiterEnd g b) s =
      .next (if gTrue g x then gsRelease (popOps s x true [.s b]) t (.fin (v.setWidth 32)) else s)) ∧
    (readable s x (gTrue g x) [.s a, .s b] 1 = true →
      (gTrue g x = false → exec (.gsacc g a b) s = .next (pushS s t 4 0)) ∧
      (∀ i d m, gTrue g x = true → u.extractLsb' 8 24 = 0 → treeOf s x.core t (u &&& 0xFF) false = some (i, d, m) →
        v.toNat % 4 = 0 → v.toNat + 4 * d.nodes.length ≤ spExt (s.core x.core).part → drainHeld s x t x.core = false →
        spBad s x.core v.toNat (4 * d.nodes.length) = false → TreeSound d →
        let bs := spRead s x.core v.toNat (4 * d.nodes.length)
        let toks := (List.range d.nodes.length).map fun i => laneOf ((bs.drop (4 * i)).take 4)
        let r := accWalk d toks d.nodes.length 0
        exec (.gsacc g a b) s = .next (pushS (gsRelease s2 t (.acc (u.extractLsb' 32 32) r.1 r.2)) t 4
          (BitVec.ofNat 64 (r.2.toNat * 2 ^ 32 + (d.node r.1).depth * 2 ^ 8 + r.1)))) ∧
      (∀ cl, x.trapMode = false → gTrue g x = false → exec (.gsnoise g a b cl) s = .next (pushAll s t cl 6 false VReg.zero)) ∧
      (∀ cl, x.trapMode = false → gTrue g x = true → v.extractLsb' 32 32 = 0 →
        exec (.gsnoise g a b cl) s = .next (pushQ (sendGs s2 t x.core
          (.noise (u.setWidth 32) (u.extractLsb' 32 32) (v.setWidth 32) (nextId s t))) t (cluQ cl) 6 none))) ∧
    (∀ lay : Bool, let os := Opd.s a :: (if lay then [.s b] else [])
      let l := if lay then v else 0
      let q := gsqOf s ((groupEntry s t).getD 256)
      readable s x (gTrue g x) os 1 = true →
      (gTrue g x = false → exec (.gswait g a b lay) s = .next (pushS s t 2 0)) ∧
      (gTrue g x = true → u.extractLsb' 32 32 = 0 → l.toNat ≤ 4095 → gsReleased q (q.find (u.setWidth 32)) lay l.toNat = true →
        exec (.gswait g a b lay) s = .next (pushS (dropClean (popOps s x true os) x.core) t 2 (q.find (u.setWidth 32)).word)) ∧
      (gTrue g x = true → u.extractLsb' 32 32 = 0 → l.toNat ≤ 4095 → gsReleased q (q.find (u.setWidth 32)) lay l.toNat = false →
        exec (.gswait g a b lay) s = .next hold))

/-- R446, R447, R449, R450, R454, R459: an operation whose cycle has come reaches its instance. The first start of a pass opens
it behind the others, of which the 16 newest stay, with the first bucket that fits, which takes OCC and DLEN as they stand; it opens DRAINED
where none fits, or where the pass before it, which it makes its predecessor, has refuted its assumption; a later start joins
it, with GEN pending where the words differ or the pass has left the table; a pass not yet opened holds its waits;
an ITN is never 0; the status word holds the acceptance; a start by a task that cannot enrol has GEN pending. -/
def Obligations.GenerationSteps : Prop :=
  (∀ (s : State) (o : GsOp), gsNext s = some o → exec .gsqOpArrival s = .next (gsApply { s with gsops := s.gsops.erase o } o)) ∧
  (∀ s : State, gsNext s = none → exec .gsqOpArrival s = .next s) ∧
  (∀ (g : Gsq) (w : W64), (g.passes.map (·.k)).Pairwise (· > ·) → (∀ p ∈ g.passes, p.k ≤ g.opened) →
    let r := g.open_ w
    let aspec := w.getLsbD 31 && (g.at g.opened).isSome && g.opened != 0
    let refuted := match g.at g.opened with
      | some q => (match q.acc with
        | some (n, tok) => (w.extractLsb' 0 8).toNat != n || w.extractLsb' 32 32 != tok
        | none => q.drained || q.closed)
      | none => false
    r.opened = g.opened + 1 ∧ r.passes.map (·.k) = (g.opened + 1) :: (g.passes.map (·.k)).take 15 ∧
    (∀ j, j ≤ g.opened → r.at j = none ∨ r.at j = g.at j) ∧
    ∃ p, r.at (g.opened + 1) = some p ∧ p.word = w ∧ p.occ = g.occ ∧ p.dlen = g.dlen ∧ p.bkt = g.fit.map (·.1) ∧
      p.aspec = aspec ∧ p.drained = (g.fit.isNone || (aspec && refuted)) ∧ p.closed = false ∧ p.acc = none ∧ p.joined = []) ∧
  (∀ (s : State) (e t : Nat) (w : W64), let g := gsqOf s e
    let k := (look g.parts t).getD 0 + 1
    let g1 := { g with parts := put g.parts t k }
    let join := fun (g : Gsq) => g.mod k fun p => { p with joined := p.joined ++ [t] }
    ((look g.parts t).isSome = true ∨ g.parts.length < g.npart) →
    (g.at k = none → k = g.opened + 1 → gsStart s e t w = setGsq s e (join (g1.open_ w))) ∧
    (g.at k = none → k ≤ g.opened → gsStart s e t w = postAsync (setGsq s e g1) t (genCause 3 (itnOf k))) ∧
    (∀ p, g.at k = some p → gsStart s e t w =
      if p.word = w then setGsq s e (join g1) else postAsync (setGsq s e (join g1)) t (genCause 2 (itnOf k)))) ∧
  (∀ (g : Gsq) (n : Nat) (b : Bucket), g.fit = some (n, b) → n < 16 ∧ g.buckets.getD n none = some b ∧ g.occ ≤ b.occMax ∧ g.dlen ≤ b.dlMax ∧
    ∀ m c, m < n → g.buckets.getD m none = some c → ¬(g.occ ≤ c.occMax ∧ g.dlen ≤ c.dlMax)) ∧
  (∀ (g : Gsq) (itn : W32), g.opened < 2 ^ 32 - 1 → g.opened < itn.toNat → (∀ p ∈ g.passes, 1 ≤ p.k ∧ p.k ≤ g.opened) →
    g.find itn = .future ∧ ∀ lay l, gsReleased g (g.find itn) lay l = false) ∧
  (∀ k : Nat, 1 ≤ k → itnOf k ≠ 0 ∧ (k < 2 ^ 32 → (itnOf k).toNat = k)) ∧
  (∀ (p : Pass) (n : Nat) (tok : W32), p.acc = some (n, tok) → n < 256 → p.closed = false → p.drained = false → p.bkt = some 0 →
    (Found.pass p).word.extractLsb' 32 32 = tok ∧ ((Found.pass p).word.extractLsb' 24 8).toNat = n ∧ (Found.pass p).word.extractLsb' 0 5 = 0b00011) ∧
  (∀ (s : State) (e t : Nat) (w : W64), look (gsqOf s e).parts t = none → (gsqOf s e).npart ≤ (gsqOf s e).parts.length →
    gsStart s e t w = postAsync s t (genCause 1 0))
/-! ### Control registers -/

/-- R158, R159, R347, R411, R470, R494: what a write of each writable number writes. -/
def WritesByNumber : Prop :=
  ∀ (s : State) (t : Nat) (x : Context) (v : W64),
    csrWrite s t x 0x003 v = writeExpchk s t v ∧ csrWrite s t x 0x010 v = writeTvec s t v ∧ csrWrite s t x 0x011 v = writeTrappc s t v ∧
    csrWrite s t x 0x201 v = writeRxring s x.core v ∧ csrWrite s t x 0x203 v = writeFtgcfg s x.launch v ∧
    csrWrite s t x 0x2C3 v = writeTteage s x.launch v ∧ csrWrite s t x 0x2C4 v = writeBfcfg s x.launch v ∧
    csrWrite s t x 0x2C5 v = writeBftab s x.launch v ∧ csrWrite s t x 0x383 v = writeGsctl s t v ∧
    csrWrite s t x 0x3C0 v = writeSnapcfg s x.launch v
/-- R158, R159, R347, R411, R443, R470, R494: what a read of a number reads: the context's, the core's, the die's, the task's and
the launch's registers, and zero from a number that has none. -/
def ReadsByNumber : Prop :=
  ∀ (s : State) (t : Nat) (x : Context),
    let r := csrRead s t x
    (x.num < 16 → x.core < 512 → (r 0x000).toNat = x.core * 16 + x.num) ∧
    r 0x001 = BitVec.ofNat 64 x.ccyc ∧ r 0x002 = s.acyc[dieOf x.core] ∧ r 0x003 = (if x.expchk then 1 else 0) ∧
    r 0x004 = (s.core x.core).part.setWidth 64 ∧ r 0x005 = x.liveK.setWidth 64 ∧ r 0x006 = x.liveA.setWidth 64 ∧
    r 0x007 = x.liveB.setWidth 64 ∧ r 0x008 = BitVec.ofNat 64 (s.core x.core).cq.length ∧ r 0x00A = BitVec.ofNat 64 x.mrgwait ∧
    r 0x010 = x.tvec ∧ r 0x011 = x.trappc ∧ r 0x012 = (if x.trapMode then 1 else 0) ∧ r 0x013 = x.trec.slots.setWidth 64 ∧
    (∀ i, i < 8 → r (0x018 + i) = x.trec.word i) ∧ r 0x140 = (s.core x.core).trroot ∧ r 0x181 = (s.core x.core).me.beats ∧
    r 0x182 = (s.core x.core).me.replays ∧ r 0x201 = (s.core x.core).rxRing ∧ r 0x280 = BitVec.ofNat 64 s.pg.mapn ∧
    (∀ k, look s.tasks t = some k → (∀ tk, k.ticket = some tk → r 0x2C0 = tk) ∧ r 0x2C1 = k.key.setWidth 64 ∧ r 0x341 = k.nserr) ∧
    (∀ l, look s.launches x.launch = some l → r 0x203 = l.ftgcfg ∧ r 0x2C3 = l.tteage.setWidth 64 ∧ r 0x2C4 = l.bfcfg ∧
      r 0x2C5 = l.bftab ∧ r 0x3C0 = l.snapcfg) ∧
    (∀ e, groupEntry s t = some e → r 0x383 = BitVec.ofNat 64 (gsqOf s e).npart ∧ r 0x384 = (gsqOf s e).seed) ∧
    r 0x381 = gsCur s t ∧ r 0x382 = gsEntry s t ∧
    (∀ n, (0x014 ≤ n ∧ n < 0x018) ∨ (0x020 ≤ n ∧ n < 0x100) ∨ (0x112 ≤ n ∧ n < 0x140) ∨ (0x183 ≤ n ∧ n < 0x1C0) ∨
      (0x204 ≤ n ∧ n < 0x280) ∨ (0x385 ≤ n ∧ n < 0x3C0) ∨ 0x3C4 ≤ n → r n = 0)

/-- R5, R158, R159, R190, R347, R411, R470, R494: CSRR pushes a control register, and one of GSCUR or GSENTRY waits for
the generation operations of its context; CSRW writes a register, within a bundle at the bundle's end, and one that only
trap mode writes raises PRIV outside it; a write to a read-only number has no effect; each writable number writes its own
register, which keeps the bits of its layout, and a read gives the register of its number, or zero where there is none. -/
def Obligations.ControlRegisters : Prop :=
  (∀ (s : State) (t : Nat) (x : Context) (g : BitVec 3) (a : SSel) (n : BitVec 12), s.issuer = .ok (t, x) →
    (readable s x (gOn g x) [] 1 = true →
      (gOn g x = false → exec (.csrr g n) s = .next (pushS s t 2 0)) ∧
      (gOn g x = true → ((n = 0x381 ∨ n = 0x382) → gsFly s t = false) → exec (.csrr g n) s = .next (pushS s t 2 (csrRead s t x n.toNat))) ∧
      (gsFly s t = false → ∀ f, s.ev.flag = f → readable s x true [] 1 = true →
        exec .gscurRead s = .next (pushS s t 2 (if f then gsEntry s t else gsCur s t)))) ∧
    (readable s x (gOn g x) [] 1 = true → gOn g x = true → (n = 0x381 ∨ n = 0x382) → gsFly s t = true →
      exec (.csrr g n) s = .next (s.modLatch fun l => { l with held := true })) ∧
    (readable s x (gOn g x) [.s a] 0 = true →
      let s0 := popOps s x true [.s a]
      (gOn g x = false → exec (.csrw g a n) s = .next s) ∧
      (gOn g x = true → ((n = 0x003 ∨ n = 0x011) → x.trapMode = true) →
        exec (.csrw g a n) s = .next (if s0.latch.isSome then s0.modLatch fun l => { l with csrw := some (n.toNat, sVal s x true a) }
          else csrWrite s0 t x n.toNat (sVal s x true a))) ∧
      (gOn g x = true → (n = 0x003 ∨ n = 0x011) → x.trapMode = false → exec (.csrw g a n) s = .next (raise s { code := cPriv })))) ∧
  (∀ (s : State) (t : Nat) (x : Context), s.issuer = .ok (t, x) →
    let v := s.ev.val
    (x.trapMode = true → exec .expchkWrite s = .next (writeExpchk s t v) ∧ exec .trappcWrite s = .next (writeTrappc s t v)) ∧
    (x.trapMode = false → exec .expchkWrite s = .next (raise s { code := cPriv }) ∧ exec .trappcWrite s = .next (raise s { code := cPriv })) ∧
    exec .rxringWrite s = .next (writeRxring s x.core v) ∧ exec .ftgcfgWrite s = .next (writeFtgcfg s x.launch v) ∧
    exec .tteageWrite s = .next (writeTteage s x.launch v) ∧ exec .bfcfgWrite s = .next (writeBfcfg s x.launch v) ∧
    exec .bftabWrite s = .next (writeBftab s x.launch v) ∧ exec .gsctlWrite s = .next (writeGsctl s t v) ∧
    exec .snapcfgWrite s = .next (writeSnapcfg s x.launch v)) ∧
  (∀ (s : State) (t : Nat) (x : Context) (ws : List W32) (l : Latch) (n : Nat) (v : W64), l.csrw = some (n, v) → hasLive ws = false →
    lateEffects s t x ws l = (csrWrite s t x n v).modCtx t fun y => if y.rte then { y with wait := rteWait y x.ccyc } else y) ∧
  (∀ (s : State) (t : Nat) (y : Context) (v : W64), s.ctx? t = some y →
    (writeExpchk s t v).ctx? t = some { y with expchk := v.getLsbD 0 } ∧
    (writeTvec s t v).ctx? t = some { y with tvec := v &&& 0x00FFFFFFFFFFFFFD } ∧
    (writeTrappc s t v).ctx? t = some { y with trappc := v &&& 0x00FFFFFFFFFFFFFC }) ∧
  (∀ (s : State) (c : Nat) (v : W64), let k := s.core c
    let b := (v.extractLsb' 0 22).toNat
    (writeRxring s c v).core c = (if k.ringN ≠ 0 ∨ b % 128 ≠ 0 ∨ spExt k.part < b + 128 * (v.extractLsb' 32 16).toNat then k
      else { k with rxRing := v &&& 0x0000FFFF003FFFFF, ringRd := 0 })) ∧
  (∀ (s : State) (l : Nat) (r : Launch) (v : W64), look s.launches l = some r →
    look (writeTteage s l v).launches l = some { r with tteage := v.setWidth 32 } ∧
    look (writeFtgcfg s l v).launches l = some (if r.ftgUsed then r else { r with ftgcfg := v &&& 0x83FF03FF0000FFFF }) ∧
    look (writeBftab s l v).launches l = some { r with bftab := v &&& 0x0000FFFFFFFFFFE1 } ∧
    look (writeSnapcfg s l v).launches l = some { r with snapcfg := v &&& 0x1FFFFE } ∧
    ∃ q, look (writeBfcfg s l v).launches l = some q ∧ q.bfcfg.extractLsb' 0 32 = v.extractLsb' 0 32 ∧
      bsize q = (if 1 ≤ (v.extractLsb' 32 9).toNat ∧ (v.extractLsb' 32 9).toNat ≤ 256 then (v.extractLsb' 32 9).toNat else bsize r)) ∧
  (∀ (s : State) (t e : Nat) (v : W64), groupEntry s t = some e → let n := (v.extractLsb' 0 9).toNat
    gsqOf (writeGsctl s t v) e = (if 1 ≤ n ∧ n ≤ 320 ∧ (gsqOf s e).parts = [] then { gsqOf s e with npart := n } else gsqOf s e)) ∧
  (∀ (s : State) (t : Nat) (x : Context) (n : Nat) (v : W64),
    n ∉ [0x003, 0x010, 0x011, 0x201, 0x203, 0x2C3, 0x2C4, 0x2C5, 0x383, 0x3C0] → csrWrite s t x n v = s) ∧
  WritesByNumber ∧ ReadsByNumber

/-! ### The sequencer -/

/-- R129, R132, R134, R138, R142, R147, R181: the sequencer's steps. A due result lands; an explicit wait ends; a core's
merge stage takes a cycle; a pending cause is taken at a boundary outside trap mode, the lowest first; a block is cached;
a bundle is fetched ahead, or its fetch faults and is noted; an iteration ends; RTE leaves once nothing of its handler is pending; releases are performed, and an EXIT or a kill that waited for them ends. -/
def Obligations.SequencerSteps : Prop :=
  (∀ s : State, exec .mergeIssueCycle s = .next (mergeCycle s s.ev.core)) ∧
  (∀ (s : State) (x : Context), s.ctx? s.ev.task = some x →
    (∃ s', exec .resultLanding s = .next s' ∧ s'.ctx? s.ev.task = some { x with fr := x.fr.land x.ccyc } ∧ s'.mem = s.mem ∧ s'.cores = s.cores) ∧
    (x.wait = 1 → ∃ s', exec .waitExpiry s = .next s' ∧ s'.ctx? s.ev.task = some { x with wait := 0, ccyc := x.ccyc + 1 }) ∧
    (∀ c r, x.trapMode = false → atBoundary s s.ev.task x = true → lowestAsync x.asyncs = some (c, r) →
      (∀ d ∈ x.asyncs, c.code ≤ d.code) ∧
      exec .asyncCauseTaken s = .next (takeTrap (s.setCtx s.ev.task { x with asyncs := r }) s.ev.task [(0, c)] true)) ∧
    ((x.trapMode = true ∨ x.asyncs = []) → exec .asyncCauseTaken s = .next s) ∧
    (∀ s1 ws, bundleAt s x x.fr.nest.pos x.pc = (s1, .ok ws) → ∃ s', exec .bundleFetch s = .next s' ∧
      (s1.ctxs = s.ctxs → s'.ctx? s.ev.task = some { x with fetched := some (x.pc, ws) })) ∧
    (∀ s1 k a, bundleAt s x x.fr.nest.pos x.pc = (s1, .fault k a) → ∃ s', exec .bundleFetch s = .next s' ∧
      (s1.ctxs = s.ctxs → s'.ctx? s.ev.task = some { x with ffault := some (x.pc, a) })) ∧
    (∀ l r, x.fr.nest.act = l :: r → l.trip ≠ 0 → l.base + l.len ≤ x.fr.nest.pos →
      let y := applyStrides x (x.fr.nest.set.getD r.length {})
      (l.iter + 1 < l.iters → ∃ f, exec .replayIterationEnd s = .next (nestSkip (s.setCtx s.ev.task f) s.ev.task skipFuel) ∧
        f.pc = l.start ∧ f.fr.nest.act = { l with iter := l.iter + 1 } :: r ∧ f.fr.nest.pos = l.base) ∧
      (l.iters ≤ l.iter + 1 → exec .replayIterationEnd s = .next (nestSkip (s.setCtx s.ev.task (closeLevel y)) s.ev.task skipFuel))) ∧
    exec .rteResume s = .next (rteFinish s s.ev.task (x.ccyc - 1))) ∧
  (∀ (s : State) (b : RcBlock), s.ev.body = .block b → (s.core s.ev.core).res.toList.contains (some s.ev.task) = true →
    ∃ s', exec .regcacheFill s = .next s' ∧ (s.ev.task, b) ∈ (s'.core s.ev.core).rc ∧ s'.ctxs = s.ctxs ∧ s'.mem = s.mem) ∧
  (∀ s : State, exec .releasePerform s = .next (finishDead (finishExit (settle s s.ev.task) s.ev.task) s.ev.task))

/-- R94, R486: a walk from an entry of a level: it ends at an entry that is not present, malformed, or a leaf, goes on in the table
that a valid entry of another kind names, one level down, and ends with ECC where an entry cannot be read; what that raises. -/
def WalkDescends : Prop :=
  (∀ (m : Memory) (pz : List Nat) (va l t : Nat), let a := t + 8 * lvlIndex va (l + 1)
    let e := leNat (rdBytes m a 8)
    (a / 128 ∈ pz → walk m pz va (l + 1) t = .error .ecc) ∧
    (a / 128 ∉ pz → e.testBit 0 = false → walk m pz va (l + 1) t = .error .notmapped) ∧
    (a / 128 ∉ pz → e.testBit 0 = true → malformed e (l + 1) = true → walk m pz va (l + 1) t = .error .malformed) ∧
    (a / 128 ∉ pz → e.testBit 0 = true → malformed e (l + 1) = false →
      (e.testBit 1 = true → walk m pz va (l + 1) t = .ok (l + 1, e)) ∧
      (e.testBit 1 = false → walk m pz va (l + 1) t = walk m pz va l (256 * (e / 256 % 2 ^ 31))))) ∧
  (∀ (m : Memory) (pz : List Nat) (va t : Nat), let a := t + 8 * lvlIndex va 0
    let e := leNat (rdBytes m a 8)
    (a / 128 ∈ pz → walk m pz va 0 t = .error .ecc) ∧
    (a / 128 ∉ pz → e.testBit 0 = false → walk m pz va 0 t = .error .notmapped) ∧
    (a / 128 ∉ pz → e.testBit 0 = true → walk m pz va 0 t = if malformed e 0 then .error .malformed else .ok (0, e))) ∧
  (∀ (a : W64) (aux : Nat), (mmCause .ecc a aux).code = cDataEcc ∧ (mmCause .ecc a aux).sub = 4 ∧ (mmCause .ecc a aux).addr = a ∧
    ∀ m : MM, m ≠ .ecc → (mmCause m a aux).code = cMemory ∧ (mmCause m a aux).sub = m.code ∧ (mmCause m a aux).addr = a)

/-- R94, R95, R97, R108, R118, R119, R153: translation, the directory and the data cache. A core's TLB answers before its
cluster's, which fills it, and that before a walk; a walk follows entries from the root, table by table, and fills both TLBs; a store makes a line dirty for its context, where another context
holds it the race detector refuses; a fence writes a line back: its dirty bytes, and no other, are then in memory; an evicted
line leaves the cache, its dirty bytes written; a fault of a fetch ahead that is never needed is logged. The model's choices in
it: a filled entry stands first in its TLB, and a line leaves the cache by itself only in this step (log entry 11); an entry
that cannot be read is ECC (log entry 92). -/
def Obligations.TranslationAndDirectory : Prop :=
  (∀ (s : State) (e : TlbE), let c := s.ev.core
    let k := s.core c
    let va := s.ev.val.toNat
    let root := (k.trroot.extractLsb' 12 27).toNat * 4096
    k.trroot.getLsbD 0 = true →
    (tlbFind root va k.tlb = some e → exec .pageWalk s = .next s) ∧
    (tlbFind root va k.tlb = none → tlbFind root va ((look s.ctlb (c / 8)).getD []) = some e →
      ∃ s', exec .pageWalk s = .next s' ∧ s'.mem = s.mem ∧ s'.ctxs = s.ctxs ∧ s'.ctlb = s.ctlb ∧ tlbFind root va (s'.core c).tlb = some e) ∧
    (tlbFind root va k.tlb = none → tlbFind root va ((look s.ctlb (c / 8)).getD []) = none → ∀ lvl w, walk s.mem s.poison va 3 root = .ok (lvl, w) →
      let leaf : TlbE := { root := root, lvl := lvl, vpn := va / 2 ^ lvlShift lvl, leaf := BitVec.ofNat 64 w }
      ∃ s', exec .pageWalk s = .next s' ∧ s'.mem = s.mem ∧ s'.ctxs = s.ctxs ∧ tlbFind root va (s'.core c).tlb = some leaf ∧
        tlbFind root va ((look s'.ctlb (c / 8)).getD []) = some leaf) ∧
    (tlbFind root va k.tlb = none → tlbFind root va ((look s.ctlb (c / 8)).getD []) = none → ∀ m, walk s.mem s.poison va 3 root = .error m →
      exec .pageWalk s = .next s)) ∧
  WalkDescends ∧
  (∀ (c t c' t' v : Nat) (store : Bool),
    dirPlain none c t store = some (if store then some (.d c t) else none) ∧
    dirPlain (some (.d c t)) c t store = some (some (.d c t)) ∧
    ((c' ≠ c ∨ t' ≠ t) → dirPlain (some (.d c' t')) c t store = none) ∧
    (c' ≠ c → dirPlain (some (.k c')) c t store = none ∧ dirPlain (some (.p c' v)) c t store = none) ∧
    dirPlain (some (.k c)) c t store = some (some (if store then .d c t else .k c))) ∧
  (∀ (s : State) (k : DirEvent), s.ev.body = .dir k →
    exec .directoryAccess s = .next (dirAccess s s.ev.core s.ev.task s.ev.num s.ev.val k)) ∧
  (∀ (s : State) (c t pa : Nat) (va : W64) (d : DirSt), look s.dir (pa / 128) = some d →
    (d.mine c t = true → look (dirAccess s c t pa va .fence).dir (pa / 128) = none) ∧
    (d.mine c t = false → dirAccess s c t pa va .fence = s) ∧
    (d.mine c t = true → Mem.wf s.mem = true → ∀ ln, dcLine s c (pa / 128) = some ln →
      let m := (dirAccess s c t pa va .fence).mem
      (∀ i, i < 128 → rd8 m (128 * (pa / 128) + i) =
        if ln.dirty.getD i false then ln.data.getD i 0 else rd8 s.mem (128 * (pa / 128) + i)) ∧
      (∀ a, a / 128 ≠ pa / 128 → rd8 m a = rd8 s.mem a)) ∧
    (∀ v, d = .d c t → look (dirAccess s c t pa va (.rel v)).dir (pa / 128) = some (.p c v)) ∧
    (∀ c' v, d = .p c' v → look (dirAccess s c t pa va (.acq v)).dir (pa / 128) = none)) ∧
  (∀ s : State, ∃ s', exec .cacheEviction s = .next s' ∧ dcLine s' s.ev.core s.ev.num = none ∧
    (∀ d, dcLine s s.ev.core s.ev.num = some d → s'.mem = (if d.isDirty then wrBytes s.mem (d.dirtyBytes s.ev.num) else s.mem))) ∧
  (∀ (s : State) (x : Context), s.ctx? s.ev.task = some x →
    (∀ p a, x.ffault = some (p, a) → p ≠ x.pc → exec .fetchAheadFault s =
      .next ((logRas s (dieOf x.core) 0x102 x.core x.num none (some a) none).setCtx s.ev.task { x with ffault := none })) ∧
    ((x.ffault = none ∨ ∃ a, x.ffault = some (x.pc, a)) → exec .fetchAheadFault s = .next s))

/-! ### Traps -/

/-- R146, R149, R150, R151, R154: the causes of a bundle are reported by rank, the lowest first; taking a trap outside
trap mode with TVEC.EN set records the cause, saves the pc in TRAPPC, freezes the main state and goes to TVEC in trap
mode with no result pending; in trap mode, or with TVEC.EN clear, the task is killed and its launch marked; RTE puts the
main state back and goes to TRAPPC. Trap mode permits no slot of the VA, VB, M and X classes; each raises PRIV. -/
def Obligations.TrapsAndReturns : Prop :=
  (∀ (cs : List (Nat × Cause)) (p : Nat) (c : Cause), firstCause cs = some (p, c) →
    (p, c) ∈ cs ∧ ∀ d ∈ cs, causeRank c.code ≤ causeRank d.2.code) ∧
  (∀ (s : State) (t : Nat) (x : Context) (c : Cause) (m : BitVec 8) (async shadow : Bool) (pc : W64), s.ctx? t = some x →
    x.trapMode = false → x.tvec.getLsbD 0 = true →
    ∃ y, (trapEntry s t c m async shadow pc).ctx? t = some y ∧ y.trapMode = true ∧ y.pc = x.tvec &&& 0x00FFFFFFFFFFFFFC ∧
      y.trappc = pc &&& 0x00FFFFFFFFFFFFFC ∧ y.trec.cause = BitVec.ofNat 8 c.code ∧ y.trec.sub = BitVec.ofNat 8 c.sub ∧
      y.trec.slots = m ∧ y.trec.pc = pc ∧ y.trec.addr = c.addr ∧ y.trec.info = c.info ∧ y.trec.core = BitVec.ofNat 16 x.core ∧
      y.trec.ctx = BitVec.ofNat 8 x.num ∧ y.trec.flags = BitVec.ofNat 8 ((if async then 1 else 0) + (if shadow then 4 else 0)) ∧
      y.trec.acyc = s.acyc[dieOf x.core] ∧ y.fr.pend = [] ∧ y.fr.ps = 1 ∧ y.fr.xs = 0 ∧ y.fr.qs = Ring.emptyS ∧ y.wait = 0 ∧
      y.frozen = some (x.fr.freeze (x.ccyc - 1), x.wait) ∧ y.k = x.k ∧ y.va = x.va ∧ y.vb = x.vb ∧ y.tvec = x.tvec ∧ y.ccyc = x.ccyc ∧
      y.expchk = x.expchk) ∧
  (∀ (s : State) (t : Nat) (x : Context) (c : Cause) (m : BitVec 8) (async shadow : Bool) (pc : W64), s.ctx? t = some x →
    (x.trapMode = true ∨ x.tvec.getLsbD 0 = false) → ∃ s', trapEntry s t c m async shadow pc = killTask (launchErr s' x.launch c.addr) t ∧
      ∃ y, s'.ctx? t = some y ∧ y.trec.cause = BitVec.ofNat 8 c.code ∧ y.trec.flags.getLsbD 1 = x.trapMode) ∧
  (∀ (s : State) (t : Nat) (x : Context) (c : Cause), s.cur = some t → s.latch = none → s.ctx? t = some x → sweepOf s t = none →
    raise s c = trapEntry s t c (slotMask c.code [(0, c)]) false false x.pc) ∧
  (∀ (s : State) (c : Cause) (l : Latch) (t : Nat), s.cur = some t → s.latch = some l →
    raise s c = s.modLatch fun l => { l with causes := l.causes ++ [(l.pos, c)] }) ∧
  (∀ (s : State) (t : Nat) (x : Context), s.issuer = .ok (t, x) →
    (x.trapMode = false → exec .rte s = .next (raise s { code := cPriv })) ∧
    (x.trapMode = true → exec .rte s = .next (if s.latch.isSome then s.modCtx t fun y => { y with rte := true, wait := rteWait y x.ccyc }
      else rteFinish (s.modCtx t fun y => { y with rte := true, wait := rteWait y x.ccyc }) t x.ccyc))) ∧
  (∀ (x : Context) (f : Frame) (w cc : Nat), x.frozen = some (f, w) → let y := rteRestore x cc
    y.trapMode = false ∧ y.frozen = none ∧ y.pc = x.trappc &&& 0x00FFFFFFFFFFFFFC ∧ y.wait = w ∧ y.rte = false ∧ y.fr.qs = f.qs ∧ y.fr.qa = f.qa ∧
    y.fr.qb = f.qb ∧ y.fr.ps = f.ps ∧ y.fr.pa = f.pa ∧ y.fr.pb = f.pb ∧ y.fr.xs = f.xs ∧ y.fr.ma = f.ma ∧ y.fr.mb = f.mb ∧ y.fr.nest = f.nest ∧
    y.fr.pend = (f.pend.map fun p => { p with land := cc + p.land }) ∧ y.k = x.k ∧ y.trec = x.trec) ∧
  (∀ (i : Instr) (f : Fields) (s : State) (t : Nat) (x : Context), i.fields = some f → f.cls ∈ [1#3, 2#3, 3#3, 6#3] →
    s.issuer = .ok (t, x) → x.trapMode = true → exec i s = .next (raise s { code := cPriv }))
/-! ### The host and the device -/

/-- The host's commands with the rows of R476: a RESET in TRIPPED waits for the sensors (R471). -/
def hostRows (s : State) : List (Instr × HostCmd) :=
  [(.launch, ⟨0x01, false, [.ready], 128⟩), (.kill, ⟨0x02, false, [.ready], 16⟩), (.resume, ⟨0x03, false, [.ready], 16⟩),
   (.finalcut, ⟨0x10, true, [.rough], 64⟩), (.reset, ⟨0x11, true, if cool s then notOff else [.rough, .finalising, .ready], 0⟩),
   (.setroot, ⟨0x12, true, [.ready], 8⟩), (.setprio, ⟨0x13, true, [.ready], 1⟩), (.setexp, ⟨0x14, true, [.ready], 8⟩),
   (.xlinv, ⟨0x15, true, [.ready], 0⟩), (.mrreg, ⟨0x16, true, [.ready], 17⟩), (.reach, ⟨0x17, true, [.ready], 2⟩),
   (.kekset, ⟨0x18, true, [.rough], 32⟩), (.keyset, ⟨0x19, true, [.ready], 44⟩), (.fencerel, ⟨0x1A, true, [.ready], 2⟩),
   (.pwrcap, ⟨0x1B, true, [.rough, .ready], 2⟩), (.mrdereg, ⟨0x1C, true, [.ready], 8⟩), (.attest, ⟨0x20, false, notOff, 48⟩),
   (.certread, ⟨0x21, false, notOff, 0⟩), (.snapcmd, ⟨0x22, true, [.ready], 9⟩), (.snapread, ⟨0x23, true, [.ready], 9⟩),
   (.logread, ⟨0x24, true, notOff, 8⟩)]

/-- A command message of an established queue pair that no Final Cut holds, as R475 and R476 want it. -/
def Arrives (s : State) (i : Instr) (m : HostMsg) : Prop :=
  s.ev.body = .host m ∧ s.dev.qps.contains s.ev.num = true ∧ cutHolds s s.ev.num i = false

/-- A message that breaks no check of PRIV, STATE, LENGTH, HQ and the header's reserved byte. -/
def Sound (s : State) (i : Instr) (m : HostMsg) (priv : Bool) (modes : List DevMode) (len : Nat) : Prop :=
  Arrives s i m ∧ (priv = true → s.dev.mqp = some s.ev.num) ∧ s.dev.mode ∈ modes ∧ m.payload.length = len ∧ m.hq.toNat < 64 ∧ m.resv = 0

/-- R18, R22, R24, R90, R96, R97, R316, R318, R400, R471, R476, R478, R479, R481 to R483, R488, R492: what each command of the host
does, and its completion; R475, R480: its refusals, first PRIV, then STATE, then LENGTH, then FIELD; an unknown operation is refused
OPCODE; a message with a wrong LMAGIC is dropped and logged. The model's choices in it: the commands of the queue pair of a
Final Cut wait for its end (log entry 51); a RESET in TRIPPED with a hot sensor is refused STATE (log entry 52); FINALCUT clears
the logs when it is accepted (log entry 55); die 0's snapshot area is the lower (log entry 72); the signature and the
certificate chain are opaque, of which CERTREAD gives what fits in a message (log entry 12). -/
def Obligations.HostCommands : Prop :=
  ((∀ (s : State) (m : HostMsg), ∀ p ∈ hostRows s, Arrives s p.1 m → s.dev.mode ≠ .off →
    let ck : W64 := if p.2.opc ≤ 3 then BitVec.ofNat 64 (le m.payload (if p.2.opc = 1 then 0x50 else 8) 8) else 0
    let d : Done := { qp := s.ev.num, hq := m.hq.toNat, msgid := m.msgid, opc := p.2.opc, status := 4, cookie := ck }
    let no := fun (k : Nat) => exec p.1 s = .next (complete s { d with cause := k })
    let okQ := p.2.priv = true → s.dev.mqp = some s.ev.num
    (¬okQ → no 7) ∧ (okQ → s.dev.mode ∉ p.2.modes → no 6) ∧
    (okQ → s.dev.mode ∈ p.2.modes → m.payload.length ≠ p.2.len → no 9) ∧
    (okQ → s.dev.mode ∈ p.2.modes → m.payload.length = p.2.len → 64 ≤ m.hq.toNat → no 1)) ∧
  (∀ (s : State) (m : HostMsg), ∀ i ∈ Instr.plohusUnknown :: (hostRows s).map (·.1), s.ev.body = .host m →
    ((s.dev.mode = .off ∨ s.dev.qps.contains s.ev.num = false) → exec i s = .next s) ∧
    (s.dev.mode ≠ .off → s.dev.qps.contains s.ev.num = true → cutHolds s s.ev.num i = true →
      exec i s = .next { s with dev := { s.dev with waiting := s.dev.waiting ++ [(i, s.ev)] } })) ∧
  (∀ (s : State) (m : HostMsg), Arrives s .plohusUnknown m → s.dev.mode ≠ .off →
    exec .plohusUnknown s = .next (complete s { qp := s.ev.num, hq := m.hq.toNat, msgid := m.msgid, opc := s.ev.cnt, status := 4, cause := 8 })) ∧
  (∀ s : State, s.dev.qps.contains s.ev.num = true → s.dev.mode ≠ .off →
    exec .plohusDrop s = .next (logRas s 0 0x108 0xFFFF 0xFF (some (s.ev.num + 0x8000)) none none)) ∧
  (∀ (s : State) (d : Done), s.dev.qps.contains d.qp = true → ∃ own : W32,
    (complete s d).dev.sent = s.dev.sent ++ [(d.qp,
      (leBytes 0x504C4F48 4 ++ leBytes 0x80 2 ++ leBytes d.hq 1 ++ [0] ++ leBytes own.toNat 4 ++ leBytes (0x20 + d.data.length) 4) ++
      (leBytes d.msgid.toNat 4 ++ leBytes d.opc 2 ++ leBytes d.status 1 ++ leBytes d.cause 1 ++ leBytes d.cookie.toNat 8 ++
       leBytes d.void 4 ++ leBytes (bit d.dlost) 1 ++ [0, 0, 0] ++ leBytes d.err.toNat 8 ++ d.data))])) ∧
  (∀ (s : State) (m : HostMsg), let q := s.ev.num
    let b := m.payload
    let ck : W64 := BitVec.ofNat 64 (le b 8 8)
    let ok := fun (s : State) (opc : Nat) (data : List Byte) =>
      complete s { qp := q, hq := m.hq.toNat, msgid := m.msgid, opc := opc, data := data }
    let root : W64 := BitVec.ofNat 64 (le b 0 8)
    (Sound s .launch m false [.ready] 128 →
      let r : Launch := { qp := q, msgid := m.msgid, hq := m.hq.toNat, raw := b, cookie := BitVec.ofNat 64 (le b 0x50 8) }
      exec .launch s = .next (pump { s with launches := put s.launches s.nlaunch r, nlaunch := s.nlaunch + 1 })) ∧
    (Sound s .kill m false [.ready] 16 → le b 0 8 = 0 →
      let hit := s.launches.filter fun p => p.2.st != .done && p.2.hq == m.hq.toNat && p.2.cookie == ck
      exec .kill s = .next (pump (complete (hit.foldl (fun s p => match look s.launches p.1 with
          | some r => killAny s p.1 r
          | none => s) s)
        { qp := q, hq := m.hq.toNat, msgid := m.msgid, opc := 2, cookie := ck, data := leBytes hit.length 4 }))) ∧
    (∀ l r, look s.launches l = some r → (r.st = .queued ∨ r.st = .granting) →
      killAny s l r = endLaunch (modLaunch s l fun r => { r with status := .killed }) l ∧
      (look (killAny s l r).launches l).map (fun r => (r.st, r.status)) = some (.done, .killed)) ∧
    (Sound s .resume m false [.ready] 16 → le b 0 8 = 0 →
      let hit := fun (r : Launch) => r.st == .running && r.hq == m.hq.toNat && r.cookie == ck && r.stage1 && !r.stage2
      ((s.launches.any fun p => hit p.2) = true → ∃ s1, exec .resume s = .next (complete s1
          { qp := q, hq := m.hq.toNat, msgid := m.msgid, opc := 3, cookie := ck }) ∧
        ∀ l r, look s.launches l = some r →
          look s1.launches l = some (if hit r then { r with stage1 := false, wdFrom := s.acyc[0] } else r)) ∧
      ((s.launches.any fun p => hit p.2) = false → exec .resume s = .next (complete s
        { qp := q, hq := m.hq.toNat, msgid := m.msgid, opc := 3, cookie := ck, status := 4, cause := 10 }))) ∧
    (Sound s .finalcut m true [.rough] 64 → cutField b = false → cutRsvd b = false →
      ∃ s', exec .finalcut s = .next s' ∧ s'.dev.mode = .finalising ∧ s'.dev.payload = some b ∧ s'.dev.fc = some (q, m.hq.toNat, m.msgid, 1) ∧
        s'.viol = Vector.replicate 2 {} ∧ s'.ras = Vector.replicate 2 {} ∧ s'.dev.sent = s.dev.sent) ∧
    (Sound s .reset m true notOff 0 →
      (s.dev.mode = .tripped → cool s = true → exec .reset s = .next (ok { s with dev := { s.dev with mode := .rough } } 0x11 [])) ∧
      (s.dev.mode ≠ .tripped → exec .reset s = .next (ok (goDown s .rough) 0x11 []))) ∧
    (Sound s .setroot m true [.ready] 8 → root &&& 0xFFFFFF8000000FFE = 0 →
      exec .setroot s = .next (ok { s with root := s.root.setIfInBounds m.hq.toNat root } 0x12 [])) ∧
    (Sound s .setprio m true [.ready] 1 →
      exec .setprio s = .next (ok { s with prio := s.prio.setIfInBounds m.hq.toNat (BitVec.ofNat 32 (le b 0 1)) } 0x13 [])) ∧
    (Sound s .setexp m true [.ready] 8 → root &&& 0xFFFFFF8000000FFE = 0 →
      exec .setexp s = .next (ok { s with exproot := root } 0x14 [])) ∧
    (Sound s .xlinv m true [.ready] 0 → ∃ s1, exec .xlinv s = .next (ok s1 0x15 []) ∧ s1.ctlb = [] ∧
      ∀ c, s1.core c = { s.core c with tlb := [] }) ∧
    (Sound s .mrreg m true [.ready] 17 → le b 16 1 ≤ 3 → ∀ i, freeRegion s = some i →
      let g := (look s.dev.gens i).getD 0
      let r : Region := { idx := i, gen := g, base := root, len := le b 8 8, rd := (le b 16 1).testBit 0, wr := (le b 16 1).testBit 1,
                          hq := m.hq.toNat }
      exec .mrreg s = .next (ok { s.tick with dev := { s.dev with regions := s.dev.regions ++ [r] } } 0x16 (leBytes (g * 4096 + i) 4))) ∧
    (Sound s .reach m true [.ready] 2 → le b 0 2 ≤ s.fab.domHi → ∃ s1, exec .reach s = .next (ok s1 0x17 []) ∧
      s1.fab = { s.fab with unreach := s.fab.unreach.filter fun p => p != le b 0 2 }) ∧
    (Sound s .kekset m true [.rough] 32 → exec .kekset s = .next (ok { s with dev := { s.dev with kek := some b } } 0x18 [])) ∧
    (Sound s .keyset m true [.ready] 44 → le b 0 2 ≤ s.fab.domHi → le b 3 1 ≤ 15 → ∀ kek key, s.dev.kek = some kek →
      unwrapKey kek (b.drop 4) = some key → let p := le b 0 2
      (le b 2 1 = 0 → ∃ s1, exec .keyset s = .next (ok s1 0x19 []) ∧
        look s1.fab.sends p = some { epoch := BitVec.ofNat 4 (le b 3 1), ctr := 0, key := some key }) ∧
      (le b 2 1 = 1 → ∃ s1 d, exec .keyset s = .next (ok s1 0x19 []) ∧ look s1.fab.recvs p = some d ∧
        d.epoch = BitVec.ofNat 4 (le b 3 1) ∧ d.key = some key ∧ d.seen = [])) ∧
    (Sound s .fencerel m true [.ready] 2 → le b 0 2 < 320 → (s.core (le b 0 2)).fenced = true →
      exec .fencerel s = .next (ok (s.setCore (le b 0 2) { wantRx := (s.core (le b 0 2)).wantRx }) 0x1A [])) ∧
    (Sound s .pwrcap m true [.rough, .ready] 2 → 800 ≤ le b 0 2 → le b 0 2 ≤ 1900 →
      exec .pwrcap s = .next (ok { s with dev := { s.dev with pwrcap := le b 0 2 } } 0x1B [])) ∧
    (Sound s .mrdereg m true [.ready] 8 → le b 4 4 = 0 → ∀ r, regionOf s (le b 0 4) = some r → ∃ s1,
      exec .mrdereg s = .next (ok s1 0x1C []) ∧ s1.dev.regions = s.dev.regions.filter fun p => !(p.idx == le b 0 4 % 4096 && p.gen == le b 0 4 / 4096)) ∧
    (Sound s .attest m false notOff 48 → ∃ s1, s1.dev.attests = s.dev.attests + 1 ∧ exec .attest s = .next (ok s1 0x20
      (reportBytes s b (s.dev.attests + 1) ++
        (List.range 96).map (Config.attestSig (s.dev.attests + 1) (reportBytes s b (s.dev.attests + 1))))) ∧
      (reportBytes s b (s.dev.attests + 1)).take 48 = b ∧
      ((∀ p, s.dev.payload = some p → (sha384 p).length = 48) → (reportBytes s b (s.dev.attests + 1)).length = 208)) ∧
    (Sound s .certread m false notOff 0 → ∃ c, c.length ≤ 4048 ∧ c <+: Config.certChain ∧ exec .certread s = .next (ok s 0x21 c)) ∧
    (Sound s .snapcmd m true [.ready] 9 → le b 8 1 ≤ 1 →
      exec .snapcmd s = .next (ok (fire s { tag := root, kind := 3, core := 0xFFFF, ctx := 0xFF } (le b 8 1 == 1)) 0x22 [])) ∧
    (Sound s .snapread m true [.ready] 9 → le b 0 1 ≤ 1 → le b 5 4 ≤ 3968 → le b 1 4 + le b 5 4 ≤ 0x100000 →
      exec .snapread s = .next (ok s 0x23 (rdBytes s.mem (0x7FD8000000 - 0x200000 + 0x100000 * le b 0 1 + le b 1 4) (le b 5 4)))) ∧
    (Sound s .logread m true notOff 8 → le b 0 1 ≤ 1 → le b 1 1 ≤ 1 → le b 6 2 ≤ 124 →
      let d : Fin 2 := if le b 0 1 = 0 then 0 else 1
      exec .logread s = .next (ok s 0x24 (logRead (d.val + if le b 1 1 = 0 then 0 else 2) (if le b 1 1 = 0 then s.viol[d] else s.ras[d]) (le b 2 4) (le b 6 2)))))

/-- R471, R472, R474, R479, R482, R483, R485, R486, R488, R492, R493: the steps of the management controller: power, the
steps of Final Cut, clocks, trips, queue pairs, RDMA, errors found by the patrol, captures. A report of the sensors lowers a
die's clock by 25 MHz where its junction is at 95 degrees or the power over the cap, raises it where both are clear of their
limits, and is a trip where a junction is at 105 (what they report is an operand: log entry 104). A capture has its header of 32 bytes: SNAPSEQ, tag, kind with source and
context, ACYC. The model's choices in it: the words of that header (log entry 93) and the bytes behind it, which are opaque (log
entry 13); what a power-down keeps, and that FINALCUT clears the logs (log entry 55); the management queue pair is the first
after Rough Cut, or none (log entry 56); a trip is logged on both dies (log entry 58); die 0's snapshot area is the lower (log
entry 72). -/
def Obligations.DeviceSteps : Prop :=
  (∀ s : State,
    (s.dev.mode = .off → s.ev.flag = true → ∃ s', exec .powerGood s = .next s' ∧ s'.dev = { mode := .rough } ∧ s'.mem = [] ∧ s'.cores = [] ∧
      s'.tasks = [] ∧ s'.pg.flash = s.pg.flash) ∧
    ((s.dev.mode ≠ .off ∨ s.ev.flag = false) → exec .powerGood s = .next s) ∧
    (s.dev.mode ≠ .off → exec .trip s =
      .next (logRas (logRas (goDown s .tripped) 0 0x106 0xFFFF 0xFF none none none) 1 0x106 0xFFFF 0xFF none none none)) ∧
    (∀ m, (goDown s m).dev.mode = m ∧ (goDown s m).mem = [] ∧ (goDown s m).cores = [] ∧ (goDown s m).ctxs = [] ∧ (goDown s m).tasks = [] ∧
      (goDown s m).dev.regions = [] ∧ (goDown s m).dev.kek = s.dev.kek ∧ (goDown s m).dev.pwrcap = s.dev.pwrcap)) ∧
  (∀ (s : State) (q hq : Nat) (id : W32) (n : Nat), s.dev.fc = some (q, hq, id, n) → s.ev.num = n →
    (s.ev.flag = true → n < 6 → ∀ ds, s.ev.body = .data ds → ∃ s', exec .finalCutStepDone s = .next s' ∧ s'.dev.fc = some (q, hq, id, n + 1) ∧
      s'.dev.sent = s.dev.sent ∧ (n = 2 → s'.tasks = [] ∧ s'.dir = [] ∧ s'.gtab = [] ∧ s'.pg.map = []) ∧
      (n = 3 → ∀ b, s.dev.payload = some b → s'.fab.ep = le b 0 2 ∧ s'.fab.domHi = le b 2 2 ∧ s'.fab.nplane = le b 4 1 ∧ s'.dev.dsw = le b 6 2 ∧
        s'.pg.mapn = le b 8 4 ∧ s'.pg.frames = le b 0x0C 4 ∧ s'.pg.fslots = le b 0x10 4 ∧ s'.pg.hslots = le b 0x14 4) ∧
      (n = 4 → s'.acyc = Vector.replicate 2 0) ∧ (n = 5 → s'.fab.up = s.ev.val.setWidth 32)) ∧
    (s.ev.flag = true → n = 6 → ∃ s', exec .finalCutStepDone s = .next s' ∧ s'.dev.mode = .ready ∧ s'.dev.fc = none ∧
      (s.dev.qps.contains q = true → s'.dev.sent.length = s.dev.sent.length + 1)) ∧
    (s.ev.flag = false → ∃ s', exec .finalCutStepDone s = .next s' ∧ s'.dev.mode = .rough ∧ s'.dev.fc = none)) ∧
  (∀ s : State, s.dev.mode ≠ .off →
    let tj := fun (d : Fin 2) => BitVec.ofNat 8 (if d = 0 then s.ev.cnt else s.ev.num)
    let mw := s.ev.val.toNat
    let cap := 1000 * s.dev.pwrcap
    let hot := 105 ≤ (tj 0).toNat ∨ 105 ≤ (tj 1).toNat
    ∃ s', exec .throttleStep s = .next (if s.dev.mode ≠ .tripped ∧ hot then tripped s' else s') ∧
      (∀ d : Fin 2, let k := s.dev.clk[d]
        let k' := s'.dev.clk[d]
        k'.tj = tj d ∧ (released s = false → k'.mhz = k.mhz) ∧
        (released s = true → (95 ≤ (tj d).toNat ∨ cap < mw) → k'.mhz = max 425 (k.mhz - 25)) ∧
        (released s = true → (tj d).toNat < 90 → mw < cap → k'.mhz = min 850 (k.mhz + 25)) ∧
        (released s = true → (tj d).toNat < 95 → mw ≤ cap → (90 ≤ (tj d).toNat ∨ mw = cap) → k'.mhz = k.mhz)) ∧
      s'.dev.mode = s.dev.mode ∧ s'.ctxs = s.ctxs ∧ s'.mem = s.mem ∧
      ((∀ d : Fin 2, s'.dev.clk[d].mhz = s.dev.clk[d].mhz) → s'.ras = s.ras)) ∧
  (∀ s : State,
    (∀ i, portUp s s.ev.num = true → (List.range 256).find? (fun i => !s.dev.qps.contains (256 * s.ev.num + i)) = some i →
      ∃ s', exec .qpEstablish s = .next s' ∧ s'.dev.qps = s.dev.qps ++ [256 * s.ev.num + i] ∧
        s'.dev.mqp = (if s.ev.num = 0 ∧ s.dev.mqpSeen = false then some i else s.dev.mqp)) ∧
    (∃ s', exec .qpTeardown s = .next s' ∧ s'.dev.qps.contains s.ev.num = false ∧ s'.dev.mqp ≠ some s.ev.num) ∧
    (s.dev.qps.contains s.ev.num = true →
      (∀ bs, s.ev.body = .data bs → exec .rdmaWrite s = .next (rdmaWrite s s.ev.num s.ev.cnt s.ev.val bs)) ∧
      exec .rdmaRead s = .next (rdmaRead s s.ev.num s.ev.cnt s.ev.val s.ev.task) ∧
      exec .rdmaAtomicOrUd s = .next (rdmaRefuse s s.ev.num s.ev.val s.ev.cnt))) ∧
  (∀ (s : State) (q key : Nat) (va : W64) (bs : List Byte) (n : Nat),
    (regionOf s key = none → rdmaWrite s q key va bs = rdmaRefuse s q va key ∧ rdmaRead s q key va n = rdmaRefuse s q va key) ∧
    (∀ r, regionOf s key = some r → (r.wr = false → rdmaWrite s q key va bs = rdmaRefuse s q va key) ∧
      (r.rd = false → rdmaRead s q key va n = rdmaRefuse s q va key) ∧
      (∀ ps, r.rd = true → rdmaLines s r va.toNat n .rd = some ps → (∀ p ∈ ps, s.poison.contains (p.2 / 128) = false) →
        rdmaRead s q key va n = rdmaAnswer s q (.data (ps.flatMap fun p => rdBytes s.mem p.2 p.1.2)))) ∧
    (rdmaRefuse s q va key).dev.rdma = s.dev.rdma ++ [(q, .nak)]) ∧
  (∀ s : State,
    (∀ f, s.ev.body = .firing f → s.dev.mode = .ready → exec .clapperCapture s = .next (captureDie (captureDie s f 0) f 1)) ∧
    (∀ (f : Firing) (d : Fin 2), let p := s.dev.snaps[d]
      (∀ c, p.busy = some c → (captureDie s f d).dev.snaps[d].drop = p.drop + 1 ∧ (captureDie s f d).dev.snaps[d].words = p.words) ∧
      (p.busy = none → (captureDie s f d).dev.snaps[d].seq = p.seq + 1 ∧ (captureDie s f d).dev.snaps[d].busy = some (s.acyc[d] + 4096))) ∧
    (∀ (f : Firing) (d : Fin 2), s.dev.snaps[d].busy = none → f.kind < 256 → let w := (captureDie s f d).dev.snaps[d].words
      4 ≤ w.length ∧ w.getD 1 0 = f.tag ∧ (w.getD 2 0).toNat = f.kind + f.src.getD f.core % 65536 * 2 ^ 8 + f.ctx % 256 * 2 ^ 24 ∧
      w.getD 3 0 = s.acyc[d] ∧ (w.getD 0 0).setWidth 32 = (captureDie s f d).dev.snaps[d].seq) ∧
    (∀ ws : List W64, 4 ≤ ws.length → (captureBytes ws).take 32 = (ws.take 4).flatMap (fun w => leBytes w.toNat 8) ∧
      (captureBytes ws).length ≤ 0x100000) ∧
    exec .clapperMessage s = .next (fire s { tag := s.ev.val, kind := 4, core := 0xFFFF, ctx := 0xFF, src := some s.ev.num } false) ∧
    (let d : Fin 2 := if s.ev.num = 0 then 0 else 1
     ∀ c, s.dev.snaps[d].busy = some c → c.toNat ≤ (s.acyc[d]).toNat → ∃ s', exec .captureDone s = .next s' ∧ s'.dev.snaps[d].busy = none ∧
       s'.mem = wrBytes s.mem (place (snapBase d) (captureBytes s.dev.snaps[d].words)))) ∧
  (∀ s : State, released s = true → let d : Fin 2 := if s.ev.num = 0 then 0 else 1
    let core := if s.ev.sel.toNat ≤ 3 then s.ev.core else 0xFFFF
    (s.ev.flag = false → exec .patrolScrub s = .next (noteCe s d core s.ev.val s.ev.sel.toNat)) ∧
    (s.ev.flag = true → ∃ s', exec .patrolScrub s = .next s' ∧
      (s.ev.sel.toNat = 6 → s'.poison = insN s.poison (s.ev.val.toNat / 128)) ∧
      (s.ev.sel.toNat = 4 → ∀ n, look (s.basin[d]) s.ev.cnt = some n → look (s'.basin[d]) s.ev.cnt = some { n with bad := true }) ∧
      (s.ev.sel.toNat = 5 → s' = killRecord (noteUe s d core 0xFF s.ev.val) s.ev.task) ∧
      (1 ≤ s.ev.sel.toNat → s.ev.sel.toNat ≤ 3 →
        s' = spoilCore (noteUe s d core 0xFF s.ev.val) s.ev.core s.ev.task s.ev.sel.toNat s.ev.cnt s.ev.val s.ev.body))) ∧
  (∀ (s : State) (c t : Nat) (a : W64) (b : EvBody),
    ((spoilCore s c t 1 0 a b).core c).bad = insN (s.core c).bad (a.toNat / 8) ∧
    (spoilCore s c t 1 3 a b).poison = insN s.poison (a.toNat / 128) ∧
    (∀ n h, n < 2 → (s.core c).me.half n = h → h.st = .ready → ((spoilCore s c t 2 n a b).core c).me.half n = { h with bad := true }))

/-- R15, R19 to R22, R24, R400, R495: the steps of a launch: admission, the grant of a core, the scope of a DET launch, the entry
task, completion, and the stages of the watchdog. -/
def Obligations.LaunchSteps : Prop :=
  (∀ (s : State) (l : Nat) (r : Launch),
    let no : Done := { qp := r.qp, hq := r.hq, msgid := r.msgid, opc := 1, status := 4, cause := refusal s r.hq r.raw, cookie := r.cookie }
    (refusal s r.hq r.raw ≠ 0 → ∃ s1, admitOne s l r = complete s1 no ∧ (look s1.launches l).map (·.st) = some .done) ∧
    (refusal s r.hq r.raw = 0 → ∃ r', look (admitOne s l r).launches l = some r' ∧ r'.st = .granting ∧ r'.nks = le r.raw 9 1 ∧
      r'.nva = le r.raw 0x0A 1 ∧ r'.nvb = le r.raw 0x0B 1 ∧ r'.part = BitVec.ofNat 32 (le r.raw 0x0C 4) ∧
      r'.entry = BitVec.ofNat 64 (le r.raw 0x10 8) ∧ r'.prio = BitVec.ofNat 32 (le r.raw 0x1C 4) ∧ r'.groups.length = le r.raw 0x28 2 ∧
      r'.det = (le r.raw 6 2).testBit 0 ∧ r'.arg = BitVec.ofNat 64 (le r.raw 0x38 8) ∧ r'.cookie = r.cookie)) ∧
  (∀ (s : State) (l : Nat) (r : Launch), let c := s.ev.core
    (grantee s c = some (l, r) → look s.launches l = some r → ∃ s', exec .coreGrant s = .next s' ∧
      s'.core c = { wantRx := (s.core c).wantRx, part := r.part, trroot := s.root.getD r.hq 0, launch := some l } ∧
      look s'.launches l = some { r with granted := insN r.granted c, readyAt := s.acyc[0] + 2048 }) ∧
    (grantee s c = none → exec .coreGrant s = .next s) ∧
    (grantee s c = some (l, r) → r.st = .granting ∧ c ∈ r.cores ∧ (s.core c).launch = none ∧ (s.core c).fenced = false)) ∧
  (∀ (s : State) (l : Nat) (r : Launch), look s.launches l = some r →
    (∀ n, grantsDone s r = true → r.det = true → r.scope = 0 → freeScope s = some n → n ≠ 0 ∧ n ≤ 255 ∧ look s.scopes n = none ∧
      look (openScope s l).scopes n = some { launch := l, width := r.wavew } ∧
      look (openScope s l).launches l = some { r with scope := n } ∧ (openScope s l).tasks = s.tasks) ∧
    ((r.det = false ∨ r.scope ≠ 0 ∨ grantsDone s r = false ∨ freeScope s = none) → openScope s l = s)) ∧
  (∀ (s : State) (l : Nat) (r : Launch), look (openScope s l).launches l = some r →
    (s.ev.num = l → entryDue (openScope s l) r = true → exec .entryTaskCreate s = .next (startLaunch (openScope s l) l r)) ∧
    (s.ev.num = l → entryDue (openScope s l) r = false → exec .entryTaskCreate s = .next (openScope s l))) ∧
  (∀ (s : State) (l : Nat) (r : Launch), s.ev.num = l → look s.launches l = some r →
    (entryDue s r = true → ∃ r' i k, look (startLaunch s l r).launches l = some r' ∧ r'.st = .running ∧ r'.entryTask = some i ∧ r'.wdFrom = s.acyc[0] ∧
        look (startLaunch s l r).tasks i = some k ∧ k.entry = r.entry ∧ k.arg = r.arg ∧ k.key = r.prio ∧ k.launch = l) ∧
    (launchQuiet s l r = true → exec .launchComplete s = .next (finishLaunch s l)) ∧
    (launchQuiet s l r = false → exec .launchComplete s = .next s) ∧
    (wdDue s r 1 = true → exec .watchdogStage1 s = .next (watchStage1 s l r) ∧
      (look (watchStage1 s l r).launches l).map (·.stage1) = some true ∧
      ∀ t x k, s.ctx? t = some x → x.launch = l → look s.tasks t = some k → k.st = .running →
        ((watchStage1 s l r).ctx? t).map (·.park) = some true) ∧
    (wdDue s r 1 = false → exec .watchdogStage1 s = .next s) ∧
    (wdDue s r 2 = true → exec .watchdogStage2 s = .next (killLaunch (modLaunch s l fun r => { r with stage2 := true }) l)) ∧
    (wdDue s r 2 = false → exec .watchdogStage2 s = .next s) ∧
    (wdDue s r 3 = true → exec .watchdogStage3 s = .next (fenceLaunch s l r)) ∧
    (wdDue s r 3 = false → exec .watchdogStage3 s = .next s))
/-! ### The machine -/

/-- R91, R471, R477: as power reaches it the module is OFF, has no queue pair and no launch, no core issues, memory lists nothing and
is in its form, and every step leaves it so; R126: a context starts at its task's first bundle
with its two arguments in k0 and k1, its trap vector and check mode, zero in every other place, and predicates 0 true. What memory reads as before it is written, and the registers for which the manual
names no reset value, are the model's choice (log entries 1 and 2). -/
def Obligations.ResetState : Prop :=
  (let s := State.reset
   s.dev.mode = .off ∧ s.dev.qps = [] ∧ s.dev.mqp = none ∧ s.dev.pwrcap = 1900 ∧ s.dev.clk = Vector.replicate 2 { mhz := 850 } ∧
   s.launches = [] ∧ s.tasks = [] ∧ s.ctxs = [] ∧ s.cur = none ∧ s.mem = [] ∧ Mem.wf s.mem = true ∧ (∀ a, rd8 s.mem a = 0) ∧
   s.acyc = Vector.replicate 2 0 ∧ step s = .next s) ∧
  (∀ c : Nat, let k := State.reset.core c
    k.launch = none ∧ k.fenced = false ∧ k.pool = [] ∧ k.full = [] ∧ k.cq = [] ∧ k.rx = [] ∧ k.dc = [] ∧ k.tlb = [] ∧ k.me.h0.st = .empty ∧
    k.me.h1.st = .empty ∧ k.me.selv = false) ∧
  (∀ (s : State) (c n : Nat) (k : Task), let x := newContext s c n k
   let f := x.fr
   x.pc = k.entry ∧ x.ccyc = 0 ∧ x.core = c ∧ x.num = n ∧ x.trapMode = false ∧ x.tvec = k.tvec ∧ x.expchk = k.expchk ∧ x.k[0] = k.arg ∧
   x.k[1] = k.k1 ∧ (∀ r : Fin 32, 2 ≤ r.val → x.k[r] = 0) ∧ (∀ r : Fin 32, x.va[r] = VReg.zero ∧ x.vb[r] = VReg.zero) ∧
   f.pend = [] ∧ f.xs = 0 ∧ f.xa = 0 ∧ f.xb = 0 ∧ f.ma = [] ∧ f.mb = [] ∧ f.nest.act = [] ∧
   (∀ i, i < 8 → f.ps.getLsbD i = decide (i = 0) ∧ f.pa.getD i 0 = (if i = 0 then BitVec.allOnes 64 else 0) ∧
     f.pb.getD i 0 = (if i = 0 then BitVec.allOnes 64 else 0)) ∧
   ∀ i : Fin 16, f.qs.slots[i] = 0 ∧ f.qa.slots[i] = VReg.zero ∧ f.qb.slots[i] = VReg.zero)

/-- R36: the words of a bundle execute one after another in the order S, VA, VB, first C, second C, Q, X, M, each on the state the
ones before it have left, with no store of its own yet, and its stores go with the rank of its slot; a word that decodes to none executes
nothing. -/
def SlotsRun : Prop :=
  (∀ ws : List W32, let ps := inOrder (slotsOf ws)
    ps.Perm (slotsOf ws) ∧ (∀ p ∈ ps, ws[p.pos]? = some p.word ∧ p.ins = decodeWord p.word) ∧
    ps.Pairwise (fun a b => orderRank a.cls < orderRank b.cls ∨ (orderRank a.cls = orderRank b.cls ∧ a.pos < b.pos)) ∧
    ∀ (s : State) (t : Nat) (x : Context), runSlots s t x ws = ps.foldl runSlot { s := openBundle s t x ws }) ∧
  (∀ (r : RunSt) (p : Slot) (d : DecErr), p.ins = .error d → runSlot r p = r) ∧
  (∀ (r : RunSt) (p : Slot) (i : Instr) (s' : State) (l : Latch), p.ins = .ok i → decodeWord p.word = .ok i →
    exec i (r.s.modLatch fun l => { l with pos := p.pos, ce := r.secondC, writes := [], cwrites := [] }) = .next s' → s'.latch = some l →
    (slotEcc r.s l.ctx i = [] → (runSlot r p).s = s') ∧
    (runSlot r p).s = s'.modLatch (fun l => { l with causes := l.causes ++ (slotEcc r.s l.ctx i).map fun c => (p.pos, c) }) ∧
    (runSlot r p).ws = ((l.writes.map fun v => (portRank p.cls, v)) ++ l.cwrites.map fun v => (if r.secondC then 6 else 5, v)) ++ r.ws ∧
    (runSlot r p).secondC = (r.secondC || p.cls == 4)) ∧
  (∀ (s : State) (t : Nat) (x : Context) (w : W32) (i : Instr) (s' : State) (l : Latch), decodeWord w = .ok i →
    exec i (openBundle s t x [w]) = .next s' → s'.latch = some l → slotEcc (openBundle s t x [w]) l.ctx i = [] →
    (runSlots s t x [w]).s = s' ∧ (runSlots s t x [w]).ws =
      (l.writes.map fun v => (portRank (w.extractLsb' 28 3).toNat, v)) ++ l.cwrites.map fun v => (5, v))

/-- R25, R36, R89, R104, R139, R146, R153: a step executes the first of the steps that are due with its operands; where none is left a cycle
begins. A context whose words stand in memory at its program counter, mapped executable, up to eight with E in the last alone, is ready
with the bundle they form, or with the one captured at its place of a nest; a legal bundle executes as exec executes the instruction each
of its words decodes to, one after another, and is held, traps or commits; a held or ordered one waits, and takes no cause but those that
come ahead of its waiting (log entries 9 and 26: the model's choice); it waits too where two of its WFE loads, or another core's, find one line
(R104); an illegal one raises ILLEGAL. -/
def Obligations.StepRuns : Prop :=
  (∀ (s : State) (i : Instr) (e : Ev) (r : List (Instr × Ev)), s.agenda = (i, e) :: r → step s = exec i { s with agenda := r, ev := e }) ∧
  (∀ s : State, s.agenda = [] → let s1 := phawsTested (freshKeys (freshPools (tickDie (tickDie s 0) 1)))
    step s = .next (if released s then { passWaits s1 with agenda := cycleSteps s1 } else s)) ∧
  (∀ (s : State) (w : W32) (i : Instr), decodeWord w = .ok i → slotExec i s = exec i s) ∧
  (∀ (s : State) (x : Context) (n : Nat) (ws : List W32), x.fr.nest.act = [] → x.fetched = none → ws ≠ [] → ws.length ≤ 8 →
    (∀ k, k < ws.length → ∃ pa nc, xlate s x.core (x.pc + BitVec.ofNat 64 (4 * k)) .ex = .ok (s, pa, nc) ∧
      s.poison.contains (pa / 128) = false ∧ ws[k]? = some (laneOf (rdBytes s.mem pa 4)) ∧
      endsBundle (laneOf (rdBytes s.mem pa 4)) = decide (k + 1 = ws.length)) →
    bundleAt s x n x.pc = (s, .ok ws)) ∧
  (∀ (s : State) (x : Context) (n : Nat) (ws : List W32), x.fr.nest.act ≠ [] → look x.fr.nest.buf n = some (x.pc, ws) →
    bundleAt s x n x.pc = (s, .ok ws)) ∧
  SlotsRun ∧
  (∀ (s : State) (t : Nat) (x : Context) (s1 : State) (ws : List W32), s.ctx? t = some x → takeAsync s t = none → atBoundary s t x = true →
    x.park = false → x.wait = 0 → x.rte = false → phawOf x = none → masked x.fr.nest.set x.fr.nest.pos x.fr.nest.act = false → bundleAt s x x.fr.nest.pos x.pc = (s1, .ok ws) →
    (∀ n m, illegal x ws = some (n, m) →
      tryIssue s t = .trap (trapEntry s1 t { code := cIllegal, sub := n, addr := x.pc } m false false x.pc)) ∧
    (illegal x ws = none → missing s1 t x (slotsOf ws) = [] → tryBundle s t = attempt s1 t x ws)) ∧
  (∀ (s : State) (t : Nat) (x : Context) (s1 : State) (ws : List W32) (o : Ranked), s.ctx? t = some x → tryBundle s t = .done s1 ws o →
    (outranked s x.core o = false → tryIssue s t = .done s1 ws o) ∧ (outranked s x.core o = true → tryIssue s t = .held s)) ∧
  (∀ (s : State) (t : Nat) (x : Context) (ws : List W32) (l : Latch), (runSlots s t x ws).s.latch = some l →
    (l.causes = [] → l.held = false → (ordered (slotsOf ws) = false ∨ x.holds = []) →
      twiceTaken (runSlots s t x ws).ws = false →
      attempt s t x ws = .done (commit (runSlots s t x ws) t x ws).1 ws (commit (runSlots s t x ws) t x ws).2) ∧
    (l.causes ≠ [] → l.held = false → x.holds = [] → x.trapMode = false →
      twiceTaken (runSlots s t x ws).ws = false → attempt s t x ws = .trap (takeTrap s t l.causes false)) ∧
    (x.trapMode = false → (∃ c ∈ l.causes, early c.2 = true) → attempt s t x ws = .trap (takeTrap s t l.causes false)) ∧
    ((∀ c ∈ l.causes, early c.2 = false) →
      (l.held = true ∨ (ordered (slotsOf ws) = true ∧ ∃ h ∈ x.holds, h.ordered = true) ∨ twiceTaken (runSlots s t x ws).ws = true) →
      attempt s t x ws = .held (startFill s x.core l.want))) ∧
  (∀ (s : State) (c t : Nat), rankOrder s c = [t] →
    (∀ s' ws out, tryIssue s t = .done s' ws out → mergeCycle s c = applyRanked s' c out) ∧
    (∀ s', tryIssue s t = .trap s' → mergeCycle s c = s') ∧ (∀ s', tryIssue s t = .held s' → mergeCycle s c = s'))

/-- R91: what memory does. Writing bytes keeps its canonical form; each byte written reads as the last value written there and every
other as before; two memories in the form that read alike are equal; numbers and their little-endian bytes agree (R3). -/
def Obligations.MemoryForm : Prop :=
  (∀ (m : Memory) (a : Nat) (v : Byte), Mem.wf m = true → Mem.wf (wr8 m a v) = true ∧ rd8 (wr8 m a v) a = v ∧
    ∀ b, b ≠ a → rd8 (wr8 m a v) b = rd8 m b) ∧
  (∀ (m : Memory) (bs : List (Nat × Byte)), Mem.wf m = true → Mem.wf (wrBytes m bs) = true ∧
    ∀ b, (∀ p ∈ bs, p.1 ≠ b) → rd8 (wrBytes m bs) b = rd8 m b) ∧
  (∀ (m : Memory) (a : Nat) (l : List Byte), Mem.wf m = true → rdBytes (wrBytes m (place a l)) a l.length = l) ∧
  (∀ m m' : Memory, Mem.wf m = true → Mem.wf m' = true → (∀ a, rd8 m a = rd8 m' a) → m = m') ∧
  (∀ n v : Nat, leNat (leBytes v n) = v % 256 ^ n)

/-- R28 to R32, R44 to R50: words written out from the encoding tables decode to the instruction they stand for, and reserved words to none;
a word of class 7 is illegal whatever its other fields hold. -/
def Obligations.DecodedWords : Prop :=
  decodeWord 0x80000000 = .ok .nop ∧
  decodeWord 0x80584AC0 = .ok (.add ⟨3, true⟩ (.q 2) (.k 5) false false .w64) ∧
  decodeWord 0x00C29FF9 = .ok (.addi 0 (.k 4) 0x1FF9) ∧
  decodeWord 0x8ABFFFFD = .ok (.jmp 0x3FFFFD) ∧
  decodeWord 0x91022903 = .ok (.vfmaA ⟨0, false⟩ (.v 1) (.v 2) .f32 3) ∧
  decodeWord 0x14101F2D = .ok (.vcmpA ⟨2, false⟩ (.q 0) .sq .flt 5) ∧
  decodeWord 0xE040200F = .ok (.cxs ⟨0, false⟩ (.q 1) (.q 0) .a 15) ∧
  decodeWord 0xB0C26910 = .ok (.mpush ⟨0, false⟩ (.v 3) (.k 2) .a true 0) ∧
  decodeWord 0xC102CB80 = .ok (.ccopy ⟨0, false⟩ (.k 6) (.k 7) false) ∧
  decodeWord 0xD0400800 = .ok (.spawn ⟨0, false⟩ (.q 0) (.k 0) false false) ∧
  decodeWord 0xD1400001 = .ok (.join ⟨0, false⟩ (.q 0) true) ∧
  decodeWord 0xD4C26002 = .ok (.phwait ⟨0, false⟩ (.k 3) .clus) ∧
  decodeWord 0x8BC00000 = .error .opcode ∧ decodeWord 0x80000001 = .error .field ∧
  (∀ w : W32, w.extractLsb' 28 3 = 7 → decodeWord w = .error .cls ∧
    ∀ (x : Context) (ws : List W32), w ∈ ws → ∃ n m, illegal x ws = some (n, m) ∧ n ≤ 2)

/-- R28, R39: decoding the word of a well-formed instruction gives the instruction back, with its E bit; and a word that decodes is the
word of what it decodes to, which is well-formed: no bit of an encoding is dropped. -/
def Obligations.DecodeEncode : Prop :=
  (∀ (e : Bool) (i : Instr) (w : W32), i.wf = true → encode e i = some w → decodeWord w = .ok i ∧ endsBundle w = e) ∧
  (∀ (w : W32) (i : Instr), decodeWord w = .ok i → i.wf = true ∧ encode (endsBundle w) i = some w)

/-- Every step keeps memory in its canonical form, from whatever state that has it. -/
def Obligations.StepKeepsMemoryForm : Prop :=
  ∀ s s' : State, Mem.wf s.mem = true → step s = .next s' → Mem.wf s'.mem = true

/-- What a slot that only computes leaves alone: all but its context, its latch and the receive FIFO of its core. -/
def Untouched (s s' : State) (c : Nat) : Prop :=
  s' = { s with ctxs := s'.ctxs, cores := s'.cores, latch := s'.latch } ∧ (∀ d, d ≠ c → s'.core d = s.core d) ∧
  (∃ r : Core, s'.core c = { s.core c with rx := r.rx, ringRd := r.ringRd, ringN := r.ringN }) ∧ ∀ a, rd8 s'.mem a = rd8 s.mem a

/-- The queue a computing instruction pushes onto. -/
def pushQueue : Instr → Option Qn
  | .add .. | .sub .. | .mul .. | .mulh .. | .div .. | .rem .. | .and .. | .or .. | .xor .. | .addi .. | .andi .. | .shori .. | .shl ..
  | .shr .. | .shli .. | .shri .. | .movi .. | .min .. | .max .. | .clz .. | .popc .. | .bfx .. | .bfi .. | .sext .. | .sel .. => some .s
  | .vaddA .. | .vsubA .. | .vmulA .. | .vfmaA .. | .vfmsA .. | .vaddminA .. | .vminA .. | .vmaxA .. | .vabsA .. | .vnegA .. | .vandA ..
  | .vorA .. | .vxorA .. | .vshlA .. | .vshrA .. => some .a
  | .vaddB .. | .vsubB .. | .vmulB .. | .vfmaB .. | .vfmsB .. | .vaddminB .. | .vminB .. | .vmaxB .. | .vabsB .. | .vnegB .. | .vandB ..
  | .vorB .. | .vxorB .. | .vshlB .. | .vshrB .. => some .b
  | _ => none

/-- R36, R113, R131, R171 to R174: the frame of the instructions that only compute, in a bundle. One that pushes adds an entry to its queue
and changes no register, predicate or index; CMP and PLOG change their predicate alone, PUTX and XADDI their index register, PUT its k
register and that register's live bit; ST and STW change no context, scratchpad byte or byte of memory before their bundle commits. All
other state of the module stands, with every byte of memory. -/
def Obligations.Frames : Prop :=
  ∀ (s s' : State) (t : Nat) (l : Latch) (y : Context), s.cur = some t → s.latch = some l → s.ctx? t = some y →
    (∀ i q, pushQueue i = some q → exec i s = .next s' → Untouched s s' l.ctx.core ∧ (∀ u, u ≠ t → s'.ctx? u = s.ctx? u) ∧
      (s'.ctx? t = some y ∨ ∃ lat v, s'.ctx? t = some { y with fr := y.fr.push q lat v y.nextId, nextId := y.nextId + 1 })) ∧
    (∀ g a b cond (d : BitVec 3), exec (.cmp g a b cond d) s = .next s' → Untouched s s' l.ctx.core ∧ (∀ u, u ≠ t → s'.ctx? u = s.ctx? u) ∧
      ∃ p, s'.ctx? t = some { y with fr := { y.fr with ps := p } } ∧ ∀ j, j ≠ d.toNat → p.getLsbD j = y.fr.ps.getLsbD j) ∧
    (∀ g a b op (d : BitVec 3), exec (.plog g a b op d) s = .next s' → Untouched s s' l.ctx.core ∧ (∀ u, u ≠ t → s'.ctx? u = s.ctx? u) ∧
      ∃ p, s'.ctx? t = some { y with fr := { y.fr with ps := p } } ∧ ∀ j, j ≠ d.toNat → p.getLsbD j = y.fr.ps.getLsbD j) ∧
    (∀ i, ∀ r : IdxReg, ((∃ g a, i = .putx g a r) ∨ ∃ g n, i = .xaddi g r n) → exec i s = .next s' →
      Untouched s s' l.ctx.core ∧ (∀ u, u ≠ t → s'.ctx? u = s.ctx? u) ∧ ∃ z : Context, s'.ctx? t = some z ∧
        z = { y with fr := { y.fr with xs := z.fr.xs, xa := z.fr.xa, xb := z.fr.xb } } ∧ ∀ q, q ≠ r → z.xReg q = y.xReg q) ∧
    (∀ g a d, d ≠ .fout → exec (.put g a d) s = .next s' → Untouched s s' l.ctx.core ∧ (∀ u, u ≠ t → s'.ctx? u = s.ctx? u) ∧
      ∃ z : Context, s'.ctx? t = some z ∧ z = { y with k := z.k, liveK := z.liveK } ∧
        ∀ r : Nat, (Opd.d d).reg l.ctx ≠ some (.k, (r : Int)) → z.k.getD r 0 = y.k.getD r 0 ∧ z.liveK.getLsbD r = y.liveK.getLsbD r) ∧
    (∀ i, ((∃ g a b fe sz, i = .st g a b fe sz) ∨ ∃ g a b fe sz, i = .stw g a b fe sz) → exec i s = .next s' → s'.ctxs = s.ctxs ∧
      (∀ c, (s'.core c).pool = (s.core c).pool ∧ (s'.core c).full = (s.core c).full ∧ (s'.core c).cq = (s.core c).cq) ∧
      ∀ a, rd8 s'.mem a = rd8 s.mem a)
end

