-- ==== Sys2Proof/Laws/State.lean ====
section
/-!
SUPPORT. What the updates of the state leave alone: one lemma for each field and update, and reading back what an update wrote.
-/

namespace Sys2Proof.Machine

/-! ### Sparse maps -/

@[simp] theorem look_nil {α : Type} (k : Nat) : look ([] : SMap α) k = none := rfl

theorem look_put {α : Type} (m : SMap α) (k : Nat) (v : α) (j : Nat) : look (put m k v) j = if j = k then some v else look m j := by
  induction m with
  | nil => simp only [put, look]; by_cases h : k = j <;> simp [h, eq_comm]
  | cons p r ih =>
    obtain ⟨a, w⟩ := p
    simp only [put]
    split
    · simp only [look]
      by_cases h : k = j
      · simp [h]
      · simp [h, Ne.symm h]
    · split
      · rename_i h; subst h
        simp only [look]
        by_cases h : a = j
        · simp [h]
        · simp [h, Ne.symm h]
      · simp only [look, ih]
        by_cases h : a = j
        · subst h; simp_all
        · simp [h]

@[simp] theorem look_put_self {α : Type} (m : SMap α) (k : Nat) (v : α) : look (put m k v) k = some v := by simp [look_put]
theorem look_put_ne {α : Type} (m : SMap α) {k j : Nat} (v : α) (h : j ≠ k) : look (put m k v) j = look m j := by simp [look_put, h]

theorem look_del {α : Type} (m : SMap α) (k j : Nat) : look (del m k) j = if j = k then none else look m j := by
  induction m with
  | nil => simp [del]
  | cons p r ih =>
    obtain ⟨a, w⟩ := p
    simp only [del] at ih ⊢
    by_cases h : a = k
    · subst h
      simp only [bne_self_eq_false, Bool.false_eq_true, not_false_eq_true, List.filter_cons_of_neg, ih, look]
      by_cases hj : j = a
      · simp [hj]
      · simp [hj, Ne.symm hj]
    · rw [List.filter_cons_of_pos (by simp [h])]
      simp only [look, ih]
      by_cases hj : a = j
      · subst hj; simp [h]
      · simp [hj]

@[simp] theorem look_del_self {α : Type} (m : SMap α) (k : Nat) : look (del m k) k = none := by simp [look_del]

/-! ### Fields that an update leaves alone -/
@[simp] theorem State.setCore_agenda (s : State) (c : Nat) (v : Core) : (s.setCore c v).agenda = s.agenda := rfl
@[simp] theorem State.setCore_ev (s : State) (c : Nat) (v : Core) : (s.setCore c v).ev = s.ev := rfl
@[simp] theorem State.setCore_cur (s : State) (c : Nat) (v : Core) : (s.setCore c v).cur = s.cur := rfl
@[simp] theorem State.setCore_latch (s : State) (c : Nat) (v : Core) : (s.setCore c v).latch = s.latch := rfl
@[simp] theorem State.setCore_fresh (s : State) (c : Nat) (v : Core) : (s.setCore c v).fresh = s.fresh := rfl
@[simp] theorem State.setCore_ctxs (s : State) (c : Nat) (v : Core) : (s.setCore c v).ctxs = s.ctxs := rfl
@[simp] theorem State.setCore_ctlb (s : State) (c : Nat) (v : Core) : (s.setCore c v).ctlb = s.ctlb := rfl
@[simp] theorem State.setCore_mem (s : State) (c : Nat) (v : Core) : (s.setCore c v).mem = s.mem := rfl
@[simp] theorem State.setCore_dir (s : State) (c : Nat) (v : Core) : (s.setCore c v).dir = s.dir := rfl
@[simp] theorem State.setCore_acyc (s : State) (c : Nat) (v : Core) : (s.setCore c v).acyc = s.acyc := rfl
@[simp] theorem State.setCore_tasks (s : State) (c : Nat) (v : Core) : (s.setCore c v).tasks = s.tasks := rfl
@[simp] theorem State.setCore_taken (s : State) (c : Nat) (v : Core) : (s.setCore c v).taken = s.taken := rfl
@[simp] theorem State.setCore_ends (s : State) (c : Nat) (v : Core) : (s.setCore c v).ends = s.ends := rfl
@[simp] theorem State.setCore_scopes (s : State) (c : Nat) (v : Core) : (s.setCore c v).scopes = s.scopes := rfl
@[simp] theorem State.setCore_launches (s : State) (c : Nat) (v : Core) : (s.setCore c v).launches = s.launches := rfl
@[simp] theorem State.setCore_nlaunch (s : State) (c : Nat) (v : Core) : (s.setCore c v).nlaunch = s.nlaunch := rfl
@[simp] theorem State.setCore_batches (s : State) (c : Nat) (v : Core) : (s.setCore c v).batches = s.batches := rfl
@[simp] theorem State.setCore_cb (s : State) (c : Nat) (v : Core) : (s.setCore c v).cb = s.cb := rfl
@[simp] theorem State.setCore_fab (s : State) (c : Nat) (v : Core) : (s.setCore c v).fab = s.fab := rfl
@[simp] theorem State.setCore_viol (s : State) (c : Nat) (v : Core) : (s.setCore c v).viol = s.viol := rfl
@[simp] theorem State.setCore_ras (s : State) (c : Nat) (v : Core) : (s.setCore c v).ras = s.ras := rfl
@[simp] theorem State.setCore_rascnt (s : State) (c : Nat) (v : Core) : (s.setCore c v).rascnt = s.rascnt := rfl
@[simp] theorem State.setCore_poison (s : State) (c : Nat) (v : Core) : (s.setCore c v).poison = s.poison := rfl
@[simp] theorem State.setCore_root (s : State) (c : Nat) (v : Core) : (s.setCore c v).root = s.root := rfl
@[simp] theorem State.setCore_prio (s : State) (c : Nat) (v : Core) : (s.setCore c v).prio = s.prio := rfl
@[simp] theorem State.setCore_exproot (s : State) (c : Nat) (v : Core) : (s.setCore c v).exproot = s.exproot := rfl
@[simp] theorem State.setCore_recBase (s : State) (c : Nat) (v : Core) : (s.setCore c v).recBase = s.recBase := rfl
@[simp] theorem State.setCore_pg (s : State) (c : Nat) (v : Core) : (s.setCore c v).pg = s.pg := rfl
@[simp] theorem State.setCore_gtab (s : State) (c : Nat) (v : Core) : (s.setCore c v).gtab = s.gtab := rfl
@[simp] theorem State.setCore_phops (s : State) (c : Nat) (v : Core) : (s.setCore c v).phops = s.phops := rfl
@[simp] theorem State.setCore_basin (s : State) (c : Nat) (v : Core) : (s.setCore c v).basin = s.basin := rfl
@[simp] theorem State.setCore_nops (s : State) (c : Nat) (v : Core) : (s.setCore c v).nops = s.nops := rfl
@[simp] theorem State.setCore_gsq (s : State) (c : Nat) (v : Core) : (s.setCore c v).gsq = s.gsq := rfl
@[simp] theorem State.setCore_gsops (s : State) (c : Nat) (v : Core) : (s.setCore c v).gsops = s.gsops := rfl
@[simp] theorem State.setCore_dev (s : State) (c : Nat) (v : Core) : (s.setCore c v).dev = s.dev := rfl
@[simp] theorem State.modCore_agenda (s : State) (c : Nat) (f : Core → Core) : (s.modCore c f).agenda = s.agenda := rfl
@[simp] theorem State.modCore_ev (s : State) (c : Nat) (f : Core → Core) : (s.modCore c f).ev = s.ev := rfl
@[simp] theorem State.modCore_cur (s : State) (c : Nat) (f : Core → Core) : (s.modCore c f).cur = s.cur := rfl
@[simp] theorem State.modCore_latch (s : State) (c : Nat) (f : Core → Core) : (s.modCore c f).latch = s.latch := rfl
@[simp] theorem State.modCore_fresh (s : State) (c : Nat) (f : Core → Core) : (s.modCore c f).fresh = s.fresh := rfl
@[simp] theorem State.modCore_ctxs (s : State) (c : Nat) (f : Core → Core) : (s.modCore c f).ctxs = s.ctxs := rfl
@[simp] theorem State.modCore_ctlb (s : State) (c : Nat) (f : Core → Core) : (s.modCore c f).ctlb = s.ctlb := rfl
@[simp] theorem State.modCore_mem (s : State) (c : Nat) (f : Core → Core) : (s.modCore c f).mem = s.mem := rfl
@[simp] theorem State.modCore_dir (s : State) (c : Nat) (f : Core → Core) : (s.modCore c f).dir = s.dir := rfl
@[simp] theorem State.modCore_acyc (s : State) (c : Nat) (f : Core → Core) : (s.modCore c f).acyc = s.acyc := rfl
@[simp] theorem State.modCore_tasks (s : State) (c : Nat) (f : Core → Core) : (s.modCore c f).tasks = s.tasks := rfl
@[simp] theorem State.modCore_taken (s : State) (c : Nat) (f : Core → Core) : (s.modCore c f).taken = s.taken := rfl
@[simp] theorem State.modCore_ends (s : State) (c : Nat) (f : Core → Core) : (s.modCore c f).ends = s.ends := rfl
@[simp] theorem State.modCore_scopes (s : State) (c : Nat) (f : Core → Core) : (s.modCore c f).scopes = s.scopes := rfl
@[simp] theorem State.modCore_launches (s : State) (c : Nat) (f : Core → Core) : (s.modCore c f).launches = s.launches := rfl
@[simp] theorem State.modCore_nlaunch (s : State) (c : Nat) (f : Core → Core) : (s.modCore c f).nlaunch = s.nlaunch := rfl
@[simp] theorem State.modCore_batches (s : State) (c : Nat) (f : Core → Core) : (s.modCore c f).batches = s.batches := rfl
@[simp] theorem State.modCore_cb (s : State) (c : Nat) (f : Core → Core) : (s.modCore c f).cb = s.cb := rfl
@[simp] theorem State.modCore_fab (s : State) (c : Nat) (f : Core → Core) : (s.modCore c f).fab = s.fab := rfl
@[simp] theorem State.modCore_viol (s : State) (c : Nat) (f : Core → Core) : (s.modCore c f).viol = s.viol := rfl
@[simp] theorem State.modCore_ras (s : State) (c : Nat) (f : Core → Core) : (s.modCore c f).ras = s.ras := rfl
@[simp] theorem State.modCore_rascnt (s : State) (c : Nat) (f : Core → Core) : (s.modCore c f).rascnt = s.rascnt := rfl
@[simp] theorem State.modCore_poison (s : State) (c : Nat) (f : Core → Core) : (s.modCore c f).poison = s.poison := rfl
@[simp] theorem State.modCore_root (s : State) (c : Nat) (f : Core → Core) : (s.modCore c f).root = s.root := rfl
@[simp] theorem State.modCore_prio (s : State) (c : Nat) (f : Core → Core) : (s.modCore c f).prio = s.prio := rfl
@[simp] theorem State.modCore_exproot (s : State) (c : Nat) (f : Core → Core) : (s.modCore c f).exproot = s.exproot := rfl
@[simp] theorem State.modCore_recBase (s : State) (c : Nat) (f : Core → Core) : (s.modCore c f).recBase = s.recBase := rfl
@[simp] theorem State.modCore_pg (s : State) (c : Nat) (f : Core → Core) : (s.modCore c f).pg = s.pg := rfl
@[simp] theorem State.modCore_gtab (s : State) (c : Nat) (f : Core → Core) : (s.modCore c f).gtab = s.gtab := rfl
@[simp] theorem State.modCore_phops (s : State) (c : Nat) (f : Core → Core) : (s.modCore c f).phops = s.phops := rfl
@[simp] theorem State.modCore_basin (s : State) (c : Nat) (f : Core → Core) : (s.modCore c f).basin = s.basin := rfl
@[simp] theorem State.modCore_nops (s : State) (c : Nat) (f : Core → Core) : (s.modCore c f).nops = s.nops := rfl
@[simp] theorem State.modCore_gsq (s : State) (c : Nat) (f : Core → Core) : (s.modCore c f).gsq = s.gsq := rfl
@[simp] theorem State.modCore_gsops (s : State) (c : Nat) (f : Core → Core) : (s.modCore c f).gsops = s.gsops := rfl
@[simp] theorem State.modCore_dev (s : State) (c : Nat) (f : Core → Core) : (s.modCore c f).dev = s.dev := rfl
@[simp] theorem State.setCtx_agenda (s : State) (t : Nat) (x : Context) : (s.setCtx t x).agenda = s.agenda := rfl
@[simp] theorem State.setCtx_ev (s : State) (t : Nat) (x : Context) : (s.setCtx t x).ev = s.ev := rfl
@[simp] theorem State.setCtx_cur (s : State) (t : Nat) (x : Context) : (s.setCtx t x).cur = s.cur := rfl
@[simp] theorem State.setCtx_latch (s : State) (t : Nat) (x : Context) : (s.setCtx t x).latch = s.latch := rfl
@[simp] theorem State.setCtx_fresh (s : State) (t : Nat) (x : Context) : (s.setCtx t x).fresh = s.fresh := rfl
@[simp] theorem State.setCtx_cores (s : State) (t : Nat) (x : Context) : (s.setCtx t x).cores = s.cores := rfl
@[simp] theorem State.setCtx_ctlb (s : State) (t : Nat) (x : Context) : (s.setCtx t x).ctlb = s.ctlb := rfl
@[simp] theorem State.setCtx_mem (s : State) (t : Nat) (x : Context) : (s.setCtx t x).mem = s.mem := rfl
@[simp] theorem State.setCtx_dir (s : State) (t : Nat) (x : Context) : (s.setCtx t x).dir = s.dir := rfl
@[simp] theorem State.setCtx_acyc (s : State) (t : Nat) (x : Context) : (s.setCtx t x).acyc = s.acyc := rfl
@[simp] theorem State.setCtx_tasks (s : State) (t : Nat) (x : Context) : (s.setCtx t x).tasks = s.tasks := rfl
@[simp] theorem State.setCtx_taken (s : State) (t : Nat) (x : Context) : (s.setCtx t x).taken = s.taken := rfl
@[simp] theorem State.setCtx_ends (s : State) (t : Nat) (x : Context) : (s.setCtx t x).ends = s.ends := rfl
@[simp] theorem State.setCtx_scopes (s : State) (t : Nat) (x : Context) : (s.setCtx t x).scopes = s.scopes := rfl
@[simp] theorem State.setCtx_launches (s : State) (t : Nat) (x : Context) : (s.setCtx t x).launches = s.launches := rfl
@[simp] theorem State.setCtx_nlaunch (s : State) (t : Nat) (x : Context) : (s.setCtx t x).nlaunch = s.nlaunch := rfl
@[simp] theorem State.setCtx_batches (s : State) (t : Nat) (x : Context) : (s.setCtx t x).batches = s.batches := rfl
@[simp] theorem State.setCtx_cb (s : State) (t : Nat) (x : Context) : (s.setCtx t x).cb = s.cb := rfl
@[simp] theorem State.setCtx_fab (s : State) (t : Nat) (x : Context) : (s.setCtx t x).fab = s.fab := rfl
@[simp] theorem State.setCtx_viol (s : State) (t : Nat) (x : Context) : (s.setCtx t x).viol = s.viol := rfl
@[simp] theorem State.setCtx_ras (s : State) (t : Nat) (x : Context) : (s.setCtx t x).ras = s.ras := rfl
@[simp] theorem State.setCtx_rascnt (s : State) (t : Nat) (x : Context) : (s.setCtx t x).rascnt = s.rascnt := rfl
@[simp] theorem State.setCtx_poison (s : State) (t : Nat) (x : Context) : (s.setCtx t x).poison = s.poison := rfl
@[simp] theorem State.setCtx_root (s : State) (t : Nat) (x : Context) : (s.setCtx t x).root = s.root := rfl
@[simp] theorem State.setCtx_prio (s : State) (t : Nat) (x : Context) : (s.setCtx t x).prio = s.prio := rfl
@[simp] theorem State.setCtx_exproot (s : State) (t : Nat) (x : Context) : (s.setCtx t x).exproot = s.exproot := rfl
@[simp] theorem State.setCtx_recBase (s : State) (t : Nat) (x : Context) : (s.setCtx t x).recBase = s.recBase := rfl
@[simp] theorem State.setCtx_pg (s : State) (t : Nat) (x : Context) : (s.setCtx t x).pg = s.pg := rfl
@[simp] theorem State.setCtx_gtab (s : State) (t : Nat) (x : Context) : (s.setCtx t x).gtab = s.gtab := rfl
@[simp] theorem State.setCtx_phops (s : State) (t : Nat) (x : Context) : (s.setCtx t x).phops = s.phops := rfl
@[simp] theorem State.setCtx_basin (s : State) (t : Nat) (x : Context) : (s.setCtx t x).basin = s.basin := rfl
@[simp] theorem State.setCtx_nops (s : State) (t : Nat) (x : Context) : (s.setCtx t x).nops = s.nops := rfl
@[simp] theorem State.setCtx_gsq (s : State) (t : Nat) (x : Context) : (s.setCtx t x).gsq = s.gsq := rfl
@[simp] theorem State.setCtx_gsops (s : State) (t : Nat) (x : Context) : (s.setCtx t x).gsops = s.gsops := rfl
@[simp] theorem State.setCtx_dev (s : State) (t : Nat) (x : Context) : (s.setCtx t x).dev = s.dev := rfl
@[simp] theorem State.modCtx_agenda (s : State) (t : Nat) (f : Context → Context) : (s.modCtx t f).agenda = s.agenda := by
  unfold State.modCtx; split <;> rfl
@[simp] theorem State.modCtx_ev (s : State) (t : Nat) (f : Context → Context) : (s.modCtx t f).ev = s.ev := by
  unfold State.modCtx; split <;> rfl
@[simp] theorem State.modCtx_cur (s : State) (t : Nat) (f : Context → Context) : (s.modCtx t f).cur = s.cur := by
  unfold State.modCtx; split <;> rfl
@[simp] theorem State.modCtx_latch (s : State) (t : Nat) (f : Context → Context) : (s.modCtx t f).latch = s.latch := by
  unfold State.modCtx; split <;> rfl
@[simp] theorem State.modCtx_fresh (s : State) (t : Nat) (f : Context → Context) : (s.modCtx t f).fresh = s.fresh := by
  unfold State.modCtx; split <;> rfl
@[simp] theorem State.modCtx_cores (s : State) (t : Nat) (f : Context → Context) : (s.modCtx t f).cores = s.cores := by
  unfold State.modCtx; split <;> rfl
@[simp] theorem State.modCtx_ctlb (s : State) (t : Nat) (f : Context → Context) : (s.modCtx t f).ctlb = s.ctlb := by
  unfold State.modCtx; split <;> rfl
@[simp] theorem State.modCtx_mem (s : State) (t : Nat) (f : Context → Context) : (s.modCtx t f).mem = s.mem := by
  unfold State.modCtx; split <;> rfl
@[simp] theorem State.modCtx_dir (s : State) (t : Nat) (f : Context → Context) : (s.modCtx t f).dir = s.dir := by
  unfold State.modCtx; split <;> rfl
@[simp] theorem State.modCtx_acyc (s : State) (t : Nat) (f : Context → Context) : (s.modCtx t f).acyc = s.acyc := by
  unfold State.modCtx; split <;> rfl
@[simp] theorem State.modCtx_tasks (s : State) (t : Nat) (f : Context → Context) : (s.modCtx t f).tasks = s.tasks := by
  unfold State.modCtx; split <;> rfl
@[simp] theorem State.modCtx_taken (s : State) (t : Nat) (f : Context → Context) : (s.modCtx t f).taken = s.taken := by
  unfold State.modCtx; split <;> rfl
@[simp] theorem State.modCtx_ends (s : State) (t : Nat) (f : Context → Context) : (s.modCtx t f).ends = s.ends := by
  unfold State.modCtx; split <;> rfl
@[simp] theorem State.modCtx_scopes (s : State) (t : Nat) (f : Context → Context) : (s.modCtx t f).scopes = s.scopes := by
  unfold State.modCtx; split <;> rfl
@[simp] theorem State.modCtx_launches (s : State) (t : Nat) (f : Context → Context) : (s.modCtx t f).launches = s.launches := by
  unfold State.modCtx; split <;> rfl
@[simp] theorem State.modCtx_nlaunch (s : State) (t : Nat) (f : Context → Context) : (s.modCtx t f).nlaunch = s.nlaunch := by
  unfold State.modCtx; split <;> rfl
@[simp] theorem State.modCtx_batches (s : State) (t : Nat) (f : Context → Context) : (s.modCtx t f).batches = s.batches := by
  unfold State.modCtx; split <;> rfl
@[simp] theorem State.modCtx_cb (s : State) (t : Nat) (f : Context → Context) : (s.modCtx t f).cb = s.cb := by
  unfold State.modCtx; split <;> rfl
@[simp] theorem State.modCtx_fab (s : State) (t : Nat) (f : Context → Context) : (s.modCtx t f).fab = s.fab := by
  unfold State.modCtx; split <;> rfl
@[simp] theorem State.modCtx_viol (s : State) (t : Nat) (f : Context → Context) : (s.modCtx t f).viol = s.viol := by
  unfold State.modCtx; split <;> rfl
@[simp] theorem State.modCtx_ras (s : State) (t : Nat) (f : Context → Context) : (s.modCtx t f).ras = s.ras := by
  unfold State.modCtx; split <;> rfl
@[simp] theorem State.modCtx_rascnt (s : State) (t : Nat) (f : Context → Context) : (s.modCtx t f).rascnt = s.rascnt := by
  unfold State.modCtx; split <;> rfl
@[simp] theorem State.modCtx_poison (s : State) (t : Nat) (f : Context → Context) : (s.modCtx t f).poison = s.poison := by
  unfold State.modCtx; split <;> rfl
@[simp] theorem State.modCtx_root (s : State) (t : Nat) (f : Context → Context) : (s.modCtx t f).root = s.root := by
  unfold State.modCtx; split <;> rfl
@[simp] theorem State.modCtx_prio (s : State) (t : Nat) (f : Context → Context) : (s.modCtx t f).prio = s.prio := by
  unfold State.modCtx; split <;> rfl
@[simp] theorem State.modCtx_exproot (s : State) (t : Nat) (f : Context → Context) : (s.modCtx t f).exproot = s.exproot := by
  unfold State.modCtx; split <;> rfl
@[simp] theorem State.modCtx_recBase (s : State) (t : Nat) (f : Context → Context) : (s.modCtx t f).recBase = s.recBase := by
  unfold State.modCtx; split <;> rfl
@[simp] theorem State.modCtx_pg (s : State) (t : Nat) (f : Context → Context) : (s.modCtx t f).pg = s.pg := by
  unfold State.modCtx; split <;> rfl
@[simp] theorem State.modCtx_gtab (s : State) (t : Nat) (f : Context → Context) : (s.modCtx t f).gtab = s.gtab := by
  unfold State.modCtx; split <;> rfl
@[simp] theorem State.modCtx_phops (s : State) (t : Nat) (f : Context → Context) : (s.modCtx t f).phops = s.phops := by
  unfold State.modCtx; split <;> rfl
@[simp] theorem State.modCtx_basin (s : State) (t : Nat) (f : Context → Context) : (s.modCtx t f).basin = s.basin := by
  unfold State.modCtx; split <;> rfl
@[simp] theorem State.modCtx_nops (s : State) (t : Nat) (f : Context → Context) : (s.modCtx t f).nops = s.nops := by
  unfold State.modCtx; split <;> rfl
@[simp] theorem State.modCtx_gsq (s : State) (t : Nat) (f : Context → Context) : (s.modCtx t f).gsq = s.gsq := by
  unfold State.modCtx; split <;> rfl
@[simp] theorem State.modCtx_gsops (s : State) (t : Nat) (f : Context → Context) : (s.modCtx t f).gsops = s.gsops := by
  unfold State.modCtx; split <;> rfl
@[simp] theorem State.modCtx_dev (s : State) (t : Nat) (f : Context → Context) : (s.modCtx t f).dev = s.dev := by
  unfold State.modCtx; split <;> rfl
@[simp] theorem State.modLatch_agenda (s : State) (f : Latch → Latch) : (s.modLatch f).agenda = s.agenda := rfl
@[simp] theorem State.modLatch_ev (s : State) (f : Latch → Latch) : (s.modLatch f).ev = s.ev := rfl
@[simp] theorem State.modLatch_cur (s : State) (f : Latch → Latch) : (s.modLatch f).cur = s.cur := rfl
@[simp] theorem State.modLatch_fresh (s : State) (f : Latch → Latch) : (s.modLatch f).fresh = s.fresh := rfl
@[simp] theorem State.modLatch_cores (s : State) (f : Latch → Latch) : (s.modLatch f).cores = s.cores := rfl
@[simp] theorem State.modLatch_ctxs (s : State) (f : Latch → Latch) : (s.modLatch f).ctxs = s.ctxs := rfl
@[simp] theorem State.modLatch_ctlb (s : State) (f : Latch → Latch) : (s.modLatch f).ctlb = s.ctlb := rfl
@[simp] theorem State.modLatch_mem (s : State) (f : Latch → Latch) : (s.modLatch f).mem = s.mem := rfl
@[simp] theorem State.modLatch_dir (s : State) (f : Latch → Latch) : (s.modLatch f).dir = s.dir := rfl
@[simp] theorem State.modLatch_acyc (s : State) (f : Latch → Latch) : (s.modLatch f).acyc = s.acyc := rfl
@[simp] theorem State.modLatch_tasks (s : State) (f : Latch → Latch) : (s.modLatch f).tasks = s.tasks := rfl
@[simp] theorem State.modLatch_taken (s : State) (f : Latch → Latch) : (s.modLatch f).taken = s.taken := rfl
@[simp] theorem State.modLatch_ends (s : State) (f : Latch → Latch) : (s.modLatch f).ends = s.ends := rfl
@[simp] theorem State.modLatch_scopes (s : State) (f : Latch → Latch) : (s.modLatch f).scopes = s.scopes := rfl
@[simp] theorem State.modLatch_launches (s : State) (f : Latch → Latch) : (s.modLatch f).launches = s.launches := rfl
@[simp] theorem State.modLatch_nlaunch (s : State) (f : Latch → Latch) : (s.modLatch f).nlaunch = s.nlaunch := rfl
@[simp] theorem State.modLatch_batches (s : State) (f : Latch → Latch) : (s.modLatch f).batches = s.batches := rfl
@[simp] theorem State.modLatch_cb (s : State) (f : Latch → Latch) : (s.modLatch f).cb = s.cb := rfl
@[simp] theorem State.modLatch_fab (s : State) (f : Latch → Latch) : (s.modLatch f).fab = s.fab := rfl
@[simp] theorem State.modLatch_viol (s : State) (f : Latch → Latch) : (s.modLatch f).viol = s.viol := rfl
@[simp] theorem State.modLatch_ras (s : State) (f : Latch → Latch) : (s.modLatch f).ras = s.ras := rfl
@[simp] theorem State.modLatch_rascnt (s : State) (f : Latch → Latch) : (s.modLatch f).rascnt = s.rascnt := rfl
@[simp] theorem State.modLatch_poison (s : State) (f : Latch → Latch) : (s.modLatch f).poison = s.poison := rfl
@[simp] theorem State.modLatch_root (s : State) (f : Latch → Latch) : (s.modLatch f).root = s.root := rfl
@[simp] theorem State.modLatch_prio (s : State) (f : Latch → Latch) : (s.modLatch f).prio = s.prio := rfl
@[simp] theorem State.modLatch_exproot (s : State) (f : Latch → Latch) : (s.modLatch f).exproot = s.exproot := rfl
@[simp] theorem State.modLatch_recBase (s : State) (f : Latch → Latch) : (s.modLatch f).recBase = s.recBase := rfl
@[simp] theorem State.modLatch_pg (s : State) (f : Latch → Latch) : (s.modLatch f).pg = s.pg := rfl
@[simp] theorem State.modLatch_gtab (s : State) (f : Latch → Latch) : (s.modLatch f).gtab = s.gtab := rfl
@[simp] theorem State.modLatch_phops (s : State) (f : Latch → Latch) : (s.modLatch f).phops = s.phops := rfl
@[simp] theorem State.modLatch_basin (s : State) (f : Latch → Latch) : (s.modLatch f).basin = s.basin := rfl
@[simp] theorem State.modLatch_nops (s : State) (f : Latch → Latch) : (s.modLatch f).nops = s.nops := rfl
@[simp] theorem State.modLatch_gsq (s : State) (f : Latch → Latch) : (s.modLatch f).gsq = s.gsq := rfl
@[simp] theorem State.modLatch_gsops (s : State) (f : Latch → Latch) : (s.modLatch f).gsops = s.gsops := rfl
@[simp] theorem State.modLatch_dev (s : State) (f : Latch → Latch) : (s.modLatch f).dev = s.dev := rfl
@[simp] theorem State.tick_agenda (s : State) : s.tick.agenda = s.agenda := rfl
@[simp] theorem State.tick_ev (s : State) : s.tick.ev = s.ev := rfl
@[simp] theorem State.tick_cur (s : State) : s.tick.cur = s.cur := rfl
@[simp] theorem State.tick_latch (s : State) : s.tick.latch = s.latch := rfl
@[simp] theorem State.tick_cores (s : State) : s.tick.cores = s.cores := rfl
@[simp] theorem State.tick_ctxs (s : State) : s.tick.ctxs = s.ctxs := rfl
@[simp] theorem State.tick_ctlb (s : State) : s.tick.ctlb = s.ctlb := rfl
@[simp] theorem State.tick_mem (s : State) : s.tick.mem = s.mem := rfl
@[simp] theorem State.tick_dir (s : State) : s.tick.dir = s.dir := rfl
@[simp] theorem State.tick_acyc (s : State) : s.tick.acyc = s.acyc := rfl
@[simp] theorem State.tick_tasks (s : State) : s.tick.tasks = s.tasks := rfl
@[simp] theorem State.tick_taken (s : State) : s.tick.taken = s.taken := rfl
@[simp] theorem State.tick_ends (s : State) : s.tick.ends = s.ends := rfl
@[simp] theorem State.tick_scopes (s : State) : s.tick.scopes = s.scopes := rfl
@[simp] theorem State.tick_launches (s : State) : s.tick.launches = s.launches := rfl
@[simp] theorem State.tick_nlaunch (s : State) : s.tick.nlaunch = s.nlaunch := rfl
@[simp] theorem State.tick_batches (s : State) : s.tick.batches = s.batches := rfl
@[simp] theorem State.tick_cb (s : State) : s.tick.cb = s.cb := rfl
@[simp] theorem State.tick_fab (s : State) : s.tick.fab = s.fab := rfl
@[simp] theorem State.tick_viol (s : State) : s.tick.viol = s.viol := rfl
@[simp] theorem State.tick_ras (s : State) : s.tick.ras = s.ras := rfl
@[simp] theorem State.tick_rascnt (s : State) : s.tick.rascnt = s.rascnt := rfl
@[simp] theorem State.tick_poison (s : State) : s.tick.poison = s.poison := rfl
@[simp] theorem State.tick_root (s : State) : s.tick.root = s.root := rfl
@[simp] theorem State.tick_prio (s : State) : s.tick.prio = s.prio := rfl
@[simp] theorem State.tick_exproot (s : State) : s.tick.exproot = s.exproot := rfl
@[simp] theorem State.tick_recBase (s : State) : s.tick.recBase = s.recBase := rfl
@[simp] theorem State.tick_pg (s : State) : s.tick.pg = s.pg := rfl
@[simp] theorem State.tick_gtab (s : State) : s.tick.gtab = s.gtab := rfl
@[simp] theorem State.tick_phops (s : State) : s.tick.phops = s.phops := rfl
@[simp] theorem State.tick_basin (s : State) : s.tick.basin = s.basin := rfl
@[simp] theorem State.tick_nops (s : State) : s.tick.nops = s.nops := rfl
@[simp] theorem State.tick_gsq (s : State) : s.tick.gsq = s.gsq := rfl
@[simp] theorem State.tick_gsops (s : State) : s.tick.gsops = s.gsops := rfl
@[simp] theorem State.tick_dev (s : State) : s.tick.dev = s.dev := rfl
@[simp] theorem State.due_ev (s : State) (i : Instr) (e : Ev) : (s.due i e).ev = s.ev := rfl
@[simp] theorem State.due_cur (s : State) (i : Instr) (e : Ev) : (s.due i e).cur = s.cur := rfl
@[simp] theorem State.due_latch (s : State) (i : Instr) (e : Ev) : (s.due i e).latch = s.latch := rfl
@[simp] theorem State.due_fresh (s : State) (i : Instr) (e : Ev) : (s.due i e).fresh = s.fresh := rfl
@[simp] theorem State.due_cores (s : State) (i : Instr) (e : Ev) : (s.due i e).cores = s.cores := rfl
@[simp] theorem State.due_ctxs (s : State) (i : Instr) (e : Ev) : (s.due i e).ctxs = s.ctxs := rfl
@[simp] theorem State.due_ctlb (s : State) (i : Instr) (e : Ev) : (s.due i e).ctlb = s.ctlb := rfl
@[simp] theorem State.due_mem (s : State) (i : Instr) (e : Ev) : (s.due i e).mem = s.mem := rfl
@[simp] theorem State.due_dir (s : State) (i : Instr) (e : Ev) : (s.due i e).dir = s.dir := rfl
@[simp] theorem State.due_acyc (s : State) (i : Instr) (e : Ev) : (s.due i e).acyc = s.acyc := rfl
@[simp] theorem State.due_tasks (s : State) (i : Instr) (e : Ev) : (s.due i e).tasks = s.tasks := rfl
@[simp] theorem State.due_taken (s : State) (i : Instr) (e : Ev) : (s.due i e).taken = s.taken := rfl
@[simp] theorem State.due_ends (s : State) (i : Instr) (e : Ev) : (s.due i e).ends = s.ends := rfl
@[simp] theorem State.due_scopes (s : State) (i : Instr) (e : Ev) : (s.due i e).scopes = s.scopes := rfl
@[simp] theorem State.due_launches (s : State) (i : Instr) (e : Ev) : (s.due i e).launches = s.launches := rfl
@[simp] theorem State.due_nlaunch (s : State) (i : Instr) (e : Ev) : (s.due i e).nlaunch = s.nlaunch := rfl
@[simp] theorem State.due_batches (s : State) (i : Instr) (e : Ev) : (s.due i e).batches = s.batches := rfl
@[simp] theorem State.due_cb (s : State) (i : Instr) (e : Ev) : (s.due i e).cb = s.cb := rfl
@[simp] theorem State.due_fab (s : State) (i : Instr) (e : Ev) : (s.due i e).fab = s.fab := rfl
@[simp] theorem State.due_viol (s : State) (i : Instr) (e : Ev) : (s.due i e).viol = s.viol := rfl
@[simp] theorem State.due_ras (s : State) (i : Instr) (e : Ev) : (s.due i e).ras = s.ras := rfl
@[simp] theorem State.due_rascnt (s : State) (i : Instr) (e : Ev) : (s.due i e).rascnt = s.rascnt := rfl
@[simp] theorem State.due_poison (s : State) (i : Instr) (e : Ev) : (s.due i e).poison = s.poison := rfl
@[simp] theorem State.due_root (s : State) (i : Instr) (e : Ev) : (s.due i e).root = s.root := rfl
@[simp] theorem State.due_prio (s : State) (i : Instr) (e : Ev) : (s.due i e).prio = s.prio := rfl
@[simp] theorem State.due_exproot (s : State) (i : Instr) (e : Ev) : (s.due i e).exproot = s.exproot := rfl
@[simp] theorem State.due_recBase (s : State) (i : Instr) (e : Ev) : (s.due i e).recBase = s.recBase := rfl
@[simp] theorem State.due_pg (s : State) (i : Instr) (e : Ev) : (s.due i e).pg = s.pg := rfl
@[simp] theorem State.due_gtab (s : State) (i : Instr) (e : Ev) : (s.due i e).gtab = s.gtab := rfl
@[simp] theorem State.due_phops (s : State) (i : Instr) (e : Ev) : (s.due i e).phops = s.phops := rfl
@[simp] theorem State.due_basin (s : State) (i : Instr) (e : Ev) : (s.due i e).basin = s.basin := rfl
@[simp] theorem State.due_nops (s : State) (i : Instr) (e : Ev) : (s.due i e).nops = s.nops := rfl
@[simp] theorem State.due_gsq (s : State) (i : Instr) (e : Ev) : (s.due i e).gsq = s.gsq := rfl
@[simp] theorem State.due_gsops (s : State) (i : Instr) (e : Ev) : (s.due i e).gsops = s.gsops := rfl
@[simp] theorem State.due_dev (s : State) (i : Instr) (e : Ev) : (s.due i e).dev = s.dev := rfl


/-! ### Cores and contexts read back -/

theorem State.setCore_core (s : State) (c : Nat) (v : Core) (d : Nat) : (s.setCore c v).core d = if d = c then v else s.core d := by
  simp only [State.core, State.setCore, look_put]; split <;> rfl
@[simp] theorem State.setCore_core_self (s : State) (c : Nat) (v : Core) : (s.setCore c v).core c = v := by simp [State.setCore_core]
theorem State.modCore_core (s : State) (c : Nat) (f : Core → Core) (d : Nat) :
    (s.modCore c f).core d = if d = c then f (s.core c) else s.core d := by simp [State.modCore, State.setCore_core]
@[simp] theorem State.modCore_core_self (s : State) (c : Nat) (f : Core → Core) : (s.modCore c f).core c = f (s.core c) := by
  simp [State.modCore_core]
theorem State.modCore_core_ne (s : State) {c d : Nat} (f : Core → Core) (h : d ≠ c) : (s.modCore c f).core d = s.core d := by
  simp [State.modCore_core, h]
@[simp] theorem State.setCtx_core (s : State) (t : Nat) (x : Context) (c : Nat) : (s.setCtx t x).core c = s.core c := rfl
@[simp] theorem State.modCtx_core (s : State) (t : Nat) (f : Context → Context) (c : Nat) : (s.modCtx t f).core c = s.core c := by
  simp [State.core]
@[simp] theorem State.modLatch_core (s : State) (f : Latch → Latch) (c : Nat) : (s.modLatch f).core c = s.core c := rfl
@[simp] theorem State.tick_core (s : State) (c : Nat) : s.tick.core c = s.core c := rfl

theorem State.setCtx_ctx? (s : State) (t : Nat) (x : Context) (u : Nat) : (s.setCtx t x).ctx? u = if u = t then some x else s.ctx? u := by
  simp [State.ctx?, State.setCtx, look_put]
@[simp] theorem State.setCtx_ctx?_self (s : State) (t : Nat) (x : Context) : (s.setCtx t x).ctx? t = some x := by simp [State.setCtx_ctx?]
theorem State.modCtx_ctx? (s : State) (t : Nat) (f : Context → Context) (u : Nat) :
    (s.modCtx t f).ctx? u = if u = t then (s.ctx? t).map f else s.ctx? u := by
  unfold State.modCtx; split <;> rename_i h
  · simp [State.setCtx_ctx?, h]
  · split <;> simp_all
theorem State.modCtx_some {s : State} {t : Nat} {x : Context} (f : Context → Context) (h : s.ctx? t = some x) :
    s.modCtx t f = s.setCtx t (f x) := by simp [State.modCtx, h]
theorem State.modCtx_ctx?_ne (s : State) {t u : Nat} (f : Context → Context) (h : u ≠ t) : (s.modCtx t f).ctx? u = s.ctx? u := by
  simp [State.modCtx_ctx?, h]
@[simp] theorem State.setCore_ctx? (s : State) (c : Nat) (v : Core) (t : Nat) : (s.setCore c v).ctx? t = s.ctx? t := rfl
@[simp] theorem State.modCore_ctx? (s : State) (c : Nat) (f : Core → Core) (t : Nat) : (s.modCore c f).ctx? t = s.ctx? t := rfl
@[simp] theorem State.modLatch_ctx? (s : State) (f : Latch → Latch) (t : Nat) : (s.modLatch f).ctx? t = s.ctx? t := rfl
@[simp] theorem State.tick_ctx? (s : State) (t : Nat) : s.tick.ctx? t = s.ctx? t := rfl
theorem State.modLatch_some {s : State} {l : Latch} (f : Latch → Latch) (h : s.latch = some l) : (s.modLatch f).latch = some (f l) := by
  simp [State.modLatch, h]

end Sys2Proof.Machine
end

