-- ==== Sys2Proof/Laws/Memory.lean ====
section
/-!
SUPPORT. The canonical form of memory: every operation that writes bytes keeps it.
-/

namespace Sys2Proof.Machine

theorem wfFrom_mono {lo hi : Nat} {m : Memory} (h : wfFrom hi m = true) (hl : lo ≤ hi) : wfFrom lo m = true := by
  cases m with
  | nil => rfl
  | cons p r => simp only [wfFrom, Bool.and_eq_true, decide_eq_true_eq] at h ⊢; exact ⟨⟨by omega, h.1.2⟩, h.2⟩

theorem wfFrom_wr8 {lo : Nat} {m : Memory} (a : Nat) (v : Byte) (h : wfFrom lo m = true) : wfFrom (min lo a) (wr8 m a v) = true := by
  induction m generalizing lo with
  | nil => simp only [wr8]; split <;> simp_all [wfFrom]
  | cons p r ih =>
    obtain ⟨b, w⟩ := p
    simp only [wfFrom, Bool.and_eq_true, decide_eq_true_eq] at h
    simp only [wr8]
    split
    · split
      · simp only [wfFrom, Bool.and_eq_true, decide_eq_true_eq]; exact ⟨⟨by omega, h.1.2⟩, h.2⟩
      · simp only [wfFrom, Bool.and_eq_true, decide_eq_true_eq]; exact ⟨⟨by omega, by simp_all⟩, ⟨by omega, h.1.2⟩, h.2⟩
    · split
      · split
        · exact wfFrom_mono h.2 (by omega)
        · simp only [wfFrom, Bool.and_eq_true, decide_eq_true_eq]; exact ⟨⟨by omega, by simp_all⟩, by simp_all⟩
      · simp only [wfFrom, Bool.and_eq_true, decide_eq_true_eq]
        have := ih h.2
        exact ⟨⟨by omega, h.1.2⟩, wfFrom_mono this (by omega)⟩

theorem Mem.wf_nil : Mem.wf [] = true := rfl
/-- Writing a byte keeps the form. -/
theorem Mem.wf_wr8 {m : Memory} (a : Nat) (v : Byte) (h : Mem.wf m = true) : Mem.wf (wr8 m a v) = true := by
  have := wfFrom_wr8 a v h
  simpa [Mem.wf] using this
/-- Writing bytes keeps the form. -/
theorem Mem.wf_wrBytes {m : Memory} (bs : List (Nat × Byte)) (h : Mem.wf m = true) : Mem.wf (wrBytes m bs) = true := by
  induction bs generalizing m with
  | nil => exact h
  | cons p r ih => exact ih (Mem.wf_wr8 p.1 p.2 h)

theorem wfFrom_filter {lo : Nat} {m : Memory} (f : Nat × Byte → Bool) (h : wfFrom lo m = true) : wfFrom lo (m.filter f) = true := by
  induction m generalizing lo with
  | nil => rfl
  | cons p r ih =>
    simp only [wfFrom, Bool.and_eq_true, decide_eq_true_eq] at h
    rw [List.filter_cons]
    split
    · simp only [wfFrom, Bool.and_eq_true, decide_eq_true_eq]; exact ⟨h.1, ih h.2⟩
    · exact wfFrom_mono (ih h.2) (by omega)
/-- Zeroing bytes by dropping their entries keeps the form. -/
theorem Mem.wf_filter {m : Memory} (f : Nat × Byte → Bool) (h : Mem.wf m = true) : Mem.wf (m.filter f) = true := wfFrom_filter f h

end Sys2Proof.Machine
end

