-- ==== Sys2Proof/Laws/Effects.lean ====
section
/-!
SUPPORT. Everything each shared operation can do to a state, once: which fields it may change, and that memory keeps its
canonical form through it.
-/

namespace Sys2Proof.Machine

/-! ### Slots -/

/-- Pops change the issuing core's receive path and count queue and the latch, nothing else. -/
theorem popOps_effect (s : State) (x : Context) (on : Bool) (os : List Opd) :
    ∃ k l, popOps s x on os = { s with cores := k, latch := l } := by
  unfold popOps
  generalize (on && os.contains (.s .fin)) = p
  generalize (on && os.contains (.s .cq)) = q
  cases p <;> cases q <;> simp only [Bool.false_eq_true, if_false, if_true] <;> (try split) <;> exact ⟨_, _, rfl⟩
@[simp] theorem popOps_ctxs (s : State) (x : Context) (on : Bool) (os : List Opd) : (popOps s x on os).ctxs = s.ctxs := by
  obtain ⟨k, l, h⟩ := popOps_effect s x on os; rw [h]
@[simp] theorem popOps_mem (s : State) (x : Context) (on : Bool) (os : List Opd) : (popOps s x on os).mem = s.mem := by
  obtain ⟨k, l, h⟩ := popOps_effect s x on os; rw [h]
@[simp] theorem popOps_fresh (s : State) (x : Context) (on : Bool) (os : List Opd) : (popOps s x on os).fresh = s.fresh := by
  obtain ⟨k, l, h⟩ := popOps_effect s x on os; rw [h]
@[simp] theorem popOps_ceOf (s : State) (x : Context) (on : Bool) (os : List Opd) : ceOf (popOps s x on os) = ceOf s := by
  unfold popOps ceOf
  cases h : s.latch <;> simp only [State.modLatch, State.modCore] <;> split_ifs <;> simp [h]
@[simp] theorem popOps_off (s : State) (x : Context) (os : List Opd) : popOps s x false os = s := by simp [popOps]
@[simp] theorem popOps_nil (s : State) (x : Context) (on : Bool) : popOps s x on [] = s := by simp [popOps]
/-- A refill of the receive FIFO changes its words and its ring's places. -/
theorem refillRx_effect (n : Nat) (c : Core) : ∃ r d m, Core.refillRx c n = { c with rx := r, ringRd := d, ringN := m } := by
  induction n generalizing c with
  | zero => exact ⟨_, _, _, rfl⟩
  | succ n ih =>
    unfold Core.refillRx
    split
    · obtain ⟨r, d, m, h⟩ := ih { c with rx := c.rx ++ _, ringRd := _, ringN := _ }
      exact ⟨r, d, m, h⟩
    · exact ⟨_, _, _, rfl⟩
/-- A push changes the issuing task's context, nothing else. -/
theorem pushQ_effect (s : State) (t : Nat) (q : Qn) (lat : Nat) (v : Option QVal) :
    pushQ s t q lat v = s.modCtx t fun x => { x with fr := x.fr.push q (x.ccyc + lat) v x.nextId, nextId := x.nextId + 1 } := rfl

/-! ### Logs and causes -/

/-- An entry of the violation log changes that log. -/
theorem logViol_effect (s : State) (d : Fin 2) (kind : Option Nat) (core ctx : Nat) (src : Option Nat) (addr : Option W64) :
    ∃ v, logViol s d kind core ctx src addr = { s with viol := v } := ⟨_, rfl⟩
/-- An entry of the RAS log changes that log. -/
theorem logRas_effect (s : State) (d : Fin 2) (kind core ctx : Nat) (src : Option Nat) (addr info : Option W64) :
    ∃ v, logRas s d kind core ctx src addr info = { s with ras := v } := ⟨_, rfl⟩
/-- An uncorrectable error changes the RAS log and its count. -/
theorem noteUe_effect (s : State) (d : Fin 2) (core ctx : Nat) (addr : W64) :
    ∃ r v, noteUe s d core ctx addr = { s with rascnt := r, ras := v } := ⟨_, _, rfl⟩
/-- Marking a launch changes the launches. -/
theorem launchErr_effect (s : State) (l : Nat) (a : W64) : ∃ k, launchErr s l a = { s with launches := k } := by
  unfold launchErr; split
  · exact ⟨_, rfl⟩
  · exact ⟨_, rfl⟩
/-- An asynchronous cause is pending in its context or charged to its launch. -/
theorem postAsync_effect (s : State) (t : Nat) (c : Cause) : ∃ x k, postAsync s t c = { s with ctxs := x, launches := k } := by
  unfold postAsync State.setCtx
  split
  · split
    · obtain ⟨k, h⟩ := launchErr_effect s _ c.addr; exact ⟨_, _, h⟩
    · exact ⟨_, _, rfl⟩
  · split
    · obtain ⟨k, h⟩ := launchErr_effect s _ c.addr; exact ⟨_, _, h⟩
    · exact ⟨_, _, rfl⟩
/-- A refused race is logged and pending. -/
theorem raceAt_effect (s : State) (t c pa : Nat) (va : W64) :
    ∃ v x k, raceAt s t c pa va = { s with viol := v, ctxs := x, launches := k } := by
  obtain ⟨x, k, h⟩ := postAsync_effect (logViol s (dieOfPa pa) none c (((s.ctx? t).map (·.num)).getD 0xFF) none (some va)) t
    { code := cMemory, sub := MM.race.code, addr := va }
  exact ⟨_, _, _, h⟩

/-! ### Pool, caches, memory -/

/-- A write of a pool changes the cores. -/
theorem poolWrite_effect (s : State) (c rk : Nat) (bs : List (Nat × Byte)) (fe : Option (Bool × List Nat)) :
    ∃ k, poolWrite s c rk bs fe = { s with cores := k } := ⟨_, rfl⟩
/-- A write of a scratchpad changes the cores. -/
theorem spWrite_effect (s : State) (c rk o : Nat) (bs : List Byte) (fe : Option (Bool × List Nat)) :
    ∃ k, spWrite s c rk o bs fe = { s with cores := k } := ⟨_, rfl⟩
/-- A write of memory changes memory and the poison of the granules it covers. -/
theorem memWrite_effect (s : State) (bs : List (Nat × Byte)) :
    ∃ p, memWrite s bs = { s with mem := wrBytes s.mem bs, poison := p } := by
  unfold memWrite; dsimp only; split
  · exact ⟨_, rfl⟩
  · exact ⟨_, rfl⟩
@[simp] theorem memWrite_mem (s : State) (bs : List (Nat × Byte)) : (memWrite s bs).mem = wrBytes s.mem bs := by
  obtain ⟨p, h⟩ := memWrite_effect s bs; rw [h]
/-- A write-back changes memory, poison, the cores and the directory. -/
theorem writeBack_effect (s : State) (c ln : Nat) :
    ∃ m p k d, writeBack s c ln = { s with mem := m, poison := p, cores := k, dir := d } := by
  unfold writeBack
  split
  · exact ⟨_, _, _, _, rfl⟩
  · obtain ⟨p, h⟩ := memWrite_effect s (DLine.dirtyBytes _ ln)
    rw [h]; dsimp only; split <;> exact ⟨_, _, _, _, rfl⟩
theorem writeBack_wf {s : State} (c ln : Nat) (h : Mem.wf s.mem = true) : Mem.wf (writeBack s c ln).mem = true := by
  unfold writeBack
  split
  · exact h
  · dsimp only; split <;> simpa [poisonLine] using Mem.wf_wrBytes _ h
/-- An eviction changes memory, poison, the cores and the directory. -/
theorem evictLine_effect (s : State) (c ln : Nat) :
    ∃ m p k d, evictLine s c ln = { s with mem := m, poison := p, cores := k, dir := d } := by
  unfold evictLine
  split
  · split
    · obtain ⟨m, p, k, d, h⟩ := writeBack_effect s c ln
      rw [h]; exact ⟨_, _, _, _, rfl⟩
    · exact ⟨_, _, _, _, rfl⟩
  · exact ⟨_, _, _, _, rfl⟩
theorem evictLine_wf {s : State} (c ln : Nat) (h : Mem.wf s.mem = true) : Mem.wf (evictLine s c ln).mem = true := by
  unfold evictLine
  split
  · split
    · simpa using writeBack_wf c ln h
    · exact h
  · exact h
/-- A fill changes memory, poison, the cores and the directory. -/
theorem fillLine_effect (s : State) (c ln : Nat) :
    ∃ m p k d, fillLine s c ln = { s with mem := m, poison := p, cores := k, dir := d } := by
  unfold fillLine
  split
  · exact ⟨_, _, _, _, rfl⟩
  · dsimp only; split
    · split
      · rename_i v _ _ _
        obtain ⟨m, p, k, d, h⟩ := evictLine_effect s c v
        rw [h]; exact ⟨_, _, _, _, rfl⟩
      · exact ⟨_, _, _, _, rfl⟩
    · exact ⟨_, _, _, _, rfl⟩
theorem fillLine_wf {s : State} (c ln : Nat) (h : Mem.wf s.mem = true) : Mem.wf (fillLine s c ln).mem = true := by
  unfold fillLine
  split
  · exact h
  · dsimp only; split
    · split
      · simpa using evictLine_wf c _ h
      · exact h
    · exact h
/-- What holds of a state and through each step of a fold holds at its end. -/
theorem foldl_keeps {α β : Type} (P : α → Prop) (f : α → β → α) (l : List β) (a : α) (h : P a)
    (hf : ∀ a b, P a → P (f a b)) : P (l.foldl f a) := by
  induction l generalizing a with
  | nil => exact h
  | cons b r ih => exact ih _ (hf _ _ h)
theorem recallVar_wf {s : State} (v : Nat) (h : Mem.wf s.mem = true) : Mem.wf (recallVar s v).mem = true :=
  foldl_keeps (fun s : State => Mem.wf s.mem = true) _ _ _ h fun _ _ h => writeBack_wf _ _ h
theorem writeBackMine_wf {s : State} (c t : Nat) (h : Mem.wf s.mem = true) : Mem.wf (writeBackMine s c t).mem = true :=
  foldl_keeps (fun s : State => Mem.wf s.mem = true) _ _ _ h fun _ _ h => writeBack_wf _ _ h
theorem writeBackCore_wf {s : State} (c : Nat) (h : Mem.wf s.mem = true) : Mem.wf (writeBackCore s c).mem = true :=
  foldl_keeps (fun s : State => Mem.wf s.mem = true) _ _ _ h fun _ _ h => writeBack_wf _ _ h
theorem plainLoad_wf {s : State} (c t pa n : Nat) (nc : Bool) (h : Mem.wf s.mem = true) :
    Mem.wf (plainLoad s c t pa n nc).1.mem = true := by
  unfold plainLoad
  dsimp only
  repeat' split
  all_goals first
    | exact h
    | exact fillLine_wf c _ h
    | (cases ‹Option DirSt› <;> exact h)
theorem plainStore_wf {s s' : State} {c t pa : Nat} {bs : List Byte} {nc : Bool} (h : Mem.wf s.mem = true)
    (hs : plainStore s c t pa bs nc = some s') : Mem.wf s'.mem = true := by
  have set_wf : ∀ (s : State) ln d, Mem.wf s.mem = true → Mem.wf (setDir s ln d).mem = true := by
    intro s ln d h; cases d <;> exact h
  unfold plainStore at hs
  dsimp only at hs
  split at hs
  · cases hs
  · split at hs
    · simp only [Option.some.injEq] at hs
      subst hs
      split
      · simpa using Mem.wf_wrBytes _ h
      · simpa using Mem.wf_wrBytes _ h
    · simp only [Option.some.injEq] at hs
      subst hs
      split
      · simpa using set_wf _ _ _ (fillLine_wf c _ h)
      · exact set_wf _ _ _ (fillLine_wf c _ h)
theorem storeAll_wf {s : State} (c t : Nat) (accs : List (W64 × Nat × List Byte × Bool)) (h : Mem.wf s.mem = true) :
    Mem.wf (storeAll s c t accs).mem = true := by
  unfold storeAll
  split
  · rename_i va pa _
    obtain ⟨v, x, k, e⟩ := raceAt_effect s t c pa va
    rw [e]; exact h
  · refine foldl_keeps (fun s : State => Mem.wf s.mem = true) _ _ _ h fun s a hs => ?_
    cases hp : plainStore s c t a.2.1 a.2.2.1 a.2.2.2 with
    | none => simpa using hs
    | some s' => simpa using plainStore_wf hs hp
@[simp] theorem postAsync_mem (s : State) (t : Nat) (c : Cause) : (postAsync s t c).mem = s.mem := by
  obtain ⟨x, k, e⟩ := postAsync_effect s t c; rw [e]
/-- A waiting access joins those of its context. -/
theorem addLater_effect (s : State) (t : Nat) (e : Later) :
    ∃ x, addLater s t e = { s with fresh := s.fresh + 1, ctxs := x } := by
  unfold addLater State.modCtx State.setCtx State.tick; split <;> exact ⟨_, rfl⟩
@[simp] theorem addLater_mem (s : State) (t : Nat) (e : Later) : (addLater s t e).mem = s.mem := by
  obtain ⟨x, h⟩ := addLater_effect s t e; rw [h]
@[simp] theorem takeNum_mem (s : State) (n : Nat) (r : Strm) (sp : List (Nat × Nat)) : (takeNum s n r sp).mem = s.mem := rfl
@[simp] theorem strmSend_mem (s : State) (t n : Nat) (r : Strm) (va : W64) (k : Option RTicket) (b : StreamBody) :
    (strmSend s t n r va k b).mem = s.mem := rfl
/-- A remote write of a slot changes no memory of this package in its bundle. -/
@[simp] theorem remoteWrite_mem (s : State) (t : Nat) (x : Context) (slot : Nat) (va : W64) (b : StreamBody) :
    (remoteWrite s t x slot va b).mem = s.mem := by
  unfold remoteWrite
  split
  · simp
  · dsimp only; split <;> simp
  · rfl
/-- A release takes its place: memory is unchanged until its turn. -/
@[simp] theorem addRelease_mem (s : State) (t : Nat) (x : Context) (slot : Nat) (va val : W64) (sc : Scope)
    (sp : List (Nat × Nat)) : (addRelease s t x slot va val sc sp).mem = s.mem := by
  unfold addRelease
  dsimp only
  repeat' split
  all_goals simp
theorem applyWrite_wf {s : State} (src rk : Nat) (w : Write) (h : Mem.wf s.mem = true) :
    Mem.wf (applyWrite s src rk w).mem = true := by
  cases w with
  | pool c bs fe => exact h
  | wfe c ls => exact h
  | glob t accs =>
    simp only [applyWrite]
    repeat' split
    · simpa using h
    · exact storeAll_wf _ _ _ h
    · exact h
  | rem t slot va b => simp only [applyWrite]; split <;> simpa using h
  | strl t slot va val sc sp => simp only [applyWrite]; split <;> simpa using h

/-! ### Translation -/

/-- A translation changes the TLBs. -/
theorem findLeaf_effect {s s' : State} {c va lvl e : Nat} (h : findLeaf s c va = .ok (s', lvl, e)) :
    ∃ k t, s' = { s with cores := k, ctlb := t } := by
  unfold findLeaf at h
  dsimp only at h
  repeat' split at h
  all_goals first
    | (cases h; done)
    | (simp only [Except.ok.injEq, Prod.mk.injEq] at h; obtain ⟨rfl, -, -⟩ := h; exact ⟨_, _, rfl⟩)
/-- A translation changes the TLBs. -/
theorem xlate_effect {s s' : State} {c : Nat} {va : W64} {n : Need} {pa : Nat} {nc : Bool} (h : xlate s c va n = .ok (s', pa, nc)) :
    ∃ k t, s' = { s with cores := k, ctlb := t } := by
  unfold xlate at h
  split at h
  · cases h
  · split at h
    · cases h
    · rename_i hf
      obtain ⟨k, t, e⟩ := findLeaf_effect hf
      dsimp only at h
      split at h
      · simp only [Except.ok.injEq, Prod.mk.injEq] at h; exact ⟨k, t, h.1 ▸ e⟩
      · cases h

/-! ### Messages, tasks, nodes, pages -/

/-- A message that is formed waits in its order, under a name of its own. -/
theorem formMsg_effect (s : State) (m : OutMsg) :
    formMsg s m = { s with fresh := s.fresh + 1, fab := { s.fab with out := s.fab.out ++ [{ m with id := s.fresh }] } } := rfl
/-- A message of a stream takes its next number. -/
theorem strmSend_effect (s : State) (t n : Nat) (r : Strm) (va : W64) (tick : Option RTicket) (body : StreamBody) :
    ∃ f, strmSend s t n r va tick body = { s with fresh := s.fresh + 1, fab := f } ∧
      (let m : StreamMsg := { src := s.fab.ep, strm := n, seq := r.next, tick := tick, body := body }
       f.out = s.fab.out ++ [{ dst := r.ep, task := t, addr := va, msg := .strm m, id := s.fresh }]) ∧
      look f.strms n = some ({ r with
        next := (r.next + 1) % 2 ^ 32, unacked := r.unacked ++ [r.next], mine := r.mine ++ [(r.next, bodySpan s r.ep body)] } : Strm) ∧
      ∀ j, j ≠ n → look f.strms j = look s.fab.strms j :=
  ⟨_, rfl, rfl, look_put_self _ _ _, fun _ h => look_put_ne _ _ h⟩
/-- A value that lands changes its context. -/
theorem landVal_effect (s : State) (t id : Nat) (v : QVal) : ∃ x, landVal s t id v = { s with ctxs := x } := by
  unfold landVal State.modCtx State.setCtx; split
  · exact ⟨_, rfl⟩
  · exact ⟨_, rfl⟩
/-- A change of a record changes the records, and of them that one. -/
theorem modTask_effect (s : State) (i : Nat) (f : Task → Task) :
    ∃ k, modTask s i f = { s with tasks := k } ∧ look k i = (look s.tasks i).map f ∧ ∀ j, j ≠ i → look k j = look s.tasks j := by
  unfold modTask
  split
  · rename_i k h; exact ⟨_, rfl, by simp [h], fun _ hj => look_put_ne _ _ hj⟩
  · rename_i h; exact ⟨_, rfl, by simp [h], fun _ _ => rfl⟩
/-- An arrival at a sync word changes its core's scratchpad. -/
theorem syncArrive_effect (s : State) (o : Nat × Nat) (n : Nat) : ∃ k, syncArrive s o n = { s with cores := k } := ⟨_, rfl⟩
/-- A node record that is set is read back. -/
theorem recAt_putRec (s : State) (x : W32) (r : NodeRec) (hp : idPkg x = s.fab.ep) (hi : idIndex x < 2 ^ 20) (hn : x ≠ nullId) :
    recAt (putRec s x r) x = some r := by
  have hd : idDie x < 2 := by
    have := (x.extractLsb' 21 1).isLt; simpa [idDie] using this
  have h1 : ¬ (2 : Nat) ^ 20 ≤ idIndex x := by omega
  have hv : (s.basin.setIfInBounds (idDie x) (put (s.basin.getD (idDie x) []) (idIndex x) r)).getD (idDie x) [] =
      put (s.basin.getD (idDie x) []) (idIndex x) r := by
    simp [Vector.getD, hd]
  simp only [recAt, putRec, setBasin, basinOf, hn, hp, h1, ne_eq, not_true_eq_false, or_self, if_false, hv, look_put_self]
/-- The entry of a page that is set is read back; others stand. -/
theorem pgEnt_setEnt (s : State) (h j : Nat) (e : PgEntry) : pgEnt (setEnt s h e) j = if j = h then e else pgEnt s j := by
  simp only [pgEnt, setEnt, look_put]
  by_cases hj : j = h
  · simp [hj]
  · simp [hj]
/-- Setting a half of the matrix engine's weights. -/
theorem half_setHalf (m : MatrixEng) (h : Nat) (v : Half) : (m.setHalf h v).half h = v := by
  unfold MatrixEng.setHalf MatrixEng.half; split <;> simp_all
/-- Ordering a list keeps what it holds. -/
theorem mem_sortBy {α : Type} (before : α → α → Bool) (l : List α) (a : α) : a ∈ sortBy before l ↔ a ∈ l := by
  have hi : ∀ (b : α) (r : List α), a ∈ insBy before b r ↔ a = b ∨ a ∈ r := by
    intro b r
    induction r with
    | nil => simp [insBy]
    | cons c r ih =>
      unfold insBy; split
      · simp
      · simp only [List.mem_cons, ih]; tauto
  induction l with
  | nil => simp [sortBy]
  | cons b r ih =>
    have e : sortBy before (b :: r) = insBy before b (sortBy before r) := rfl
    rw [e, hi, List.mem_cons]
    exact or_congr_right ih

end Sys2Proof.Machine
end

