-- ==== Sys2Proof/Laws/Operands.lean ====
section
/-!
SUPPORT. What the checks of a slot say: readable operands pass them, and what fails them otherwise.
-/

namespace Sys2Proof.Machine

theorem idxStop_of_inFile {x : Context} {o : Opd} (h : inFile x o = true) : idxStop x o = none := by
  unfold inFile at h; unfold idxStop
  split <;> simp_all

theorem expoStop_of_settled {x : Context} {o : Opd} (p : Nat) (h : settled x o = true) : expoStop p x o = none := by
  unfold settled at h; unfold expoStop
  split <;> simp_all
  rcases h.1 with e | e <;> simp [e]

theorem heldStop_of_settled {x : Context} {o : Opd} (h : settled x o = true) : heldStop x o = none := by
  unfold settled at h; unfold heldStop
  split <;> simp_all
  rcases h with ⟨_, e⟩
  simpa [Option.isSome_iff_ne_none] using e

theorem roomStop_of_room {s : State} {x : Context} {n : Nat} (h : room s x n = true) : roomStop s x n = none := by
  unfold room at h; unfold roomStop
  simp at h
  rcases h with e | e <;> simp [e]

theorem rcStop_of_blocksOk {s : State} {x : Context} {os : List Opd} (h : blocksOk s x os = true) : rcStop s x os = none := by
  unfold blocksOk at h; unfold rcStop
  dsimp only
  split
  · rfl
  · rw [if_neg]; simpa using h

/-- Readable operands pass every check of a slot (R146). -/
theorem guardOps_ok {s : State} {x : Context} {on : Bool} {os : List Opd} {n : Nat} (h : readable s x on os n = true) :
    guardOps s x on os n = .ok () := by
  simp only [readable, Bool.and_eq_true, List.all_eq_true] at h
  obtain ⟨⟨hos, hr⟩, hb⟩ := h
  have hi : os.findSome? (idxStop x) = none := by
    rw [List.findSome?_eq_none_iff]; exact fun o ho => idxStop_of_inFile (hos o ho).1.1
  have he : os.findSome? (expoStop s.pos x) = none := by
    rw [List.findSome?_eq_none_iff]; exact fun o ho => expoStop_of_settled _ (hos o ho).1.2
  have hh : os.findSome? (heldStop x) = none := by
    rw [List.findSome?_eq_none_iff]; exact fun o ho => heldStop_of_settled (hos o ho).1.2
  have hc : cqStop s x on os = none := by
    unfold cqStop
    cases on with
    | false => simp
    | true =>
      by_cases hm : Opd.s .cq ∈ os
      · have := (hos _ hm).2; simp [present] at this; simp [this]
      · simp [hm]
  have hf : finStop s x on os = none := by
    unfold finStop
    cases on with
    | false => simp
    | true =>
      by_cases hm : Opd.s .fin ∈ os
      · have := (hos _ hm).2; simp [present] at this; simp [this]
      · simp [hm]
  have hm : rcStop s x os = none := rcStop_of_blocksOk hb
  simp [guardOps, check, hm, hi, he, hh, hc, hf, roomStop_of_room hr]

@[simp] theorem conclude_ok (s s' : State) : conclude s (.ok s') = .next s' := rfl
@[simp] theorem conclude_pure (s s' : State) : conclude s (pure s') = .next s' := rfl
@[simp] theorem conclude_trap (s : State) (c : Cause) : conclude s (.error (.trap c)) = .next (raise s c) := rfl
@[simp] theorem conclude_hold (s : State) :
    conclude s (.error .hold) = .next (s.modLatch fun l => { l with held := true }) := rfl

end Sys2Proof.Machine
end

