-- ==== Sys2Proof/Laws/Ops.lean ====
section
/-!
SUPPORT. What shared operations do: a free resource is picked where there is one, bytes read back in order.
-/

namespace Sys2Proof.Machine

/-- One of several free resources is picked where there is one. -/
theorem pickOf_isSome (s : State) {l : List Nat} (h : l ≠ []) : (pickOf s l).isSome = true := by
  have hl : 0 < l.length := List.length_pos_iff.mpr h
  have he : l.isEmpty = false := by simpa using h
  simp [pickOf, he, Nat.mod_lt _ hl]
/-- What is picked is one of them. -/
theorem pickOf_mem {s : State} {l : List Nat} {n : Nat} (h : pickOf s l = some n) : n ∈ l := by
  simp only [pickOf] at h
  split at h
  · simp at h
  · exact List.mem_of_getElem? h
/-- A run of bytes is read in parts. -/
theorem rdBytes_append (m : Memory) (a n k : Nat) : rdBytes m a (n + k) = rdBytes m a n ++ rdBytes m (a + n) k := by
  induction n generalizing a with
  | zero => simp [rdBytes]
  | succ n ih =>
    rw [show n + 1 + k = (n + k) + 1 by omega]
    simp only [rdBytes, ih, List.cons_append]
    rw [show a + 1 + n = a + (n + 1) by omega]
/-- Bytes that all read as zero. -/
theorem rdBytes_zeros (m : Memory) (a n : Nat) (h : ∀ i, i < n → rd8 m (a + i) = 0) : rdBytes m a n = List.replicate n 0 := by
  induction n generalizing a with
  | zero => rfl
  | succ n ih =>
    simp only [rdBytes, List.replicate_succ]
    rw [show rd8 m a = 0 by simpa using h 0 (by omega), ih (a + 1) fun i hi => by simpa [Nat.add_assoc, Nat.add_comm 1] using h (i + 1) (by omega)]
@[simp] theorem length_rdBytes (m : Memory) (a n : Nat) : (rdBytes m a n).length = n := by
  induction n generalizing a with
  | zero => rfl
  | succ n ih => simp [rdBytes, ih]
/-- Outside bytes placed alone, zero is read. -/
theorem rd8_place_out (b a : Nat) (l : List Byte) (h : a < b ∨ b + l.length ≤ a) : rd8 (place b l) a = 0 := by
  induction l generalizing b with
  | nil => rfl
  | cons v r ih =>
    simp only [List.length_cons] at h
    simp only [place, rd8]
    rw [if_neg (by omega), ih (b + 1) (by omega)]
@[simp] theorem length_leBytes (v n : Nat) : (leBytes v n).length = n := by
  induction n generalizing v with
  | zero => rfl
  | succ n ih => simp [leBytes, ih]
@[simp] theorem length_place (a : Nat) (l : List Byte) : (place a l).length = l.length := by
  induction l generalizing a with
  | nil => rfl
  | cons _ _ ih => simp [place, ih]
/-- A number is read back from its bytes (R3). -/
theorem leNat_leBytes (v n : Nat) : leNat (leBytes v n) = v % 256 ^ n := by
  induction n generalizing v with
  | zero => simp [leBytes, leNat, Nat.mod_one]
  | succ n ih =>
    simp only [leBytes, leNat, ih, BitVec.toNat_ofNat]
    rw [show 256 ^ (n + 1) = 256 * 256 ^ n from Nat.pow_succ', Nat.mod_mul]

end Sys2Proof.Machine
end

