-- ==== Sys2Proof/Tests/Slice0.lean ====
section
/-!
SUPPORT. Tests: words written out from the encoding tables, ill-formed terms, single steps on small states, and for each
statement states and operands that meet its hypotheses.
-/

namespace Sys2Proof.Tests

set_option Elab.async false

open Sys2Proof.Machine

/-! ### Decoding: fields E CLASS OPCODE G A B MINOR written out from R28 to R50 -/

/-- A guard: always; never (ps1 is 0 in the states below). -/
def g0 : Guard := ⟨0, false⟩
/-- A false guard. -/
def gF : Guard := ⟨1, false⟩
/-- The words decode to their instructions. -/
def reads (l : List (W32 × Instr)) : Bool := l.all fun p => decide (decodeWord p.1 = .ok p.2)

/-- R44. ADD !ps3 qs2, k5; ADDI k4, −7 without E; JMP −3; MOVI 1; SHORI qs0, 80; LDG k0, zero; STG k2, one and slot 1. -/
theorem test_decode_S : reads [(0x80000000, .nop), (0x80584AC0, .add ⟨3, true⟩ (.q 2) (.k 5) false false .w64), (0x00C29FF9, .addi 0 (.k 4) 0x1FF9),
    (0x8ABFFFFD, .jmp 0x3FFFFD), (0x84000001, .movi 0 1), (0x84400050, .shori 0 (.q 0) 80), (0x89021C00, .ldg g0 (.k 0) .zero false .b8),
    (0x89425C80, .stg g0 (.k 2) .one 0 .b8), (0x89402004, .stg g0 (.q 1) (.q 0) 1 .b8)] = true := by decide +kernel
/-- R45, R46. VFMA va1, va2, qa3; VCMP.flt qa0, sq, pa5 under pa2; VMPUSH pa1; VLSHU va0, qa1, 1; VSTG sq, qa0, va12; VADD.f32 indexed. -/
theorem test_decode_V : reads [(0x91022903, .vfmaA g0 (.v 1) (.v 2) .f32 3), (0x14101F2D, .vcmpA ⟨2, false⟩ (.q 0) .sq .flt 5),
    (0x97C00001, .vmpushA false 1), (0x9C020081, .vlshuA g0 (.v 0) (.q 1) 1), (0x9B47C01C, .vstgA g0 .sq (.q 0) (.v 12)),
    (0x90461880, .vaddA g0 (.vx 0) (.vx 1) (.flt .f32 .rne)), (0xA1022903, .vfmaB g0 (.v 1) (.v 2) .f32 3)] = true := by decide +kernel
/-- R47, R50. MPUSH va3, k2 with ACC; MDRN k2, one; CXS stage 15; TTMASK k3 as bits. -/
theorem test_decode_MX : reads [(0xB0C26910, .mpush g0 (.v 3) (.k 2) .a true 0), (0xB1825C80, .mdrn g0 (.k 2) .one .a .f32lo false),
    (0xE040200F, .cxs g0 (.q 1) (.q 0) .a 15), (0xE1C26008, .ttmask g0 (.k 3) .a false .bits 0)] = true := by decide +kernel
/-- R48. CSYNC with RGEN; CCOPY; CSWAIT; STREAM to slots 0 and 1; KVLD k5, k6; PMAP.mapnew k10, qs0. -/
theorem test_decode_C : reads [(0xC202CC01, .csync g0 (.k 6) (.k 8) true), (0xC102CB80, .ccopy g0 (.k 6) (.k 7) false),
    (0xC242DC80, .cswait g0 (.k 6) .one), (0xC6000000, .stream g0 (.q 0) 0), (0xC6000001, .stream g0 (.q 0) 1),
    (0xCA02AB00, .kvld g0 (.k 5) (.k 6)), (0xCAC34002, .pmapMapnew g0 (.k 10) (.q 0))] = true := by decide +kernel
/-- R49. SPAWN; JOIN.any; TKDONE; TSTAT; PHREG.wait; PHARR.clus; PHWAIT.clus; NSSEL.t; NSVL.t; NSBACK.t.alt; GSITER.start; GSSAMP; GSACC; GSWAIT. -/
theorem test_decode_Q : reads [(0xD0400800, .spawn g0 (.q 0) (.k 0) false false), (0xD1400001, .join g0 (.q 0) true), (0xD1800000, .tkdone g0),
    (0xD1C00000, .tstat g0), (0xD4026010, .phreg g0 (.k 3) .wait), (0xD4800002, .pharr g0 (.q 0) .clus), (0xD4C26002, .phwait g0 (.k 3) .clus),
    (0xD8820020, .nssel g0 (.k 0) (.q 0) true), (0xD8001CA0, .nsvl g0 (.q 0) .one true), (0xD8406030, .nsback g0 (.q 3) (.q 0) true true),
    (0xDD070000, .gsiterStart g0 .zero), (0xDD800000, .gssamp g0 (.q 0)), (0xDDC02000, .gsacc g0 (.q 1) (.q 0)),
    (0xDE002A01, .gswait g0 (.q 1) (.k 4) true)] = true := by decide +kernel
/-- R39. Class 7, an unassigned opcode, and reserved fields: MINOR of NOP, N without a guard, a CMP that writes ps0. -/
theorem test_decode_refuses : decodeWord 0xFFFFFFFF = .error .cls ∧ decodeWord 0x8BC00000 = .error .opcode ∧ decodeWord 0x80000001 = .error .field ∧
    decodeWord 0x80404AC0 = .error .field ∧ decodeWord 0x86804A80 = .error .field := by decide +kernel
/-- The table's words: 32 bits at most. -/
theorem test_table_word : decodeTableWord 32 0x00C29FF9 = some (.addi 0 (.k 4) 0x1FF9) ∧ decodeTableWord 33 0 = none := by decide +kernel

/-! ### Ill-formed terms -/

/-- Each check of Instr.wf refuses a term: the guard; ps0, pa0 and pb0 as destinations; NEST's stages and A; NSTRIDE's B and A; a control
register; RM and SAT of minima; RM of absolute values; a float shift; VCVT's part and rounding; the part of VMXQ and VMXD; the unused A or
B of JOIN, NSRD, GSCFG and GSWAIT; the block of TTMASK's bits. -/
theorem test_wf_refuses : ([.add ⟨0, true⟩ .one .one false false .w64, .cmp g0 .one .one .eq 0, .plog g0 1 1 .and 0,
    .nest g0 .one ⟨false, 0⟩ 0, .nest g0 .one ⟨true, 1⟩ 0, .nstride g0 .one .clr false 0 .l0, .nstride g0 .one (.reg 1) true 0 .l0,
    .nstride g0 .one .clr true 0 .l0, .csrr 0 0xFFF, .csrw 0 .one 0x0B, .vminA g0 .one .one (.flt .f32 .rtz),
    .vmaxB g0 .one .one (.int .w32 false true), .vabsA g0 .one (.flt .f32 .rtz), .vnegB g0 .one (.flt .f32 .rtz),
    .vshlA g0 .one .one (.flt .f32 .rne), .vshrB g0 .one .one (.int .w32 false true), .vcmpA g0 .one .one .feq 0, .vplogB g0 1 1 .and 0,
    .vcvtA g0 .one ⟨.f32, .bf16⟩ 2 false .rne, .vcvtB g0 .one ⟨.s32, .s8⟩ 0 false .rtz, .vmxqA g0 .one .mxf8 4, .vmxdB g0 .one .one .mxi8 4,
    .join g0 .one true, .nsrd g0 .one .one false (.word 0), .gscfg g0 .one true 0, .gswait g0 .one .one false,
    .ttmask g0 .one .a false .bits 1] : List Instr).all (fun i => !i.wf) = true := by decide +kernel
/-- Their well-formed neighbours pass. -/
theorem test_wf_accepts : ([.add ⟨1, true⟩ .one .one false false .w64, .cmp g0 .one .one .eq 7, .nest g0 (.q 0) ⟨true, 1⟩ 0,
    .nstride g0 (.q 0) .clr true 0 .l0, .nstride g0 .one (.reg 1) false 0 .l0, .csrr 0 0x0A, .vminA g0 .one .one (.flt .f32 .rne),
    .vcvtA g0 .one ⟨.f32, .bf16⟩ 1 false .rtz, .vmxqA g0 .one .mxf8 3, .join g0 (.q 0) true, .nsrd g0 .one (.q 0) false (.word 0),
    .gscfg g0 (.q 0) true 0, .ttmask g0 .one .a false .bits 0] : List Instr).all Instr.wf = true := by decide +kernel

/-! ### Small states

`mc x` is READY module with the one task of launch 0 issuing on core 0 in context x, no bundle open; `inBundle` opens one. -/

/-- A context whose k registers hold the numbers of a list. -/
def kx (l : List Nat) : Context := { stageCtx with k := Vector.ofFn fun i => BitVec.ofNat 64 (l.getD i.val 0) }
/-- Task 0 issues in a context. -/
def mc (x : Context) : State := { stage State.reset 0 with agenda := [], cur := some 0, ctxs := [(0, x)] }
/-- The same with an open bundle of which it is the first slot. -/
def inBundle (s : State) : State := match s.issuer with
  | .ok (_, x) => { s with latch := some { ctx := x, total := 1 } }
  | .error _ => s
/-- The issuing task and context meet a condition. -/
def meets (s : State) (p : Nat → Context → Bool) : Bool := match s.issuer with
  | .ok (t, x) => p t x
  | .error _ => false
/-- The operands can be read and n results pushed, by a slot that executes and by one whose guard is false. -/
def rd (s : State) (os : List Opd) (n : Nat) : Bool := meets s fun _ x =>
  gTrue g0 x && readable s x (gTrue g0 x) os n && !gTrue gF x && readable s x (gTrue gF x) os n
/-- The same for a slot that executes. -/
def rd1 (s : State) (os : List Opd) (n : Nat) : Bool := meets s fun _ x => readable s x true os n
/-- The state after an instruction meets a condition. -/
def after (i : Instr) (s : State) (p : State → Bool) : Bool := match exec i s with
  | .next s' => p s'
  | _ => false
/-- The newest pending result of task 0. -/
def top (s : State) : Option QVal := ((s.ctx? 0).bind fun x => x.fr.pend.head?).bind (·.val)
/-- A result is an answer. -/
def isOk {ε α : Type} : Except ε α → Bool
  | .ok _ => true
  | .error _ => false
/-- Two numbers in k0 and k1, 1 in k2. -/
def sA : State := mc (kx [10, 3, 1])
/-- The landing limit of the state holds one entry more (R136). -/
def sFull : State := mc { kx [10, 3] with fr := { pend := (List.range 15).map fun i => ⟨.s, Fin.ofNat 16 i, 40, some (.s 0), i, false⟩ } }
/-- One entry in the count queue. -/
def sCq : State := sA.modCore 0 fun k => { k with cq := [7] }
/-- In trap mode. -/
def sTrap : State := mc { kx [10, 3] with trapMode := true, frozen := some ({}, 0) }

/-! ### Scalar statements: states that meet their hypotheses -/

theorem witness_ScalarIntegerResults : (rd sA [.s (.k 0), .s (.k 31)] 1 && rd sFull [.s (.q 15), .s .one] 1 && rd sCq [.s .cq, .s (.q 0)] 1 &&
    rd (inBundle sA) [.s .zero, .s (.k 1)] 1) = true := by decide +kernel
theorem witness_ScalarBitResults : (rd sA [.s (.k 0)] 1 && rd sA [] 1 && meets sA (fun _ x => gOn 0 x && !gOn 1 x) &&
    rd sA [.s (.k 0), .s (.k 1), .s (.q 15)] 1 && rd sA [.s (.k 0), .s (.k 1)] 1 && fieldOf 0x4000 == some (0, 64) &&
    fieldOf 0x13F == some (63, 1) && fieldOf 0x4100 == none && fieldOf 0 == none) = true := by decide +kernel
theorem witness_IntegerCorners : (0 < 1 ∧ 63 + 1 ≤ 64 ∧ 63 < 64) ∧ (0 < 64 ∧ 0 + 64 ≤ 64) ∧ ((-2 : Int) ≠ 0 ∧ ¬((-7 : Int) = -(2 ^ 31) ∧ (-2 : Int) = -1)) := by
  decide
theorem witness_PredicateAndIndexWrites : (rd sA [.s (.k 0), .s (.k 1)] 0 && rd sA [.s .one] 0 && meets sA fun _ x => gOn 0 x && !gOn 7 x) = true := by
  decide +kernel
theorem witness_RelativeTransfers : (meets sA (fun _ x => gOn 0 x && topMask x .a != 0 && readable sA x true [] 1) &&
    meets (mc { kx [] with fr := { ma := [0], mb := [0] } }) (fun _ x => topMask x .a == 0 && topMask x .b == 0) &&
    (inBundle sA).latch.isSome && meets (inBundle sA) (fun _ x => x.jump.isNone && x.opening.isNone && x.fr.nest.act.isEmpty)) = true := by
  decide +kernel
theorem witness_RegisterTransfers : (rd sA [.s (.k 0)] 0 && rd sA [.s (.k 0)] 1 &&
    ([0x1FFFFFFFFFFFFFC, 0x200000000000000, 2].map fun v => meets (mc (kx [v])) fun _ x =>
      let v := sVal sA x true (.k 0)
      decide (v.toNat < 2 ^ 57) && decide (v.toNat % 4 = 0)) == [true, false, false]) = true := by decide +kernel
theorem witness_NestControl : (rd sA [.s (.k 0)] 0 && rd sCq [.s .cq] 0 && rd sA [.s (.k 0), .d (.k 31)] 0 && rd sA [.s (.k 0), .s (.k 1)] 0 &&
    meets sA (fun _ x => nestRoom x 64) && meets (mc { kx [] with fr := { nest := { act := [⟨2, 0, 0, 3, 0, 0⟩] } } }) (fun _ x => !nestRoom x 64)) = true := by
  decide +kernel
theorem witness_CountQueueAndLiveRegisters : (rd sA [.s (.k 0)] 0 && decide (cqHeld sA 0 false < 64) &&
    decide (64 ≤ cqHeld (sA.modCore 0 fun k => { k with cq := List.replicate 64 1 }) 0 false) &&
    decide (cqHeld (sA.modCore 0 fun k => { k with cq := List.replicate 64 1 }) 0 true < 64) &&
    (inBundle sA).latch.isSome && decide ((sCq.core 0).cq.length ≤ 64)) = true := by decide +kernel
theorem witness_ContextControl : (meets sA (fun _ x => gOn 0 x && !x.trapMode) && meets sTrap (fun _ x => x.trapMode) && sTrap.latch.isNone &&
    (inBundle sTrap).latch.isSome && meets (inBundle sTrap) (fun _ x => x.trapMode) && rd sA [.s (.k 0)] 0 && rd (inBundle sA) [.s (.k 0)] 0) = true := by
  decide +kernel
theorem witness_PhaseChange : (rd sA [.s (.k 0)] 0 && spBank (sA.core 0).part == 24 && phaseQuiet sA 0 &&
    ([20, 21].map fun v => meets (mc (kx [v])) fun _ x => decide ((sVal sA x true (.k 0)).toNat ≤ spBank (sA.core 0).part - 4)) == [true, false] &&
    (((sA.modCore 0 fun k => { k with drain := some { task := 0, d := 4 } }).core 0).drain.isSome &&
      meets sA fun t x => (sA.ctx? t).isSome && x.wait == 0 && x.frozen.isNone)) = true := by decide +kernel

/-! ### Single steps -/

/-- 10 + 0x1FF9 (−7) is 3 (R166). -/
theorem test_addi : after (.addi 0 (.k 0) 0x1FF9) sA (fun s => top s == some (.s 3)) = true := by decide +kernel
/-- −7 / 2 is −3 and its remainder −1, rounded toward zero; unsigned bytes: 249 / 2 (R165). -/
theorem test_div_rem : (after (.div g0 (.k 0) (.k 1) false false .w64) (mc (kx [0xFFFFFFFFFFFFFFF9, 2])) (fun s => top s == some (.s 0xFFFFFFFFFFFFFFFD)) &&
    after (.rem g0 (.k 0) (.k 1) false .w64) (mc (kx [0xFFFFFFFFFFFFFFF9, 2])) (fun s => top s == some (.s 0xFFFFFFFFFFFFFFFF)) &&
    after (.div g0 (.k 0) (.k 1) false true .w8) (mc (kx [0xFFF9, 2])) (fun s => top s == some (.s 124))) = true := by decide +kernel
/-- BFX of bits 11:4 of 0xABC0, signed: 0xBC (R168). -/
theorem test_bfx : after (.bfx g0 (.k 0) (.k 1) false) (mc (kx [0xABC0, 0x804])) (fun s => top s == some (.s 0xFFFFFFFFFFFFFFBC)) = true := by decide +kernel
/-- TRAP 9 enters the handler at TVEC with the trap record's cause, subcode and TRAPPC (R149, R150, R192). -/
theorem test_trap : after (.trap 0 9) (mc { kx [] with tvec := 0x101, pc := 0x40, npc := 0x44 }) (fun s => (s.ctx? 0).map (fun x =>
    (x.pc, x.trapMode, x.trappc, x.trec.cause, x.trec.sub, x.trec.info)) == some (0x100, true, 0x40, 8, 9, 0x44)) = true := by decide +kernel
/-- A step whose cycle issues the word at address 0, ADDI k4 with E: the bundle pushes one result and pc goes to 4. -/
theorem test_step : (match step (State.reset.withFetchWord 32 0x80C29FF9) with
    | .next s => (s.ctx? 0).map (fun x => (x.pc, x.fr.pend.length)) == some (4, 1)
    | _ => false) = true := by decide +kernel

/-! ### Memory statements -/

/-- k0 + zero is the last aligned word of the scratchpad, one past it, one misaligned, and a window address of core 0. -/
def sMem : State := mc (kx [0xFFFF8, 0x100000, 0xFFFF9, 0x80, 0x100400000000000, 0x300000, 5])
/-- Its scratchpad line 0 is full, as are the lines of the last word. -/
def sFe : State := sMem.modCore 0 fun k => { k with full := [0, 1, 8191] }
/-- Two packages with a link between them. -/
def sFab : State := { sMem with fab := { sMem.fab with domHi := 1, up := 1 } }
/-- Line 0x80 of HBM is dirty at core 1; this task's line is. -/
def sRace : State := { sMem with dir := [(1, .d 1 7)] }
/-- The subcode an address translates with. -/
def xl (s : State) (a : W64) (n : Need) : Nat := match xlate s 0 a n with
  | .ok _ => 0
  | .error m => m.code

/-- A load of n bytes at offset o of core 0 under WFE may proceed. -/
def goes (s : State) (x : Context) (o n : Nat) : Bool :=
  !drainHeld s x 0 0 && linesAre s 0 true (linesOf o n) && (linesOf o n).all (fun l => !(s.core 0).wfe.contains l) && !spBad s 0 o n
/-- A PHASE of the context is under way on core 0. -/
def sDrain : State := sMem.modCore 0 fun k => { k with drain := some { task := 9, d := 4 } }
/-- A local store of the context to 0x80 waits, and a remote one is not acknowledged. -/
def sWaits : State :=
  let s := mc { kx [0, 0, 0, 0x80] with rels := [{ name := 1, va := 0x80, span := [(0x80, 8)], acc := .release 5 .pkg none false }] }
  { s with fab := { s.fab with strms := [(3, { task := 0, slot := 0, ep := 1, next := 1, unacked := [0], mine := [(0, [(0x100, 4)])] })] } }
/-- Nothing of the context comes before these bytes. -/
def nothing (s : State) (x : Context) (span : List (Nat × Nat)) : Bool := !behind x span && (ownStores s 0 span).isEmpty && (ownLoads s 0 span).isEmpty

theorem witness_ScratchpadAccesses : (rd sFe [.s (.k 0), .s .zero] 1 && rd sFe [.s (.k 0), .s .zero] 0 && meets sFe (fun _ x =>
    let ad := fun r => (sVal sFe x true (.k r) + sVal sFe x true .zero)
    decide ((ad 0).toNat % 8 = 0) && decide ((ad 0).toNat + 8 ≤ spExt (sFe.core 0).part) && goes sFe x (ad 0).toNat 8 &&
    linesAre sMem 0 false (linesOf (ad 0).toNat 8) && !linesAre sMem 0 true (linesOf (ad 0).toNat 8) && drainHeld sDrain x 0 0 &&
    (match window sFe 0 x.launch (ad 0) 8 with | .ok r => r == (0, 0xFFFF8) | _ => false) &&
    (match window sFe 0 x.launch (ad 1) 8 with | .error r => r.1 == .spbound | _ => false) &&
    decide ((ad 1).toNat % 8 = 0) && decide (spExt (sFe.core 0).part < (ad 1).toNat + 8) && decide ((ad 2).toNat % 8 ≠ 0))) = true := by
  decide +kernel
theorem witness_StoreBytes : (Mem.wf (sFe.core 0).pool && (sFe.core 0).was.isEmpty && (sFe.core 0).wasFull.isEmpty && Mem.wf sFe.mem &&
    decide (0xFC % 128 + (leBytes 7 4).length ≤ 128) && (plainStore sMem 0 0 0xFC (leBytes 7 4) true).isSome && (look sMem.dir (0xFC / 128)).isNone &&
    (plainStore sMem 0 0 0xFC (leBytes 7 4) false).isSome && decide (dcBank (sMem.core 0).part = 8)) = true := by decide +kernel
theorem witness_GlobalLoads : (rd sFab [.s (.k 3), .s .zero] 1 && meets sFab (fun t x =>
    let ad := fun r => (sVal sFab x true (.k r) + sVal sFab x true .zero)
    !isRemote (ad 3) && decide ((ad 3).toNat < 2 ^ 48) && decide ((ad 3).toNat % 8 = 0) && !drainHeld sFab x t 0 && xl sFab (ad 3) .rd == 0 &&
    nothing sFab x [(0x80, 8)] && meets sWaits (fun _ y => !nothing sWaits y [(0x80, 8)] && !nothing sWaits y [(0x100, 8)] && !drainHeld sWaits y t 0) &&
    (match plainLoad sFab 0 t 0x80 8 false with | (_, .ok _) => true | _ => false) &&
    (match plainLoad sRace 0 t 0x80 8 false with | (_, .race) => true | _ => false) &&
    (match plainLoad { sFab with poison := [1] } 0 t 0x80 8 true with | (_, .ecc _) => true | _ => false) &&
    !isRemote (ad 5) && decide ((ad 5).toNat < 2 ^ 48) && decide ((ad 5).toNat % 8 = 0) && xl sFab (ad 5) .rd == 6 &&
    isRemote (ad 4) && decide ((ad 4).toNat < 2 ^ 57) && decide ((ad 4).toNat % 8 = 0) && reaches sFab (pkgOf (ad 4)) && decide (tagsOut sFab 0 < 4096) &&
    pkgOf (ad 4) != sFab.fab.ep && nothing sFab x (farSpan sFab 1 (offOf (ad 4)) 8))) = true := by
  decide +kernel
theorem witness_GlobalStores : (rd sFab [.s (.k 3), .s .one] 0 && meets sFab (fun t x =>
    !drainHeld sFab x t 0 && xl sFab 0x80 .wr == 0 && xl sFab 0x300000 .wr == 6 && reaches sFab (pkgOf 0x100400000000000) && !strmFull sFab x 15 &&
    !behind x [(0x80, 4)] && (plainStore sFab 0 t 0x80 (leBytes 7 4) false).isSome && (plainStore sRace 0 t 0x80 (leBytes 7 4) false).isNone)) = true := by
  decide +kernel
theorem witness_SynchronisingAccesses : (rd sMem [.s (.k 3), .s .zero] 1 && rd sMem [.s (.k 3), .s .one] 0 && meets sMem (fun t x =>
    x.rels.isEmpty && xl sMem 0x80 .rd == 0 && xl sMem 0x80 .wr == 0 && (ownStores sMem t [(0x80, 8)]).isEmpty && !syncRace sMem 0 t 0x80 true &&
    syncRace sRace 0 t 0x80 true && (acquireAt sMem 0 0x80 8 .pkg).2.isSome && scWide .pkg) && meets sFab (fun _ x => !strmFull sFab x 7) &&
    meets sWaits (fun t x => (match x.rels with | [e] => e.ready sWaits t | _ => false) && xl sWaits 0x80 .wr == 0 &&
      !syncRace sWaits 0 t 0x80 false)) = true := by decide +kernel

/-- LD of the four bytes stored at 0x100 of the scratchpad, least significant first, sign-extended (R3, R176). -/
theorem test_ld : after (.ld g0 (.k 0) .zero .plain false .b4) ((mc (kx [0x100])).modCore 0 fun k => { k with pool := [(0x180100, 0x78), (0x180103, 0xFF)] })
    (fun s => top s == some (.s 0xFFFFFFFFFF000078)) = true := by decide +kernel
/-- An LD at 0x101 of two bytes raises MEMORY 2 with its address (R100, R101). -/
theorem test_ld_misaligned : after (.ld g0 (.k 0) .zero .plain false .b2) (mc { kx [0x101] with tvec := 1 }) (fun s => (s.ctx? 0).map (fun x =>
    (x.trapMode, x.trec.cause, x.trec.sub, x.trec.addr)) == some (true, 3, 2, 0x101)) = true := by decide +kernel
/-- STG of four bytes to a page (R178), read by the storing core's own load. -/
theorem test_stg : after (.stg g0 (.k 0) (.k 1) 0 .b4) (mc (kx [0x1000, 0xAABBCCDD])) (fun s => match plainLoad s 0 0 0x1000 4 false with
    | (_, .ok bs) => bs == [0xDD, 0xCC, 0xBB, 0xAA]
    | _ => false) = true := by decide +kernel

/-! ### Vector statements -/

/-- A context with va1, va2, vb1, vb2 and its mask stacks. -/
def vx : Context := { kx [] with
  va := ((Vector.replicate 32 VReg.zero).set 1 (VReg.of fun l => BitVec.ofNat 32 (4 * l))).set 2 (VReg.of fun _ => 0x80)
  vb := ((Vector.replicate 32 VReg.zero).set 1 (VReg.of fun l => BitVec.ofNat 32 (4 * l))).set 2 (VReg.of fun _ => 0x80) }
/-- It issues. -/
def sV : State := mc vx
/-- Operands of a vector slot can be read outside trap mode. -/
def rdV (s : State) (os : List Opd) (n : Nat) : Bool := meets s fun _ x => !x.trapMode && readable s x true os n
/-- The same for both clusters. -/
def rdVs (s : State) (os : Clu → List Opd) (n : Nat) : Bool := rdV s (os .a) n && rdV s (os .b) n

theorem witness_TrapsAndReturns_slots : (meets sTrap (fun _ x => x.trapMode) && ((([.vaddA g0 .one .one (.int .w32 false false),
    .vaddB g0 .one .one (.int .w32 false false), .mend g0, .ttfree g0 .one] : List Instr).map fun i => i.fields.map (·.cls)) ==
      [some 1, some 2, some 3, some 6])) = true := by decide +kernel
theorem witness_NumberFormats : (Arith.f16.isNan 0x7C01 && Arith.f16.isInf 0xFC00 && !Arith.f32.isNan 0 && !Arith.f32.isNan 0x3F800000 &&
    Arith.f32.isNan 0xFFC00000 && Arith.e4m3.isNan 0xFF && !Arith.e2m1.isInf 0xF && Arith.bf16.isNan 0x7FC0 && !Arith.bf16.isNan 0 &&
    Arith.roundShift 5 1 .rne false == 2 && Arith.roundShift 5 1 .rna false == 3 && Arith.roundShift 5 1 .rup true == 2) = true := by decide +kernel
/-- The worked examples of R68 and R74. -/
theorem test_round : ([0x43960000, 0x43E80000, 0x43FA0000].map (Arith.cvtFF Arith.f32 Arith.e4m3 .rne false) == [0x79, 0x7E, 0x7F] &&
    Arith.toFx64 0x3DCCCCCD == 0x199999A0 && Arith.toFx64 0xBDCCCCCD == 0xFFFFFFFFE6666660 &&
    Arith.totalKey 0xFF800000 == 0x007FFFFF && Arith.totalKey 0x3F800000 == 0xBF800000) = true := by decide +kernel
theorem witness_VectorArithmeticResults : (rdVs sV (fun c => [.v c (.v 1), .v c (.q 15)]) 1 && rdVs sV (fun c => [.v c (.v 31)]) 1) = true := by decide +kernel
theorem witness_VectorFloatResults : (rdVs sV (fun c => [.v c (.v 1), .v c (.v 2), .v c (.q 15)]) 1 && rdVs sV (fun c => [.v c (.v 1)]) 2) = true := by
  decide +kernel
theorem witness_VectorPredicatesAndMoves : (rdVs sV (fun c => [.v c (.v 1), .v c (.v 2)]) 0 && rdVs sV (fun c => [.v c (.v 1), .vd c (.v 31)]) 0 &&
    rdVs sV (fun c => [.v c (.v 1), .v c (.v 2)]) 1 && rdVs sV (fun c => [.vr (otherClu c) 31]) 1 && rdV sV [] 1 &&
    meets sV (fun _ x => (maskStack x .a).length == 0) &&
    ([1, 15, 16].map fun n => meets (mc { vx with fr := { ma := List.replicate n 1, mb := List.replicate n 1 } }) fun _ x =>
      decide ((maskStack x .a).length < 16) && decide ((maskStack x .b).length < 16)) == [true, true, false]) = true := by decide +kernel
theorem witness_LaneMovement : (rdVs sV (fun c => [.v c (.v 1), .v c (.v 2)]) 1 && rdVs sV (fun c => [.v c (.v 1)]) 1) = true := by decide +kernel
theorem witness_VectorAccesses : (rdVs sV (fun c => [.v c (.v 1), .v c (.v 2)]) 1 && rdVs sV (fun c => [.v c (.v 1), .v c (.v 2)]) 0 &&
    rdVs sV (fun c => [.v c (.v 1), .v c (.v 2), .v c (.v 3)]) 1 && rdVs sV (fun c => [.v c (.v 1), .v c (.v 2), .v c (.v 3)]) 0 &&
    meets sV (fun t x =>
      let m := laneMask x .a g0
      (match laneChecks (lanesOf m) (fun l => laneTarget sV x .own (rowAddr 0x80 l) 4) with
        | .ok ts => ts.length == 64 && !anyDrain sV x t ts && linesAre sV (rowCore x ts) false (rowLines ts) && (rowLines ts).length == 2 &&
            ts.all (fun p => !spBad sV p.2.1 p.2.2 4) && linesAre (sV.modCore 0 fun k => { k with full := [1, 2] }) (rowCore x ts) true (rowLines ts) &&
            (rowLines ts).all fun l => !(sV.core (rowCore x ts)).wfe.contains l
        | .error _ => false) &&
      isOk (laneChecks (lanesOf m) (fun l => laneTarget sV x .win (BitVec.ofNat 64 (4 * l)) 4)) &&
      (lanesOf m).all (fun l => decide ((rowAddr 0x80 l).toNat % 4 = 0) && decide ((rowAddr 0x80 l).toNat + 4 ≤ spExt (sV.core 0).part)) &&
      laneMask x .a gF == 0 && m != 0 && !drainHeld sV x t 0 &&
      (lanesOf m).all (fun l => isOk (gLaneOk sV false (gRowAddr 0 0 0x80 0) (gRowAddr 0 0 0x80 l))) && !isRemote (gRowAddr 0 0 0x80 0) &&
      (match localLanes sV 0 .rd ((lanesOf m).map fun l => (l, gRowAddr 0 0 0x80 l)) with
        | .ok (s1, ps) => nothing s1 x (rowSpan ps) && (rowRace s1 0 t ps).isNone && (loadLanes s1 0 t ps).2.2 == none &&
            (rowRace { s1 with dir := [(2, .d 1 7)] } 0 t ps).isSome
        | .error _ => false) &&
      isOk (localLanes sV 0 .wr ((lanesOf m).map fun l => (l, gRowAddr 0 0 0x80 l)))) &&
    meets sFab (fun _ x => (lanesOf (laneMask x .a g0)).all (fun l => isOk (gLaneOk sFab false (gRowAddr 0x1004000 0 0x80 0) (gRowAddr 0x1004000 0 0x80 l))) &&
      isRemote (gRowAddr 0x1004000 0 0x80 0) && pkgOf (gRowAddr 0x1004000 0 0x80 0) == 1 && !strmFull sFab x 0 && decide (tagsOut sFab 0 < 4096) &&
      nothing sFab x (farSpan sFab 1 (offOf (gRowAddr 0x1004000 0 0x80 0)) 256))) = true := by decide +kernel

/-- Lane 5 of 1 + lane number is 6 (R37, R203). -/
theorem test_vadd : after (.vaddA g0 .one .lane (.int .w32 false false)) sV (fun s => match top s with
    | some (.v v) => v.lane 5 == 6
    | _ => false) = true := by decide +kernel
/-- VLSHU by 1: lane 0 takes lane 63 of B, lane 1 lane 0 of A (R224). -/
theorem test_vlshu : after (.vlshuA g0 (.v 1) (.v 2) 1) sV (fun s => match top s with
    | some (.v v) => v.lane 0 == 0x80 && v.lane 1 == 0 && v.lane 63 == 248
    | _ => false) = true := by decide +kernel
/-- 1.0 + 2^−24 rounds to even in f32 and up under RUP (R64, R203). -/
theorem test_vadd_f32 : (Arith.fAdd (Arith.fmtOf .f32) .rne 0x3F800000 0x33800000 = 0x3F800000 ∧
    Arith.fAdd (Arith.fmtOf .f32) .rup 0x3F800000 0x33800000 = 0x3F800001) := by decide +kernel

/-! ### Select and matrix statements -/

/-- Descriptor 0 is an open tree of task 0 under generation 1 with a root, a child and its child; the others are released. -/
def sTree : State := (mc (kx [0x10, 0x210, 0x100000005, 4, 0, 0x1000000000, 0x310])).modCore 0 fun k => { k with
  ttf := k.ttf.set 0 { gen := 1, tree := some (0, 256), basePos := 7, nodes := [⟨9, 0, 0, 0, false⟩, ⟨8, 0, 1, 0, false⟩, ⟨7, 1, 2, 0, false⟩] } }
/-- A second tree reserves the other entries. -/
def sTree2 : State := sTree.modCore 0 fun k => { k with ttf := k.ttf.set 1 { gen := 1, tree := some (0, 256), nodes := [⟨9, 0, 0, 0, false⟩] } }
/-- Node 2 of the first holds an uncorrectable error. -/
def sTreeBad : State := sTree.modCore 0 fun k => { k with ttf := k.ttf.set 0 { (k.ttf.get 0) with nodes := [⟨9, 0, 0, 0, false⟩, ⟨8, 0, 1, 0, false⟩, ⟨7, 1, 2, 0, true⟩] } }
/-- A condition on the tree of task 0 a word names. -/
def treeHas (s : State) (w : W64) (node : Bool) (p : TtDesc → Nat → Bool) : Bool := meets s fun t x => ((treeOf s x.core t w node).map fun r => p r.2.1 r.2.2).getD false
/-- A half that is ready: two bf16 slices at one in four. -/
def rdyHalf : Half := { st := .ready, sparse := 2, nslice := 2, sliceb := sliceBytes .bf16 2, bytes := [1, 2, 3] }
/-- Half 0 is selected and ready, the array holds its pair 1, a row and OUT are valid. -/
def sMe : State := (mc { vx with k := ((Vector.replicate 32 0).set 1 2047).set 2 3 }).modMe 0 fun m =>
  { m with h0 := rdyHalf, selv := true, filled := some (0, 1), inv := true, outv := true }
/-- The same with half 1 in a state. -/
def sHalf (st : HalfSt) : State := sMe.modMe 0 fun m => { m with h1 := { rdyHalf with st := st } }
/-- The same in swapped mode. -/
def sMeG : State := sMe.modMe 0 fun m => { m with gw := .g8 }
/-- Task 0 has an open sweep over rows 2 to 5. -/
def sSw (roll : Option (Option (Cause × BitVec 8 × Bool))) : State := sMe.modMe 0 fun m => { m with
  sweep := some { owner := 0, wbase := 2, wlen := 4, rows := [1], slots := [], sel := 0, selv := true, gw := .normal, afmt := .bf16, pc := 0x40, roll := roll } }
/-- A transfer into half 1 from scratchpad offset 0, where a header for one slice stands (R252), or from a misaligned address. -/
def sLd (src : W64) : State := (sMe.modMe 0 fun m => { m with h1 := { st := .loading, src := src } }).modCore 0 fun k => { k with
  pool := [(0x180000, 1), (0x180002, 0x17), (0x180003, 0x7E), (0x180005, 2), (0x180006, 1), (0x180008, 0), (0x180009, 0x12)] }
/-- Its event. -/
def evLd : Ev := { core := 0, num := 1 }
/-- Operands of a matrix slot that executes and of one that does not. -/
def rdM (s : State) (os : List Opd) (n : Nat) : Bool := rd s os n && meets s fun t x => !x.trapMode && !(busySweep s x.core t).1

theorem witness_SelectEngineResults : (rdVs sV (fun c => [.v c (.v 1), .v c (.v 2)]) 3 && meets sV (fun _ x => gTrue g0 x && !gTrue gF x) &&
    ([0, 1, 64, 65].map fun n => decide (0 < n) && decide (n ≤ 64) && decide (cqHeld sV 0 false + n ≤ 64)) == [false, true, true, false] &&
    decide (64 < cqHeld sCq 0 false + 64) && stagePair 20 5 == some (37, true) &&
    decide (Arith.totalKey 1 ≠ Arith.totalKey 2)) = true := by decide +kernel
theorem witness_TreeInstructions : (rdM sTree [.s (.k 0), .s (.k 1)] 1 && rdM sTree [.s (.k 0)] 1 && rdM sTree [.s (.k 0)] 0 && meets sTree (fun t x =>
    let v := fun r => sVal sTree x true (.k r)
    decide (0 < (v 2).toNat / 2 ^ 32 % 512) && decide ((v 5).toNat < 2 ^ 41) && decide ((v 4).toNat % 2 ^ 32 ≤ 0xFFFFFEFF) && ttFree (sTree.core 0) == 256 &&
    ((List.finRange 16).find? (fun i => ((sTree.core 0).ttf[i]).tree.isNone)) == some 1 && decide (ttFree (sTree2.core 0) < 1) &&
    (treeOf sTree 0 t (v 0) true).isSome && (treeOf sTree 0 t (v 1) true).map (fun p => pathTo p.2.1 p.2.2) == some [0, 1, 2] &&
    (treeOf sTree 0 t (v 0) false).isSome && (treeOf sTree 0 t (v 6) true).isNone && decide ((v 3).toNat % 4 = 0) && !drainHeld sTree x t 0 &&
    decide ((v 3).toNat + 4 * 3 ≤ spExt (sTree.core 0).part) && decide ((v 2).toNat / 2 ^ 32 % 512 ≤ 256) &&
    decide ((v 4).toNat / 2 ^ 32 + (v 2).toNat / 2 ^ 32 % 512 - 1 ≤ 0xFFFFFFFF)) &&
    treeHas sTree 0x210 true (fun d n => d.nodes.all (fun n => !n.bad) && !(d.node n).bad) && treeHas sTreeBad 0x210 true (fun d n => (d.node n).bad) &&
    ([0, 1, 256, 257].map fun c => decide (c = 0 ∨ 256 < c)) == [true, false, false, true]) = true := by
  decide +kernel
theorem witness_MatrixControl : (rdM sMe [.s (.k 0)] 0 && rdM sMe [] 1 && rdM sMe [.v .a (.v 1), .s (.k 0)] 0 && rdM sMe [.s (.k 0), .s (.k 1)] 1 &&
    (let m := (sMe.core 0).me
     m.selv && m.sel == 0 && (m.half 0).st == .ready && (m.half 1).st == .empty && (m.half 1).st != .loading) &&
    ([.ready, .empty, .failed, .loading].all fun st => meets (sHalf st) fun t x => gTrue g0 x && !gTrue gF x && !x.trapMode &&
      !(busySweep (sHalf st) x.core t).1 && !drainHeld (sHalf st) x t 0 && (((sHalf st).core 0).me.half 1).st == st &&
      readable (sHalf st) x true [.s (.k 0)] 0)) = true := by decide +kernel
theorem witness_MatrixBeats : (rdM sMe [.v .b (.v 1), .s (.k 1)] 0 && rdM sMeG [.v .b (.v 1), .s (.k 2)] 0 && meets sMe (fun t x =>
    let m := (sMe.core 0).me
    let h := m.half m.sel
    let n := (sVal sMe x true (.k 1)).toNat % 4096
    m.gw == .normal && m.selv && h.st == .ready && aWidth m.afmt == aWidth h.bfmt && decide (1 < h.nslice) && n == 2047 && decide (n < acRows sMe 0) &&
    !(outWin sMe 0 t n 1).1 && m.filled == some (m.sel, 1) && m.inv && m.outv && !h.bad && !(rowEcc sMe 0 n 1).1) && meets sMeG (fun _ x =>
    let m := (sMeG.core 0).me
    m.gw != .normal && decide ((sVal sMeG x true (.k 2)).toNat % 4096 < gwWidth m.gw) && decide ((sVal sMeG x true (.k 2)).toNat / 65536 % 128 < gwWidth m.gw))) = true := by
  decide +kernel
theorem witness_MatrixRowsAndSweeps : (rdM sMe [.s (.k 1), .s .one] 1 && rdM sMe [.s (.k 1)] 0 && meets sMe (fun t x =>
    let n := (sVal sMe x true (.k 1)).toNat
    decide (n < acRows sMe 0) && decide (n + 0 + 1 ≤ acRows sMe 0) && !(outWin sMe 0 t n 1).1 && !(rowEcc sMe 0 n 1).1 && (sMe.core 0).me.sweep.isNone && x.fr.nest.act.isEmpty) &&
    (let s := sSw none
     (s.core 0).me.sweep.map (·.owner) == some 0 && !fetchOpen s 0 && (s.core 0).me.h0.st != .failed && (s.core 0).me.h1.st != .failed &&
     rdM s [.s (.k 2)] 0 && !(outWin s 0 0 3 1).1 && (outWin s 0 0 6 1).1 && !(outWin s 0 0 2 4).1 && (outWin s 0 0 2 5).1)) = true := by decide +kernel
theorem witness_MatrixSteps : ((let s := { sLd 0x8000000000000000 with ev := evLd }
    ((s.core 0).me.half 1).st == .loading && (s.core 0).drain.isNone && forked s 0 ((s.core 0).me.half 1).fork && (match tileRead s 0 0x8000000000000000 64 with
      | (s1, .ok hdr) => (match tileHeader hdr with
        | some (_, _, ns, sb) => ns == 1 && sb == 4608 && (match tileRead s1 0 0x8000000000000000 (64 + ns * sb) with | (_, .ok _) => true | _ => false)
        | none => false)
      | _ => false)) &&
    (match tileRead (sLd 0x8000000000000020) 0 0x8000000000000020 64 with | (_, .error (0x100, 0x8000000000000020)) => true | _ => false) &&
    (match tileRead (sLd 0x8000000000080000) 0 0x8000000000080000 64 with | (_, .ok hdr) => (tileHeader hdr).isNone | _ => false) &&
    (let s := (sMe.modMe 0 fun m => { m with filling := some (0, 0, 0) })
     (s.core s.ev.core).me.filling == some (0, 0, 0) && decide ((0 : W64).toNat ≤ (s.acyc[dieOf 0]).toNat)) &&
    fetchQuiet (sSw (some none)) 0 && fetchQuiet (sSw (some (some ({ code := cCopy }, 1, false)))) 0) = true := by decide +kernel

/-- TTRD of node 2 of the tree (R245): its token 7 and parent 1. -/
theorem test_ttrd : after (.ttrd g0 (.k 1) .node) sTree (fun s => match top s with
    | some (.s v) => v.toNat % 2 ^ 32 == 7
    | _ => false) = true := by decide +kernel
/-- MZERO and MSTAT: the status word of the selected half 0 ready, row and OUT valid (R278). -/
theorem test_mstat : after (.mstat g0) sMe (fun s => top s == some (.s 0x3012)) = true := by decide +kernel

/-! ### Copy-engine statements -/

/-- CE0's registers were written last by task 0 and it claims the engine: one element from scratchpad 0 to 64. -/
def sCe (dst : W64) : State := (mc (kx [0x8000000000000000, 0x100000000, 0x8000000000000200, 0, 0x13, 0xFFFFFFFF, 5])).modCore 0 fun k => { k with
  ce0 := { src := 0x8000000000000000, dst := dst, wt := some 0, claim := true } }
/-- Another task claims it. -/
def sClaimed : State := (sCe 0).modCore 0 fun k => { k with ce0 := { wt := some 9, claim := true } }
/-- With one command of CE0 of a kind. -/
def sCmd (k : CmdKind) (busy : Bool) : State :=
  { modCmds (sCe 0x8000000000000040) 0 false (fun _ => [{ id := 0, task := 0, launch := 0, kind := k, src := 0x8000000000000000, dst := 0x8000000000000040, busy := busy }]) with
    ev := { core := 0, flag := false, num := 0 } }
/-- Ring 0 of task 0 with two slots of one line, subscribed or not. -/
def sRing (sub : Option RingSub) (fin done : Nat) : State := (mc (kx [0x100000000, 0x201, 0x100, 0x200000001])).modCore 0 fun k => { k with
  rings := k.rings.set 0 { owner := some 0, slotl := 1, base := 0, dmax := 2, dmin := 1, depth := 1, fin := fin, done := done, fins := 1, sub := sub } }
/-- An object's place, where the address is legal. -/
def objOk (s : State) (op : Nat) (a : W64) (n al : Nat) : Bool := meets s fun _ x => isOk (objAt s x op a n al)

/-- The launch of task 0 has a ticket scope. -/
def sScope : State := { sA with launches := sA.launches.map fun p => (p.1, { p.2 with scope := 1 }) }

theorem witness_CopyRegisters : (rd (sCe 0) [.s (.k 0), .s (.k 1)] 0 && rd (sCe 0) [.s (.k 5)] 0 && meets (sCe 0) (fun t x =>
    !claimed (sCe 0) 0 (ceOf (sCe 0)) t && decide ((sVal (sCe 0) x true (.k 5)).toNat < 2 ^ 32) && decide (2 ^ 32 ≤ (sVal (sCe 0) x true (.k 1)).toNat) &&
    (cmds (sCe 0) 0 false).all (fun q => q.task != t)) && meets (sClaimed) (fun t x => claimed sClaimed 0 (ceOf sClaimed) t &&
      readable sClaimed x true [.s (.k 0), .s (.k 1)] 0) &&
    meets (sCmd (.copy 3) false) (fun t _ => (cmds (sCmd (.copy 3) false) 0 false).any fun q => q.task == t)) = true := by decide +kernel
theorem witness_CopyCommands : (rd (sCe 0x8000000000000040) [.s (.k 2), .s (.k 4)] 0 && rd (sCe 0x8000000000000040) [.s (.k 2), .s (.k 4), .s (.q 3)] 1 &&
    meets (sCe 0x8000000000000040) (fun t x =>
      let s := sCe 0x8000000000000040
      let r := ceRegs s 0 false
      !claimed s 0 false t && roomFor s 0 false t && r.wt == some t && !badCtl 0x13 false r.dst && badCtl 8 false r.dst && !badCtl 0x10 true r.dst &&
      !badCtl 0x30 false r.dst && r.dst.extractLsb' 61 3 != 0b110 && isOk (objAt s x 4 0x8000000000000200 16 16) && isOk (objAt s x 4 0x8000000000000200 1 1)) &&
    meets sA (fun t _ => (ceRegs sA 0 false).wt != some t) && roomFor sA 0 false 0 &&
    decide ((0x8000000000000200 : W64).extractLsb' 61 3 ≠ 0b110) &&
    meets sA (fun t x => match ticketIdx sA x t 4 false 0x80 with | .ok none => true | _ => false) &&
    meets sScope (fun t x => match ticketIdx sScope x t 4 true 0x80 with | .ok (some 0) => true | _ => false) &&
    meets sFab (fun t x => (ceRegs (sFab) 0 false).wt != some t && !(ceRegs (sFab) 0 false).claim && isRemote 0x100400000000000 &&
      (match takeRet { sFab with fab := { sFab.fab with strms := [(3, { task := t, slot := 3, ep := 1, next := 5 })] } } { id := 9, task := t, launch := x.launch, kind := .accr .addS64 0 1 0, slot := 3 }
        0x100400000000000 with | .ok (_, q) => q.seq == some 5 | _ => false))) = true := by decide +kernel
theorem witness_SyncObjects : (rd (sCe 0) [.s (.k 2), .s (.k 5)] 0 && objOk (sCe 0) 8 0x8000000000000200 16 16 && objOk (sCe 0) 9 0x8000000000000200 16 16 &&
    decide (0 ≤ Arith.sx (((syncWord (sCe 0) (0, 0x200)).2.2 + 2 ^ 32 - 0) % 2 ^ 32) 32) &&
    !spBad (sCe 0) 0 0x200 12 && decide (Arith.sx (((syncWord (sCe 0) (0, 0x200)).2.2 + 2 ^ 32 - 1) % 2 ^ 32) 32 < 0) && objOk (sCe 0) 10 0x8000000000000200 1 1 &&
    decide (128 * (0x200 / 128 + 8188) ≤ spExt ((sCe 0).core 0).part) && (decide ((0 : Nat) < 3) && decide (2 ^ 32 - 2 + 1 < 2 ^ 32))) = true := by decide +kernel
theorem witness_StageRings : (rd (sRing none 0 0) [.s (.k 0), .s (.k 1)] 0 && meets (sRing none 0 0) (fun t x =>
    let k := ((sRing none 0 0).core 0).rings[(0 : Fin 8)]
    let av := sVal (sRing none 0 0) x true (.k 0)
    let bv := sVal (sRing none 0 0) x true (.k 1)
    k.owner == some t && k.sub.isNone && (av.toNat / 2 ^ 32 % 2048, av.toNat % 2 ^ 22, bv.toNat / 256 % 128, bv.toNat % 128) == (1, 0, 2, 1) &&
    decide (av.toNat < 2 ^ 43) && av.toNat / 2 ^ 22 % 1024 == 0 && decide (bv.toNat < 2 ^ 15) && bv.toNat / 128 % 2 == 0 &&
    (let b2 := sVal (sRing none 0 0) x true (.k 3)
     !badTag 0x100 && badTag 0x1000000000000000 && decide (0 < b2.toNat % 2 ^ 32) && b2.toNat / 2 ^ 32 % 128 == 2) && decide (0 < (0x8000000001 : W64).toNat % 2 ^ 32)) &&
    (let sub : RingSub := { dir := .in_, base := 0, ntile := 4, stride := 128, next := 2 }
     let s := sRing (some sub) 1 2
     let g := (s.core 0).rings.getD 0 {}
     decide (g.fin < sub.ntile) && g.done != g.fin && decide (sub.next < sub.ntile) && !decide (sub.next < g.fin + g.depth) &&
     (let sub := { sub with next := 1 }
      let s := sRing (some sub) 1 1
      decide (sub.next < 1 + 1) && (match engRead s 0 (sub.base + BitVec.ofNat 64 sub.next * sub.stride) 128 with | (_, .ok _) => true | _ => false) &&
      (s.core 0).drain.isNone && (s.acyc[dieOf 0]).toNat % 4096 == 0 && forked s 0 sub.fork)) &&
    (let sub : RingSub := { dir := .out, base := 0, ntile := 4, stride := 128 }
     let s := sRing (some sub) 1 0
     decide (sub.next < 1) && (match readSide s 0 rkSpout { parts := [(.pool 0 (spBase (s.core 0).part), 128)] } with
       | (s1, .ok bs) => (match resolveMem s1 0 0 128 .wr with
         | (s2, .ok d) => (writeSide s2 0 rkSpout d bs).2.isNone
         | _ => false)
       | _ => false))) = true := by decide +kernel
theorem witness_CopySteps : ((let s := sCmd (.copy 3) false
    (cmds s 0 false).all (fun q => turnOf s 0 false 0 == some q && !q.isPage && !q.isColl && (boundary s 0 false q).isNone && forked s 0 q.fork &&
      (let r := checkGranule s 0 q
       r.1.err.isNone && !r.1.hold && (reserve r.1.st r.2 r.1).isSome &&
       (let d := r.1.plan.headD ([], [])
        let ss : Side := { parts := d.1 }
        let ds : Side := { parts := d.2 }
        ss.far?.isNone && ds.far?.isNone && !Machine.meets (ss.span s) (q.dueSpan s) &&
        (match readSide s 0 (rkCe false) ss with
          | (s1, .ok bs) => bs.length == 8 && (writeSide s1 0 (rkCe false) ds bs).2.isNone
          | _ => false))) && q.total != 0 && q.tick.isNone)) &&
    (let s := modCmds (sCmd (.copy 3) false) 0 false fun l => l.map fun q => { q with dst := 0x8000000000100000 }
     (cmds s 0 false).all (fun q => turnOf s 0 false 0 == some q && (checkGranule s 0 q).1.err == some (4, 0x8000000000100000, false))) &&
    (let s := sCmd (.copy 3) true
     (cmds s 0 false).all (fun q => q.busy && turnOf s 0 false 0 == some q && (boundary s 0 false q).isNone)) &&
    (let s := sCmd (.accr .addS64 0x8000000000000040 1 0) false
     (cmds s 0 false).all (fun q =>
       let dp := ((checkGranule s 0 q).1.plan.headD ([], [])).2
       dp != [] && ({ parts := dp } : Side).far?.isNone && q.tick.isNone && isOk (rmwSide s 0 (rkCe false) q.esize { parts := dp } q.retVal).2)) &&
    (let s := modCmds (sCmd (.copy 3) false) 0 false fun l => l.map fun q => { q with issued := true }
     (cmds s 0 false).all (fun q => cmdQuiet s q))) = true := by decide +kernel

/-- An arrival of 8 bytes at TARGET 8, COUNT 0 (R286). -/
theorem test_sync : syncStep 8 0 5 8 = (0, 6) ∧ syncStep 8 4 0xFFFFFFFF 4 = (0, 0) ∧ syncStep 0 4 1 4 = (8, 1) := by decide
/-- A step of the engine copies the 8 bytes at scratchpad 0 to 64 (R283). -/
theorem test_copy : (match exec .copyGranule ((sCmd (.copy 3) false).modCore 0 fun k => { k with pool := [(0x180000, 7), (0x180007, 9)] }) with
    | .next s => rdBytes (s.core 0).pool 0x180040 8 == [7, 0, 0, 0, 0, 0, 0, 9]
    | _ => false) = true := by decide +kernel

/-! ### Fabric statements -/

/-- A key. -/
def key7 : List Byte := List.replicate 32 7
/-- A flit from endpoint 1 under a counter value, with its tag or with another. -/
def flitOf (ctr : Nat) (ok : Bool) : Flit :=
  let b := flitBytes key7 0 1 0 0 ctr (List.replicate 224 0)
  { bytes := if ok then b else b.take 255 ++ [b.getD 255 0 + 1], half := 0, id := 4, sending := 1, idx := 0, cnt := 1, msg := .ack 5 1 0 0 }
/-- Two packages with a link and a key; slot 0 of the task holds stream 5 to endpoint 1. -/
def sFb : State := { (mc { kx [1, 1023, 2, 0x8000000000000000, 0x200] with strm := (Vector.replicate 16 none).set 0 (some 5) }) with
  fab := { ep := 0, domHi := 1, up := 1, rr := 31, sends := [(1, { key := some [] })], recvs := [(1, { key := some key7, seen := [9, 3] })], strms := [(5, { task := 0, slot := 0, ep := 1, next := 3, unacked := [1, 2] })] } }
/-- A descriptor of CID 1 with this package as its one member stands at scratchpad 0x200. -/
def sDesc : State := sFb.modCore 0 fun k => { k with pool := [(0x180200, 1), (0x180202, 1), (0x180208, 1), (0x180217, 0x80), (0x18021F, 0x80)] }
/-- An instance of CID 1 of task 0, finished or not. -/
def coll1 (fin : Bool) : Coll := { key := { kind := .red, cid := 1, fields := [1, 0, 0] }, inst := 0, task := 0, launch := 0, core := 0, started := true, got := [(0, ({ kind := .red, cid := 1, fields := [1, 0, 0] }, []))], fin := fin }
/-- It is held by the fabric engine. -/
def sColl (fin : Bool) : State := { sFb with fab := { sFb.fab with colls := [coll1 fin] }, ev := { num := 1 } }
/-- A message formed for endpoint 1 that came of a stream write. -/
def msg1 : OutMsg := { dst := 1, msg := .ack 5 3 0 0, task := 0, addr := 0 }
/-- A stream message of endpoint 1 with eight bytes for offset 0x80. -/
def strm1 (n : Nat) : StreamMsg := { src := 1, strm := 7, seq := n, tick := none, body := .write (place 0x80 [1, 2, 3, 4, 5, 6, 7, 8]) }

/-- The send FIFO of core 0 holds some words of a message of some task. -/
def sTx (o : Option Nat) (n : Nat) : State := sFb.modCore 0 fun k => { k with tx := { k.tx with owner := o, words := List.replicate n 0 } }
/-- A free stream number is found. -/
theorem freeNum_found : (freeNum sFb).isSome = true := by
  refine pickOf_isSome sFb (List.ne_nil_of_mem (a := 0) ?_)
  rw [List.mem_filter]
  exact ⟨List.mem_range.mpr (by omega), by decide +kernel⟩
theorem witness_FabricInstructions : (rd sFb [.s (.k 0), .d (.k 31)] 0 && rd sFb [.s (.k 0), .d (.kx 15)] 0 && rd sFb [.s (.k 0), .d .fout] 0 &&
    rd sFb [.s (.k 0)] 0 && rd sFb [.s (.k 0)] 1 && meets sFb (fun t x =>
    let f := (sFb.core 0).tx
    let v := fun r => sVal sFb x true (.k r)
    decide (txWords f < 64) && f.owner.isNone && decide ((v 0).toNat ≤ sFb.fab.domHi) && reaches sFb 1 && (x.strm.getD 15 none).isNone &&
    (x.strm.getD 0 none).isSome && (strmOf sFb x 0).isSome && (strmOf sFb x 1).isNone && decide (sFb.fab.domHi < (v 1).toNat) && !reaches sFb 2 &&
    roomFor sDesc 0 false t && (let b := spRead sDesc 0 0x200 64; [CollKind.red, .bc, .a2a, .vir].all (fun k => collOk sDesc k b) && fld b 0x20 8 == 0 &&
      !collBusy sDesc (fld b 0 2) && !badTag 0x8000000000000010 && collOk sDesc .disp (b.take 0x28 ++ leBytes 16 4 ++ leBytes 0 20) &&
      collOk sDesc .comb (b.take 0x28 ++ leBytes 16 4 ++ leBytes 0 20)) &&
    (v 0).extractLsb' 16 48 == 0 && ((collOf sFb 1).filter (fun c => c.task == t)).isNone && (v 1).extractLsb' 10 54 == 0 && (v 0).extractLsb' 4 60 == 0 &&
    collOf (sColl true) 1 == some (coll1 true) && (coll1 true).task == t && collOf (sColl false) 1 == some (coll1 false) && !spBad sDesc 0 0x200 64) &&
    ([(none, 63), (none, 64), (some 9, 0)].map fun p => let f := ((sTx p.1 p.2).core 0).tx
      (decide (txWords f < 64), f.owner.any (· != 0))) == [(true, false), (false, false), (true, true)]) = true := by decide +kernel
/-- Where every stream number is taken none is free (R323). -/
theorem freeNum_none (s : State) (h : ∀ n < 65536, (look s.fab.strms n).isSome = true) : freeNum s = none := by
  have : ((List.range 65536).filter fun n => (look s.fab.strms n).isNone) = [] := List.filter_eq_nil_iff.mpr fun n hn => by
    have := Option.isSome_iff_ne_none.mp (h n (List.mem_range.mp hn)); simp [this]
  simp [freeNum, pickOf, this]
/-- A map of consecutive keys holds every one of them. -/
theorem look_range {α : Type} (v : α) (n : Nat) : ∀ (a k : Nat), a ≤ k → k < a + n → look ((List.range' a n).map fun i => (i, v)) k = some v := by
  induction n with
  | zero => intro a k h1 h2; omega
  | succ n ih =>
    intro a k h1 h2
    rw [List.range'_succ, List.map_cons, look]
    split
    · rfl
    · exact ih (a + 1) k (by omega) (by omega)
/-- A state in which every stream number is taken. -/
def sNoNum : State := { sFb with fab := { sFb.fab with strms := (List.range' 0 65536).map fun n => (n, { task := 9, slot := 0, ep := 1 }) } }
theorem freeNum_taken : freeNum sNoNum = none := freeNum_none _ fun n h => by
  rw [show sNoNum.fab.strms = (List.range' 0 65536).map fun n => (n, { task := 9, slot := 0, ep := 1 }) from rfl, look_range _ _ _ _ (Nat.zero_le n) (by omega)]; rfl
theorem witness_FabricFlits : ((let s := { sFb with fab := { sFb.fab with out := [msg1] } }
    s.fab.out[s.ev.num]? == some msg1 && msg1.dst != s.fab.ep && sealable s msg1 && (nextStation s.fab (halfOf msg1)).isSome &&
    decide (0 + msgFlits msg1.msg < rekeyAt)) &&
    ((sFb.fab.recvs.map fun p => p.2.key.isSome && p.2.epoch == 0 && p.2.prev.isNone) == [true]) &&
    (let s := { sFb with acyc := Vector.replicate 2 65536, fab := { sFb.fab with sent := [{ msg1 with tries := 7 }, { msg1 with tries := 8 }] } }
     s.fab.sent.all (fun m => m.dst != s.fab.ep && decide (65536 ≤ (s.acyc[(0 : Fin 2)] - m.at_).toNat))) &&
    (sFb.acyc[(0 : Fin 2)]).toNat % 1024 == 0) = true := by decide +kernel
theorem witness_FabricFlits_received : (let d := (look sFb.fab.recvs 1).getD {}
    [flitOf 10 true, flitOf 9 true, flitOf 10 false].map (fun f => (flitSrc f, flitEpoch f == d.epoch, flitTagOk f key7, ctrNew d.seen (flitCtr f))) ==
      [(1, true, true, true), (1, true, true, false), (1, true, false, true)]) = true := by decide +kernel
theorem witness_RemoteAnswers : ((let s := { sFb with ev := { num := 5, cnt := 2 } }
    (look s.fab.strms s.ev.num).isSome && s.ev.val == 0 && (cmdOfMsg s s.ev.num s.ev.cnt).isNone &&
    (let q : Cmd := { id := 0, task := 0, launch := 0, kind := .copy 3, sent := [⟨5, 2, 8, 0, 0, 0⟩] }
     (cmdOfMsg (modCmds s 0 false fun _ => [q]) s.ev.num s.ev.cnt) == some (0, false, q, ⟨5, 2, 8, 0, 0, 0⟩))) &&
    (let s := { sFb with fab := { sFb.fab with reqs := [(0, ⟨1, 0, 0, .scal 0 0 8 false false .pkg⟩), (1, ⟨1, 0, 0, .row 0 0 1 VReg.zero⟩), (2, ⟨1, 0, 0, .word 0 0 8 0 false 0⟩)] },
                         ev := { num := 0, body := .remote ⟨[1], 0, 0⟩ } }
     (look s.fab.reqs 0).isSome && (look s.fab.reqs 1).isSome && (look s.fab.reqs 2).isSome) &&
    (look sFb.fab.fifoIds ((1 * 512 + 3) * 512 + 319)).isNone && !decide (rxRoom (sFb.core 319) < 64) && decide (rxRoom (sFb.core 0) < 65) && (sFb.core 319).ringN == 0 &&
    (let s := { sFb with acyc := Vector.replicate 2 1024, fab := { sFb.fab with retry := [msg1] } }
     decide (1024 ≤ (s.acyc[(0 : Fin 2)] - msg1.at_).toNat))) = true := by decide +kernel
theorem witness_FabricCommits : (holesOf (strm1 0).body == [] && sFb.cb.isEmpty && decide (sFb.fab.weir.length < 65536) &&
    (let s := { sFb with fab := { sFb.fab with weir := [(weirKey 1 7, { x := 0xFFFFFFFF })] } }
     ([0xFFFFFFFF, 4094, 4095].map fun n => decide (4096 ≤ (n + 2 ^ 32 - 0xFFFFFFFF) % 2 ^ 32)) == [false, false, true] && (look s.fab.weir (weirKey 1 7)).isSome) &&
    (let l : Launch := { st := .running, scope := 3, ftgcfg := 0x8000000000000001, entryTask := some 0 }
     let s := { sFb with launches := [(3, l)], scopes := [(3, { launch := 3, wave := 1 })], ev := { num := 3 } }
     (doneDue s l).isSome) &&
    (sFb.fab.colls.find? fun c => c.key.cid == 1 && c.inst == 0).isNone && ((sColl false).fab.colls.find? fun c => c.key.cid == 1 && c.inst == 0) == some (coll1 false) &&
    ((sColl true).fab.colls.find? fun c => c.key.cid == 1 && c.inst == 0) == some (coll1 true) &&
    (let s := sColl false
     let c := coll1 false
     collOf s s.ev.num == some c && c.started && !c.wrote && !(c.got.any fun p => p.2.1 != c.key) && !c.cut s && !c.bits.getLsbD 9 &&
     c.members == [0] && c.members.all fun e => (look c.got e).isSome) &&
    (let c := { coll1 false with wrote := true }
     let s := { sFb with fab := { sFb.fab with colls := [c] }, ev := { num := 1 } }
     collOf s s.ev.num == some c && c.key.kind != .samp && (c.members.filter fun e => reaches s e).all (fun e => e == s.fab.ep) && !collUnsent s c) &&
    (look sFb.fab.ranges 3).isNone) = true := by decide +kernel

/-- AES-256 of the example of FIPS 197, appendix C.3. -/
theorem test_aes : aesEnc (roundKeys (leNat ((List.range 32).map (BitVec.ofNat 8 ·)))) ((List.range 16).map fun i => BitVec.ofNat 8 (17 * i)) =
    [0x8E, 0xA2, 0xB7, 0xCA, 0x51, 0x67, 0x45, 0xBF, 0xEA, 0xFC, 0x49, 0x90, 0x4B, 0x49, 0x60, 0x89] := by decide +kernel
/-- AES-256-GCM of a zero block under the zero key and nonce: test case 14 of McGrew and Viega's proposal, cited by SP 800-38D. -/
theorem test_gcm : (let k := List.replicate 32 (0 : Byte)
    let n := List.replicate 12 (0 : Byte)
    gcmText k n (List.replicate 16 0) = beBytes 0xCEA7403D4D606B6E074EC5D3BAF39D18 16 ∧
    gcmTag k n [] (beBytes 0xCEA7403D4D606B6E074EC5D3BAF39D18 16) = beBytes 0xD0D1C8A799996BF0265B98B5D48AB919 16) := by decide +kernel
/-- A duplicate counter value is refused, a higher one is new (R317). -/
theorem test_counter : ctrNew [9, 3] 9 = false ∧ ctrNew [9, 3] 10 = true := by decide

/-! ### Page statements -/

/-- CRC-32C up to its final complement. -/
def crcFold (c : Nat) (bs : List Byte) : Nat := bs.foldl (fun c b => (List.range 8).foldl (fun c _ => crc32Bit c) (c ^^^ b.toNat)) c
theorem crcFold_append (c : Nat) (a b : List Byte) : crcFold c (a ++ b) = crcFold (crcFold c a) b := List.foldl_append
/-- 128 zero bytes. -/
def z128 : List Byte := List.replicate 128 0
theorem z1 : crcFold 4294967295 z128 = 4158167844 := by decide +kernel
theorem z2 : crcFold 4158167844 z128 = 1200442991 := by decide +kernel
theorem z3 : crcFold 1200442991 z128 = 1158271177 := by decide +kernel
theorem z4 : crcFold 1158271177 z128 = 3473084991 := by decide +kernel
theorem z5 : crcFold 3473084991 z128 = 534250289 := by decide +kernel
theorem z6 : crcFold 534250289 z128 = 3318006521 := by decide +kernel
theorem z7 : crcFold 3318006521 z128 = 225952960 := by decide +kernel
theorem z8 : crcFold 225952960 z128 = 290529667 := by decide +kernel
theorem zeros_mul (n k : Nat) : List.replicate (n * k + k) (0 : Byte) = List.replicate (n * k) 0 ++ List.replicate k 0 :=
  List.replicate_append_replicate.symm
theorem crc_zeros (c : Nat) (n : Nat) : crcFold c (List.replicate (n * 128 + 128) 0) = crcFold (crcFold c (List.replicate (n * 128) 0)) z128 := by
  rw [zeros_mul, crcFold_append]; rfl
theorem crc_fold (l : List Byte) : crc32c l = crcFold 4294967295 l ^^^ 0xFFFFFFFF := rfl
theorem crc_1024 : crc32c (List.replicate 1024 0) = 4004437628 := by
  have h : crcFold 4294967295 (List.replicate (7 * 128 + 128) 0) = 290529667 := by
    rw [crc_zeros, show 7 * 128 = 6 * 128 + 128 from rfl, crc_zeros, show 6 * 128 = 5 * 128 + 128 from rfl, crc_zeros,
      show 5 * 128 = 4 * 128 + 128 from rfl, crc_zeros, show 4 * 128 = 3 * 128 + 128 from rfl, crc_zeros,
      show 3 * 128 = 2 * 128 + 128 from rfl, crc_zeros, show 2 * 128 = 1 * 128 + 128 from rfl, crc_zeros]
    rw [show List.replicate (1 * 128) 0 = z128 from rfl, z1, z2, z3, z4, z5, z6, z7, z8]
  rw [show 1024 = 7 * 128 + 128 from rfl, crc_fold, h]
  decide
theorem crc_64 : crc32c (List.replicate 64 0) = 63499111 := by decide +kernel
/-- The check words of a zero frame, each a CRC-32C of zero bytes. -/
def words0 : List Byte := (List.range 34).flatMap (fun _ => leBytes 4004437628 4) ++ leBytes 63499111 4
/-- Flash with a zero frame in slot 0. -/
def flash0 : Memory := place 0x8840 words0
theorem words0_len : words0.length = 140 := by decide +kernel
theorem flash0_words : rdBytes flash0 0x8840 140 = words0 := by decide +kernel
theorem rd_place (b k : Nat) (l : List Byte) (h : rdBytes (place b l) b l.length = l) :
    rdBytes (place b l) 0 (b + (l.length + k)) = List.replicate b 0 ++ (l ++ List.replicate k 0) := by
  rw [rdBytes_append, rdBytes_append, Nat.zero_add, h, rdBytes_zeros _ _ b fun i hi => rd8_place_out _ _ _ (by omega),
    rdBytes_zeros _ _ k fun i hi => rd8_place_out _ _ _ (by omega)]
theorem zeros_part (a b n : Nat) (t : List Byte) (h : a + b ≤ n) : ((List.replicate n (0 : Byte) ++ t).drop a).take b = List.replicate b 0 := by
  rw [List.drop_append_of_le_length (by rw [List.length_replicate]; omega), List.drop_replicate,
    List.take_append_of_le_length (by rw [List.length_replicate]; omega), List.take_replicate, Nat.min_eq_left (by omega)]
theorem words_part (n k : Nat) (w t : List Byte) (h : w.length = k) : ((List.replicate n (0 : Byte) ++ (w ++ t)).drop n).take k = w := by
  rw [List.drop_left' List.length_replicate, List.take_left' h]
theorem flash0_frame : rdBytes flash0 0 frameB = List.replicate 0x8840 0 ++ (words0 ++ List.replicate 1844 0) := by
  have := rd_place 0x8840 1844 words0 (by rw [words0_len]; exact flash0_words)
  rw [words0_len] at this
  exact this
theorem checked (fr : List Byte) (h1 : ∀ i ∈ List.range 34, (fr.drop (1024 * i)).take 1024 = List.replicate 1024 0)
    (h2 : (fr.drop 0x8800).take 64 = List.replicate 64 0) : checkWords fr = words0 := by
  simp only [checkWords, h2, crc_64, words0, List.flatMap_def]
  rw [List.map_congr_left (g := fun _ => leBytes 4004437628 4) fun i hi => by rw [h1 i hi, crc_1024]]
/-- The zero frame with its check words passes (R351). -/
theorem flash0_checked : (let fr := rdBytes flash0 0 frameB; checkWords fr = (fr.drop 0x8840).take 140) := by
  show checkWords (rdBytes flash0 0 frameB) = ((rdBytes flash0 0 frameB).drop 0x8840).take 140
  rw [flash0_frame, words_part _ _ _ _ words0_len]
  refine checked _ (fun i hi => ?_) (zeros_part _ _ _ _ (by omega))
  have : i < 34 := List.mem_range.mp hi
  exact zeros_part _ _ _ _ (by omega)

/-- Pages 0 to 3: RESIDENT, COLD, ABSENT and in eviction; two frames of which one is free; set 1 builds. -/
def sPg : State := { (mc (kx [2, 0x100000001, 1, 0, 0x10001])) with
  pg := { mapn := 4, frames := 3, fslots := 4, hslots := 4, base0 := 0x100000, flash := flash0, used0 := [0, 1], usedS := [0, 2], usedH := [0, 2], map := [(0, { st := .resident, frame := some 0 }), (1, { st := .cold, slot := 0, hslot := 0 }), (3, { st := .resident, frame := some 1, ref := 1, evict := some (2, 2, false) })], sets := [(1, { hdc := 0, handles := [0], pins := 1, cmd := 77 })] },
  tasks := [(0, { st := .running, core := some 0, refs := [1] }), (1, { st := .ready, parent := some 0 })] }
/-- A fill of page 1 into frame 2. -/
def sFill : State := { sPg with pg := { sPg.pg with filling := some 1, map := [(1, { st := .filling, frame := some 2, slot := 0, hslot := 0 })] } }

/-- Page 0 revoked, and the build of set 1 failed. -/
def sPgDead : State := { sPg with pg := { sPg.pg with map := [(0, { st := .revoked })], sets := [(1, { hdc := 0, handles := [0], cmd := 77, fail := some (3, 0) })] } }

theorem witness_PageCommands : (rd sPg [.s (.k 3), .s (.k 3)] 0 && rd sPg [.s (.k 0), .s (.k 3)] 1 && rd sPg [.s (.k 2)] 0 && meets sPg (fun t x =>
    let s := sPg.modCore 0 fun k => { k with ce0 := { wt := some 0, dst := 0x8000000000000000 } }
    !claimed s 0 false t && (ceRegs s 0 false).wt == some t && roomFor s 0 false t &&
    (let v : W64 := 0x0000000001000304
     v.extractLsb' 54 10 == 0 && v.extractLsb' 0 2 == 0 && v.extractLsb' 6 2 != 3 && v.extractLsb' 2 2 != 3 && v.extractLsb' 32 2 == 0 && v.extractLsb' 4 2 == 0) &&
    [0, 1, 3].all (fun ck => isOk (pageObj s x 0x28 (if ck = 0 then 0 else 0x8000000000000100) ck)) &&
    (let v : W64 := 0x100000004
     v.extractLsb' 22 2 != 2 && v.extractLsb' 0 2 == 0) && (look s.pg.sets 16383).isNone && (look s.pg.sets 1).isSome && decide (refsOf s t < 16) &&
    (let u : W64 := 0x3FFF
     u.extractLsb' 16 16 == 0 && u.extractLsb' 50 14 == 0 && u.extractLsb' 48 2 != 3) &&
    (childOf s t 1).map (fun p => (p.1, notStarted p.2)) == some (1, true) && decide (refsOf s 1 < 16) && pgOk s 3 && pgOk s 0x800003 && !pgOk s 4 &&
    (look s.tasks t).any (fun r => r.refs.contains 1) && (look s.pg.sets 1).any (fun k => decide (0 < k.pins)))) = true := by decide +kernel
theorem witness_PageSteps : (((pgEnt sPg 2).st == .absent && (takeFrame sPg 2).isSome) && ((pgEnt sPg 0).st == .resident && (pgEnt sPg 0).ref == 0 && (pgEnt sPg 0).evict.isNone) &&
    ((pgEnt sPg 1).st == .cold && (pgEnt sPg 1).ref == 0 && (pgEnt sPg 1).evict.isNone) && decide (0 < (pgEnt sPg 3).ref) &&
    (pgEnt sPg 3).evict == some (2, 2, false) && (pgEnt sPg 3).frame == some 1 && !(pgEnt sPg 3).dead &&
    (sFill.pg.filling == some 1 && (pgEnt sFill 1).frame == some 2 && !(pgEnt sFill 1).dead) &&
    (let s := { sPg with pg := { sPg.pg with demand := [1] } }
     s.pg.filling.isNone && s.pg.demand ++ s.pg.pre == [1] && (takeFrame s 1).isSome) &&
    (look sPg.pg.sets 1).any (fun k => !k.live && (findCmd sPg k.cmd).isNone && k.fail.isNone && k.sref != 0) &&
    (pgEnt sPgDead 0).st == .revoked && (takeFrame sPgDead 0).isSome && (look sPgDead.pg.sets 1).any (fun k => !k.live && (findCmd sPgDead k.cmd).isNone && k.fail == some (3, 0))) = true ∧
    (checkWords (rdBytes sFill.pg.flash ((pgEnt sFill 1).slot * frameB) frameB) =
      ((rdBytes sFill.pg.flash ((pgEnt sFill 1).slot * frameB) frameB).drop 0x8840).take 140) := by
  refine ⟨by decide +kernel, ?_⟩
  rw [show (pgEnt sFill 1).slot * frameB = 0 by decide +kernel]
  exact flash0_checked

/-! ### Task statements -/

/-- Task 1, a child of task 0 in some state; launch 0 takes batches; a task word and a spawn descriptor stand in k0 and at 0x200. -/
def sTask (st : TState) : State :=
  let s := mc (kx [0x400000000010, 0x200, 1, 0x123, 7])
  { s with tasks := [(0, { st := .running, key := 0, ticket := some 1, core := some 0 }), (1, { st := st, parent := some 0, launch := 0, entry := 0x80, arg := 5 })],
           launches := s.launches.map fun p => (p.1, { p.2 with bftab := 1 }),
           cores := s.cores.map fun p => (p.1, { p.2 with pool := [(0x180200, 0x10), (0x180205, 0x40)] }) }
/-- The same in a DET scope: launch 0 runs in scope 3, task 0 holds no ticket yet. -/
def sDet : State :=
  let s := sTask .ready
  { s with launches := s.launches.map (fun p => (p.1, { p.2 with scope := 3, det := true })), scopes := [(3, { launch := 0 })], ev := { num := 3 },
           tasks := s.tasks.map fun p => (p.1, { p.2 with ticket := none }) }

theorem witness_TaskInstructions : (rd (sTask .ready) [.s (.k 0), .s (.k 1)] 1 && rd (sTask .ready) [.s (.k 2), .s (.k 3)] 0 && rd (sTask .ready) [.s (.k 2)] 0 &&
    rd (sTask .ended) [.s (.k 2)] 2 && rd (sTask .ended) [] 2 && rd (sTask .ended) [] 1 && meets (sTask .ended) (fun t x =>
    let s := sTask .ended
    let k := (look s.tasks t).getD {}
    let v := fun r => sVal s x true (.k r)
    !k.retired && x.rels.isEmpty && taskWordOk (launchOf s k) (v 0) && decide ((v 1).toNat % 64 = 0) && !drainHeld s x t 0 &&
    isOk (spawnDesc s (launchOf s k) 0 (spRead s 0 0x200 64) (v 1) false) && (launchOf s k).bftab.getLsbD 0 && decide (leavesHeld s < 65536) &&
    (childOf s t (v 2)).map (fun p => (p.1, p.2.st, p.2.nj)) == some (1, .ended, false) && (childOf s t (v 4)).isNone &&
    (firstEnded (((childrenOf s t).filter fun p => !p.2.nj).filter fun p => p.2.st == .ended)).map (·.1) == some 1 &&
    (((childrenOf sA 0).filter fun p => !p.2.nj).isEmpty) && (pickRec s).isSome)) = true := by decide +kernel
/-- Task 0 has retired in its scope. -/
def sRet : State := { sDet with tasks := sDet.tasks.map fun p => (p.1, { p.2 with retired := true }) }
/-- As many leaves are held as fit (R392). -/
def sLeaves : State := { sTask .ready with tasks := (0, { st := .running }) :: (List.range 65536).map fun i => (i + 1, { st := .batched }) }
theorem leaves_full : 65536 ≤ leavesHeld sLeaves := by
  have h : ∀ l : List Nat, ((l.map fun i => (i + 1, ({ st := .batched } : Task))).filter fun p => p.2.st == .batched).length = l.length := fun l => by
    induction l with
    | nil => rfl
    | cons a l ih => simpa using ih
  have := h (List.range 65536)
  rw [List.length_range] at this
  show 65536 ≤ (((0, ({ st := .running } : Task)) :: (List.range 65536).map fun i => (i + 1, ({ st := .batched } : Task))).filter fun p => p.2.st == .batched).length
  rw [List.filter_cons_of_neg (by decide), this]
theorem witness_TaskInstructions_more : (meets (sTask .ready) (fun t x =>
    let s := sTask .ready
    let k := (look s.tasks t).getD {}
    !spBad s 0 0x200 64 && !taskWordOk (launchOf s k) (BitVec.allOnes 64) && !(launchOf sA k).bftab.getLsbD 0 &&
    (childOf s t 1).map (fun p => (p.1, p.2.st)) == some (1, .ready) && (match relsFirst s t x with | .ok _ => true | .error _ => false) &&
    !((childrenOf s t).filter fun p => !p.2.nj).isEmpty && (((childrenOf s t).filter fun p => !p.2.nj).filter fun p => p.2.st == .ended).isEmpty &&
    (childOf { s with tasks := s.tasks.map fun p => (p.1, { p.2 with nj := true }) } t 1).any (·.2.nj)) &&
    rd sRet [.s (.k 0), .s (.k 1)] 1 && meets sRet (fun t _ => ((look sRet.tasks t).getD {}).retired && scopeOf sRet t != 0) &&
    (match createTask (sTask .ready) { launch := 0, grp := 0, entry := 0, dcyc := 0, key := 0, arg := 0 } false 0 with | some _ => true | none => false)) = true := by
  decide +kernel
theorem witness_TaskSteps : ((let s := sTask .ready
    (chooseFor s 0).map (·.1) == some 1 && freeNumber (s.core 0) == some 1 && freeNumber (s.core 0) != none && !(freeFrames (s.core 0)).isEmpty) &&
    (let s := { sTask .parked with ctxs := [(1, { kx [] with park := true })], tasks := [(1, { st := .parked, core := some 0, resumable := true })] }
     (chooseFor s 0).map (·.1) == some 1 && [false, true].all (fun e => (cmds s 0 e).all fun q => q.task != 1 || !q.pgfail)) &&
    (let s := { sTask .running with ctxs := [(0, { kx [] with park := true })] }
     match s.ctx? 0 with
     | some x => parkReady s 0 x
     | none => false) &&
    (let s := (sTask .ready).modCore 0 fun k => { k with res := Vector.replicate 16 (some 0) }
     let s := { s with tasks := s.tasks.map fun p => (p.1, { p.2 with key := if p.1 = 0 then 1 else 5 }) }
     (parkVictim s 0).map (·.1) == some 0) &&
    (let s := sTask .ready
     ticketQuiet s 0 && !ticketQuiet { s with nops := [{ id := 0, task := 0, launch := 0, core := 0, node := 0, op := .free, tick := some 0, cur := 0 }] } 0) &&
    (match formWave sDet 3 with
     | .take s1 _ e => e.length == 2 || e.length == 1 && (look s1.scopes 3).isSome
     | _ => false) &&
    openTickets { sDet with tasks := [(0, { st := .running, ticket := some 1 })] } 3 &&
    batchDue sA { launch := 0, wsid := 0, leaves := List.replicate 256 0 }) = true := by decide +kernel

/-! ### Phaser, node and generation statements -/

/-- Task 0 is a signal-wait member of phaser 3 of core 0, which has waited for the phase it is in, and signal member of phaser 4. -/
def sPh : State := (mc (kx [3, 4, 5, 2])).modCore 0 fun k => { k with
  phs := (k.phs.set 3 { ph := 2, mem := [{ task := 0, mode := .sw, wph := 2 }] }).set 4 { ph := 0, mem := [{ task := 0, mode := .sig, wph := 1 }] } }
/-- Core 1 belongs to the launch and to its group too. -/
def sPh2 : State := { sPh with cores := put sPh.cores 1 { launch := some 0 }, gtab := put sPh.gtab 0 3 }
/-- Record 5 of die 0 belongs to launch 0; two local operations on it are outstanding. -/
def sNode : State := { sFb with
  basin := (Vector.replicate 2 []).set 0 [(5, { owner := (0, 0) }), (6, { owner := (9, 9) })]
  nops := [{ id := 8, task := 0, launch := 0, core := 0, node := 5, op := .vl 3, cur := 5 }, { id := 9, task := 1, launch := 0, core := 0, node := 5, op := .rd (.word 0) 0, cur := 5 }]
  ev := { num := 8 } }
/-- Bucket 0 of the group's instance takes the pass; its descriptor stands at scratchpad 0x200. -/
def sGs : State := { sTree with gsq := [(0, { buckets := (Vector.replicate 16 none).set 0 (some { entry := 0x40, occMax := 4, dlMax := 4, depthp := 2 }) })],
                                cores := sTree.cores.map fun p => (p.1, { p.2 with pool := [(0x180200, 0x40), (0x180208, 4), (0x18020A, 4), (0x18020C, 2)] }) }
/-- A sampling descriptor for node positions 1 to 2 stands at 0x200, the tree word in it. -/
def sSamp : State := { sGs with cores := sGs.cores.map fun p => (p.1, { p.2 with
  pool := [(0x180200, 1), (0x180202, 1), (0x180206, 2), (0x180210, 1), (0x180218, 0x10), (0x180227, 0x80)] }) }

theorem witness_PhaserInstructions : (rd sPh2 [.s (.k 0)] 0 && rd sPh2 [.s (.k 0)] 1 && meets sPh2 (fun t x =>
    phForeign sPh2 t x 0 == (false, false) && phForeign sPh2 t x 1 == (false, false) && !(phOf sPh2 0 3).brk && memberSeen sPh2 t 0 3 == some .sw &&
    memberSeen sPh2 t 0 4 == some .sig && (memberSeen sPh2 t 0 5).isNone && decide (membersSeen sPh2 0 5 < 64) && decide (memberships sPh2 t < 16) &&
    !arrivalHeld sPh2 t 0 3 && (phOf sPh2 0 3).passed t && waits .sw && signals .sw)) = true := by decide +kernel
/-- Its member has arrived early at phaser 3 and waits for a later phase, or phaser 3 is broken. -/
def sPhHeld (brk : Bool) : State := sPh2.modCore 0 fun k => { k with phs := k.phs.set 3 { ph := 2, brk := brk, mem := [{ task := 0, mode := .sw, wph := 3, arrived := true, early := 1 }] } }
theorem witness_PhaserInstructions_more : (rd (sPhHeld false) [.s (.k 0)] 0 && meets (sPhHeld false) (fun t x =>
    arrivalHeld (sPhHeld false) t 0 3 && memberSeen (sPhHeld false) t 0 3 == some .sw && !(phOf (sPhHeld false) 0 3).passed t &&
    phForeign (sPhHeld false) t x 0 == (false, false) && !(phOf (sPhHeld false) 0 3).brk && (phOf (sPhHeld true) 0 3).brk) &&
    (let p : Phaser := { mem := [{ task := 0, mode := .sw, wph := 1 }] }
     (p.mem.filter fun m => m.task != 0).isEmpty)) = true := by decide +kernel
theorem witness_PhaserPhases : ((let p := phOf sPh 0 3
    (p.mem.map (·.task)) == [0] && (p.member 0).any (fun m => !m.arrived && signals m.mode) && !p.brk && p.arr + 1 == p.nsig) &&
    (let p : Phaser := { mem := [{ task := 0, mode := .sig, wph := 1, arrived := true }, { task := 1, mode := .sw, wph := 1 }, { task := 2, mode := .sw, wph := 1 }], brk := true }
     (p.member 0).any (·.arrived) && (p.member 1).any (fun m => !m.arrived) && decide (p.arr + 1 < p.nsig) && !p.moved && (p.member 3).isNone &&
     ((p.mem.filter fun m => m.task != 0).length == 2)) &&
    (let s := { sPh with phops := [⟨0, 0, 0, 3, 0, .arrive⟩, ⟨0, 0, 0, 4, 0, .drop⟩] }
     (nextPhOp (s.phops.filter fun o => decide (o.due.toNat ≤ (s.acyc[dieOf o.src]).toNat))).isSome)) = true := by decide +kernel
theorem witness_NodeInstructions : (rd sNode [.s (.k 0), .s (.k 1)] 0 && rd sNode [.s (.k 0)] 1 && rd sNode [.s (.k 0), .s (.k 1)] 1 && rd sNode [.s (.k 0)] 0 && meets sNode (fun t x =>
    ((5 : W64).extractLsb' 36 28 == 0) && idPkg 5 == sNode.fab.ep && decide (idIndex 0x1FFFFF ≥ 2 ^ 20) && decide (idIndex 0xFFFFF < 2 ^ 20) &&
    idPkg 0x400005 == 1 && decide (idPkg 0x400005 ≤ sNode.fab.domHi) &&
    (strmOf sNode x 0).any (fun p => !p.2.failed && p.2.holes.isEmpty && p.2.ep == 1 && decide (p.2.unacked.length < 4096)) && decide (tagsOut sNode 0 < 4096) &&
    nswrOk .n 5 0xFFFFFFFF && nswrOk .flags 5 0xFF04 && nswrOk .link 5 0 && nswrOk .parent 5 5 && nswrOk .w 5 0 && nswrOk .vl 5 0xFFFF &&
    (let v : W64 := 0x20000001000
     (v.extractLsb' 0 16).toNat == 4096 && (v.extractLsb' 32 22).toNat == 0x200 && decide (0x200 + 2 * 4096 ≤ spExt (sNode.core 0).part)) && !drainHeld sNode x t 0 && !spBad sNode 0 0x200 8192 && !strmFull sNode x 0) &&
    (let s := { sDet with tasks := [(0, { st := .running, ticket := some 1 })], launches := sDet.launches.map fun p => (p.1, { p.2 with ftgcfg := 0x8001000000000000 }) }
     scopeOf s 0 == 3 && isHead s 0 && decide (stageUsed s 0 < 4096) && ftgAdmits s 0 1 && !ftgAdmits s 0 2)) = true := by decide +kernel
theorem witness_NodeRecords : ((recAt sNode 5).any (fun r => r.owner == (0, 0) && !r.bad && r.parent == nullId) && (recAt sNode 6).any (fun r => r.owner != (0, 0)) &&
    freeRun 2 0 [(1, { owner := (0, 0) }), (4, { owner := (0, 0) })] == some 2 && bestChild [(1, 5), (2, 9), (3, 9)] == some (2, 9) &&
    (nopOf sNode 8).any (fun q => nopReady sNode q && nsWalks q.op && (match walkStep (q.who sNode) q.op sNode { cur := q.cur, neg := q.neg, visited := q.visited } with
      | (_, _, .done _) => true
      | _ => false)) && (nopOf sNode 9).any (fun q => nopReady sNode q && !nsWalks q.op && q.fin.isNone) && (nopOf sNode 8).any (·.fin.isNone) &&
    (nopOf { sNode with nops := [{ id := 8, task := 0, launch := 0, core := 0, node := 5, op := .rd (.word 0) 0, cur := 5, fin := some 7 }] } 8).any (·.fin == some 7) &&
    (let s := { sNode with basin := (Vector.replicate 2 []).set 0 [(5, { owner := (0, 0), parent := 0x200005 })] }
     let s := { s with basin := s.basin.set 1 [(5, { owner := (0, 0) })] }
     match walkStep { ep := 0, launch := 0 } (.vl 1) s { cur := 5 } with
     | (_, _, .more) => true
     | _ => false)) = true := by decide +kernel
/-- A pass of the bucket is open, as many as its depth lets be. -/
def sGsFull : State := { sGs with gsq := [(0, {
  buckets := (Vector.replicate 16 none).set 0 (some { entry := 0x40, occMax := 4, dlMax := 4, depthp := 1 })
  opened := 2
  parts := [(0, 2)]
  passes := [{ k := 2, word := 0, aspec := false, bkt := some 0, entry := 0, occ := 1, dlen := 0, drained := false }] })] }
theorem witness_GenerationInstructions : (rd sGs [.s (.k 0)] 0 && rd sGs [.s (.k 0), .s (.k 1)] 0 && rd sGs [.s (.k 1)] 0 && rd sGs [.s (.k 0), .s (.k 1)] 1 && rd sGs [.s (.k 0)] 1 &&
    (bucketOf (spRead sGs 0 0x200 32)).isSome && meets sGs (fun t x => groupEntry sGs t == some 0 && isOk (startHold sGs t 0) && !drainHeld sGs x t 0 &&
      (treeOf sGs 0 t 0x10 false).isSome && !x.trapMode && !gsFly sGs t && !spBad sGs 0 0x200 64 && (match startHold sGsFull t 0 with | .error .hold => true | _ => false) && !gsReleased (gsqOf sGs 0) ((gsqOf sGs 0).find 9) false 0 && gsReleased (gsqOf sGs 0) ((gsqOf sGs 0).find 0) false 0) &&
    (let bs := spRead sSamp 0 0x200 64
     sampOk sSamp bs && syncOk sSamp 0 bs && !collBusy sSamp (fld bs 0 2) && !spBad sSamp 0 0x200 64 && decide ((sSamp.fab.colls.filter fun c => c.task == 0 && !c.fin && c.key.kind == .samp).length < 4) && (treeOf sSamp 0 0 (BitVec.ofNat 64 (fld bs 0x18 8)) false).any (fun p => decide (fld bs 6 2 ≤ p.2.1.nodes.length) && p.2.1.nodes.all fun n => !n.bad))) = true := by
  decide +kernel
theorem witness_GenerationSteps : ((let s := { sGs with gsops := [⟨0, 0, 0, 0, .occ 3⟩] }
    (gsNext s).isSome) && (gsNext sGs).isNone && (gsqOf sGs 0).passes.isEmpty && (gsqOf sGs 0).fit.map (·.1) == some 0 &&
    (let g := { gsqOf sGs 0 with parts := [(1, 0)] }
     (look g.parts 0).isNone && decide (g.npart ≤ g.parts.length)) &&
    (let p : Pass := { k := 1, word := 0, aspec := false, bkt := some 0, entry := 0, occ := 1, dlen := 0, acc := some (255, 7), drained := false }
     p.acc == some (255, 7) && !p.closed && !p.drained && p.bkt == some 0)) = true := by decide +kernel

/-- The last signalling arrival moves the phase from 2 to 3 (R416). -/
theorem test_phaser : ((phOf sPh 0 3).arrive 0).ph = 3 := by decide +kernel

/-! ### Control registers, the sequencer, traps -/

/-- A context with a result that lands now, a pending cause, a wait of one cycle, an opened nest level at its end. -/
def sSeq : State := { (mc { kx [] with asyncs := [{ code := cGen }, { code := cCopy }], wait := 1, fr := { pend := [⟨.s, 0, 0, some (.s 7), 0, false⟩], nest := { act := [⟨2, 1, 0, 1, 0, 0⟩], pos := 1 } } }) with
  ev := { core := 0, task := 0 } }
/-- Line 1 of HBM is in the data cache of core 0, dirty for a task there; core 0's page table stands at 0x10000. -/
def sDir : State := { sMem with
  dir := [(1, .d 0 0), (2, .p 0 0x80), (3, .k 1)]
  mem := [(0x10000, 1), (0x10001, 0x10), (0x10002, 1), (0x11000, 1), (0x11001, 0x20), (0x11002, 1), (0x12008, 0x0F), (0x1200A, 0x20), (0x12010, 0x80)]
  cores := sMem.cores.map fun p => (p.1, { p.2 with trroot := 0x10001, dc := [(1, DLine.fill [] 1)], tlb := [{ root := 0x10000, lvl := 1, vpn := 7, leaf := 0 }] })
  ev := { core := 0, val := 0x200000, num := 1 } }

theorem witness_ControlRegisters : (rd sTrap [.s (.k 0)] 0 && rd sTrap [] 1 && rd sA [] 1 && meets sA (fun t x => gOn 0 x && !gOn 1 x && !x.trapMode && !gsFly sA t) &&
    meets sTrap (fun _ x => x.trapMode) && (sA.ctx? 0).isSome && (look sA.launches 0).isSome && groupEntry sA 0 == some 0) = true := by decide +kernel
theorem witness_ControlRegisters_more : (let f := { sA with gsops := [⟨0, 0, 0, 0, .occ 3⟩] }
    rd f [] 1 && gsFly f 0 && (inBundle sA).latch.isSome && !hasLive [0x80C29FF9] && (gsqOf sA 0).parts.isEmpty && (sA.core 0).ringN == 0 &&
    ([0, 1, 320, 321].map fun n => decide (1 ≤ n ∧ n ≤ 320)) == [false, true, true, false]) = true := by decide +kernel
theorem witness_SequencerSteps : ((match sSeq.ctx? 0 with
    | some x => x.wait == 1 && !x.trapMode && (match lowestAsync x.asyncs with | some (c, _) => c.code == cCopy | none => false) &&
        (match x.fr.nest.act with | l :: _ => l.trip != 0 && decide (l.base + l.len ≤ x.fr.nest.pos) && decide (l.iter + 1 < l.iters) | [] => false)
    | none => false) && (match (mc { kx [] with asyncs := [{ code := cGen }] }).ctx? 0 with
    | some x => atBoundary (mc x) 0 x && (match bundleAt (mc x) x x.fr.nest.pos x.pc with | (_, .ok _) => true | _ => false)
    | none => false) && (sSeq.core 0).res.toList.contains (some 0) &&
    (match bundleAt (mc (kx [])) { kx [] with pc := 0x10000000 } 0 0x10000000 with | (_, .fault _ _) => true | _ => false)) = true := by decide +kernel
theorem witness_TranslationAndDirectory : ((let k := sDir.core 0
    k.trroot.getLsbD 0 && (tlbFind 0x10000 0xE00000 k.tlb).isSome && (tlbFind 0x10000 0x200000 k.tlb).isNone && (tlbFind 0x10000 0x200000 ((look sDir.ctlb 0).getD [])).isNone &&
    (match walk sDir.mem sDir.poison 0x200000 3 0x10000 with | .ok (1, w) => decide (w < 2 ^ 64) | _ => false) && (match walk sDir.mem sDir.poison 0 3 0x10000 with | .error .notmapped => true | _ => false) &&
    malformed 0x80 1 && malformed 0x103 1) &&
    (look sDir.dir 1).any (·.mine 0 0) && !(look sDir.dir 3).any (·.mine 0 0) && (dcLine sDir 0 1).isSome &&
    ([some (0x40, 0x44), some (0, 4), none].map fun f => match (mc { kx [] with ffault := f }).ctx? 0 with
      | some x => x.ffault.any (·.1 != x.pc)
      | none => false) == [true, false, false]) = true := by decide +kernel
theorem witness_TrapsAndReturns : (firstCause [(2, { code := cMemory }), (0, { code := cIllegal }), (1, { code := cIllegal })] == some (0, { code := cIllegal }) &&
    (match (mc { kx [] with tvec := 0x101 }).ctx? 0 with | some x => !x.trapMode && x.tvec.getLsbD 0 | none => false) && (sweepOf sA 0).isNone &&
    (match sTrap.ctx? 0 with | some x => x.trapMode && x.frozen.isSome | none => false) && sTrap.latch.isNone && (inBundle sTrap).latch.isSome) = true := by decide +kernel

/-- A walk of three levels to a leaf of 2 MiB at 0x200000 (R92 to R94). -/
theorem test_walk : (match walk sDir.mem sDir.poison 0x200000 3 0x10000 with
    | .ok (1, w) => leafPa w 1 0x212345 == 0x212345
    | _ => false) = true := by decide +kernel
/-- CSRR of CCYC's like: TVEC keeps bits 56:2 and EN (R159). -/
theorem test_csrw_tvec : after (.csrw 0 (.k 0) 0x010) (mc (kx [0xFFFFFFFFFFFFFFFF])) (fun s => (s.ctx? 0).map (·.tvec) == some 0x00FFFFFFFFFFFFFD) = true := by decide +kernel

/-! ### Host and device statements -/

/-- A READY module with two queue pairs, the first the management one, a region, a fenced core and a key-encryption key; a message of a
payload has arrived on queue pair 0. -/
def sHost (mode : DevMode) (b : List Byte) : State := { State.reset with
  dev := { mode := mode, qps := [0, 5], mqp := some 0, kek := some ((List.range 32).map fun i => BitVec.ofNat 8 i), regions := [{ idx := 4095, gen := 3, base := 0x200000, len := 0x1000, rd := true, wr := false, hq := 1 }] }
  cores := [(7, { fenced := true })]
  mem := put sDir.mem 0x200000 1
  root := (Vector.replicate 64 0).set 1 0x10001
  fab := { domHi := 3 }
  ev := { num := 0, body := .host { hq := 1, msgid := 9, payload := b } } }
/-- It arrives for a command, and breaks no check. -/
def sound (mode : DevMode) (i : Instr) (n : Nat) (modes : List DevMode) : Bool :=
  let s := sHost mode (List.replicate n 0)
  s.dev.qps.contains s.ev.num && !cutHolds s s.ev.num i && s.dev.mqp == some s.ev.num && modes.contains s.dev.mode
/-- A launch record with one group, whose table is at 0x200000, one bundle at 0 (R20). -/
def record : List Byte := leBytes 0xAD011A0C 4 ++ leBytes 1 2 ++ leBytes 0 2 ++ [1, 1, 0, 0] ++ leBytes 0x8408 4 ++ leBytes 0x40 8 ++
  leBytes 64 4 ++ leBytes 0 4 ++ leBytes 0x200000 8 ++ leBytes 1 2 ++ List.replicate 86 0
/-- Launch 0 of queue pair 0, queued, granting with core 1 waiting, or ready for its entry task. -/
def sLaunch (st : LState) (g : List Nat) : State :=
  let s := sHost .ready record
  { s with launches := [(0, { st := st, hq := 1, raw := record, cores := [1], granted := g, groups := [0] })], nlaunch := 1, ev := { num := 0, core := 1 } }
/-- A running launch whose watchdog is due, or whose entry task has ended. -/
def sWatch (stage1 : Bool) : Launch := { st := .running, wd1 := 1, wd2 := 2, wd3 := 3, stage1 := stage1, entryTask := some 0 }

theorem witness_HostCommands : (hostRows (sHost .ready [])).all (fun p => [DevMode.off, .rough, .finalising, .ready, .tripped].any fun m =>
    p.2.modes.contains m && sound m p.1 p.2.len p.2.modes) = true ∧ ((hostRows (sHost .ready [])).map (·.1)).length = 21 ∧
    ((record.length == 128) && (let s := { sHost .ready [] with ev := { num := 5 } }
    s.dev.mqp != some s.ev.num && s.dev.qps.contains 5) && !(sHost .ready []).dev.qps.contains 6 && cool (sHost .tripped []) &&
    cutHolds { sHost .finalising [] with dev := { (sHost .finalising []).dev with fc := some (0, 0, 0, 1) } } 0 .logread &&
    (let b := leBytes 3 2 ++ leBytes 1023 2 ++ [32, 0] ++ leBytes 4095 2 ++ List.replicate 56 0
     b.length == 64 && !cutField b && !cutRsvd b) && !(0x10001 &&& 0xFFFFFF8000000FFE != (0 : W64)) && (0x10001 &&& 0xFFFFFF8000000FFE == (0 : W64)) &&
    (regionOf (sHost .ready []) (3 * 4096 + 4095)).isSome && ((sHost .ready []).core 7).fenced) = true := by decide +kernel
/-- A region index is free. -/
theorem witness_mrreg : (freeRegion (sHost .ready [])).isSome = true := by
  refine pickOf_isSome _ (List.ne_nil_of_mem (a := 0) ?_)
  rw [List.mem_filter]
  exact ⟨List.mem_range.mpr (by omega), by decide +kernel⟩
/-- RFC 3394, 4.6: 256 bits of key data under a 256-bit key (R476). -/
theorem witness_keyset : unwrapKey ((List.range 32).map fun i => BitVec.ofNat 8 i)
    ([0x28, 0xC9, 0xF4, 0x04, 0xC4, 0xB8, 0x10, 0xF4, 0xCB, 0xCC, 0xB3, 0x5C, 0xFB, 0x87, 0xF8, 0x26, 0x3F, 0x57, 0x86, 0xE2, 0xD8, 0x0E, 0xD3, 0x26,
      0xCB, 0xC7, 0xF0, 0xE7, 0x1A, 0x99, 0xF4, 0x3B, 0xFB, 0x98, 0x8B, 0x9B, 0x7A, 0x02, 0xDD, 0x21]) =
    some ([0x00, 0x11, 0x22, 0x33, 0x44, 0x55, 0x66, 0x77, 0x88, 0x99, 0xAA, 0xBB, 0xCC, 0xDD, 0xEE, 0xFF] ++ (List.range 16).map fun i => BitVec.ofNat 8 i) := by
  decide +kernel
theorem witness_DeviceSteps : (State.reset.dev.mode == .off && (let s := { sHost .finalising [] with dev := { (sHost .finalising []).dev with fc := some (0, 1, 9, 6), payload := some [] } }
    s.dev.qps.contains 0 && released s) && released (sHost .ready []) && !released (sHost .rough []) && portUp (sHost .ready []) 0 &&
    ((List.range 256).find? fun i => !(sHost .ready []).dev.qps.contains (256 * 0 + i)) == some 1 && (regionOf (sHost .ready []) 1).isNone &&
    (regionOf (sHost .ready []) (3 * 4096 + 4095)).any (fun r => r.rd && !r.wr && (match rdmaLines (sHost .ready []) r 0x200FF8 8 .rd with
      | some ps => ps.all fun p => !(sHost .ready []).poison.contains (p.2 / 128)
      | none => false)) && ([89, 90, 94, 95].map fun t => (decide (95 ≤ t), decide (t < 90))) == [(false, true), (false, false), (false, false), (true, false)] &&
    (let s := { sHost .ready [] with dev := { (sHost .ready []).dev with snaps := Vector.replicate 2 { busy := some 0 } } }
     (s.dev.snaps[(0 : Fin 2)]).busy == some 0 && decide ((0 : W64).toNat ≤ (s.acyc[(0 : Fin 2)]).toNat)) && ((sHost .ready []).dev.snaps[(0 : Fin 2)]).busy.isNone &&
    (look (sNode.basin[(0 : Fin 2)]) 5).isSome) = true := by decide +kernel
/-- A DET launch whose cores are granted, with some scopes taken. -/
def sOpen (n : Nat) : State :=
  let s := sLaunch .granting [1]
  { s with launches := s.launches.map (fun p => (p.1, { p.2 with det := true })), scopes := (List.range' 1 n).map fun i => (i, { launch := 9 }) }
theorem witness_LaunchSteps_scopes : ([0, 254, 255].map fun n => (look (sOpen n).launches 0).map fun r =>
    (grantsDone (sOpen n) r, r.det, r.scope, freeScope (sOpen n))) == [some (true, true, 0, some 1), some (true, true, 0, some 255), some (true, true, 0, none)] := by
  decide +kernel
theorem witness_LaunchSteps : (refusal (sHost .ready record) 1 record == 0 && refusal (sHost .ready record) 2 record == 1 &&
    (grantee (sLaunch .granting []) 1).map (·.1) == some 0 && (grantee (sLaunch .granting []) 7).isNone && (look (sLaunch .granting []).launches 0).isSome &&
    (look (sLaunch .granting [1]).launches 0).any (fun r => entryDue (sLaunch .granting [1]) r) && (look (sLaunch .granting []).launches 0).any (fun r => !entryDue (sLaunch .granting []) r) &&
    (let s := { sLaunch .running [] with tasks := [(0, { st := .ended })], acyc := Vector.replicate 2 0xFFFFFFFF }
     launchQuiet s 0 (sWatch false) && wdDue s (sWatch false) 1 && wdDue s (sWatch true) 2 && wdDue s (sWatch true) 3 && !wdDue s (sWatch true) 1) &&
    !wdDue (sLaunch .running []) (sWatch false) 2 && !wdDue (sLaunch .running []) (sWatch false) 3 &&
    !launchQuiet { sLaunch .running [] with tasks := [(0, { st := .ready })] } 0 (sWatch false)) = true := by decide +kernel

/-- RESET in TRIPPED with cool sensors: ROUGH again, and a completion (R471). -/
theorem test_reset : (match exec .reset (sHost .tripped []) with
    | .next s => s.dev.mode == .rough && s.dev.sent.length == 1
    | _ => false) = true := by decide +kernel

/-! ### The machine -/

/-- A context at address 0, where the word of ADDI with E stands. -/
def sRun : State := { stage State.reset 0x00C29FF9 with agenda := [] }
theorem witness_StepRuns : ((stage State.reset 0).agenda.length == 1 && State.reset.agenda.isEmpty && (match sRun.ctx? 0 with
    | some x => x.fr.nest.act.isEmpty && x.fetched.isNone && isOk ((xlate sRun 0 x.pc .ex).map fun r => r.2) && endsBundle (laneOf (rdBytes sRun.mem 0 4)) && (takeAsync sRun 0).isNone &&
        atBoundary sRun 0 x && !x.park && x.wait == 0 && !x.rte && (phawOf x).isNone && (match bundleAt sRun x x.fr.nest.pos x.pc with
        | (s1, .ok ws) => (illegal x ws).isNone && (missing s1 0 x (slotsOf ws)).isEmpty && rankOrder s1 0 == [0] && !twiceTaken (runSlots s1 0 x ws).ws && (match (runSlots s1 0 x ws).s.latch with
          | some l => l.causes.isEmpty && !l.held
          | none => false)
        | _ => false)
    | none => false) && (match decodeWord 0x80C29FF9 with
    | .ok i => (match sRun.ctx? 0 with
      | some x => after i { openBundle sRun 0 x [0x80C29FF9] with cur := some 0 } fun s => s.latch.any fun l => (slotEcc (openBundle sRun 0 x [0x80C29FF9]) l.ctx i).isEmpty
      | none => false)
    | .error _ => false)) = true := by decide +kernel
/-- A bundle whose TRAP raises a cause, and a word of an unassigned opcode in memory. -/
theorem witness_StepRuns_traps : (match sRun.ctx? 0, encode true (.trap 0 9) with
    | some x, some w => ((runSlots sRun 0 x [w]).s.latch.any fun l => !l.causes.isEmpty && !l.held) && !twiceTaken (runSlots sRun 0 x [w]).ws && x.holds.isEmpty && !x.trapMode &&
        (let s := { stage State.reset 0x0BC00000 with agenda := [] }
         match bundleAt s x 0 0 with
         | (_, .ok ws) => (illegal x ws).isSome
         | _ => false)
    | _, _ => false) = true := by decide +kernel
/-- Two contexts whose bundles, at 0 and 4, load line 2 of core 0 under WFE; core 1's merge stage comes first. -/
def sRival (turn : Bool) : State :=
  let s := mc (kx [0x100])
  let w := fun (i : Instr) => leBytes ((encode true i).getD 0).toNat 4
  { (s.modCore 0 fun k => { k with full := [2] }) with
    cores := put (s.modCore 0 fun k => { k with full := [2] }).cores 1 { stageCore with rc := stageBlocks.map fun p => (1, p.2), res := (Vector.replicate 16 none).set 0 (some 1), frames := (Vector.replicate 64 none).set 0 (some 1) }
    ctxs := s.ctxs ++ [(1, { kx [0x100] with core := 1, pc := 4, npc := 4 })]
    tasks := put s.tasks 1 { st := .running, core := some 1 }
    mem := wrBytes [] (place 0 (w (.ld g0 (.k 0) .zero .wfe false .b4) ++ w (.ldw g0 (.k 0) .zero .wfe false .b4)))
    cur := none
    agenda := if turn then [(.mergeIssueCycle, { core := 0 })] else [] }
theorem witness_StepRuns_rivals : ([true, false].map fun b => match tryBundle (sRival b) 1 with
    | .done _ _ o => some (outranked (sRival b) 1 o, !twiceTaken o)
    | _ => none) == [some (true, true), some (false, true)] := by decide +kernel
theorem witness_MemoryForm : (Mem.wf [(3, 1), (7, 2)] && decide ((3 : Nat) ≠ 4) && !Mem.wf [(3, 0)] && !Mem.wf [(7, 2), (3, 1)]) = true := by decide +kernel
theorem witness_DecodeEncode : ((Instr.addi 0 (.k 4) 0x1FF9).wf && encode true (.addi 0 (.k 4) 0x1FF9) == some 0x80C29FF9 && isOk (decodeWord 0x00C29FF9)) = true := by
  decide +kernel
theorem witness_StepKeepsMemoryForm : Mem.wf State.reset.mem = true ∧ (match step (State.reset.withFetchWord 32 0x80C29FF9) with
    | .next s => Mem.wf s.mem
    | _ => false) = true := by decide +kernel
/-- The instructions that frames are stated of run in an open bundle. -/
theorem witness_Frames : ((inBundle sA).cur == some 0 && (inBundle sA).latch.isSome && ((inBundle sA).ctx? 0).isSome &&
    ([.addi 0 (.k 0) 1, .vaddA g0 .one .lane (.int .w32 false false), .cmp g0 .one .one .eq 7, .plog g0 0 0 .and 7, .putx g0 .one .xs, .xaddi 0 .xs 1,
      .put g0 .one (.k 31), .st g0 (.k 0) .one .plain .b1] : List Instr).all fun i => after i (inBundle sA) fun s => s.latch.any fun l => l.causes.isEmpty && !l.held) = true := by
  decide +kernel

/-! ### Clauses that name a case of their own: a state for each -/

/-- A nest of two bundles at 0 and 4 is live; its first bundle has issued and transfers to an address. Three words stand in memory. -/
def sNest (a : W64) : State :=
  let s := mc { kx [] with jump := some a, fr := { nest := { act := [⟨2, 1, 0, 2, 0, 0⟩] } } }
  { s with mem := wrBytes [] (place 0 ((List.replicate 3 (leBytes 0x80000000 4)).flatten)) }
/-- A target in the second bundle of the body, and one behind it (R143). -/
theorem witness_RelativeTransfers_nest : ([(4, 1, 1), (8, 0, 0)].map fun p => meets (sNest p.1) fun _ x =>
    ([0, 4].zipIdx.all fun q => match bundleAt (sNest p.1) x q.2 q.1 with | (_, .ok ws) => ws == [0x80000000] | _ => false) && x.opening.isNone &&
    (let y := follow (sNest p.1) x 0
     y.pc == p.1 && y.fr.nest.pos == p.2.1 && y.fr.nest.act.length == p.2.2)) == [true, true] := by decide +kernel
/-- A store that sets its lines full waits for the local release before it; a plain one does not. -/
theorem witness_ScratchpadAccesses_releases : (meets sWaits fun _ x => x.rels.any Later.localRel && !drainHeld sWaits x 0 0) = true := by decide +kernel
theorem witness_RankOrder : (above 5 1 4 2 && above 4 2 3 0 && above 5 1 3 0) = true := by decide +kernel
/-- A PHASE drain of another task holds a synchronisation object, a command's completion object and its completion. -/
theorem witness_SyncObjects_drain : (meets sDrain (fun t x => drainHeld sDrain x t 0 && (match objAt sDrain x 8 0x8000000000000200 16 16 with
      | .ok o => o.1 == 0
      | .error _ => false)) &&
    (let q : Cmd := { id := 0, task := 0, launch := 0, kind := .copy 3, ck := 1, obj := some (0, 0x200) }
     ctlDraining sDrain 0 q && !ctlDraining sMem 0 q && arriveBad sMem q == none && (arriveBad (sMem.modCore 0 fun k => { k with bad := [0x180200 / 8] }) q).isSome) &&
    (let q : Cmd := { id := 0, task := 0, launch := 0, kind := .copy 3, ck := 3, obj := some (0, 0x200), issued := true }
     !cmdQuiet sDrain q && cmdQuiet sMem q)) = true := by decide +kernel

/-- Stream 5 with 4,096 numbers unacknowledged: SCLOSE is held. -/
def sUsed : State := { sFb with fab := { sFb.fab with strms := [(5, { task := 0, slot := 0, ep := 1, next := 4096, unacked := List.range 4096 })] } }
theorem witness_FabricInstructions_close : ([(sUsed, false), (sFb, true)].map fun p => meets p.1 fun _ x => (strmOf p.1 x 0).any fun q => !q.2.failed &&
    decide (q.2.unacked.length < 4096) == p.2) == [true, true] ∧ (meets sDesc fun t x => !drainHeld sDesc x t 0) = true ∧
    ((sUsed.issuer.toOption.isSome) && after (.sclose ⟨0, false⟩ true 0) sUsed (fun _ => true)) = true := by decide +kernel
/-- A flit that says what its message does: an acknowledgement has no data, and zeros stand behind its header. -/
theorem witness_FabricFlits_says : (flitSays (flitOf 10 true) key7 && (msgByte? (.ack 5 1 0 0) 0).isNone && msgByte? (.strm (strm1 0)) 24 == some 1 &&
    msgByte? (.ack 5 1 0 0) 223 == some 0) = true := by decide +kernel
/-- The limits of a window in which endpoint 1 of 3 has sent (R331). -/
theorem witness_LendLimits : (let s := { sFb with fab := { sFb.fab with domHi := 3, lendU := [(1, 512), (2, 256)], limit := [(3, 768)] } }
    let s' := lendWindow s 0
    [1, 2, 3].map (fun e => (look s'.fab.limit e).getD 256) == [1966336, 983296, 983296] && s'.fab.lendU.isEmpty &&
    s'.fab.out.any fun o => o.dst == 1 && o.msg == .lend 0 1966336) = true := by decide +kernel
/-- Answers: a number that is outstanding and one that is not; a FIFO message that is new and one whose name has been; a node read. -/
theorem witness_RemoteAnswers_more : ((look sFb.fab.strms 5).any (fun r => r.unacked.contains 2 && !r.unacked.contains 0) && (look sFb.fab.strms 6).isNone &&
    ([none, some 4, some 5].map fun l => let s := { sFb with fab := { sFb.fab with fifoIds := (l.map fun n => [(7, n)]).getD [] } }
      (look s.fab.fifoIds 7).all fun last => decide (last < 5)) == [true, true, false] &&
    ([false, true].all fun sp =>
      let s := { sFb with fab := { sFb.fab with reqs := [(0, ⟨1, 0, 0, .node 0 0 0 0x200 sp⟩)] }, ev := { num := 0, body := .remote ⟨List.replicate 40 1, 0, 0⟩ } }
      (look s.fab.reqs s.ev.num).isSome && (match exec .remoteResponse s with
        | .next s' => s'.nops.length == if sp then 1 else 0
        | _ => false))) = true := by decide +kernel
/-- A contribution of fields other than those of an instance that has ended (R337): its sender is told. -/
def sPast : State := { sFb with
  fab := { sFb.fab with past := [((coll1 true).key, 0)], ncoll := [(1, 1)] }
  ev := { num := 1, body := .coll { src := 1, cid := 1, inst := 0, body := .contrib { (coll1 true).key with fields := [1, 0, 1] } [] } } }
theorem witness_FabricCommits_ended : ((sPast.fab.colls.find? fun c => c.key.cid == 1 && c.inst == 0 && !c.fin).isNone && decide (0 < (look sPast.fab.ncoll 1).getD 0) &&
    reaches sPast 1 && (match exec .collectiveArrival sPast with
      | .next s => s.fab.out.any fun o => o.dst == 1 && (match o.msg with | .coll m => m.body == .mismatch | _ => false)
      | _ => false) &&
    (let s := { sPast with fab := { sPast.fab with ncoll := [] } }
     (match exec .collectiveArrival s with | .next s => s.fab.early.length == 1 | _ => false)) &&
    (let s := { sPast with fab := { sPast.fab with past := [((coll1 true).key, 0)] }, ev := { num := 1, body := .coll { src := 1, cid := 1, inst := 0, body := .contrib (coll1 true).key [] } } }
     (match exec .collectiveArrival s with | .next s' => s' == s | _ => false)) &&
    ((((coll1 false).cmd.bind fun p => cmdOf (sColl false) 0 p.1 p.2).map (·.stop)).getD false == false)) = true := by decide +kernel
/-- A write whose number is behind the expected one: acknowledged as it was the first time (R325, R327). -/
theorem witness_FabricCommits_again : ([[], [(9, 3, 0x40)]].map fun es =>
    let s := { sFb with fab := { sFb.fab with weir := [(weirKey 1 7, { x := 10, errs := es })] }, ev := { num := 1, body := .strm (strm1 9) } }
    (look s.fab.gone (weirKey 1 7)).isNone && decide (4096 ≤ (9 + 2 ^ 32 - 10) % 2 ^ 32) && (match exec .weirArrival s with
      | .next s' => s'.fab.out.any fun o => o.dst == 1 && o.msg == .ack 7 9 (if es.isEmpty then 0 else 3) (if es.isEmpty then 0 else 0x40)
      | _ => false)) == [true, true] := by decide +kernel

/-- The frame of the page in eviction is whole, or a granule of it cannot be read. -/
theorem witness_PageSteps_poison : ([[], [(frameAt sPg 3 1) / 128]].map fun p => (frameRead { sPg with poison := p } (frameAt sPg 3 1) 256).isSome) == [true, false] := by
  decide +kernel
/-- A load of the task without its value holds SPAWN; the key of a task that runs stands for its cycle (R124, R406). -/
theorem witness_TaskInstructions_waits : (let s := sTask .ready
    let s := { s with fab := { s.fab with reqs := [(0, ⟨1, 0, 0, .scal 0 0 8 false false .pkg⟩)] }
                      ctxs := [(0, { kx [0x400000000010] with fr := { pend := [⟨.s, 0, 0, none, 0, false⟩] } })] }
    meets s (fun t x => match relsFirst s t x with | .error .hold => true | _ => false) &&
    (let k := (look (sTask .running).tasks 1).getD {}
     let r := reprioOne (sTask .running) 0 1 k 9
     (look r.tasks 1).map (fun k => (k.key, k.oldKey)) == some (9, some 0) && (look (freshKeys r).tasks 1).map (fun k => (k.key, k.oldKey)) == some (9, none))) = true := by
  decide +kernel
/-- A node operation that leaves at once, and one that waits for a release. -/
theorem witness_NodeInstructions_order : ([sNode, { sNode with ctxs := [(0, { kx [5, 3] with strm := (Vector.replicate 16 none).set 0 (some 5), rels := [{ name := 1, va := 0x80, acc := .release 5 .pkg none false }] })] }].map
    fun s => meets s fun t x => (forkOf s t x).waits.isEmpty && (forkOf s t x).pends.isEmpty && ((forkOf s t x).acks.all fun p => p.1 == 5)) == [true, false] := by decide +kernel
/-- Task 0 waits in a PHAW at phaser 3, whose phase has come or not (R424). -/
def sPhaw (ph : Nat) : State :=
  let s := mc { kx [3] with holds := [.phaw .ctx 3] }
  s.modCore 0 fun k => { k with phs := k.phs.set 3 { ph := BitVec.ofNat 32 ph, mem := [{ task := 0, mode := .sw, wph := 2 }] } }
theorem witness_PhaserPhases_phaw : ([(1, false), (2, true), (4, true)].map fun p => !(phOf (sPhaw p.1) 0 3).brk && (phOf (sPhaw p.1) 0 3).passed 0 == p.2 &&
    ((phawDone (sPhaw p.1) 0 3).ctx? 0).map (·.holds.isEmpty) == some p.2) == [true, true, true] := by decide +kernel
/-- A table of two passes, an open one and one that has its acceptance; a start opens the third, refuted or not; a second start joins
it; a participant whose pass has left the table has GEN pending (R449, R450). -/
def gPasses : Gsq := { gsqOf sGs 0 with
  opened := 2, parts := [(0, 2), (1, 0), (2, 1)], npart := 3
  passes := [{ k := 2, word := 0, aspec := false, bkt := some 0, entry := 0, occ := 1, dlen := 0, drained := false, acc := some (1, 7) },
             { k := 1, word := 5, aspec := false, bkt := some 0, entry := 0, occ := 1, dlen := 0, drained := false }] }
theorem witness_GenerationSteps_passes : (decide ((gPasses.passes.map (·.k)).Pairwise (· > ·)) && gPasses.passes.all (fun p => decide (p.k ≤ gPasses.opened)) &&
    ([0x0000000780000001, 0x0000000880000001].map fun w => (gPasses.open_ w).passes.map fun p => (p.k, p.drained)) ==
      [[(3, false), (2, false), (1, false)], [(3, true), (2, false), (1, false)]] &&
    (let s := { sGs with gsq := [(0, gPasses)] }
     ((gsqOf (gsStart s 0 0 9) 0).opened == 3) && ((gsqOf (gsStart s 0 1 5) 0).at 1).any (fun p => p.joined == [1]) &&
     (gsqOf (gsStart s 0 2 0) 0).opened == 2 && gPasses.at 2 != none) &&
    (let g := { gPasses with passes := gPasses.passes.take 1 }
     (g.at 1).isNone && decide (1 ≤ g.opened))) = true := by decide +kernel
/-- Entries of each kind on the way of a walk: one that names a table, a leaf, one that is not present, one in a poisoned granule. -/
theorem witness_WalkDescends : (let e := fun (a : Nat) => leNat (rdBytes sDir.mem a 8)
    let at_ := fun (l t : Nat) => t + 8 * lvlIndex 0x200000 l
    (e (at_ 3 0x10000)).testBit 0 && !(e (at_ 3 0x10000)).testBit 1 && !malformed (e (at_ 3 0x10000)) 3 &&
    (e (at_ 1 0x12000)).testBit 0 && (e (at_ 1 0x12000)).testBit 1 && !(e (at_ 0 0x12000)).testBit 0 &&
    (match walk sDir.mem [0x200] 0x200000 3 0x10000 with | .error .ecc => true | _ => false) &&
    (match walk sDir.mem [] 0x200000 3 0x10000, walk sDir.mem [] 0x200000 2 (256 * (e (at_ 3 0x10000) / 256 % 2 ^ 31)) with
      | .ok a, .ok b => a == b
      | _, _ => false)) = true := by decide +kernel
/-- Line 1, dirty in bytes 0 and 1, of the task's: a fence writes these. -/
def sDirty : State := { sDir with
  dir := [(1, .d 0 0)], mem := [(0x82, 7)]
  cores := sDir.cores.map fun p => (p.1, { p.2 with dc := [(1, { data := (Vector.replicate 128 0).set 0 9, dirty := ((Vector.replicate 128 false).set 0 true).set 1 true })] }) }
theorem witness_TranslationAndDirectory_fence : (Mem.wf sDirty.mem && (dcLine sDirty 0 1).isSome && (look sDirty.dir 1).any (·.mine 0 0) &&
    rdBytes (dirAccess sDirty 0 0 0x80 0x80 .fence).mem 0x80 3 == [9, 0, 7]) = true := by decide +kernel

/-- Reports of the sensors: hot, over the cap, clear of both, between; and one of 105 degrees. -/
theorem witness_DeviceSteps_throttle : ([(95, 0, 825), (60, 1900001, 825), (60, 0, 850), (92, 0, 850)].map fun p =>
    let s := { sHost .ready [] with ev := { num := 60, cnt := p.1, val := BitVec.ofNat 64 p.2.1 } }
    let s := { s with dev := { s.dev with pwrcap := 1900, clk := Vector.replicate 2 { mhz := 850 } } }
    released s && (match exec .throttleStep s with | .next s' => s'.dev.clk[(0 : Fin 2)].mhz == p.2.2 && s'.dev.mode == .ready | _ => false)) == [true, true, true, true] ∧
    (match exec .throttleStep { sHost .ready [] with ev := { num := 105, cnt := 60 } } with | .next s' => s'.dev.mode == .tripped | _ => false) = true := by decide +kernel
/-- A launch that waits or is granting is killed where it stands. -/
theorem witness_HostCommands_kill : ([LState.queued, .granting].map fun st => (look (sLaunch st []).launches 0).map fun r =>
    (look (killAny (sLaunch st []) 0 r).launches 0).map fun q => (q.st, q.status)) == [some (some (.done, .killed)), some (some (.done, .killed))] := by decide +kernel
/-- A capture: under way, or free. -/
theorem witness_DeviceSteps_capture : (let f : Firing := { tag := 7, kind := 3, core := 0xFFFF, ctx := 0xFF }
    let s := sHost .ready []
    decide (f.kind < 256) && (s.dev.snaps[(0 : Fin 2)]).busy.isNone && decide (4 ≤ ((captureDie s f 0).dev.snaps[(0 : Fin 2)]).words.length) &&
    ((captureDie (captureDie s f 0) f 0).dev.snaps[(0 : Fin 2)]).drop == 1) = true := by decide +kernel

/-- A bundle of two words at 0 and 4, the second a TRAP where asked for; and the same with a load of an empty line. -/
def sTwo (ws : List W32) (x : Context) : State :=
  let s := mc x
  { s with mem := wrBytes s.mem (place 0 (ws.flatMap fun w => leBytes w.toNat 4)), agenda := [], cur := none }
def wordOf (e : Bool) (i : Instr) : W32 := (encode e i).getD 0
theorem witness_StepRuns_words : (let ws := [wordOf false (.addi 0 (.k 0) 1), wordOf true (.vnegA g0 (.v 1) (.flt .f32 .rne))]
    let s := sTwo ws (kx [1, 2])
    meets { s with cur := some 0 } fun t x => (match bundleAt s x 0 0 with | (_, .ok v) => v == ws | _ => false) && (illegal x ws).isNone &&
      (inOrder (slotsOf ws)).length == 2 && ((runSlots s t x ws).s.latch.any fun l => l.causes.isEmpty && !l.held) && !ordered (slotsOf ws) && !twiceTaken (runSlots s t x ws).ws) = true := by
  decide +kernel
/-- One that is held by an empty line; one whose GSOCC raises OPERAND with it, which waits; one whose RTE raises PRIV, taken at once; and
the GSOCC alone. -/
theorem witness_StepRuns_held : ([([Instr.ld g0 (.k 0) .zero .wf false .b8], true, 0, false), ([.ld g0 (.k 0) .zero .wf false .b8, .gsocc g0 .zero], true, 1, false),
      ([.rte, .vldA g0 .zero .zero .wf], true, 1, true), ([.gsocc g0 .zero], false, 1, false)].map fun p =>
    let ws := p.1.zipIdx.map fun q => wordOf (q.2 + 1 == p.1.length) q.1
    let s := sTwo ws (kx [0x100, 1])
    (s.ctx? 0).any fun x => (runSlots s 0 x ws).s.latch.any fun l => l.held == p.2.1 && l.causes.length == p.2.2.1 && (l.causes.any fun c => early c.2) == p.2.2.2) ==
      [true, true, true, true] := by decide +kernel
/-- Two WFE loads of one line in a bundle (R104); a bundle that a nest has captured. -/
theorem witness_StepRuns_twice : (let ws := [wordOf false (.ld g0 (.k 0) .zero .wfe false .b8), wordOf true (.vldA g0 .zero .zero .wfe)]
    let s := (sTwo ws (kx [0])).modCore 0 fun k => { k with full := [0, 1] }
    (s.ctx? 0).any (fun x => twiceTaken (runSlots s 0 x ws).ws) &&
    (let x := { kx [] with fr := { nest := { act := [⟨2, 1, 0, 1, 0, 0⟩], buf := [(0, 0, [0x80000000])] } } }
     look x.fr.nest.buf 0 == some (x.pc, [0x80000000]) && (match bundleAt (mc x) x 0 x.pc with | (_, .ok ws) => ws == [0x80000000] | _ => false))) = true := by decide +kernel
theorem witness_ControlRegisters_numbers : (meets sA fun t x => decide (x.num < 16 ∧ x.core < 512) && (look sA.tasks t).isSome && (look sA.launches x.launch).isSome &&
    groupEntry sA t == some 0 && (csrRead sA t x 0x204 == 0) && csrRead sA t x 0x2C3 == 4096) = true := by decide +kernel
end Sys2Proof.Tests
end

section
/-!
PROOFS. Reading bytes back from memory in its canonical form (R3, R91), and the statement of O56.
-/

namespace Sys2Proof.Machine

/-! ### One byte -/

/-- An address below every listed one reads as zero. -/
theorem rd8_of_lt_wfFrom {lo : Nat} {m : Memory} (h : wfFrom lo m = true) {a : Nat} (ha : a < lo) : rd8 m a = 0 := by
  induction m generalizing lo with
  | nil => rfl
  | cons p r ih =>
    simp only [wfFrom, Bool.and_eq_true, decide_eq_true_eq] at h
    simp only [rd8]
    rw [if_neg (by omega), ih h.2 (by omega)]

/-- A byte put in front of a memory that does not list its address: a zero is left out, and reads as zero. -/
theorem rd8_front {r : Memory} {a : Nat} (h : rd8 r a = 0) (v : Byte) (b : Nat) :
    rd8 (if v = 0 then r else (a, v) :: r) b = if b = a then v else rd8 r b := by
  by_cases hb : b = a
  · subst hb
    split
    · rename_i hv; rw [if_pos rfl, h, hv]
    · simp only [rd8, if_true]
  · rw [if_neg hb]
    split
    · rfl
    · simp only [rd8, if_neg (Ne.symm hb)]

theorem rd8_wr8_of_wfFrom {lo : Nat} {m : Memory} (h : wfFrom lo m = true) (a : Nat) (v : Byte) (b : Nat) :
    rd8 (wr8 m a v) b = if b = a then v else rd8 m b := by
  induction m generalizing lo with
  | nil => exact rd8_front (r := []) rfl v b
  | cons p r ih =>
    obtain ⟨c, w⟩ := p
    have hr : wfFrom (c + 1) r = true := by simp only [wfFrom, Bool.and_eq_true] at h; exact h.2
    have below : ∀ k, k ≤ c → rd8 r k = 0 := fun k hk => rd8_of_lt_wfFrom hr (by omega)
    simp only [wr8]
    rcases Nat.lt_trichotomy a c with hac | rfl | hca
    · rw [if_pos hac]
      exact rd8_front (by rw [rd8, if_neg hac.ne', below a hac.le]) v b
    · rw [if_neg (lt_irrefl a), if_pos rfl, rd8_front (below a le_rfl), rd8]
      by_cases hb : b = a
      · rw [if_pos hb, if_pos hb]
      · rw [if_neg hb, if_neg hb, if_neg (Ne.symm hb)]
    · rw [if_neg hca.not_gt, if_neg hca.ne]
      simp only [rd8, ih hr]
      by_cases hb : c = b
      · rw [if_pos hb, if_pos hb, if_neg (by omega)]
      · rw [if_neg hb, if_neg hb]

/-- A byte that is written reads as what was written, every other as before. -/
theorem rd8_wr8 {m : Memory} (h : Mem.wf m = true) (a : Nat) (v : Byte) (b : Nat) :
    rd8 (wr8 m a v) b = if b = a then v else rd8 m b := rd8_wr8_of_wfFrom h a v b

/-! ### Runs of bytes -/

theorem rd8_wrBytes_of_ne {m : Memory} (h : Mem.wf m = true) (bs : List (Nat × Byte)) {b : Nat} (hb : ∀ p ∈ bs, p.1 ≠ b) :
    rd8 (wrBytes m bs) b = rd8 m b := by
  induction bs generalizing m with
  | nil => rfl
  | cons p r ih =>
    have hp : b ≠ p.1 := (hb p (by simp)).symm
    calc rd8 (wrBytes m (p :: r)) b = rd8 (wr8 m p.1 p.2) b := ih (Mem.wf_wr8 _ _ h) fun q hq => hb q (by simp [hq])
      _ = rd8 m b := by rw [rd8_wr8 h, if_neg hp]

theorem mem_place {a : Nat} {l : List Byte} {p : Nat × Byte} (h : p ∈ place a l) : a ≤ p.1 ∧ p.1 < a + l.length := by
  induction l generalizing a with
  | nil => simp [place] at h
  | cons v r ih =>
    simp only [place, List.mem_cons] at h
    simp only [List.length_cons]
    rcases h with rfl | h
    · dsimp only; omega
    · have := ih h; omega

/-- Bytes placed in a run are read back within it; outside it nothing changes. -/
theorem rd8_wrBytes_place {m : Memory} (h : Mem.wf m = true) (a : Nat) (l : List Byte) (b : Nat) :
    rd8 (wrBytes m (place a l)) b = if a ≤ b ∧ b < a + l.length then l.getD (b - a) 0 else rd8 m b := by
  induction l generalizing a m with
  | nil => rw [if_neg (by simp)]; rfl
  | cons v r ih =>
    have e : wrBytes m (place a (v :: r)) = wrBytes (wr8 m a v) (place (a + 1) r) := rfl
    rw [e, ih (Mem.wf_wr8 _ _ h), rd8_wr8 h]
    simp only [List.length_cons]
    rcases Nat.lt_trichotomy b a with hb | rfl | hb
    · rw [if_neg (by omega), if_neg (by omega), if_neg (by omega)]
    · rw [if_neg (by omega), if_pos rfl, if_pos (by omega)]; simp
    · rw [show b - a = (b - (a + 1)) + 1 by omega, List.getD_cons_succ, if_neg (show ¬ b = a by omega)]
      exact if_congr (by omega) rfl rfl

theorem getElem_rdBytes (m : Memory) (a n i : Nat) (h : i < (rdBytes m a n).length) : (rdBytes m a n)[i] = rd8 m (a + i) := by
  induction n generalizing a i with
  | zero => simp [rdBytes] at h
  | succ n ih =>
    cases i with
    | zero => rfl
    | succ i =>
      simp only [rdBytes, List.getElem_cons_succ, ih]
      rw [show a + 1 + i = a + (i + 1) by omega]

theorem rdBytes_wrBytes_place {m : Memory} (h : Mem.wf m = true) (a : Nat) (l : List Byte) :
    rdBytes (wrBytes m (place a l)) a l.length = l := by
  refine List.ext_getElem (by simp) fun i _ hi => ?_
  rw [getElem_rdBytes, rd8_wrBytes_place h, if_pos (by omega), Nat.add_sub_cancel_left, List.getD_eq_getElem _ _ hi]

/-! ### Extensionality of the canonical form -/

/-- Where two memories read alike, no listed address of the one stands below all of the other. -/
theorem not_lt_of_rd8_eq {a : Nat} {v : Byte} {r m : Memory} (hv : v ≠ 0) {lo : Nat} (hm : wfFrom lo m = true)
    (h : ∀ k, rd8 ((a, v) :: r) k = rd8 m k) : ¬ a < lo := fun ha => by
  have e := h a
  rw [rd8_of_lt_wfFrom hm ha] at e
  exact hv (by simpa [rd8] using e)

theorem wfFrom_ext {lo : Nat} {m m' : Memory} (hm : wfFrom lo m = true) (hm' : wfFrom lo m' = true)
    (h : ∀ a, rd8 m a = rd8 m' a) : m = m' := by
  induction m generalizing lo m' with
  | nil =>
    cases m' with
    | nil => rfl
    | cons q r' =>
      simp only [wfFrom, Bool.and_eq_true, bne_iff_ne] at hm'
      exact absurd (Nat.lt_succ_self q.1) (not_lt_of_rd8_eq (r := r') hm'.1.2 (m := []) rfl fun k => (h k).symm)
  | cons p r ih =>
    obtain ⟨a, v⟩ := p
    cases m' with
    | nil =>
      simp only [wfFrom, Bool.and_eq_true, bne_iff_ne] at hm
      exact absurd (Nat.lt_succ_self a) (not_lt_of_rd8_eq (r := r) hm.1.2 (m := []) rfl h)
    | cons q r' =>
      obtain ⟨b, w⟩ := q
      simp only [wfFrom, Bool.and_eq_true, bne_iff_ne, decide_eq_true_eq] at hm hm'
      obtain ⟨⟨-, hv⟩, hr⟩ := hm
      obtain ⟨⟨-, hw⟩, hr'⟩ := hm'
      have hab : ¬ a < b := not_lt_of_rd8_eq hv (m := (b, w) :: r') (by simpa [wfFrom, hr'] using hw) h
      have hba : ¬ b < a := not_lt_of_rd8_eq hw (m := (a, v) :: r) (by simpa [wfFrom, hr] using hv) fun k => (h k).symm
      obtain rfl : a = b := by omega
      have hvw : v = w := by simpa [rd8] using h a
      have hrr : r = r' := ih hr hr' fun k => by
        by_cases hk : a = k
        · rw [rd8_of_lt_wfFrom hr (by omega), rd8_of_lt_wfFrom hr' (by omega)]
        · simpa [rd8, hk] using h k
      rw [hvw, hrr]

/-- Two memories in the form that read alike are equal. -/
theorem Mem.ext_of_rd8 {m m' : Memory} (hm : Mem.wf m = true) (hm' : Mem.wf m' = true) (h : ∀ a, rd8 m a = rd8 m' a) :
    m = m' := wfFrom_ext hm hm' h

/-- Settles O56: each part is a lemma of reading back above, or of the form's preservation. -/
theorem memoryForm : Obligations.MemoryForm := by
  refine ⟨fun m a v h => ⟨Mem.wf_wr8 a v h, by simp [rd8_wr8 h], fun b hb => by simp [rd8_wr8 h, hb]⟩,
    fun m bs h => ⟨Mem.wf_wrBytes bs h, fun b hb => rd8_wrBytes_of_ne h bs hb⟩,
    fun m a l h => rdBytes_wrBytes_place h a l, fun m m' hm hm' h => Mem.ext_of_rd8 hm hm' h,
    fun n v => leNat_leBytes v n⟩

end Sys2Proof.Machine
end

section
/-!
PROOFS. What reading and writing a control register does (R158, R159, R190), number by number, and the statement of O47.
-/

namespace Sys2Proof.Machine

/-! ### The checks of CSRR and CSRW -/

/-- Readable operands of a slot that may not execute outside trap mode raise PRIV (R146). -/
theorem guardOps_priv {s : State} {x : Context} {on : Bool} {os : List Opd} {n : Nat} (h : readable s x on os n = true) :
    guardOps s x on os n true = trapWith cPriv := by
  simp only [readable, Bool.and_eq_true, List.all_eq_true] at h
  obtain ⟨⟨hos, -⟩, -⟩ := h
  have hi : os.findSome? (idxStop x) = none := List.findSome?_eq_none_iff.mpr fun o ho => idxStop_of_inFile (hos o ho).1.1
  have he : os.findSome? (expoStop s.pos x) = none :=
    List.findSome?_eq_none_iff.mpr fun o ho => expoStop_of_settled _ (hos o ho).1.2
  simp [guardOps, check, hi, he, trapWith]

/-- Only GSCUR and GSENTRY wait, and only for generation operations of the task (R470). -/
theorem csrHold_ok {s : State} {t n : Nat} (h : (n = 0x381 ∨ n = 0x382) → gsFly s t = false) : csrHold s t n = .ok () := by
  unfold csrHold
  by_cases hn : n = 0x381 ∨ n = 0x382
  · simp [need, h hn]
  · simp [need, not_or.mp hn]
theorem csrHold_wait {s : State} {t n : Nat} (hn : n = 0x381 ∨ n = 0x382) (h : gsFly s t = true) :
    csrHold s t n = .error .hold := by
  have hb : (n == 0x381 || n == 0x382) = true := by simpa using hn
  simp [csrHold, need, hb, h]

/-- Numbers that only trap mode writes (R159). -/
theorem csrPriv_iff {x : Context} {n : Nat} : csrPriv x n = true ↔ (n = 0x003 ∨ n = 0x011) ∧ x.trapMode = false := by
  simp [csrPriv]
theorem csrPriv_eq_false {x : Context} {n : Nat} (h : (n = 0x003 ∨ n = 0x011) → x.trapMode = true) : csrPriv x n = false := by
  rw [← Bool.not_eq_true, csrPriv_iff]
  exact fun ⟨hn, hm⟩ => Bool.noConfusion (hm.symm.trans (h hn))

section
variable {s : State} {t : Nat} {x : Context} {g : BitVec 3} {a : SSel} {n : BitVec 12} (hi : s.issuer = .ok (t, x))
include hi

/-! ### CSRR -/

theorem exec_csrr_off (hr : readable s x (gOn g x) [] 1 = true) (hg : gOn g x = false) :
    exec (.csrr g n) s = .next (pushS s t 2 0) := by
  change execCsrr g n s = _
  rw [hg] at hr
  simp [execCsrr, hi, guardOps_ok hr, hg, bind, Except.bind, pure, Except.pure]

theorem exec_csrr_on (hr : readable s x (gOn g x) [] 1 = true) (hg : gOn g x = true)
    (hf : (n.toNat = 0x381 ∨ n.toNat = 0x382) → gsFly s t = false) :
    exec (.csrr g n) s = .next (pushS s t 2 (csrRead s t x n.toNat)) := by
  change execCsrr g n s = _
  rw [hg] at hr
  simp [execCsrr, hi, guardOps_ok hr, hg, csrHold_ok hf, bind, Except.bind, pure, Except.pure]

theorem exec_csrr_wait (hr : readable s x (gOn g x) [] 1 = true) (hg : gOn g x = true)
    (hn : n.toNat = 0x381 ∨ n.toNat = 0x382) (hf : gsFly s t = true) :
    exec (.csrr g n) s = .next (s.modLatch fun l => { l with held := true }) := by
  change execCsrr g n s = _
  rw [hg] at hr
  simp [execCsrr, hi, guardOps_ok hr, hg, csrHold_wait hn hf, bind, Except.bind]

theorem exec_gscurRead (hr : readable s x true [] 1 = true) (hf : gsFly s t = false) :
    exec .gscurRead s = .next (pushS s t 2 (if s.ev.flag then gsEntry s t else gsCur s t)) := by
  change execGscurRead s = _
  have hread : csrRead s t x (if s.ev.flag then 0x382 else 0x381) = if s.ev.flag then gsEntry s t else gsCur s t := by
    split <;> rfl
  simp [execGscurRead, hi, guardOps_ok hr, csrHold_ok fun _ => hf, hread, bind, Except.bind, pure, Except.pure]

/-! ### CSRW and the steps that write -/

theorem exec_csrw_off (hr : readable s x (gOn g x) [.s a] 0 = true) (hg : gOn g x = false) :
    exec (.csrw g a n) s = .next s := by
  change execCsrw g a n s = _
  rw [hg] at hr
  simp [execCsrw, hi, guardOps_ok hr, hg, bind, Except.bind, pure, Except.pure]

theorem exec_csrw_on (hr : readable s x (gOn g x) [.s a] 0 = true) (hg : gOn g x = true) (hp : csrPriv x n.toNat = false) :
    exec (.csrw g a n) s = .next
      (if (popOps s x true [.s a]).latch.isSome then
        (popOps s x true [.s a]).modLatch fun l => { l with csrw := some (n.toNat, sVal s x true a) }
      else csrWrite (popOps s x true [.s a]) t x n.toNat (sVal s x true a)) := by
  change execCsrw g a n s = _
  rw [hg] at hr
  simp [execCsrw, hi, guardOps_ok hr, hg, hp, bind, Except.bind, pure, Except.pure]

theorem exec_csrw_priv (hr : readable s x (gOn g x) [.s a] 0 = true) (hg : gOn g x = true) (hp : csrPriv x n.toNat = true) :
    exec (.csrw g a n) s = .next (raise s { code := cPriv }) := by
  change execCsrw g a n s = _
  rw [hg] at hr
  simp [execCsrw, hi, guardOps_priv hr, hg, hp, trapWith, bind, Except.bind]

theorem csrStep_next {k : Nat} (hp : csrPriv x k = false) : csrStep k s = .next (csrWrite s t x k s.ev.val) := by
  simp [csrStep, hi, hp, bind, Except.bind, pure, Except.pure]

theorem csrStep_priv {k : Nat} (hp : csrPriv x k = true) : csrStep k s = .next (raise s { code := cPriv }) := by
  simp [csrStep, hi, hp, trapWith, bind, Except.bind]

end

/-! ### Launches and groups -/

theorem look_modLaunch {s : State} {l : Nat} {r : Launch} (f : Launch → Launch) (h : look s.launches l = some r) :
    look (modLaunch s l f).launches l = some (f r) := by simp [modLaunch, h]

/-- A word of a field of at most nine bits above a low word, as BFCFG is (R411). -/
theorem toNat_fields_pair {b : Nat} (h : b < 512) (w : W32) : (fields [(b, 32), (w.toNat, 0)]).toNat = 2 ^ 32 * b + w.toNat := by
  have := w.isLt
  simp only [fields, List.foldl_cons, List.foldl_nil, BitVec.toNat_ofNat]
  rw [Nat.mod_eq_of_lt (by omega)]
  omega
theorem extractLsb'_fields_low {b : Nat} (h : b < 512) (w : W32) : (fields [(b, 32), (w.toNat, 0)]).extractLsb' 0 32 = w := by
  apply BitVec.eq_of_toNat_eq
  rw [BitVec.extractLsb'_toNat, toNat_fields_pair h, Nat.shiftRight_zero, Nat.mul_add_mod, Nat.mod_eq_of_lt w.isLt]
theorem extractLsb'_fields_high {b : Nat} (h : b < 512) (w : W32) :
    ((fields [(b, 32), (w.toNat, 0)]).extractLsb' 32 9).toNat = b := by
  rw [BitVec.extractLsb'_toNat, toNat_fields_pair h, Nat.shiftRight_eq_div_pow, Nat.mul_add_div (by decide),
    Nat.div_eq_of_lt w.isLt, Nat.add_zero, Nat.mod_eq_of_lt h]

theorem gsqOf_writeGsctl {s : State} {t e : Nat} (v : W64) (h : groupEntry s t = some e) :
    gsqOf (writeGsctl s t v) e =
      if 1 ≤ (v.extractLsb' 0 9).toNat ∧ (v.extractLsb' 0 9).toNat ≤ 320 ∧ (gsqOf s e).parts = [] then
        { gsqOf s e with npart := (v.extractLsb' 0 9).toNat } else gsqOf s e := by
  simp only [writeGsctl, h, List.isEmpty_iff]
  split
  · simp [gsqOf]
  · rfl

theorem core_writeRxring (s : State) (c : Nat) (v : W64) : (writeRxring s c v).core c =
    if (s.core c).ringN ≠ 0 ∨ (v.extractLsb' 0 22).toNat % 128 ≠ 0 ∨
        spExt (s.core c).part < (v.extractLsb' 0 22).toNat + 128 * (v.extractLsb' 32 16).toNat then s.core c
    else { s.core c with rxRing := v &&& 0x0000FFFF003FFFFF, ringRd := 0 } := by
  unfold writeRxring
  dsimp only
  split
  · rfl
  · exact State.modCore_core_self _ _ _

theorem writeBfcfg_fields {s : State} {l : Nat} {r : Launch} (v : W64) (h : look s.launches l = some r) :
    ∃ q, look (writeBfcfg s l v).launches l = some q ∧ q.bfcfg.extractLsb' 0 32 = v.extractLsb' 0 32 ∧
      bsize q = if 1 ≤ (v.extractLsb' 32 9).toNat ∧ (v.extractLsb' 32 9).toNat ≤ 256 then (v.extractLsb' 32 9).toNat
        else bsize r := by
  have hb : (if 1 ≤ (v.extractLsb' 32 9).toNat ∧ (v.extractLsb' 32 9).toNat ≤ 256 then (v.extractLsb' 32 9).toNat
      else bsize r) < 512 := by
    split
    · omega
    · exact (r.bfcfg.extractLsb' 32 9).isLt
  exact ⟨_, look_modLaunch _ h, extractLsb'_fields_low hb _, extractLsb'_fields_high hb _⟩

/-! ### Numbers -/

/-- A number that is not of a writable register ignores a write (R158). -/
theorem csrWrite_other (s : State) (t : Nat) (x : Context) {n : Nat} (v : W64)
    (h : n ∉ [0x003, 0x010, 0x011, 0x201, 0x203, 0x2C3, 0x2C4, 0x2C5, 0x383, 0x3C0]) : csrWrite s t x n v = s := by
  unfold csrWrite
  split
  rotate_right
  · rfl
  all_goals exact absurd h (by decide)

theorem writesByNumber : WritesByNumber :=
  fun _ _ _ _ => ⟨rfl, rfl, rfl, rfl, rfl, rfl, rfl, rfl, rfl, rfl⟩

/-! ### Reads -/

/-- CORE is the core's number and the context's (R159). -/
theorem toNat_fields_core {c n : Nat} (hc : c < 512) (hn : n < 16) : (fields [(c, 4), (n, 0)]).toNat = c * 16 + n := by
  simp only [fields, List.foldl_cons, List.foldl_nil, BitVec.toNat_ofNat]
  rw [Nat.mod_eq_of_lt (by omega)]
  omega

/-- The trap record's words (R149, R159). -/
theorem csrRead_trec (s : State) (t : Nat) (x : Context) {i : Nat} (h : i < 8) : csrRead s t x (0x018 + i) = x.trec.word i := by
  unfold csrRead
  dsimp only
  rw [if_pos (by omega), Nat.add_sub_cancel_left]

/-- A number without a register reads as zero (R158). -/
theorem csrRead_none (s : State) (t : Nat) (x : Context) {n : Nat}
    (h : (0x014 ≤ n ∧ n < 0x018) ∨ (0x020 ≤ n ∧ n < 0x100) ∨ (0x112 ≤ n ∧ n < 0x140) ∨ (0x183 ≤ n ∧ n < 0x1C0) ∨
      (0x204 ≤ n ∧ n < 0x280) ∨ (0x385 ≤ n ∧ n < 0x3C0) ∨ 0x3C4 ≤ n) : csrRead s t x n = 0 := by
  unfold csrRead
  dsimp only
  rw [if_neg (by omega), if_neg (by omega), if_neg (by omega)]
  split
  rotate_right
  · rfl
  all_goals exact absurd h (by decide)

theorem readsByNumber : ReadsByNumber := by
  intro s t x
  refine ⟨fun hn hc => toNat_fields_core hc hn, rfl, rfl, rfl, rfl, rfl, rfl, rfl, rfl, rfl, rfl, rfl, rfl, rfl,
    fun i hi => csrRead_trec s t x hi, rfl, rfl, rfl, rfl, rfl, ?_, ?_, ?_, rfl, rfl, fun n hn => csrRead_none s t x hn⟩
  · exact fun k hk => ⟨fun tk htk => by simp [csrRead, hk, htk], by simp [csrRead, hk], by simp [csrRead, hk]⟩
  · exact fun l hl => by simp [csrRead, hl]
  · exact fun e he => by simp [csrRead, he]

/-! ### The statement -/

/-- Which of two numbers the field of a CSRR or CSRW holds (R190). -/
theorem toNat_eq_or_iff {n a b : BitVec 12} : (n.toNat = a.toNat ∨ n.toNat = b.toNat) ↔ (n = a ∨ n = b) := by
  simp only [BitVec.toNat_inj]

/-- What a bundle leaves to its end where it holds no LIVE: its register's write, and the wait of its RTE (R151, R190). -/
theorem lateEffects_csrw {s : State} {t : Nat} {x : Context} {ws : List W32} {l : Latch} {n : Nat} {v : W64}
    (h : l.csrw = some (n, v)) (hl : hasLive ws = false) :
    lateEffects s t x ws l = (csrWrite s t x n v).modCtx t fun y => if y.rte then { y with wait := rteWait y x.ccyc } else y := by
  simp [lateEffects, h, hl]

/-- EXPCHK, TVEC and TRAPPC are registers of the context (R159). -/
theorem writeContext_ctx? {s : State} {t : Nat} {y : Context} (v : W64) (h : s.ctx? t = some y) :
    (writeExpchk s t v).ctx? t = some { y with expchk := v.getLsbD 0 } ∧
    (writeTvec s t v).ctx? t = some { y with tvec := v &&& 0x00FFFFFFFFFFFFFD } ∧
    (writeTrappc s t v).ctx? t = some { y with trappc := v &&& 0x00FFFFFFFFFFFFFC } := by
  simp [writeExpchk, writeTvec, writeTrappc, pcField, State.modCtx_ctx?, h]

/-- Settles O47: CSRR and CSRW case by case, the steps as CSRW's effect without its operands, each register's own write,
and the two tables of numbers. -/
theorem controlRegisters : Obligations.ControlRegisters := by
  refine ⟨fun s t x g a n hi => ⟨fun hr => ⟨exec_csrr_off hi hr, ?_, ?_⟩, ?_, fun hr => ⟨exec_csrw_off hi hr, ?_, ?_⟩⟩,
    fun s t x hi => ⟨?_, ?_, csrStep_next hi rfl, csrStep_next hi rfl, csrStep_next hi rfl, csrStep_next hi rfl,
      csrStep_next hi rfl, csrStep_next hi rfl, csrStep_next hi rfl⟩,
    fun s t x ws l n v => lateEffects_csrw, fun s t y v => writeContext_ctx? v, core_writeRxring, fun s l r v hr => ?_,
    fun s t e v => gsqOf_writeGsctl v, fun s t x n v => csrWrite_other s t x v, writesByNumber, readsByNumber⟩
  · exact fun hg hf => exec_csrr_on hi hr hg fun hn => hf (toNat_eq_or_iff.mp hn)
  · exact fun hf f hef hr' => hef ▸ exec_gscurRead hi hr' hf
  · exact fun hr hg hn hf => exec_csrr_wait hi hr hg (toNat_eq_or_iff.mpr hn) hf
  · exact fun hg hm => exec_csrw_on hi hr hg (csrPriv_eq_false fun hn => hm (toNat_eq_or_iff.mp hn))
  · exact fun hg hn hm => exec_csrw_priv hi hr hg (csrPriv_iff.mpr ⟨toNat_eq_or_iff.mpr hn, hm⟩)
  · exact fun hm => ⟨csrStep_next hi (csrPriv_eq_false fun _ => hm), csrStep_next hi (csrPriv_eq_false fun _ => hm)⟩
  · exact fun hm => ⟨csrStep_priv hi (csrPriv_iff.mpr ⟨.inl rfl, hm⟩), csrStep_priv hi (csrPriv_iff.mpr ⟨.inr rfl, hm⟩)⟩
  · exact ⟨look_modLaunch _ hr, look_modLaunch _ hr, look_modLaunch _ hr, look_modLaunch _ hr, writeBfcfg_fields v hr⟩

end Sys2Proof.Machine
end

section
/-!
PROOFS. What a store changes: the bytes and full/empty lines of a pool (R102, R121), memory, the storing core's line and
its directory state (R107, R108, R118), and the statement of O12.
-/

namespace Sys2Proof.Machine

/-! ### Bytes of a number -/

theorem getElem_leBytes (v n i : Nat) (h : i < (leBytes v n).length) : (leBytes v n)[i] = BitVec.ofNat 8 (v / 256 ^ i) := by
  induction n generalizing v i with
  | zero => simp [leBytes] at h
  | succ n ih =>
    cases i with
    | zero => simp [leBytes]
    | succ i =>
      simp only [leBytes, List.getElem_cons_succ, ih]
      rw [Nat.div_div_eq_div_mul, ← Nat.pow_succ']

/-- The bytes of a number, least significant first (R3). -/
theorem toNat_getD_leBytes (v : Nat) {n i : Nat} (h : i < n) : ((leBytes v n).getD i 0).toNat = v / 256 ^ i % 256 := by
  rw [List.getD_eq_getElem _ _ (by simpa using h), getElem_leBytes, BitVec.toNat_ofNat]

theorem map_place (b a : Nat) (l : List Byte) : ((place a l).map fun p => (b + p.1, p.2)) = place (b + a) l := by
  induction l generalizing a with
  | nil => rfl
  | cons v r ih => simp only [place, List.map_cons, ih]; rfl

/-! ### One byte of a pool (R121) -/

theorem write8_effect (rk : Nat) (k : Core) (p : Nat × Byte) : ∃ m w, Core.write8 rk k p = { k with pool := m, was := w } := by
  unfold Core.write8
  split
  · split
    · exact ⟨_, _, rfl⟩
    · exact ⟨_, _, rfl⟩
  · exact ⟨_, _, rfl⟩

/-- A byte not yet written in the cycle is written. -/
theorem write8_first (rk : Nat) {k : Core} {p : Nat × Byte} (h : look k.was p.1 = none) :
    Core.write8 rk k p = { k with pool := wr8 k.pool p.1 p.2, was := put k.was p.1 (rd8 k.pool p.1, rk) } := by
  simp [Core.write8, h]

/-- A byte written in the cycle stands against a plain write of a rank behind its writer's. -/
theorem write8_again (rk : Nat) {k : Core} {p : Nat × Byte} {old : Byte} {r : Nat} (h : look k.was p.1 = some (old, r)) :
    Core.write8 rk k p =
      if r < rk ∧ r < rkAcc then k else { k with pool := wr8 k.pool p.1 p.2, was := put k.was p.1 (old, rk) } := by
  simp [Core.write8, h]

theorem foldl_write8_effect (rk : Nat) (k : Core) (bs : List (Nat × Byte)) :
    ∃ m w, bs.foldl (Core.write8 rk) k = { k with pool := m, was := w } := by
  induction bs generalizing k with
  | nil => exact ⟨_, _, rfl⟩
  | cons p r ih =>
    obtain ⟨m, w, h⟩ := write8_effect rk k p
    rw [List.foldl_cons, h]
    exact ih _

/-- A run of bytes none of which has been written in the cycle is written. -/
theorem foldl_write8_place (rk : Nat) (k : Core) (a : Nat) (l : List Byte) (h : ∀ i, look k.was (a + i) = none ∨ l.length ≤ i) :
    ((place a l).foldl (Core.write8 rk) k).pool = wrBytes k.pool (place a l) := by
  induction l generalizing k a with
  | nil => rfl
  | cons v r ih =>
    have ha : look k.was a = none := by simpa using h 0
    simp only [place, List.foldl_cons, write8_first rk (p := (a, v)) ha]
    rw [ih _ _ fun i => ?_]
    · rfl
    · rw [look_put_ne _ _ (by omega), show a + 1 + i = a + (i + 1) by omega]
      exact (h (i + 1)).imp_right fun hi => by simpa using hi

/-! ### Full and empty lines (R102, R104) -/

theorem mem_insN {l : List Nat} {a k : Nat} : a ∈ insN l k ↔ a = k ∨ a ∈ l := by
  induction l with
  | nil => simp [insN]
  | cons b r ih =>
    simp only [insN]
    split
    · simp
    · split
      · rename_i hb; subst hb; simp
      · simp only [List.mem_cons, ih]; tauto

theorem mark_effect (rk : Nat) (v : Bool) (k : Core) (l : Nat) :
    ∃ f w, Core.mark rk v k l = { k with full := f, wasFull := w } := by
  unfold Core.mark
  dsimp only
  split
  · split
    · exact ⟨_, _, rfl⟩
    · exact ⟨_, _, rfl⟩
  · exact ⟨_, _, rfl⟩

theorem foldl_mark_effect (rk : Nat) (v : Bool) (k : Core) (ls : List Nat) :
    ∃ f w, ls.foldl (Core.mark rk v) k = { k with full := f, wasFull := w } := by
  induction ls generalizing k with
  | nil => exact ⟨_, _, rfl⟩
  | cons l r ih =>
    obtain ⟨f, w, h⟩ := mark_effect rk v k l
    rw [List.foldl_cons, h]
    exact ih _

/-- No source of a higher rank has marked a line of the core in the cycle. -/
def Core.MarkedFrom (k : Core) (rk : Nat) : Prop := ∀ l old r, look k.wasFull l = some (old, r) → rk ≤ r

/-- Then a mark takes effect, and leaves it so for others of its rank. -/
theorem mark_of_markedFrom {rk : Nat} {k : Core} (h : k.MarkedFrom rk) (v : Bool) (l : Nat) :
    (Core.mark rk v k l).full = (if v then insN k.full l else k.full.filter fun n => n != l) ∧ (Core.mark rk v k l).MarkedFrom rk := by
  have keeps : ∀ old j b r, look (put k.wasFull l (old, rk)) j = some (b, r) → rk ≤ r := fun old j b r hj => by
    rw [look_put] at hj
    split at hj
    · simp only [Option.some.injEq, Prod.mk.injEq] at hj; exact hj.2.le
    · exact h _ _ _ hj
  unfold Core.mark
  dsimp only
  split
  · rename_i old r hl
    rw [if_neg (h _ _ _ hl).not_gt]
    exact ⟨rfl, keeps old⟩
  · exact ⟨rfl, keeps _⟩

theorem mem_full_foldl_mark {rk : Nat} {k : Core} (h : k.MarkedFrom rk) (v : Bool) (ls : List Nat) (l : Nat) :
    l ∈ (ls.foldl (Core.mark rk v) k).full ↔ if v then l ∈ k.full ∨ l ∈ ls else l ∈ k.full ∧ l ∉ ls := by
  induction ls generalizing k with
  | nil => simp
  | cons j r ih =>
    obtain ⟨hf, hm⟩ := mark_of_markedFrom h v j
    rw [List.foldl_cons, ih hm, hf]
    cases v
    · simp; tauto
    · simp [mem_insN]; tauto

/-! ### A write of a pool -/

theorem poolWrite_pool (s : State) (c rk : Nat) (bs : List (Nat × Byte)) (fe : Option (Bool × List Nat)) :
    ((poolWrite s c rk bs fe).core c).pool = (bs.foldl (Core.write8 rk) (s.core c)).pool := by
  unfold poolWrite
  rw [State.modCore_core_self]
  dsimp only
  split
  · split <;> rfl
  · rename_i v ls
    obtain ⟨f, w, h⟩ := foldl_mark_effect rk v _ ls
    rw [h]
    split <;> rfl

/-- Its lines become full or empty as its action says, where none has been marked in the cycle, and no other line changes. -/
theorem mem_full_poolWrite (s : State) (c rk : Nat) (bs : List (Nat × Byte)) (h : (s.core c).wasFull = []) (l : Nat) :
    (l ∈ ((poolWrite s c rk bs none).core c).full ↔ l ∈ (s.core c).full) ∧
    ∀ v ls, l ∈ ((poolWrite s c rk bs (some (v, ls))).core c).full ↔
      if v then l ∈ (s.core c).full ∨ l ∈ ls else l ∈ (s.core c).full ∧ l ∉ ls := by
  unfold poolWrite
  rw [State.modCore_core_self]
  simp only [State.modCore_core_self]
  obtain ⟨m, w, e⟩ := foldl_write8_effect rk (s.core c) bs
  rw [e]
  split <;> exact ⟨Iff.rfl, fun v ls => mem_full_foldl_mark (fun j old r hj => by simp [h] at hj) v ls l⟩

theorem poolWrite_core_ne (s : State) {c d : Nat} (rk : Nat) (bs : List (Nat × Byte)) (fe : Option (Bool × List Nat)) (h : d ≠ c) :
    (poolWrite s c rk bs fe).core d = s.core d := State.modCore_core_ne s _ h

/-- A scratchpad write of a number where nothing has been written in the cycle. -/
theorem rd8_poolWrite_place {s : State} {c : Nat} (rk a : Nat) (l : List Byte) (fe : Option (Bool × List Nat))
    (hwf : Mem.wf (s.core c).pool = true) (hw : (s.core c).was = []) (b : Nat) :
    rd8 ((poolWrite s c rk (place a l) fe).core c).pool b =
      if a ≤ b ∧ b < a + l.length then l.getD (b - a) 0 else rd8 (s.core c).pool b := by
  rw [poolWrite_pool, foldl_write8_place rk _ _ _ fun i => by simp [hw], rd8_wrBytes_place hwf]

/-! ### Bytes of a line of the data cache -/

theorem DLine.getD_write_data (d : DLine) (o : Nat) (l : List Byte) (h : o + l.length ≤ 128) (i : Nat) :
    (d.write o l).data.getD i 0 = if o ≤ i ∧ i < o + l.length then l.getD (i - o) 0 else d.data.getD i 0 := by
  induction l generalizing d o with
  | nil => rw [if_neg (by simp)]; rfl
  | cons v r ih =>
    simp only [List.length_cons] at h
    simp only [DLine.write, ih _ _ (show o + 1 + r.length ≤ 128 by omega), List.length_cons]
    rcases Nat.lt_trichotomy i o with hi | rfl | hi
    · rw [if_neg (by omega), if_neg (by omega)]
      simp [Vector.getD, hi.ne']
    · rw [if_neg (by omega), if_pos (by omega)]
      simp [Vector.getD, show i < 128 by omega]
    · rw [show i - o = (i - (o + 1)) + 1 by omega, List.getD_cons_succ]
      refine if_congr (by omega) rfl ?_
      simp [Vector.getD, hi.ne]

/-- The byte a core's own next read of an address finds: of its line where it holds one, else of memory (R107). -/
def seen (s : State) (c a : Nat) : Byte :=
  match dcLine s c (a / 128) with
  | some d => d.data.getD (a % 128) 0
  | none => rd8 s.mem a
theorem seen_line {s : State} {c a : Nat} {d : DLine} (h : dcLine s c (a / 128) = some d) : seen s c a = d.data.getD (a % 128) 0 := by
  simp [seen, h]
theorem seen_mem {s : State} {c a : Nat} (h : dcLine s c (a / 128) = none) : seen s c a = rd8 s.mem a := by simp [seen, h]

/-! ### Evicting and filling (R108) -/

theorem dirtyBytes_line {d : DLine} {ln : Nat} {p : Nat × Byte} (h : p ∈ d.dirtyBytes ln) : p.1 / 128 = ln := by
  simp only [DLine.dirtyBytes, List.mem_filterMap, List.mem_range] at h
  obtain ⟨i, hi, e⟩ := h
  split at e
  · simp only [Option.some.injEq] at e; subst e; dsimp only; omega
  · cases e

theorem rd8_writeBack_ne {s : State} (hwf : Mem.wf s.mem = true) (c : Nat) {ln a : Nat} (h : a / 128 ≠ ln) :
    rd8 (writeBack s c ln).mem a = rd8 s.mem a := by
  unfold writeBack
  split
  · rfl
  · rename_i d _
    have e : rd8 (wrBytes s.mem (d.dirtyBytes ln)) a = rd8 s.mem a :=
      rd8_wrBytes_of_ne hwf _ fun p hp ha => h (ha ▸ dirtyBytes_line hp)
    dsimp only
    split <;> simpa [poisonLine] using e

/-- An eviction changes no byte of another line in memory. -/
theorem rd8_evictLine_ne {s : State} (hwf : Mem.wf s.mem = true) (c : Nat) {ln a : Nat} (h : a / 128 ≠ ln) :
    rd8 (evictLine s c ln).mem a = rd8 s.mem a := by
  unfold evictLine
  split
  · split
    · simpa using rd8_writeBack_ne hwf c h
    · rfl
  · rfl

/-- A line that is not held is filled with the bytes of memory. -/
theorem dcLine_fillLine_of_none {s : State} {c ln : Nat} (hwf : Mem.wf s.mem = true) (h : dcLine s c ln = none) :
    ∃ d, dcLine (fillLine s c ln) c ln = some d ∧ ∀ i, i < 128 → d.data.getD i 0 = rd8 s.mem (128 * ln + i) := by
  have fills : ∀ s1 : State, (∀ i, i < 128 → rd8 s1.mem (128 * ln + i) = rd8 s.mem (128 * ln + i)) →
      ∃ d, dcLine (s1.modCore c fun k => { k with dc := put k.dc ln { DLine.fill s1.mem ln with pois := s1.poison.contains ln } }) c ln =
        some d ∧ ∀ i, i < 128 → d.data.getD i 0 = rd8 s.mem (128 * ln + i) := fun s1 hs =>
    ⟨{ DLine.fill s1.mem ln with pois := s1.poison.contains ln }, by simp [dcLine], fun i hi => by
      simp [Vector.getD, DLine.fill, hi, hs i hi]⟩
  unfold fillLine
  rw [h]
  dsimp only
  split
  · split
    · rename_i v _ _ hk
      have hv : ln ≠ v := fun e => by simp [dcLine, hk, look, e] at h
      exact fills _ fun i hi => rd8_evictLine_ne hwf c (by omega)
    · exact fills _ fun _ _ => rfl
  · exact fills _ fun _ _ => rfl

/-- A fill leaves every byte of its line as the core found it before. -/
theorem seen_fillLine {s : State} (hwf : Mem.wf s.mem = true) (c : Nat) {ln a : Nat} (ha : a / 128 = ln) :
    ∃ d, dcLine (fillLine s c ln) c ln = some d ∧ d.data.getD (a % 128) 0 = seen s c a := by
  subst ha
  cases h : dcLine s c (a / 128) with
  | some d => exact ⟨d, by simp [fillLine, h], (seen_line h).symm⟩
  | none =>
    obtain ⟨d, hd, he⟩ := dcLine_fillLine_of_none hwf h
    refine ⟨d, hd, ?_⟩
    rw [seen_mem h, he _ (Nat.mod_lt _ (by decide)), Nat.div_add_mod]

/-! ### A plain store (R107, R118) -/

/-- The directory records the storing context where it lets a store through. -/
theorem dirPlain_store {old st : Option DirSt} {c t : Nat} (h : dirPlain old c t true = some st) : st = some (.d c t) := by
  unfold dirPlain at h
  split at h
  · simpa using h.symm
  all_goals
    split at h
    · simpa using h.symm
    · cases h

/-- The store goes past the data cache: an uncached page or no cache, and the line dirty nowhere. -/
def PastCache (s : State) (c ln : Nat) (nc : Bool) : Prop := (nc = true ∨ dcBank (s.core c).part = 0) ∧ look s.dir ln = none

/-- Past the cache a plain store writes memory, and a copy of the line the core holds. -/
theorem plainStore_pastCache {s s' : State} {c t pa : Nat} {bs : List Byte} {nc : Bool} (h : plainStore s c t pa bs nc = some s')
    (hp : PastCache s c (pa / 128) nc) : s'.mem = wrBytes s.mem (place pa bs) ∧ s'.dir = s.dir ∧
      dcLine s' c (pa / 128) = (dcLine s c (pa / 128)).map fun d => { d with data := (d.write (pa % 128) bs).data } := by
  obtain ⟨hnc, hdir⟩ := hp
  have hcore : ∀ d, (memWrite s (place pa bs)).core d = s.core d := fun d => by
    obtain ⟨p, e⟩ := memWrite_effect s (place pa bs); rw [e]; rfl
  have hd : (memWrite s (place pa bs)).dir = s.dir := by
    obtain ⟨p, e⟩ := memWrite_effect s (place pa bs); rw [e]
  have hline : dcLine (memWrite s (place pa bs)) c (pa / 128) = dcLine s c (pa / 128) := by simp only [dcLine, hcore]
  have hu : (nc || dcBank (s.core c).part == 0) = true := by simpa using hnc
  simp only [plainStore, hdir, dirPlain, hu, hline, if_true, Option.isNone_none, Bool.and_self, Option.some.injEq] at h
  subst h
  cases hl : dcLine s c (pa / 128) with
  | none => exact ⟨memWrite_mem _ _, hd, hline.trans hl⟩
  | some d => exact ⟨memWrite_mem _ _, hd, by simp [dcLine]⟩

/-- Else it writes the core's line, which it has filled, and the directory records it. -/
theorem plainStore_line {s s' : State} {c t pa : Nat} {bs : List Byte} {nc : Bool} (hwf : Mem.wf s.mem = true)
    (h : plainStore s c t pa bs nc = some s') (hp : ¬ PastCache s c (pa / 128) nc) : look s'.dir (pa / 128) = some (.d c t) ∧
      ∃ d, dcLine (fillLine s c (pa / 128)) c (pa / 128) = some d ∧ dcLine s' c (pa / 128) = some (d.write (pa % 128) bs) := by
  obtain ⟨d, hd, -⟩ := seen_fillLine hwf c (rfl : pa / 128 = pa / 128)
  have hu : ((nc || dcBank (s.core c).part == 0) && (look s.dir (pa / 128)).isNone) = false := by
    rw [← Bool.not_eq_true]
    simpa [PastCache] using hp
  cases hst : dirPlain (look s.dir (pa / 128)) c t true with
  | none => simp [plainStore, hst] at h
  | some st =>
    obtain rfl := dirPlain_store hst
    have hset : ∀ s1 : State, dcLine (setDir s1 (pa / 128) (some (.d c t))) c = dcLine s1 c := fun _ => rfl
    simp only [plainStore, hst, hu, hset, hd, Bool.false_eq_true, if_false, Option.some.injEq] at h
    subst h
    exact ⟨by simp [setDir], d, hd, by simp [dcLine]⟩

/-- After a plain store within a line the core finds the bytes stored, and every other byte of the line as before. -/
theorem seen_plainStore {s s' : State} {c t pa : Nat} {bs : List Byte} {nc : Bool} (hlen : pa % 128 + bs.length ≤ 128)
    (hwf : Mem.wf s.mem = true) (h : plainStore s c t pa bs nc = some s') {a : Nat} (ha : a / 128 = pa / 128) :
    seen s' c a = if pa ≤ a ∧ a < pa + bs.length then bs.getD (a - pa) 0 else seen s c a := by
  have hwrite : ∀ d : DLine, d.data.getD (a % 128) 0 = seen s c a → (d.write (pa % 128) bs).data.getD (a % 128) 0 =
      if pa ≤ a ∧ a < pa + bs.length then bs.getD (a - pa) 0 else seen s c a := fun d hd => by
    rw [DLine.getD_write_data _ _ _ hlen, hd, show a % 128 - pa % 128 = a - pa by omega]
    exact if_congr (by omega) rfl rfl
  by_cases hp : PastCache s c (pa / 128) nc
  · obtain ⟨hmem, -, hline⟩ := plainStore_pastCache h hp
    rw [← ha] at hline
    cases hl : dcLine s c (a / 128) with
    | none =>
      rw [hl] at hline
      rw [seen_mem hline, hmem, rd8_wrBytes_place hwf, seen_mem hl]
    | some d =>
      rw [hl] at hline
      rw [seen_line hline]
      exact hwrite d (seen_line hl).symm
  · obtain ⟨-, d, hd, hline⟩ := plainStore_line hwf h hp
    obtain ⟨d', hd', he⟩ := seen_fillLine hwf c ha
    obtain rfl : d = d' := Option.some.inj (hd.symm.trans hd')
    rw [seen_line (ha ▸ hline)]
    exact hwrite d he

/-! ### The statement -/

/-- A write of one byte, over one of the cycle or not (R121). -/
theorem rd8_applyWrite_byte (s : State) (c src rk a : Nat) (v : Byte) (hwf : Mem.wf (s.core c).pool = true) (d : Nat) :
    (d ≠ a → rd8 ((applyWrite s src rk (.pool c [(a, v)] none)).core c).pool d = rd8 (s.core c).pool d) ∧
    (look (s.core c).was a = none → rd8 ((applyWrite s src rk (.pool c [(a, v)] none)).core c).pool a = v) ∧
    ∀ old r, look (s.core c).was a = some (old, r) → rd8 ((applyWrite s src rk (.pool c [(a, v)] none)).core c).pool a =
      if r < rankAt src c rk ∧ r < rkAcc then rd8 (s.core c).pool a else v := by
  simp only [applyWrite, poolWrite_pool, List.foldl_cons, List.foldl_nil]
  refine ⟨fun hd => ?_, fun h => ?_, fun old r h => ?_⟩
  · cases h : look (s.core c).was a with
    | none => rw [write8_first _ h, rd8_wr8 hwf, if_neg hd]
    | some q =>
      rw [write8_again _ h]
      split
      · rfl
      · rw [rd8_wr8 hwf, if_neg hd]
  · rw [write8_first _ h, rd8_wr8 hwf, if_pos rfl]
  · rw [write8_again _ h]
    split
    · rfl
    · rw [rd8_wr8 hwf, if_pos rfl]

/-- Settles O12: the bytes and lines of a scratchpad store, the rank that stands over a byte, and what a plain store
leaves for the core's next read. -/
theorem storeBytes : Obligations.StoreBytes := by
  refine ⟨?_, ?_, ?_⟩
  · intro s c src rk o n v fe hwf hw hf
    simp only [applyWrite, map_place, Nat.add_zero]
    have hbyte := rd8_poolWrite_place (rankAt src c rk) (spBase (s.core c).part + o) (leBytes v n) fe hwf hw
    rw [length_leBytes] at hbyte
    refine ⟨fun i hi => ?_, fun a ha => ?_, fun d hd => poolWrite_core_ne s _ _ _ hd, fun _ => rfl, rfl, fun l => ?_⟩
    · rw [hbyte, if_pos (by omega), Nat.add_sub_cancel_left, toNat_getD_leBytes v hi]
    · rw [hbyte, if_neg (by omega)]
    · obtain ⟨hnone, hsome⟩ :=
        mem_full_poolWrite s c (rankAt src c rk) (place (spBase (s.core c).part + o) (leBytes v n)) hf l
      simp only [List.contains_iff_mem]
      match fe with
      | none => exact hnone
      | some (true, ls) => simpa using hsome true ls
      | some (false, ls) => simpa using hsome false ls
  · intro s c src rk a v hwf
    obtain ⟨-, hfirst, hagain⟩ := rd8_applyWrite_byte s c src rk a v hwf a
    refine ⟨?_, fun d hd => (rd8_applyWrite_byte s c src rk a v hwf d).1 hd⟩
    cases hl : look (s.core c).was a with
    | none => exact hfirst hl
    | some q => exact hagain q.1 q.2 hl
  · intro s s' c t pa bs nc hlen hwf h
    refine ⟨fun i hi => ?_, fun a ha hout => ?_, fun hnc hdir => ?_, fun hp => (plainStore_line hwf h hp).1⟩
    · refine (seen_plainStore hlen hwf h (show (pa + i) / 128 = pa / 128 by omega)).trans ?_
      rw [if_pos (by omega), Nat.add_sub_cancel_left]
    · exact (seen_plainStore hlen hwf h ha).trans (if_neg (by omega))
    · obtain ⟨hmem, hd, -⟩ := plainStore_pastCache h ⟨hnc, hdir⟩
      refine ⟨fun i hi => ?_, fun a ha => ?_, hd⟩
      · rw [hmem, rd8_wrBytes_place hwf, if_pos (by omega), Nat.add_sub_cancel_left]
      · rw [hmem, rd8_wrBytes_place hwf, if_neg (by omega)]

end Sys2Proof.Machine
end

section
/-!
PROOFS. What a command of the host comes to: the message of a completion (R480), the refusals in their order and the
command that passes them all (R475, R476), and the statement of O51.
-/

namespace Sys2Proof.Machine

/-! ### Values changed in place, bytes of a number -/

/-- A change of values that keeps every key is seen through a look. -/
theorem look_map_of_keys {α : Type} (g : Nat × α → Nat × α) (hg : ∀ p, (g p).1 = p.1) (m : SMap α) (k : Nat) :
    look (m.map g) k = (look m k).map fun v => (g (k, v)).2 := by
  induction m with
  | nil => rfl
  | cons p r ih =>
    simp only [List.map_cons, look, hg, ih]
    split
    · rename_i h; subst h; rfl
    · rfl

theorem leBytes_mod (v n : Nat) : leBytes (v % 256 ^ n) n = leBytes v n := by
  induction n generalizing v with
  | zero => rfl
  | succ n ih =>
    have hlow : BitVec.ofNat 8 (v % 256 ^ (n + 1)) = BitVec.ofNat 8 v := by
      apply BitVec.eq_of_toNat_eq
      rw [BitVec.toNat_ofNat, BitVec.toNat_ofNat]
      exact Nat.mod_mod_of_dvd v (Dvd.intro_left (256 ^ n) (Nat.pow_succ ..).symm)
    rw [leBytes, leBytes, hlow, Nat.pow_succ', Nat.mod_mul_right_div_self, ih]

/-! ### Completions (R475, R480) -/

/-- A message to the host takes a name and joins those sent, where its queue pair stands. -/
theorem hostSend_effect (s : State) (qp hq opc : Nat) (body : List Byte) :
    ∃ n v, hostSend s qp hq opc body = { s with fresh := n, dev := { s.dev with sent := v } } := by
  unfold hostSend
  split
  · exact ⟨_, _, rfl⟩
  · exact ⟨_, _, rfl⟩
theorem complete_effect (s : State) (d : Done) : ∃ n v, complete s d = { s with fresh := n, dev := { s.dev with sent := v } } :=
  hostSend_effect s _ _ _ _
@[simp] theorem hostSend_launches (s : State) (qp hq opc : Nat) (body : List Byte) : (hostSend s qp hq opc body).launches = s.launches := by
  obtain ⟨n, v, h⟩ := hostSend_effect s qp hq opc body; rw [h]
@[simp] theorem hostSend_ctxs (s : State) (qp hq opc : Nat) (body : List Byte) : (hostSend s qp hq opc body).ctxs = s.ctxs := by
  obtain ⟨n, v, h⟩ := hostSend_effect s qp hq opc body; rw [h]
@[simp] theorem complete_launches (s : State) (d : Done) : (complete s d).launches = s.launches := by
  obtain ⟨n, v, h⟩ := complete_effect s d; rw [h]

/-- The bytes of a completion; its own MSGID is of 32 bits. -/
theorem complete_sent {s : State} {d : Done} (h : s.dev.qps.contains d.qp = true) :
    (complete s d).dev.sent = s.dev.sent ++ [(d.qp,
      (leBytes 0x504C4F48 4 ++ leBytes 0x80 2 ++ leBytes d.hq 1 ++ [0] ++
        leBytes ((Config.unstated s.fresh).setWidth 32).toNat 4 ++ leBytes (0x20 + d.data.length) 4) ++
      (leBytes d.msgid.toNat 4 ++ leBytes d.opc 2 ++ leBytes d.status 1 ++ leBytes d.cause 1 ++ leBytes d.cookie.toNat 8 ++
       leBytes d.void 4 ++ leBytes (bit d.dlost) 1 ++ [0, 0, 0] ++ leBytes d.err.toNat 8 ++ d.data))] := by
  have hown : leBytes ((Config.unstated s.fresh).setWidth 32).toNat 4 = leBytes (Config.unstated s.fresh).toNat 4 := by
    rw [BitVec.toNat_setWidth]; exact leBytes_mod _ 4
  have hlen : 4 + (2 + (1 + (1 + (8 + (4 + (1 + (8 + d.data.length + 1 + 1 + 1))))))) = 32 + d.data.length := by omega
  simp only [complete, hostSend, h, if_true, hown]
  simp [hlen]

/-! ### The checks of a command (R476, R478, R480) -/

section
variable {s : State} {i : Instr} {c : HostCmd} {field rsvd : State → HostMsg → Bool} {act : State → Nat → HostMsg → State} {m : HostMsg}

theorem hostCause_priv {qp : Nat} {f r : Bool} (h : ¬ (c.priv = true → s.dev.mqp = some qp)) : hostCause s c qp m f r = 7 := by
  simp [hostCause, Classical.not_imp.mp h]
theorem hostCause_state {qp : Nat} {f r : Bool} (hp : c.priv = true → s.dev.mqp = some qp) (h : s.dev.mode ∉ c.modes) :
    hostCause s c qp m f r = 6 := by
  simp_all [hostCause]
theorem hostCause_length {qp : Nat} {f r : Bool} (hp : c.priv = true → s.dev.mqp = some qp) (hm : s.dev.mode ∈ c.modes)
    (h : m.payload.length ≠ c.len) : hostCause s c qp m f r = 9 := by
  simp_all [hostCause]
theorem hostCause_queue {qp : Nat} {f r : Bool} (hp : c.priv = true → s.dev.mqp = some qp) (hm : s.dev.mode ∈ c.modes)
    (hl : m.payload.length = c.len) (h : 64 ≤ m.hq.toNat) : hostCause s c qp m f r = 1 := by
  simp_all [hostCause, Nat.lt_of_succ_le h]
theorem hostCause_none {qp : Nat} (hp : c.priv = true → s.dev.mqp = some qp) (hm : s.dev.mode ∈ c.modes)
    (hl : m.payload.length = c.len) (hq : m.hq.toNat < 64) (hr : m.resv = 0) : hostCause s c qp m false false = 0 := by
  simp_all [hostCause, Nat.not_lt.mpr (Nat.le_of_lt_succ hq)]

/-- A module that is OFF, or a queue pair that does not stand, brings no command. -/
theorem hostStep_absent (hb : s.ev.body = .host m) (h : s.dev.mode = .off ∨ s.dev.qps.contains s.ev.num = false) :
    hostStep i c field rsvd act s = .next s := by
  simp only [hostStep, hb, h, Bool.not_eq_true', if_true]
/-- A command behind a Final Cut of its queue pair waits (R478). -/
theorem hostStep_waits (hb : s.ev.body = .host m) (hon : s.dev.mode ≠ .off) (hq : s.dev.qps.contains s.ev.num = true)
    (h : cutHolds s s.ev.num i = true) :
    hostStep i c field rsvd act s = .next { s with dev := { s.dev with waiting := s.dev.waiting ++ [(i, s.ev)] } } := by
  simp only [hostStep, hb, hon, hq, h, Bool.not_true, Bool.false_eq_true, or_self, if_true, if_false]
/-- What a command that arrives comes to: its refusal with the first cause, or its effect. -/
theorem hostStep_arrives (ha : Arrives s i m) (hon : s.dev.mode ≠ .off) :
    let k := hostCause s c s.ev.num m (field s m) (rsvd s m)
    hostStep i c field rsvd act s = .next (if k = 0 then act s s.ev.num m else complete s { doneOf s.ev.num c.opc m with
      status := 4, cause := k
      cookie := if c.opc ≤ 3 then BitVec.ofNat 64 (le m.payload (if c.opc = 1 then 0x50 else 8) 8) else 0 }) := by
  obtain ⟨hb, hq, hc⟩ := ha
  simp only [hostStep, hb, hon, hq, hc, Bool.not_true, Bool.false_eq_true, or_self, if_false]
theorem hostStep_refused (ha : Arrives s i m) (hon : s.dev.mode ≠ .off) {k : Nat}
    (h : hostCause s c s.ev.num m (field s m) (rsvd s m) = k) (hk : k ≠ 0) :
    hostStep i c field rsvd act s = .next (complete s { doneOf s.ev.num c.opc m with
      status := 4, cause := k
      cookie := if c.opc ≤ 3 then BitVec.ofNat 64 (le m.payload (if c.opc = 1 then 0x50 else 8) 8) else 0 }) := by
  rw [hostStep_arrives ha hon, h, if_neg hk]
/-- A command that breaks no check is performed. -/
theorem hostStep_sound (h : Sound s i m c.priv c.modes c.len) (hon : .off ∉ c.modes) (hf : field s m = false)
    (hr : rsvd s m = false) : hostStep i c field rsvd act s = .next (act s s.ev.num m) := by
  obtain ⟨ha, hp, hm, hl, hq, hv⟩ := h
  rw [hostStep_arrives ha fun e => hon (e ▸ hm), hf, hr, hostCause_none hp hm hl hq hv, if_pos rfl]

end

/-- Each row of R476 is its instruction's. -/
theorem exec_hostRows {s : State} {p : Instr × HostCmd} (h : p ∈ hostRows s) :
    ∃ field rsvd act, exec p.1 s = hostStep p.1 p.2 field rsvd act s := by
  simp only [hostRows, List.mem_cons, List.not_mem_nil, or_false] at h
  rcases h with rfl | rfl | rfl | rfl | rfl | rfl | rfl | rfl | rfl | rfl | rfl | rfl | rfl | rfl | rfl | rfl | rfl | rfl | rfl | rfl | rfl
  · exact ⟨_, _, _, show execLaunch s = _ from rfl⟩
  · exact ⟨_, _, _, show execKill s = _ from rfl⟩
  · exact ⟨_, _, _, show execResume s = _ from rfl⟩
  · exact ⟨_, _, _, show execFinalcut s = _ from rfl⟩
  · exact ⟨_, _, _, show execReset s = _ from rfl⟩
  · exact ⟨_, _, _, show execSetroot s = _ from rfl⟩
  · exact ⟨_, _, _, show execSetprio s = _ from rfl⟩
  · exact ⟨_, _, _, show execSetexp s = _ from rfl⟩
  · exact ⟨_, _, _, show execXlinv s = _ from rfl⟩
  · exact ⟨_, _, _, show execMrreg s = _ from rfl⟩
  · exact ⟨_, _, _, show execReach s = _ from rfl⟩
  · exact ⟨_, _, _, show execKekset s = _ from rfl⟩
  · exact ⟨_, _, _, show execKeyset s = _ from rfl⟩
  · exact ⟨_, _, _, show execFencerel s = _ from rfl⟩
  · exact ⟨_, _, _, show execPwrcap s = _ from rfl⟩
  · exact ⟨_, _, _, show execMrdereg s = _ from rfl⟩
  · exact ⟨_, _, _, show execAttest s = _ from rfl⟩
  · exact ⟨_, _, _, show execCertread s = _ from rfl⟩
  · exact ⟨_, _, _, show execSnapcmd s = _ from rfl⟩
  · exact ⟨_, _, _, show execSnapread s = _ from rfl⟩
  · exact ⟨_, _, _, show execLogread s = _ from rfl⟩

section
variable {s : State} {m : HostMsg}

theorem plohusUnknown_absent (hb : s.ev.body = .host m) (h : s.dev.mode = .off ∨ s.dev.qps.contains s.ev.num = false) :
    exec .plohusUnknown s = .next s := by
  change execPlohusUnknown s = _
  simp only [execPlohusUnknown, hb, h, Bool.not_eq_true', if_true]
theorem plohusUnknown_waits (hb : s.ev.body = .host m) (hon : s.dev.mode ≠ .off) (hq : s.dev.qps.contains s.ev.num = true)
    (h : cutHolds s s.ev.num .plohusUnknown = true) : exec .plohusUnknown s =
      .next { s with dev := { s.dev with waiting := s.dev.waiting ++ [(.plohusUnknown, s.ev)] } } := by
  change execPlohusUnknown s = _
  simp only [execPlohusUnknown, hb, hon, hq, h, Bool.not_true, Bool.false_eq_true, or_self, if_true, if_false]
theorem plohusUnknown_arrives (ha : Arrives s .plohusUnknown m) (hon : s.dev.mode ≠ .off) : exec .plohusUnknown s =
      .next (complete s { qp := s.ev.num, hq := m.hq.toNat, msgid := m.msgid, opc := s.ev.cnt, status := 4, cause := 8 }) := by
  obtain ⟨hb, hq, hc⟩ := ha
  change execPlohusUnknown s = _
  simp only [execPlohusUnknown, hb, hon, hq, hc, Bool.not_true, Bool.false_eq_true, or_self, if_false, doneOf]
theorem plohusDrop_logs (hon : s.dev.mode ≠ .off) (hq : s.dev.qps.contains s.ev.num = true) :
    exec .plohusDrop s = .next (logRas s 0 0x108 0xFFFF 0xFF (some (s.ev.num + 0x8000)) none none) := by
  change execPlohusDrop s = _
  simp only [execPlohusDrop, hon, hq, Bool.not_true, Bool.false_eq_true, or_self, if_false]

end

/-- The states a RESET is accepted in: not TRIPPED with a hot sensor (R471, log entry 52). -/
def resetModes (s : State) : List DevMode := if cool s then notOff else [.rough, .finalising, .ready]
theorem off_not_mem_resetModes (s : State) : .off ∉ resetModes s := by
  unfold resetModes
  split <;> decide
theorem mem_resetModes {s : State} {d : DevMode} (h : d ∈ notOff) (ht : d = .tripped → cool s = true) : d ∈ resetModes s := by
  unfold resetModes
  split
  · exact h
  · rename_i hc
    cases d with
    | off => exact absurd h (by decide)
    | tripped => exact absurd (ht rfl) hc
    | rough | finalising | ready => decide
theorem reset_sound {s : State} {m : HostMsg} (h : Sound s .reset m true notOff 0) (ht : s.dev.mode = .tripped → cool s = true) :
    Sound s .reset m true (resetModes s) 0 := by
  obtain ⟨ha, hp, hm, hrest⟩ := h
  exact ⟨ha, hp, mem_resetModes hm ht, hrest⟩

/-! ### What single commands do -/

/-- A launch that ends is DONE with its status. -/
theorem look_endLaunch {s : State} {l : Nat} {r : Launch} (h : look s.launches l = some r) :
    look (endLaunch s l).launches l = some { r with st := .done } := by
  simp [endLaunch, h, launchDone]

/-- A kill of a launch that has not started ends it at once (R24). -/
theorem killAny_unstarted {s : State} {l : Nat} {r : Launch} (h : r.st = .queued ∨ r.st = .granting) :
    killAny s l r = endLaunch (modLaunch s l fun r => { r with status := .killed }) l := by
  rcases h with h | h <;> simp only [killAny, h]

theorem rootRsvd_eq_false {m : HostMsg} (h : (BitVec.ofNat 64 (le m.payload 0 8) : W64) &&& 0xFFFFFF8000000FFE = 0) :
    rootRsvd m = false := by
  simp only [rootRsvd, h, bne_self_eq_false]

/-- The key of a KEYSET payload that unwraps. `unwrapKey` is not unfolded: it runs AES. -/
theorem keyOf_eq_some {s : State} {m : HostMsg} {kek key : List Byte} (hk : s.dev.kek = some kek)
    (hu : unwrapKey kek (m.payload.drop 4) = some key) : keyOf s m = some key := Option.bind_eq_some_iff.mpr ⟨kek, hk, hu⟩

/-- A receive direction under a new key: the key before stands beside it (R317). -/
def rekeyed (d : RecvDir) (e : BitVec 4) (k : Option (List Byte)) : RecvDir :=
  { epoch := e, key := k, prev := if d.key.isSome then some d.epoch else none, keyPrev := d.key, seenPrev := d.seen }

/-- The signed bytes of a report are the nonce, three digests, the module's state and the count (R481). -/
theorem reportBytes_take {s : State} {b : List Byte} (n : Nat) (h : b.length = 48) : (reportBytes s b n).take 48 = b := by
  simp only [reportBytes, List.append_assoc]
  exact List.take_left' h
theorem length_reportBytes {s : State} {b : List Byte} (n : Nat) (h : b.length = 48)
    (hp : ∀ p, s.dev.payload = some p → (sha384 p).length = 48) : (reportBytes s b n).length = 208 := by
  have hd : ((s.dev.payload.map sha384).getD (List.replicate 48 0)).length = 48 := by
    cases hs : s.dev.payload with
    | none => rfl
    | some p => exact hp p hs
  simp only [reportBytes, List.length_append, h, hd, List.length_map, List.length_range, length_leBytes]

/-- Every core's TLB goes, and nothing else of it (R97). -/
theorem core_map_tlb (s : State) (f : SMap (List TlbE)) (c : Nat) :
    ({ s with ctlb := f, cores := s.cores.map fun p => (p.1, { p.2 with tlb := [] }) } : State).core c = { s.core c with tlb := [] } := by
  have h := look_map_of_keys (fun p : Nat × Core => (p.1, { p.2 with tlb := [] })) (fun _ => rfl) s.cores c
  simp only [State.core, h]
  cases look s.cores c with
  | none => rfl
  | some k => rfl

/-- Die 0's snapshot area is the lower (log entry 72). -/
theorem snapBase_of_le_one {n : Nat} (h : n ≤ 1) :
    snapBase (if n = 0 then 0 else 1) = 0x7FD8000000 - 0x200000 + 0x100000 * n := by
  obtain rfl | rfl : n = 0 ∨ n = 1 := by omega
  · rfl
  · rfl

/-- RESUME counts the watchdog of each launch it goes on with from now (R400). -/
theorem look_resumed (s : State) (hit : Launch → Bool) {l : Nat} {r : Launch} (h : look s.launches l = some r) :
    look (s.launches.map fun p => if hit p.2 then (p.1, { p.2 with stage1 := false, wdFrom := s.acyc[0] }) else p) l =
      some (if hit r then { r with stage1 := false, wdFrom := s.acyc[0] } else r) := by
  rw [look_map_of_keys _ (by intro p; split <;> rfl), h]
  simp only [Option.map_some, Option.some.injEq]
  split <;> rfl

/-! ### The statement -/

/-- Settles O51: the rows' common checks, the bytes of a completion, then command by command that its own checks pass and
what it does. -/
theorem hostCommands : Obligations.HostCommands := by
  refine ⟨⟨fun s m p hp ha hon => ?_, fun s m i hi hb => ?_, fun s m ha hon => ?_, fun s hq hon => ?_,
    fun s d hq => ⟨_, complete_sent hq⟩⟩, fun s m => ?_⟩
  · obtain ⟨field, rsvd, act, he⟩ := exec_hostRows hp
    dsimp only
    rw [he]
    exact ⟨fun hn => hostStep_refused ha hon (hostCause_priv hn) (by decide),
      fun hk hm => hostStep_refused ha hon (hostCause_state hk hm) (by decide),
      fun hk hm hl => hostStep_refused ha hon (hostCause_length hk hm hl) (by decide),
      fun hk hm hl hh => hostStep_refused ha hon (hostCause_queue hk hm hl hh) (by decide)⟩
  · rcases List.mem_cons.mp hi with rfl | hi
    · exact ⟨plohusUnknown_absent hb, plohusUnknown_waits hb⟩
    · obtain ⟨p, hp, rfl⟩ := List.mem_map.mp hi
      obtain ⟨field, rsvd, act, he⟩ := exec_hostRows hp
      rw [he]
      exact ⟨hostStep_absent hb, hostStep_waits hb⟩
  · exact plohusUnknown_arrives ha hon
  · exact plohusDrop_logs hon hq
  · refine ⟨fun h => ?_, fun h hr => ?_, fun l r hl hst => ?_, fun h hr => ?_, fun h hf hr => ?_,
      fun h => ⟨fun ht hc => ?_, fun ht => ?_⟩, fun h hr => ?_, fun h => ?_, fun h hr => ?_, fun h => ?_, fun h hf i hi => ?_,
      fun h hf => ?_, fun h => ?_, fun h hp he kek key hk hu => ⟨fun hd => ?_, fun hd => ?_⟩, fun h hc hf => ?_,
      fun h hlo hhi => ?_, fun h hr r hreg => ?_, fun h => ?_, fun h => ?_, fun h hf => ?_, fun h hd hn ho => ?_,
      fun h hd hg hn => ?_⟩
    · exact show execLaunch s = _ from hostStep_sound h (by decide) rfl rfl
    · exact show execKill s = _ from hostStep_sound h (by decide) rfl (by simp [hr])
    · rw [killAny_unstarted hst, look_endLaunch (look_modLaunch _ hl)]
      exact ⟨rfl, rfl⟩
    · intro hit
      refine ⟨fun hany => ⟨_, (show execResume s = _ from (hostStep_sound h (by decide) rfl (by simp [hr])).trans
        (congrArg _ (if_pos hany))), fun l r hl => look_resumed s hit hl⟩, fun hany => ?_⟩
      exact (show execResume s = _ from (hostStep_sound h (by decide) rfl (by simp [hr])).trans
        (congrArg _ (if_neg (by rw [hany]; decide))))
    · exact ⟨_, (show execFinalcut s = _ from hostStep_sound h (by decide) hf hr), rfl, rfl, rfl, rfl, rfl, rfl⟩
    · exact (show execReset s = _ from (hostStep_sound (reset_sound h fun _ => hc) (off_not_mem_resetModes s) rfl rfl).trans
        (congrArg (fun s' => Host.Outcome.next (okDone s' _ _ _)) (if_pos ht)))
    · exact (show execReset s = _ from (hostStep_sound (reset_sound h fun e => absurd e ht) (off_not_mem_resetModes s) rfl rfl).trans
        (congrArg (fun s' => Host.Outcome.next (okDone s' _ _ _)) (if_neg ht)))
    · exact show execSetroot s = _ from hostStep_sound h (by decide) rfl (rootRsvd_eq_false hr)
    · exact show execSetprio s = _ from hostStep_sound h (by decide) rfl rfl
    · exact show execSetexp s = _ from hostStep_sound h (by decide) rfl (rootRsvd_eq_false hr)
    · exact ⟨_, (show execXlinv s = _ from hostStep_sound h (by decide) rfl rfl), rfl, core_map_tlb s []⟩
    · refine (show execMrreg s = _ from (hostStep_sound h (by decide) (by simp [hi]; omega) rfl).trans ?_)
      simp only [hi]
      rfl
    · exact ⟨_, (show execReach s = _ from hostStep_sound h (by decide) (by simpa using hf) rfl), rfl⟩
    · exact show execKekset s = _ from hostStep_sound h (by decide) rfl rfl
    · have hkey := keyOf_eq_some hk hu
      refine ⟨_, (show execKeyset s = _ from hostStep_sound h (by decide) (by simp [hkey]; omega) rfl), ?_⟩
      rw [if_pos hd, hkey]
      exact look_put_self _ _ _
    · have hkey := keyOf_eq_some hk hu
      refine ⟨_, rekeyed ((look s.fab.recvs (le m.payload 0 2)).getD {}) (BitVec.ofNat 4 (le m.payload 3 1)) (some key),
        (show execKeyset s = _ from hostStep_sound h (by decide) (by simp [hkey]; omega) rfl), ?_, rfl, rfl, rfl⟩
      rw [if_neg (by omega), hkey]
      exact look_put_self _ _ _
    · exact show execFencerel s = _ from hostStep_sound h (by decide) (by simp [hf]; omega) rfl
    · exact show execPwrcap s = _ from hostStep_sound h (by decide) (by simp; omega) rfl
    · exact ⟨_, (show execMrdereg s = _ from hostStep_sound h (by decide) (by simp [hreg]) (by simp [hr])), rfl⟩
    · refine ⟨_, rfl, (show execAttest s = _ from hostStep_sound h (by decide) rfl rfl), ?_⟩
      obtain ⟨-, -, -, hlen, -⟩ := h
      exact ⟨reportBytes_take _ hlen, length_reportBytes _ hlen⟩
    · exact ⟨_, List.length_take_le _ _, ⟨_, List.take_append_drop _ _⟩, (show execCertread s = _ from hostStep_sound h (by decide) rfl rfl)⟩
    · exact show execSnapcmd s = _ from hostStep_sound h (by decide) (by simpa using hf) rfl
    · refine (show execSnapread s = _ from (hostStep_sound h (by decide) (by simp; omega) rfl).trans ?_)
      rw [snapBase_of_le_one hd]
      rfl
    · refine (show execLogread s = _ from (hostStep_sound h (by decide) (by simp; omega) rfl).trans ?_)
      simp only [decide_eq_true_eq]
      rfl

end Sys2Proof.Machine
end

section
/-!
PROOFS. The steps of a launch (R15, R19 to R22, R400): what each state-changing part of them leaves of the launches, the
tasks and the contexts, and the statement of O53.
-/

namespace Sys2Proof.Machine

/-! ### Admission (R21, R22 step 3) -/

/-- A launch that is refused is DONE, and its completion says why. -/
theorem admitOne_refused {s : State} {l : Nat} {r : Launch} (h : refusal s r.hq r.raw ≠ 0) :
    admitOne s l r = complete { s with launches := put s.launches l { r with st := .done, raw := [] } }
      { qp := r.qp, hq := r.hq, msgid := r.msgid, opc := 1, status := 4, cause := refusal s r.hq r.raw, cookie := r.cookie } := by
  simp only [admitOne, h, ne_eq, not_false_eq_true, if_true]

/-- Every entry of a launch's group table has been read where it is not refused. -/
theorem groupsOf_isSome {s : State} {hq : Nat} {b : List Byte} (h : refusal s hq b = 0) : ∀ e ∈ groupsOf s hq b, e.isSome = true := by
  unfold refusal at h
  dsimp only at h
  split_ifs at h with _ _ _ hall
  all_goals
    intro e he
    cases e with
    | some b => rfl
    | none => exact absurd (List.any_eq_true.mpr ⟨none, he, rfl⟩) hall

theorem length_fillGroups (s : State) (ms : List (BitVec 320)) : (fillGroups s ms).2.length = ms.length := by
  induction ms generalizing s with
  | nil => rfl
  | cons m r ih => simp only [fillGroups, List.length_cons, ih]

/-- A launch that is taken has one package entry for each entry of its table. -/
theorem length_members {s : State} {hq : Nat} {b : List Byte} (h : refusal s hq b = 0) :
    ((groupsOf s hq b).filterMap fun e => e.map membersOf).length = le b 0x28 2 := by
  have hall : ∀ e ∈ groupsOf s hq b, (e.map membersOf).isSome = true := fun e he => by
    simpa using groupsOf_isSome h e he
  rw [List.filterMap_length_eq_length.mpr hall]
  simp [groupsOf]

/-- A launch that is taken is as its record describes it, and waits for its cores. -/
theorem look_admitOne {s : State} {l : Nat} {r : Launch} (h : refusal s r.hq r.raw = 0) :
    ∃ g c, look (admitOne s l r).launches l = some { parseLaunch r r.raw with st := .granting, groups := g, cores := c } ∧
      g.length = le r.raw 0x28 2 := by
  have hgroups := (length_fillGroups s ((groupsOf s r.hq r.raw).filterMap fun e => e.map membersOf)).trans (length_members h)
  simp only [admitOne, h, ne_eq, not_true_eq_false, if_false]
  exact ⟨_, _, look_put_self _ _ _, hgroups⟩

/-! ### Grants (R19, R22 step 4) -/

/-- A core is granted to a launch that waits for it, where it serves none and is not fenced. -/
theorem grantee_some {s : State} {c l : Nat} {r : Launch} (h : grantee s c = some (l, r)) :
    r.st = .granting ∧ c ∈ r.cores ∧ (s.core c).launch = none ∧ (s.core c).fenced = false := by
  unfold grantee at h
  dsimp only at h
  split at h
  · cases h
  · rename_i hfree
    have hmem := List.mem_of_find?_eq_some h
    rw [waitingLaunches, mem_sortBy, List.mem_filter] at hmem
    have hcore := List.find?_some h
    simp only [not_or, Bool.not_eq_true, Option.isSome_eq_false_iff, Option.isNone_iff_eq_none] at hfree
    exact ⟨by simpa using hmem.2, by simpa using hcore, hfree⟩

theorem exec_coreGrant_some {s : State} {l : Nat} {r : Launch} (h : grantee s s.ev.core = some (l, r)) :
    exec .coreGrant s = .next (grantCore s s.ev.core l r) := by
  change execCoreGrant s = _
  simp only [execCoreGrant, h]
theorem exec_coreGrant_none {s : State} (h : grantee s s.ev.core = none) : exec .coreGrant s = .next s := by
  change execCoreGrant s = _
  simp only [execCoreGrant, h]
theorem grantCore_core (s : State) (c l : Nat) (r : Launch) : (grantCore s c l r).core c =
    { wantRx := (s.core c).wantRx, part := r.part, trroot := s.root.getD r.hq 0, launch := some l } :=
  State.modCore_core_self s c fun k => { freshCore k with part := r.part, trroot := rootOf s r.hq, launch := some l }
theorem look_grantCore (s : State) (c l : Nat) (r : Launch) :
    look (grantCore s c l r).launches l = some { r with granted := insN r.granted c, readyAt := s.acyc[0] + 2048 } :=
  look_put_self _ _ _

/-! ### The scope and the entry task (R22 step 5) -/

/-- A free scope has a number from 1 to 255. -/
theorem freeScope_some {s : State} {n : Nat} (h : freeScope s = some n) : n ≠ 0 ∧ n ≤ 255 ∧ look s.scopes n = none := by
  have hmem := List.mem_of_find?_eq_some h
  have hnone := List.find?_some h
  rw [List.mem_range'_1] at hmem
  exact ⟨by omega, by omega, by simpa using hnone⟩

theorem openScope_opens {s : State} {l n : Nat} {r : Launch} (hl : look s.launches l = some r) (hg : grantsDone s r = true)
    (hd : r.det = true) (hs : r.scope = 0) (hn : freeScope s = some n) : openScope s l =
      { s with scopes := put s.scopes n { launch := l, width := r.wavew }, launches := put s.launches l { r with scope := n } } := by
  simp only [openScope, hl, hg, hd, hs, hn, beq_self_eq_true, Bool.and_self, if_true]
theorem openScope_stays {s : State} {l : Nat} {r : Launch} (hl : look s.launches l = some r)
    (h : r.det = false ∨ r.scope ≠ 0 ∨ grantsDone s r = false ∨ freeScope s = none) : openScope s l = s := by
  rcases h with h | h | h | h <;> simp [openScope, hl, h]

@[simp] theorem openScope_ev (s : State) (l : Nat) : (openScope s l).ev = s.ev := by
  unfold openScope
  repeat' split
  all_goals rfl

theorem exec_entryTaskCreate {s : State} {l : Nat} {r : Launch} (he : s.ev.num = l) (h : look (openScope s l).launches l = some r) :
    exec .entryTaskCreate s = .next (if entryDue (openScope s l) r then startLaunch (openScope s l) l r else openScope s l) := by
  change execEntryTaskCreate s = _
  subst he
  simp only [execEntryTaskCreate, openScope_ev, h]

/-- Where a launch keeps its scope, every launch is in the scope it was in. -/
theorem launchScope_put {s : State} {l : Nat} {r r' : Launch} (h : look s.launches l = some r) (hs : r'.scope = r.scope) (k : Nat) :
    launchScope { s with launches := put s.launches l r' } k = launchScope s k := by
  simp only [launchScope, look_put]
  split
  · rename_i hk; subst hk; simp [h, hs]
  · rfl
/-- The record taken next depends on the launches by their scopes alone. -/
theorem pickRec_put {s : State} {l : Nat} {r r' : Launch} (h : look s.launches l = some r) (hs : r'.scope = r.scope) :
    pickRec { s with launches := put s.launches l r' } = pickRec s := by
  have hb : busyRec { s with launches := put s.launches l r' } = busyRec s := by
    funext i
    simp only [busyRec, launchScope_put h hs]
    rfl
  simp only [pickRec, hb]
  rfl

@[simp] theorem modLaunch_tasks (s : State) (l : Nat) (f : Launch → Launch) : (modLaunch s l f).tasks = s.tasks := by
  unfold modLaunch; split <;> rfl
@[simp] theorem modLaunch_ctxs (s : State) (l : Nat) (f : Launch → Launch) : (modLaunch s l f).ctxs = s.ctxs := by
  unfold modLaunch; split <;> rfl

/-- A record bears what a new task was given. -/
def Task.Bears (k : Task) (n : NewTask) : Prop := k.launch = n.launch ∧ k.entry = n.entry ∧ k.arg = n.arg ∧ k.key = n.key

/-- A task that waits on no condition becomes READY (R388). -/
theorem tryReady_ready {s : State} {i : Nat} {k : Task} (h : look s.tasks i = some k) (hst : k.st = .waiting) (hsem : k.sem = []) :
    tryReady s i = { s with tasks := put s.tasks i { k with st := .ready, at_ := s.acyc[0] } } := by
  have hc : condsHold s k = true := by rw [condsHold, hsem]; rfl
  simp only [tryReady, modTask, h, hst, hc, and_self, if_true]

/-- A task without conditions that is no leaf takes the free record, READY at once (R383, R388). -/
theorem createTask_ready {s : State} {n : NewTask} {i : Nat} (hp : pickRec s = some i) (hsem : n.sem = []) (hleaf : n.leaf = false)
    (spidx : Nat) : ∃ s' k, createTask s n false spidx = some (s', i) ∧ s'.launches = s.launches ∧ look s'.tasks i = some k ∧
      k.Bears n := by
  simp only [createTask, hp, hsem, hleaf, Bool.false_eq_true, if_false]
  rw [tryReady_ready (look_put_self _ _ _) rfl rfl]
  simp only [look_put_self, Option.map_some, Option.getD_some, Bool.and_eq_true, beq_iff_eq, reduceCtorEq, false_and, if_false]
  exact ⟨_, _, rfl, rfl, look_put_self _ _ _, rfl, rfl, rfl, rfl⟩

/-- The entry task of a launch as its record gives it (R22 step 5). -/
def entryTaskOf (l : Nat) (r : Launch) : NewTask :=
  { launch := l, grp := r.entgrp, entry := r.entry, dcyc := r.ecyc, key := r.prio, arg := r.arg, k1 := r.arglen.setWidth 64, aff := r.aff,
    expchk := r.chk }

theorem chooseTask_launches (s : State) (sc w i t : Nat) : (chooseTask s sc w i t).launches = s.launches := by
  obtain ⟨ts, h, -⟩ := modTask_effect s t fun k =>
    { k with st := .chosen, at_ := s.acyc[0], ticket := some (BitVec.ofNat 64 (sc * 2 ^ 48 + w * 2 ^ 32 + i)) }
  rw [chooseTask, h]
/-- A task that is chosen bears what it bore. -/
theorem look_chooseTask {s : State} {t : Nat} {k : Task} {n : NewTask} (sc w i : Nat) (h : look s.tasks t = some k) (hk : k.Bears n) :
    ∃ k', look (chooseTask s sc w i t).tasks t = some k' ∧ k'.Bears n := by
  obtain ⟨ts, hs, ht, -⟩ := modTask_effect s t fun k =>
    { k with st := .chosen, at_ := s.acyc[0], ticket := some (BitVec.ofNat 64 (sc * 2 ^ 48 + w * 2 ^ 32 + i)) }
  rw [chooseTask, hs]
  exact ⟨_, ht.trans (congrArg _ h), hk⟩

/-- A launch whose entry task is due runs from then on, and the entry task stands in the record that was free. -/
theorem startLaunch_runs {s : State} {l : Nat} {r : Launch} (hl : look s.launches l = some r) (hd : entryDue s r = true) :
    ∃ i k, look (startLaunch s l r).launches l = some { r with st := .running, wdFrom := s.acyc[0], entryTask := some i } ∧
      look (startLaunch s l r).tasks i = some k ∧ k.Bears (entryTaskOf l r) := by
  obtain ⟨-, hrec⟩ := Bool.and_eq_true_iff.mp hd
  obtain ⟨i, hp⟩ := Option.isSome_iff_exists.mp hrec
  have hp' := (pickRec_put (r' := { r with st := .running, wdFrom := s.acyc[0] }) hl rfl).trans hp
  obtain ⟨s', k, hc, hls, hk, hb⟩ := createTask_ready (n := entryTaskOf l r) hp' rfl rfl 0
  have hl' := look_modLaunch (fun r => { r with entryTask := some i }) ((congrArg (look · l) hls).trans (look_put_self _ _ _))
  have hk' : look (modLaunch s' l fun r => { r with entryTask := some i }).tasks i = some k := by rw [modLaunch_tasks, hk]
  rw [entryTaskOf] at hc
  simp only [startLaunch, hc]
  split
  · obtain ⟨k'', hk'', hb''⟩ := look_chooseTask r.scope 0 0 hk' hb
    exact ⟨i, k'', by rw [chooseTask_launches, hl'], hk'', hb''⟩
  · exact ⟨i, k, hl', hk', hb⟩

/-! ### Completion and the watchdog (R15, R400) -/

section
variable {s : State} {l : Nat} {r : Launch} (he : s.ev.num = l) (hl : look s.launches l = some r)
include he hl

theorem exec_launchComplete : exec .launchComplete s = .next (if launchQuiet s l r then finishLaunch s l else s) := by
  change execLaunchComplete s = _
  subst he
  simp only [execLaunchComplete, hl]
theorem exec_watchdogStage1 : exec .watchdogStage1 s = .next (if wdDue s r 1 then watchStage1 s l r else s) := by
  change execWatchdogStage1 s = _
  subst he
  simp only [execWatchdogStage1, hl]
theorem exec_watchdogStage2 : exec .watchdogStage2 s =
    .next (if wdDue s r 2 then killLaunch (modLaunch s l fun r => { r with stage2 := true }) l else s) := by
  change execWatchdogStage2 s = _
  subst he
  simp only [execWatchdogStage2, hl]
theorem exec_watchdogStage3 : exec .watchdogStage3 s = .next (if wdDue s r 3 then fenceLaunch s l r else s) := by
  change execWatchdogStage3 s = _
  subst he
  simp only [execWatchdogStage3, hl]

end

theorem look_watchStage1 {s : State} {l : Nat} {r : Launch} (h : look s.launches l = some r) :
    look (watchStage1 s l r).launches l = some { r with stage1 := true } := by
  simp only [watchStage1, hostSend_launches]
  exact look_modLaunch _ h

/-- Stage 1 parks each context of the launch whose task runs. -/
theorem watchStage1_parks {s : State} {l t : Nat} {x : Context} {k : Task} (r : Launch) (hx : s.ctx? t = some x) (hxl : x.launch = l)
    (hk : look s.tasks t = some k) (hst : k.st = .running) : (watchStage1 s l r).ctx? t = some { x with park := true } := by
  simp only [watchStage1, State.ctx?, hostSend_ctxs, modLaunch_tasks, modLaunch_ctxs]
  rw [look_map_of_keys _ (by intro p; split <;> rfl), show look s.ctxs t = some x from hx]
  simp [hxl, hk, hst]

/-! ### The statement -/

/-- Settles O53: each part is a lemma above about the step's own state, or the branch of the step its condition takes. -/
theorem Launch.launchSteps : Obligations.LaunchSteps := by
  refine ⟨fun s l r => ⟨fun h => ?_, fun h => ?_⟩, fun s l r => ⟨fun h hl => ?_, exec_coreGrant_none, grantee_some⟩,
    fun s l r hl => ⟨fun n hg hd hs hn => ?_, openScope_stays hl⟩, fun s l r hl => ⟨fun he hd => ?_, fun he hd => ?_⟩,
    fun s l r he hl => ⟨fun hd => ?_, fun hd => ?_, fun hd => ?_, fun hd => ?_, fun hd => ?_, fun hd => ?_, fun hd => ?_, fun hd => ?_,
      fun hd => ?_⟩⟩
  · exact ⟨_, admitOne_refused h, by simp⟩
  · obtain ⟨g, c, hr, hg⟩ := look_admitOne (l := l) h
    exact ⟨_, hr, rfl, rfl, rfl, rfl, rfl, rfl, rfl, hg, rfl, rfl, rfl⟩
  · exact ⟨_, exec_coreGrant_some h, grantCore_core s _ l r, look_grantCore s _ l r⟩
  · obtain ⟨hn0, hn255, hfree⟩ := freeScope_some hn
    rw [openScope_opens hl hg hd hs hn]
    exact ⟨hn0, hn255, hfree, look_put_self _ _ _, look_put_self _ _ _, rfl⟩
  · rw [exec_entryTaskCreate he hl, if_pos hd]
  · rw [exec_entryTaskCreate he hl, hd]; rfl
  · obtain ⟨i, k, hr, hk, hkl, hke, hka, hkk⟩ := startLaunch_runs hl hd
    exact ⟨_, i, k, hr, rfl, rfl, rfl, hk, hke, hka, hkk, hkl⟩
  · rw [exec_launchComplete he hl, if_pos hd]
  · rw [exec_launchComplete he hl, hd]; rfl
  · refine ⟨by rw [exec_watchdogStage1 he hl, if_pos hd], by rw [look_watchStage1 hl]; rfl, fun t x k hx hxl hk hst => ?_⟩
    rw [watchStage1_parks r hx hxl hk hst]; rfl
  · rw [exec_watchdogStage1 he hl, hd]; rfl
  · rw [exec_watchdogStage2 he hl, if_pos hd]
  · rw [exec_watchdogStage2 he hl, hd]; rfl
  · rw [exec_watchdogStage3 he hl, if_pos hd]
  · rw [exec_watchdogStage3 he hl, hd]; rfl

end Sys2Proof.Machine
end

section
/-!
PROOFS. The encoding tables read both ways (R28 to R50): field by field, row by row, and the statement of O58.
-/

namespace Sys2Proof

/-! ### Codes of one field -/

/-- A code is that of a value just where it decodes to it. -/
abbrev Codec {α : Type} {n : Nat} (enc : α → BitVec n) (dec : BitVec n → Option α) : Prop :=
  ∀ (x : BitVec n) (v : α), x = enc v ↔ dec x = some v

/-- It is enough that values are read back, and that what decodes is the code of what it decodes to. -/
theorem codec_of {α : Type} {n : Nat} {enc : α → BitVec n} {dec : BitVec n → Option α} (hv : ∀ v, dec (enc v) = some v)
    (hx : ∀ x, ∀ v ∈ dec x, x = enc v) : Codec enc dec := fun x v => ⟨fun e => e ▸ hv v, hx x v⟩

theorem Width.codec : Codec Width.enc Width.dec := codec_of (fun v => by cases v <;> rfl) (by decide)
theorem CmpCond.codec : Codec CmpCond.enc CmpCond.dec := codec_of (fun v => by cases v <;> rfl) (by decide)
theorem PlogOp.codec : Codec PlogOp.enc PlogOp.dec := codec_of (fun v => by cases v <;> rfl) (by decide)
theorem IdxReg.codec : Codec IdxReg.enc IdxReg.dec := codec_of (fun v => by cases v <;> rfl) (by decide)
theorem FeL.codec : Codec FeL.enc FeL.dec := codec_of (fun v => by cases v <;> rfl) (by decide)
theorem FeS.codec : Codec FeS.enc FeS.dec := codec_of (fun v => by cases v <;> rfl) (by decide)
theorem Size.codec : Codec Size.enc Size.dec := codec_of (fun v => by cases v <;> rfl) (by decide)
theorem Scope.codec : Codec Scope.enc Scope.dec := codec_of (fun v => by cases v <;> rfl) (by decide)
theorem Clu.codec : Codec Clu.enc Clu.dec := codec_of (fun v => by cases v <;> rfl) (by decide)
theorem Cl3.codec : Codec Cl3.enc Cl3.dec := codec_of (fun v => by cases v <;> rfl) (by decide)
theorem File3.codec : Codec File3.enc File3.dec := codec_of (fun v => by cases v <;> rfl) (by decide)
theorem FFmt.codec : Codec FFmt.enc FFmt.dec := codec_of (fun v => by cases v <;> rfl) (by decide)
theorem Rm.codec : Codec Rm.enc Rm.dec := codec_of (fun v => by cases v <;> rfl) (by decide)
theorem VW.codec : Codec VW.enc VW.dec := codec_of (fun v => by cases v <;> rfl) (by decide)
theorem MinTy.codec : Codec MinTy.enc MinTy.dec := codec_of (fun v => by cases v <;> rfl) (by decide)
theorem VCmpCond.codec : Codec VCmpCond.enc VCmpCond.dec := codec_of (fun v => by cases v <;> rfl) (by decide)
theorem CvtFmt.codec : Codec CvtFmt.enc CvtFmt.dec := codec_of (fun v => by cases v <;> rfl) (by decide)
theorem MxFmt.codec : Codec MxFmt.enc MxFmt.dec := codec_of (fun v => by cases v <;> rfl) (by decide)
theorem GSpace.codec : Codec GSpace.enc GSpace.dec := codec_of (fun v => by cases v <;> rfl) (by decide)
theorem GSize.codec : Codec GSize.enc GSize.dec := codec_of (fun v => by cases v <;> rfl) (by decide)
theorem AFmt.codec : Codec AFmt.enc AFmt.dec := codec_of (fun v => by cases v <;> rfl) (by decide)
theorem Gw.codec : Codec Gw.enc Gw.dec := codec_of (fun v => by cases v <;> rfl) (by decide)
theorem DrainFmt.codec : Codec DrainFmt.enc DrainFmt.dec := codec_of (fun v => by cases v <;> rfl) (by decide)
theorem Lvl.codec : Codec Lvl.enc Lvl.dec := codec_of (fun v => by cases v <;> rfl) (by decide)
theorem AccOp.codec : Codec AccOp.enc AccOp.dec := codec_of (fun v => by cases v <;> rfl) (by decide)
theorem SpoutDir.codec : Codec SpoutDir.enc SpoutDir.dec := codec_of (fun v => by cases v <;> rfl) (by decide)
theorem PhMode.codec : Codec PhMode.enc PhMode.dec := codec_of (fun v => by cases v <;> rfl) (by decide)
theorem ThrTy.codec : Codec ThrTy.enc ThrTy.dec := codec_of (fun v => by cases v <;> rfl) (by decide)
theorem MaskForm.codec : Codec MaskForm.enc MaskForm.dec := codec_of (fun v => by cases v <;> rfl) (by decide)
theorem PathFld.codec : Codec PathFld.enc PathFld.dec := codec_of (fun v => by cases v <;> rfl) (by decide)
theorem TtWhat.codec : Codec TtWhat.enc TtWhat.dec := codec_of (fun v => by cases v <;> rfl) (by decide)
theorem NsField.codec : Codec NsField.enc NsField.dec := codec_of (fun v => by cases v <;> rfl) (by decide)
theorem IdxSel.codec : Codec IdxSel.enc IdxSel.dec := codec_of (fun v => by cases v <;> rfl) (by decide)

/-! ### Codes of a selector and of fields that hold several values -/

theorem P6.codec : Codec P6.enc P6.dec := codec_of (by decide) (by decide)
theorem VRegNo.codec : Codec VRegNo.enc VRegNo.dec := codec_of (by decide) (by decide)
theorem Stg.codec : Codec Stg.enc Stg.dec := codec_of (by decide) (by decide)
theorem SSel.codec : Codec SSel.enc SSel.dec := by
  refine codec_of (fun v => ?_) (by decide)
  cases v with
  | q n => revert n; decide
  | k r => revert r; decide
  | kx j => revert j; decide
  | _ => rfl
theorem VSel.codec : Codec VSel.enc VSel.dec := by
  refine codec_of (fun v => ?_) (by decide)
  cases v with
  | q n => revert n; decide
  | v r => revert r; decide
  | vx j => revert j; decide
  | _ => rfl
theorem KDst.codec : Codec KDst.enc KDst.dec := by
  refine codec_of (fun v => ?_) (by decide)
  cases v with
  | k r => revert r; decide
  | kx j => revert j; decide
  | fout => rfl
theorem VDst.codec : Codec VDst.enc VDst.dec := by
  refine codec_of (fun v => ?_) (by decide)
  cases v with
  | v r => revert r; decide
  | vx j => revert j; decide
theorem NestB.codec : Codec NestB.enc NestB.dec := codec_of (fun ⟨cq, st⟩ => by revert cq st; decide) (by decide)
theorem StrideB.codec : Codec StrideB.enc StrideB.dec := by
  refine codec_of (fun v => ?_) (by decide)
  cases v with
  | clr => rfl
  | reg r => revert r; decide
theorem CvtB.codec : Codec CvtB.enc CvtB.dec := codec_of (fun ⟨s, d⟩ => by cases s <;> cases d <;> rfl) (by decide)
theorem VTy.codec : Codec VTy.enc VTy.dec := by
  refine codec_of (fun v => ?_) (by decide)
  cases v with
  | flt f rm => cases f <;> cases rm <;> rfl
  | int w u sat => cases w <;> revert u sat <;> decide
theorem RedOp.codec : Codec RedOp.enc RedOp.dec := by
  refine codec_of (fun v => ?_) (by decide)
  cases v with
  | fadd f => cases f <;> rfl
  | fmin f => cases f <;> rfl
  | fmax f => cases f <;> rfl
  | add u => revert u; decide
  | min u => revert u; decide
  | max u => revert u; decide
  | _ => rfl
theorem NsRd.codec : Codec NsRd.enc NsRd.dec := by
  refine codec_of (fun v => ?_) (by decide)
  cases v with
  | word w => revert w; decide
  | sp => rfl

/-- Every field of the tables, at once. -/
theorem codecs :
    Codec Width.enc Width.dec ∧ Codec CmpCond.enc CmpCond.dec ∧ Codec PlogOp.enc PlogOp.dec ∧ Codec IdxReg.enc IdxReg.dec ∧
    Codec FeL.enc FeL.dec ∧ Codec FeS.enc FeS.dec ∧ Codec Size.enc Size.dec ∧ Codec Scope.enc Scope.dec ∧
    Codec Clu.enc Clu.dec ∧ Codec Cl3.enc Cl3.dec ∧ Codec File3.enc File3.dec ∧ Codec FFmt.enc FFmt.dec ∧
    Codec Rm.enc Rm.dec ∧ Codec VW.enc VW.dec ∧ Codec MinTy.enc MinTy.dec ∧ Codec VCmpCond.enc VCmpCond.dec ∧
    Codec CvtFmt.enc CvtFmt.dec ∧ Codec MxFmt.enc MxFmt.dec ∧ Codec GSpace.enc GSpace.dec ∧ Codec GSize.enc GSize.dec ∧
    Codec AFmt.enc AFmt.dec ∧ Codec Gw.enc Gw.dec ∧ Codec DrainFmt.enc DrainFmt.dec ∧ Codec Lvl.enc Lvl.dec ∧
    Codec AccOp.enc AccOp.dec ∧ Codec SpoutDir.enc SpoutDir.dec ∧ Codec PhMode.enc PhMode.dec ∧ Codec ThrTy.enc ThrTy.dec ∧
    Codec MaskForm.enc MaskForm.dec ∧ Codec PathFld.enc PathFld.dec ∧ Codec TtWhat.enc TtWhat.dec ∧
    Codec NsField.enc NsField.dec ∧ Codec IdxSel.enc IdxSel.dec ∧ Codec P6.enc P6.dec ∧ Codec VRegNo.enc VRegNo.dec ∧
    Codec Stg.enc Stg.dec ∧ Codec SSel.enc SSel.dec ∧ Codec VSel.enc VSel.dec ∧ Codec KDst.enc KDst.dec ∧
    Codec VDst.enc VDst.dec ∧ Codec NestB.enc NestB.dec ∧ Codec StrideB.enc StrideB.dec ∧ Codec CvtB.enc CvtB.dec ∧
    Codec VTy.enc VTy.dec ∧ Codec RedOp.enc RedOp.dec ∧ Codec NsRd.enc NsRd.dec :=
  ⟨Width.codec, CmpCond.codec, PlogOp.codec, IdxReg.codec, FeL.codec, FeS.codec, Size.codec, Scope.codec, Clu.codec,
   Cl3.codec, File3.codec, FFmt.codec, Rm.codec, VW.codec, MinTy.codec, VCmpCond.codec, CvtFmt.codec, MxFmt.codec,
   GSpace.codec, GSize.codec, AFmt.codec, Gw.codec, DrainFmt.codec, Lvl.codec, AccOp.codec, SpoutDir.codec, PhMode.codec,
   ThrTy.codec, MaskForm.codec, PathFld.codec, TtWhat.codec, NsField.codec, IdxSel.codec, P6.codec, VRegNo.codec, Stg.codec,
   SSel.codec, VSel.codec, KDst.codec, VDst.codec, NestB.codec, StrideB.codec, CvtB.codec, VTy.codec, RedOp.codec, NsRd.codec⟩

/-! ### Parts of a field -/

theorem append_eq_iff {v w : Nat} {x : BitVec v} {y : BitVec w} {m : BitVec (v + w)} :
    @Eq (no_index _) (x ++ y) m ↔ x = m.extractLsb' w v ∧ m.extractLsb' 0 w = y := by
  constructor
  · rintro rfl
    exact ⟨BitVec.extractLsb'_append_eq_left.symm, BitVec.extractLsb'_append_eq_right⟩
  · rintro ⟨rfl, rfl⟩
    exact BitVec.extractLsb'_append_extractLsb'

theorem extractLsb'_extractLsb' {n p l s k : Nat} {m : BitVec n} (h : s + k ≤ l) :
    (m.extractLsb' p l).extractLsb' s k = m.extractLsb' (p + s) k := by
  ext i hi
  simp [show s + i < l by omega, Nat.add_assoc]

theorem extractLsb'_eq_ofBool_iff {n p : Nat} {m : BitVec n} {b : Bool} :
    m.extractLsb' p 1 = BitVec.ofBool b ↔ m.getLsbD p = b := by
  rw [BitVec.getLsbD_eq_extractLsb']
  generalize m.extractLsb' p 1 = x
  revert x b; decide

theorem ofBool_eq_extractLsb'_iff {n p : Nat} {m : BitVec n} {b : Bool} :
    BitVec.ofBool b = m.extractLsb' p 1 ↔ m.getLsbD p = b := eq_comm.trans extractLsb'_eq_ofBool_iff

theorem eq_ofNat_iff {n k : Nat} {x : BitVec n} : x = BitVec.ofNat n k ↔ x.toNat = k % 2 ^ n := by
  rw [← BitVec.toNat_inj, BitVec.toNat_ofNat]

theorem ofNat_eq_iff {n k : Nat} {x : BitVec n} : BitVec.ofNat n k = x ↔ x.toNat = k % 2 ^ n := eq_comm.trans eq_ofNat_iff

theorem Fields.mk_eq_iff {f : Fields} {c : BitVec 3} {o : BitVec 6} {g : BitVec 3} {a b : BitVec 6} {m : BitVec 7} :
    ⟨c, o, g, a, b, m⟩ = f ↔ f.cls = c ∧ f.op = o ∧ f.g = g ∧ f.a = a ∧ f.b = b ∧ m = f.m := by
  cases f; simp only [Fields.mk.injEq]; grind

theorem immFields_eq_iff {f : Fields} {c : BitVec 3} {o : BitVec 6} {g : BitVec 3} {a : BitVec 6} {i : BitVec 13} :
    immFields c o g a i = f ↔ f.cls = c ∧ f.op = o ∧ f.g = g ∧ f.a = a ∧ i = f.imm := by
  have hi : i = f.imm ↔ f.b = i.extractLsb' 7 6 ∧ i.extractLsb' 0 7 = f.m := by
    rw [eq_comm, Fields.imm, append_eq_iff]
  rw [immFields, Fields.mk_eq_iff, hi]

theorem jmpFields_eq_iff {f : Fields} {o : BitVec 6} {i : BitVec 22} :
    jmpFields o i = f ↔ f.cls = 0 ∧ f.op = o ∧ i = f.off := by
  have hi : i = f.off ↔ f.g = i.extractLsb' 19 3 ∧ f.a = i.extractLsb' 13 6 ∧ f.b = i.extractLsb' 7 6 ∧ i.extractLsb' 0 7 = f.m := by
    rw [eq_comm, Fields.off, append_eq_iff, append_eq_iff, append_eq_iff]
    simp only [extractLsb'_extractLsb', Nat.reduceAdd, Nat.reduceLeDiff, eq_comm]
    tauto
  rw [jmpFields, Fields.mk_eq_iff, hi]

/-! ### What a row decodes -/

theorem forall_mem_bind {α β : Type} {o : Option α} {k : α → Option β} {P : β → Prop} :
    (∀ i ∈ o >>= k, P i) ↔ ∀ v, o = some v → ∀ i ∈ k v, P i := by
  cases o <;> simp
theorem z_eq_some_iff {n : Nat} {x : BitVec n} {u : Unit} : z x = some u ↔ x.toNat = 0 := by
  simp [z, ← BitVec.toNat_inj]
theorem z_eq_some {n : Nat} {x : BitVec n} (h : x.toNat = 0) : z x = some () := z_eq_some_iff.mpr h
theorem forall_mem_none {β : Type} {P : β → Prop} : (∀ i ∈ none, P i) ↔ True := by simp
theorem forall_mem_some {β : Type} {j : β} {P : β → Prop} : (∀ i ∈ some j, P i) ↔ P j := by simp

/-- The row a word's fields select, by class and opcode; none where there is none. -/
def decodeRow (f : Fields) : Option (Option Instr) :=
  match f.cls.toNat with
  | 0 => decodeS f | 1 => decodeVA f | 2 => decodeVB f | 3 => decodeM f | 4 => decodeC f | 5 => decodeQ f | 6 => decodeX f
  | _ => none

/-- What decodes is well-formed, and what its row decodes. -/
theorem decodeFields_eq_ok_iff {f : Fields} {i : Instr} :
    decodeFields f = .ok i ↔ i.wf = true ∧ decodeRow f = some (some i) := by
  unfold decodeFields decodeRow
  have hr : ∀ r : Option (Option Instr), (match (some r : Option (Option (Option Instr))) with
      | none => (.error .cls : Except DecErr Instr) | some none => .error .opcode | some (some none) => .error .field
      | some (some (some i)) => if i.wf then .ok i else .error .field) = .ok i ↔ i.wf = true ∧ r = some (some i) := by
    intro r
    match r with
    | none => simp
    | some none => simp
    | some (some j) =>
      by_cases hj : j.wf = true
      · simp only [hj, if_true, Except.ok.injEq, Option.some.injEq]
        exact ⟨fun e => ⟨e ▸ hj, e⟩, fun e => e.2⟩
      · simp only [hj, if_false, reduceCtorEq, false_iff, Option.some.injEq]
        exact fun e => hj (e.2 ▸ e.1)
  generalize f.cls.toNat = c
  match c with
  | 0 | 1 | 2 | 3 | 4 | 5 | 6 => exact hr _
  | _ + 7 => simp

/-- A row decodes instructions of its word alone: each of its fields stands in the word. -/
theorem fields_of_decodeRow {f : Fields} {o : Option Instr} (h : decodeRow f = some o) : ∀ i ∈ o, i.fields = some f := by
  unfold decodeRow at h
  split at h
  all_goals simp only [decodeS, decodeVA, decodeVB, decodeM, decodeC, decodeQ, decodeX, reduceCtorEq] at h
  all_goals split at h <;> cases h
  all_goals repeat' split
  all_goals simp only [forall_mem_bind, forall_mem_some, forall_mem_none, z_eq_some_iff]
  all_goals intros
  all_goals simp only [Instr.fields, Option.some.injEq, Fields.mk_eq_iff, immFields_eq_iff, jmpFields_eq_iff, append_eq_iff]
  all_goals simp only [extractLsb'_extractLsb', extractLsb'_eq_ofBool_iff, ofBool_eq_extractLsb'_iff, ofNat_eq_iff, eq_ofNat_iff,
    codecs, Fields.guard, BitVec.ofNat_eq_ofNat, Nat.reduceAdd, Nat.reduceLeDiff, Nat.reduceMod, Nat.reducePow, and_self, *]

/-- The fields of an instruction select its row, and each decodes to the value it was written from. -/
theorem decodeRow_of_fields {f : Fields} {i : Instr} (h : i.fields = some f) : decodeRow f = some (some i) := by
  obtain ⟨cls, op, g, a, b, m⟩ := f
  cases i
  all_goals simp only [Instr.fields, Option.some.injEq, reduceCtorEq, Fields.mk_eq_iff, immFields_eq_iff, jmpFields_eq_iff,
    append_eq_iff] at h
  all_goals obtain ⟨rfl, rfl, h⟩ := h
  all_goals simp only [extractLsb'_extractLsb', extractLsb'_eq_ofBool_iff, ofBool_eq_extractLsb'_iff, ofNat_eq_iff, eq_ofNat_iff,
    codecs, Fields.imm, BitVec.ofNat_eq_ofNat, Nat.reduceAdd, Nat.reduceLeDiff, Nat.reduceMod, Nat.reducePow] at h
  all_goals conv_lhs => whnf
  all_goals simp only [z_eq_some, Fields.guard, Fields.imm, BitVec.ofNat_eq_ofNat, h, bind, Option.bind]

/-- The fields that decode to an instruction are its own, where it is well-formed. -/
theorem decodeFields_iff {f : Fields} {i : Instr} : decodeFields f = .ok i ↔ i.wf = true ∧ i.fields = some f := by
  rw [decodeFields_eq_ok_iff]
  exact and_congr_right fun _ => ⟨fun h => fields_of_decodeRow h i rfl, decodeRow_of_fields⟩

/-! ### Words -/

/-- A word is its E bit and its fields (R28). -/
theorem Fields.toWord_eq_iff {e : Bool} {f : Fields} {w : W32} : f.toWord e = w ↔ endsBundle w = e ∧ f = Fields.ofWord w := by
  unfold Fields.toWord Fields.ofWord endsBundle
  rw [eq_comm (a := f), Fields.mk_eq_iff]
  simp only [append_eq_iff]
  simp only [extractLsb'_extractLsb', ofBool_eq_extractLsb'_iff, Nat.reduceAdd, Nat.reduceLeDiff]
  grind

theorem encode_eq_some_iff {e : Bool} {i : Instr} {w : W32} :
    encode e i = some w ↔ endsBundle w = e ∧ i.fields = some (Fields.ofWord w) := by
  simp only [encode, Option.map_eq_some_iff, Fields.toWord_eq_iff]
  exact ⟨fun ⟨_, hf, he, h⟩ => ⟨he, h ▸ hf⟩, fun ⟨he, hf⟩ => ⟨_, hf, he, rfl⟩⟩

theorem decodeWord_eq_ok_iff {w : W32} {i : Instr} : decodeWord w = .ok i ↔ i.wf = true ∧ i.fields = some (Fields.ofWord w) :=
  decodeFields_iff

/-- Settles O58: a word decodes to the instruction whose fields it holds, and encodes it. -/
theorem decodeEncode : Obligations.DecodeEncode := by
  refine ⟨fun e i w hwf h => ?_, fun w i h => ?_⟩
  · obtain ⟨he, hf⟩ := encode_eq_some_iff.mp h
    exact ⟨decodeWord_eq_ok_iff.mpr ⟨hwf, hf⟩, he⟩
  · obtain ⟨hwf, hf⟩ := decodeWord_eq_ok_iff.mp h
    exact ⟨hwf, encode_eq_some_iff.mpr ⟨rfl, hf⟩⟩

end Sys2Proof
end

section
/-!
PROOFS. Words written out, and what a word of class 7 does to its bundle (R50): the statement of O57.
-/

namespace Sys2Proof.Machine

/-- A word of class 7 is of no class, whatever its other fields hold. -/
theorem decodeWord_class7 {w : W32} (h : w.extractLsb' 28 3 = 7) : decodeWord w = .error .cls := by
  simp [decodeWord, decodeFields, Fields.ofWord, h]

/-- A word of a bundle is one of its slots. -/
theorem mem_slotsOf {ws : List W32} {w : W32} (h : w ∈ ws) : ∃ p ∈ slotsOf ws, p.word = w ∧ p.ins = decodeWord w := by
  obtain ⟨n, hn, rfl⟩ := List.mem_iff_getElem.mp h
  exact ⟨{ pos := n, word := ws[n], ins := decodeWord ws[n] },
    List.mem_map.mpr ⟨(ws[n], n), List.mk_mem_zipIdx_iff_getElem?.mpr (List.getElem?_eq_getElem hn), rfl⟩, rfl, rfl⟩

/-- A word of no class makes its bundle illegal with subcode 2, whatever else the bundle holds (R39, R40). -/
theorem illegal_of_cls {x : Context} {ws : List W32} {w : W32} (hw : w ∈ ws) (h : decodeWord w = .error .cls) :
    ∃ m, illegal x ws = some (2, m) := by
  obtain ⟨p, hp, -, hi⟩ := mem_slotsOf hw
  have hne : (((slotsOf ws).filter fun p => match p.ins with
      | .error d => d == .cls
      | .ok _ => false).map (·.pos)).isEmpty = false := by
    rw [List.isEmpty_eq_false_iff_exists_mem]
    exact ⟨p.pos, List.mem_map.mpr ⟨p, List.mem_filter.mpr ⟨hp, by rw [hi, h]; rfl⟩, rfl⟩⟩
  unfold illegal conditions
  dsimp only
  rw [List.filter_cons_of_pos]
  · exact ⟨_, rfl⟩
  · rw [Bool.not_eq_true']
    exact hne

/-- Settles O57: the words written out by evaluation, class 7 by its place as the first of the conditions of legality. -/
theorem decodedWords : Obligations.DecodedWords := by
  refine ⟨rfl, rfl, rfl, rfl, rfl, rfl, rfl, rfl, rfl, rfl, rfl, rfl, rfl, rfl, fun w h => ⟨decodeWord_class7 h, fun x ws hw => ?_⟩⟩
  obtain ⟨m, hm⟩ := illegal_of_cls hw (decodeWord_class7 h)
  exact ⟨2, m, hm, le_rfl⟩

end Sys2Proof.Machine
end

section
/-!
PROOFS. What the scalar arithmetic instructions push (R160 to R169): the statements of O1 and O2.
-/

namespace Sys2Proof.Machine

/-! ### One and two operands -/

/-- What `sBin` pushes where its operands can be read (R31, R160). -/
theorem sBin_pushes {s : State} {t : Nat} {x : Context} {g : Guard} {a b : SSel} (lat : Nat) (f : W64 → W64 → W64)
    (hi : s.issuer = .ok (t, x)) (hr : readable s x (gTrue g x) [.s a, .s b] 1 = true) :
    sBin g a b lat f s = .next (pushS (popOps s x (gTrue g x) [.s a, .s b]) t lat
      (if gTrue g x then f (sVal s x true a) (sVal s x true b) else sVal s x false a)) := by
  simp only [sBin, hi, guardOps_ok hr, bind, Except.bind, pure, Except.pure, conclude_ok]
  cases gTrue g x <;> rfl

/-- What `sUn` pushes. -/
theorem sUn_pushes {s : State} {t : Nat} {x : Context} {gd : Context → Bool} {a : SSel} (lat : Nat) (f : W64 → W64)
    (hi : s.issuer = .ok (t, x)) (hr : readable s x (gd x) [.s a] 1 = true) :
    sUn gd a lat f s = .next (pushS (popOps s x (gd x) [.s a]) t lat (if gd x then f (sVal s x true a) else sVal s x false a)) := by
  simp only [sUn, hi, guardOps_ok hr, bind, Except.bind, pure, Except.pure, conclude_ok]
  cases gd x <;> rfl

theorem pushesBin_of {mk : Guard → SSel → SSel → Instr} {lat : Nat} {f : W64 → W64 → W64}
    (h : ∀ g a b s, exec (mk g a b) s = sBin g a b lat f s) : PushesBin mk lat f :=
  fun s _ _ g a b hi hr => (h g a b s).trans (sBin_pushes lat f hi hr)
theorem pushesUn_of {mk : Guard → SSel → Instr} {lat : Nat} {f : W64 → W64} (h : ∀ g a s, exec (mk g a) s = sUn (gTrue g) a lat f s) :
    PushesUn mk lat f :=
  fun s _ _ g a hi hr => (h g a s).trans (sUn_pushes lat f hi hr)
theorem pushesImm_of {mk : BitVec 3 → SSel → Instr} {f : W64 → W64} (h : ∀ g a s, exec (mk g a) s = sUn (gOn g) a 1 f s) :
    PushesImm mk f :=
  fun s _ _ g a hi hr => (h g a s).trans (sUn_pushes 1 f hi hr)

/-- Settles O1: each instruction is `sBin` with its operation and its latency. -/
theorem scalarIntegerResults : Obligations.ScalarIntegerResults := by
  refine ⟨?_, ?_, ?_, ?_, ?_, ?_, ?_, ?_, ?_, ?_⟩
  all_goals intros
  all_goals exact pushesBin_of fun _ _ _ _ => rfl

/-! ### Results of the bit instructions -/

theorem wrap_natCast (n w : Nat) : Arith.wrap n w = n % 2 ^ w := by
  unfold Arith.wrap
  rw [← Nat.cast_ofNat, ← Nat.cast_pow, ← Int.natCast_mod, Int.toNat_natCast]

/-- int_out of what is read as unsigned is its low bits. -/
theorem intOut_zx (n w : Nat) : Arith.intOut (Arith.intIn n w true) w true false = BitVec.ofNat 64 (n % 2 ^ w) := by
  simp only [Arith.intOut, Arith.intPat, Arith.intIn, Arith.zx, if_true, Bool.false_eq_true, if_false, wrap_natCast, Nat.mod_mod]

/-- Wrapping keeps the low bits, whose sign then stands. -/
theorem wrap_sx (n w : Nat) : Arith.wrap (Arith.sx n w) w = n % 2 ^ w := by
  unfold Arith.sx
  dsimp only
  split
  · rw [wrap_natCast, Nat.mod_mod]
  · unfold Arith.wrap
    rw [Int.sub_emod_right]
    exact (wrap_natCast _ _).trans (Nat.mod_mod _ _)

theorem sx_mod (n w : Nat) : Arith.sx (n % 2 ^ w) w = Arith.sx n w := by simp [Arith.sx]

theorem intOut_sx (n w : Nat) : Arith.intOut (Arith.intIn n w false) w false false = BitVec.ofInt 64 (Arith.sx n w) := by
  simp [Arith.intOut, Arith.intPat, Arith.intIn, wrap_sx, sx_mod]

/-- A word of 64 bits is its own int_out. -/
theorem intOut_w64 (v : W64) (u : Bool) : Arith.intOut v.toNat (Arith.bits .w64) u false = v := by
  have hp : Arith.intPat v.toNat 64 u false = v.toNat := by
    simp only [Arith.intPat, Bool.false_eq_true, if_false, wrap_natCast]
    exact Nat.mod_eq_of_lt v.isLt
  unfold Arith.intOut
  simp only [Arith.bits, hp]
  cases u
  · have hs : Arith.sx v.toNat 64 = v.toInt := by
      simp only [Arith.sx, Nat.mod_eq_of_lt v.isLt, BitVec.toInt_eq_toNat_cond]
      split <;> split <;> omega
    simp [hs]
  · simp

section
variable {s : State} {t : Nat} {x : Context} {g : Guard} {a b : SSel} (hi : s.issuer = .ok (t, x))
include hi

theorem exec_movi {g : BitVec 3} (i : BitVec 13) (hr : readable s x (gOn g x) [] 1 = true) :
    exec (.movi g i) s = .next (pushS s t 1 (if gOn g x then i.signExtend 64 else 0)) := by
  change execMovi g i s = _
  simp [execMovi, hi, guardOps_ok hr, bind, Except.bind, pure, Except.pure]

theorem exec_sel (p : BitVec 3) (hr : readable s x (gTrue g x) [.s a, .s b] 1 = true) :
    exec (.sel g a b p) s = .next (pushS (popOps s x (gTrue g x) [.s a, .s b]) t 1
      (if gTrue g x && !x.fr.ps.getLsbD p.toNat then sVal s x true b else sVal s x (gTrue g x) a)) := by
  change execSel g a b p s = _
  simp only [execSel, hi, guardOps_ok hr, bind, Except.bind, pure, Except.pure, conclude_ok]
  cases gTrue g x <;> rfl

theorem exec_bfx (u : Bool) (hr : readable s x (gTrue g x) [.s a, .s b] 1 = true) :
    exec (.bfx g a b u) s = .next (
      if gTrue g x then
        match fieldOf (sVal s x true b) with
        | some (pos, len) => pushS (popOps s x true [.s a, .s b]) t 1 (bfxVal (sVal s x true a) pos len u)
        | none => raise s { code := cOperand, sub := 0x16, info := sVal s x true b }
      else pushS s t 1 (sVal s x false a)) := by
  change execBfx g a b u s = _
  simp only [execBfx, hi, guardOps_ok hr, bind, Except.bind, pure, Except.pure]
  cases gTrue g x
  · simp
  · cases fieldOf (sVal s x true b) <;> rfl

theorem exec_bfi (m : BitVec 4) (hr : readable s x (gTrue g x) [.s a, .s b, .s (.q m)] 1 = true) :
    exec (.bfi g a b m) s = .next (
      if gTrue g x then
        match fieldOf (sVal s x true b) with
        | some (pos, len) => pushS (popOps s x true [.s a, .s b]) t 2 (bfiVal (sVal s x true a) (x.qsAt m) pos len)
        | none => raise s { code := cOperand, sub := 0x17, info := sVal s x true b }
      else pushS s t 2 (sVal s x false a)) := by
  change execBfi g a b m s = _
  simp only [execBfi, hi, guardOps_ok hr, bind, Except.bind, pure, Except.pure]
  cases gTrue g x
  · simp
  · cases fieldOf (sVal s x true b) <;> rfl

end

theorem pushesBin_congr {mk : Guard → SSel → SSel → Instr} {lat : Nat} {f f' : W64 → W64 → W64} (h : PushesBin mk lat f)
    (e : ∀ p q, f p q = f' p q) : PushesBin mk lat f' := (funext₂ e : f = f') ▸ h
theorem pushesUn_congr {mk : Guard → SSel → Instr} {lat : Nat} {f f' : W64 → W64} (h : PushesUn mk lat f)
    (e : ∀ p, f p = f' p) : PushesUn mk lat f' := (funext e : f = f') ▸ h
theorem pushesImm_congr {mk : BitVec 3 → SSel → Instr} {f f' : W64 → W64} (h : PushesImm mk f)
    (e : ∀ p, f p = f' p) : PushesImm mk f' := (funext e : f = f') ▸ h

/-- The shift amount of an immediate. -/
theorem toNat_setWidth_shift (sh : BitVec 6) : (sh.setWidth 64).toNat = sh.toNat := by
  rw [BitVec.toNat_setWidth, Nat.mod_eq_of_lt (by omega)]

theorem pushes_and (u : Bool) (w : Width) : PushesBin (fun g a b => .and g a b u w) 1 (bitOp w u fun p q => p &&& q) :=
  pushesBin_of fun _ _ _ _ => rfl
theorem pushes_or (u : Bool) (w : Width) : PushesBin (fun g a b => .or g a b u w) 1 (bitOp w u fun p q => p ||| q) :=
  pushesBin_of fun _ _ _ _ => rfl
theorem pushes_xor (u : Bool) (w : Width) : PushesBin (fun g a b => .xor g a b u w) 1 (bitOp w u fun p q => p ^^^ q) :=
  pushesBin_of fun _ _ _ _ => rfl
theorem pushes_shli (u : Bool) (w : Width) (sh : BitVec 6) :
    PushesImm (fun g a => .shli g a u w sh) fun p => shiftOp w u Arith.shl p (sh.setWidth 64) := pushesImm_of fun _ _ _ => rfl
theorem pushes_shri (u : Bool) (w : Width) (sh : BitVec 6) :
    PushesImm (fun g a => .shri g a u w sh) fun p => shiftOp w u Arith.shr p (sh.setWidth 64) := pushesImm_of fun _ _ _ => rfl
theorem pushes_sext (u : Bool) (w : Width) : PushesUn (fun g a => .sext g a u w) 1
    fun p => Arith.intOut (Arith.intIn p.toNat (Arith.bits w) u) (Arith.bits w) u false := pushesUn_of fun _ _ _ => rfl

/-- Settles O2: each instruction pushes what its operation gives, and the operations are what the rules say. -/
theorem scalarBitResults : Obligations.ScalarBitResults := by
  refine ⟨⟨fun u => ?_, fun u => ?_, fun u => ?_, fun u w => pushes_and u w, fun u w => pushes_or u w, fun u w => pushes_xor u w,
    fun i => ?_, fun i => ?_, fun i => ?_, fun u w sh => ?_, fun u w sh => ?_, fun s t x g i hi hr => exec_movi hi i hr⟩,
    fun w => ?_, fun w => ?_, fun w => ?_, fun w => ?_, fun s t x g a b p hi hr => exec_sel hi p hr,
    fun s t x g a b u hi hr => exec_bfx hi u hr, fun s t x g a b m hi hr => exec_bfi hi m hr⟩
  · exact pushesBin_congr (pushes_and u .w64) fun p q => intOut_w64 (p &&& q) u
  · exact pushesBin_congr (pushes_or u .w64) fun p q => intOut_w64 (p ||| q) u
  · exact pushesBin_congr (pushes_xor u .w64) fun p q => intOut_w64 (p ^^^ q) u
  · exact pushesImm_of fun _ _ _ => rfl
  · exact pushesImm_of fun _ _ _ => rfl
  · exact pushesImm_of fun _ _ _ => rfl
  · exact pushesImm_congr (pushes_shli u w sh) fun p => by simp only [shiftOp, Arith.shl, toNat_setWidth_shift]
  · exact pushesImm_congr (pushes_shri u w sh) fun p => by simp only [shiftOp, toNat_setWidth_shift]
  · exact pushesUn_of fun _ _ _ => rfl
  · exact pushesUn_of fun _ _ _ => rfl
  · exact pushesUn_congr (pushes_sext true w) fun p => intOut_zx p.toNat (Arith.bits w)
  · exact pushesUn_congr (pushes_sext false w) fun p => intOut_sx p.toNat (Arith.bits w)

end Sys2Proof.Machine
end

section
/-!
PROOFS. Transfers, the successor of a bundle and the nest (R42, R143, R183, R184): the statement of O5.
-/

namespace Sys2Proof.Machine

/-! ### Transfers -/

/-- A slot that reads and pushes nothing passes its checks. -/
theorem guardOps_nil (s : State) (x : Context) (on : Bool) : guardOps s x on [] 0 = .ok () :=
  guardOps_ok (by simp [readable, room, blocksOk])

theorem relTarget_eq (pc off : W64) : relTarget pc off = pc + 4 * off := by
  rw [relTarget, BitVec.shiftLeft_eq_mul_twoPow, BitVec.mul_comm]; rfl

theorem topsEmpty_eq (x : Context) (cl : Cl3) :
    topsEmpty x cl = ((cl == .b || topMask x .a == 0) && (cl == .a || topMask x .b == 0)) := by
  cases cl
  · simp [topsEmpty]
  · simp [topsEmpty]
  · rfl

section
variable {s : State} {t : Nat} {x : Context} (hi : s.issuer = .ok (t, x))
include hi

theorem exec_nop : exec .nop s = .next s := by
  change execNop s = _
  simp [execNop, hi, guardOps_nil, bind, Except.bind, pure, Except.pure]

theorem exec_br (g : BitVec 3) (i : BitVec 13) :
    exec (.br g i) s = .next (if gOn g x then transfer s t x.pc (x.pc + 4 * i.signExtend 64) else s) := by
  change execBr g i s = _
  simp [execBr, hi, guardOps_nil, relTarget_eq, bind, Except.bind, pure, Except.pure]

theorem exec_brme (g : BitVec 3) (cl : Cl3) (i : BitVec 13) :
    exec (.brme g cl i) s = .next (
      if gOn g x && (cl == .b || topMask x .a == 0) && (cl == .a || topMask x .b == 0) then
        transfer s t x.pc (x.pc + 4 * i.signExtend 64) else s) := by
  change execBrme g cl i s = _
  rw [Bool.and_assoc, ← topsEmpty_eq]
  simp only [execBrme, hi, guardOps_nil, relTarget_eq, bind, Except.bind, pure, Except.pure, conclude_ok]

theorem exec_jmp (off : BitVec 22) : exec (.jmp off) s = .next (transfer s t x.pc (x.pc + 4 * off.signExtend 64)) := by
  change execJmp off s = _
  simp [execJmp, hi, relTarget_eq, bind, Except.bind, pure, Except.pure]

theorem exec_call (off : BitVec 22) (hr : readable s x true [] 1 = true) :
    exec (.call off) s = .next (transfer (pushS s t 1 x.npc) t x.pc (x.pc + 4 * off.signExtend 64)) := by
  change execCall off s = _
  simp [execCall, hi, guardOps_ok hr, relTarget_eq, bind, Except.bind, pure, Except.pure]

end

/-! ### The body of a nest -/

/-- The address of the i-th of the bundles that stand one behind another from an address on. -/
def bodyAddr (pc : W64) (bs : List (List W32)) (i : Nat) : W64 :=
  (bs.take i).foldl (fun (v : W64) ws => v + BitVec.ofNat 64 (4 * ws.length)) pc

/-- The i-th of those bundles holds an address. -/
def BodyHolds (pc : W64) (bs : List (List W32)) (a : W64) (i : Nat) : Prop :=
  (bodyAddr pc bs i).toNat ≤ a.toNat ∧ ∃ ws, bs[i]? = some ws ∧ a.toNat < (bodyAddr pc bs i).toNat + 4 * ws.length

theorem bodyAddr_succ (pc : W64) {bs : List (List W32)} {i : Nat} {ws : List W32} (h : bs[i]? = some ws) :
    bodyAddr pc bs (i + 1) = afterWords (bodyAddr pc bs i) ws := by
  simp [bodyAddr, afterWords, List.take_add_one, h, List.foldl_append]

section
variable {s : State} {x : Context} {pc a : W64} {bs : List (List W32)} {pos stop : Nat}
  (hb : ∀ i ws, bs[i]? = some ws → (bundleAt s x (pos + i) (bodyAddr pc bs i)).2 = .ok ws)
include hb

/-- A look at one bundle of the body: it holds the address, or the search goes on behind it. -/
theorem findPlace_body {k n : Nat} (hk : k < bs.length) (hstop : pos + bs.length ≤ stop) :
    (BodyHolds pc bs a k → findPlace s x a stop (pos + k) (bodyAddr pc bs k) (n + 1) = some (pos + k)) ∧
    (¬ BodyHolds pc bs a k → findPlace s x a stop (pos + k) (bodyAddr pc bs k) (n + 1) =
      findPlace s x a stop (pos + (k + 1)) (bodyAddr pc bs (k + 1)) n) := by
  have hg : bs[k]? = some bs[k] := List.getElem?_eq_getElem hk
  have hf := hb k _ hg
  have hw : BodyHolds pc bs a k ↔
      (bodyAddr pc bs k).toNat ≤ a.toNat ∧ a.toNat < (bodyAddr pc bs k).toNat + 4 * bs[k].length := by
    simp [BodyHolds, hg]
  rw [hw, bodyAddr_succ pc hg, ← Nat.add_assoc]
  rw [findPlace, if_neg (by omega)]
  generalize bundleAt s x (pos + k) (bodyAddr pc bs k) = r at hf
  obtain ⟨_, r⟩ := r
  subst hf
  exact ⟨fun h => if_pos h, fun h => if_neg h⟩

/-- The search stops at the first bundle that holds the address. -/
theorem findPlace_some {i : Nat} (hi : BodyHolds pc bs a i) (hfirst : ∀ j, j < i → ¬ BodyHolds pc bs a j)
    (hstop : pos + bs.length ≤ stop) {k n : Nat} (hk : k ≤ i) (hn : bs.length ≤ k + n) :
    findPlace s x a stop (pos + k) (bodyAddr pc bs k) n = some (pos + i) := by
  have hlen : i < bs.length := by
    obtain ⟨-, ws, hws, -⟩ := hi
    exact (List.getElem?_eq_some_iff.mp hws).1
  induction n generalizing k with
  | zero => omega
  | succ n ih =>
    obtain ⟨hon, hoff⟩ := findPlace_body (a := a) hb (k := k) (n := n) (by omega) hstop
    rcases Nat.eq_or_lt_of_le hk with rfl | hlt
    · exact hon hi
    · rw [hoff (hfirst k hlt)]
      exact ih hlt (by omega)

/-- Where none of the body does, it finds no place. -/
theorem findPlace_none (hno : ∀ i, ¬ BodyHolds pc bs a i) (hstop : pos + bs.length = stop) {k n : Nat} (hk : k ≤ bs.length) :
    findPlace s x a stop (pos + k) (bodyAddr pc bs k) n = none := by
  induction n generalizing k with
  | zero => rfl
  | succ n ih =>
    rcases Nat.eq_or_lt_of_le hk with rfl | hlt
    · unfold findPlace
      rw [if_pos (by omega)]
    · rw [(findPlace_body hb hlt hstop.le).2 (hno k)]
      exact ih hlt

end

/-! ### Where a context goes after its bundle -/

theorem follow_jump {s : State} {x : Context} {pc a : W64} (hj : x.jump = some a) (ho : x.opening = none) :
    follow s x pc = { goto s x pc a with jump := none } := by
  simp only [follow, hj, ho]

theorem follow_next {s : State} {x : Context} {pc : W64} (hj : x.jump = none) (ho : x.opening = none) :
    follow s x pc = { x.pass with pc := x.npc } := by
  obtain ⟨⟩ := x
  subst hj ho
  unfold follow Context.pass
  dsimp only
  split <;> rfl

/-- Settles O5: the transfers by their checks, the successor by the cases of `follow`, and a transfer within the body by
the search of its bundles. -/
theorem relativeTransfers : Obligations.RelativeTransfers := by
  refine ⟨⟨fun s t x hi => exec_nop hi, fun s t x g i hi => exec_br hi g i, fun s t x g cl i hi => exec_brme hi g cl i,
    fun s t x off hi => exec_jmp hi off, fun s t x off hi hr => exec_call hi off hr⟩,
    ⟨fun s l t x pc a hl hx => ?_, fun s x pc a hj ho hn => ?_, fun s x pc hj ho hn => ?_⟩,
    fun s x pc l r hj ho hn => ?_, ?_⟩
  · simp only [transfer, hl, State.modCtx, hx]
  · rw [follow_jump hj ho, goto, hn]
  · rw [follow_next hj ho, Context.pass, hn]; rfl
  · rw [follow_next hj ho, Context.pass, hn]; rfl
  · intro s x pc a l r bs pos va within hj ho hn hlen hstop hb
    rw [follow_jump hj ho, goto, hn]
    refine ⟨fun i hi hfirst => ?_, fun hall hno => ?_⟩
    · have hf : findPlace s x a (l.base + l.len) pos pc 64 = some (pos + i) :=
        findPlace_some hb hi hfirst hstop (k := 0) (Nat.zero_le _) (by omega)
      dsimp only
      rw [hf]; rfl
    · have hf : findPlace s x a (l.base + l.len) pos pc 64 = none := findPlace_none hb hno hall (k := 0) (Nat.zero_le _)
      dsimp only
      rw [hf]; rfl

end Sys2Proof.Machine
end

section
/-!
PROOFS. The count queue and the liveness masks (R38, R133, R187, R188): the statement of O8.
-/

namespace Sys2Proof.Machine

/-- A pop leaves whether a bundle issues. -/
theorem popOps_latch_isSome (s : State) (x : Context) (on : Bool) (os : List Opd) :
    (popOps s x on os).latch.isSome = s.latch.isSome := by
  unfold popOps
  dsimp only
  cases h : s.latch <;> repeat' split
  all_goals simp_all [State.modLatch]

section
variable {s : State} {t : Nat} {x : Context} (hi : s.issuer = .ok (t, x))
include hi

theorem exec_cqpush {g : Guard} {a : SSel} (hr : readable s x (gTrue g x) [.s a] 0 = true) :
    exec (.cqpush g a) s = .next (
      if gTrue g x then
        if cqHeld s x.core (a == .cq) < 64 then cqPush (popOps s x true [.s a]) x.core [(sVal s x true a).setWidth 32]
        else raise s { code := cCqFull }
      else s) := by
  change execCqpush g a s = _
  simp only [execCqpush, hi, guardOps_ok hr, bind, Except.bind, pure, Except.pure]
  cases gTrue g x
  · rfl
  · by_cases h : cqHeld s x.core (a == .cq) < 64 <;> simp [h, need, trapWith]

theorem exec_cqclr : exec .cqclr s = .next (
    if s.latch.isSome then s.modLatch fun l => { l with cqClr := true } else s.modCore x.core fun k => { k with cq := [] }) := by
  change execCqclr s = _
  simp only [execCqclr, hi, bind, Except.bind, pure, Except.pure, conclude_ok]

theorem exec_live {g : Guard} {a : SSel} {ft : File3} (hr : readable s x (gTrue g x) [.s a] 0 = true) :
    let s1 := (popOps s x true [.s a]).modCtx t fun y =>
      setLive y ft ((sVal s x true a).setWidth 32 &&& BitVec.ofNat 32 (2 ^ x.declared ft - 1))
    exec (.live g a ft) s = .next (if gTrue g x then (if s.latch.isSome then s1 else dropDead s1 t) else s) := by
  change execLive g a ft s = _
  simp only [execLive, hi, guardOps_ok hr, bind, Except.bind, pure, Except.pure, State.modCtx_latch, popOps_latch_isSome, declMask]
  cases gTrue g x <;> rfl

end

/-- The count queue a bundle leaves: what is not popped or cleared, and its pushes. -/
theorem commitCq_cq (s : State) (c : Nat) (l : Latch) :
    ((commitCq s c l).core c).cq = (if l.cqClr then [] else (s.core c).cq.drop (if l.cqPop then 1 else 0)) ++ l.cqPush := by
  unfold commitCq
  split
  · rw [State.modCore_core_self]
    cases l.cqPop <;> rfl
  · simp_all

theorem length_commitCq {s : State} {c : Nat} {l : Latch} (hq : (s.core c).cq.length ≤ 64)
    (hp : l.cqPush.length ≤ 64 - (if l.cqClr then 0 else ((s.core c).cq.drop (if l.cqPop then 1 else 0)).length)) :
    ((commitCq s c l).core c).cq.length ≤ 64 := by
  rw [commitCq_cq, List.length_append]
  split at hp
  · rw [if_pos ‹_›]; simpa using hp
  · rw [if_neg ‹_›]
    rw [List.length_drop] at hp ⊢
    omega

/-- The blocks of dead registers are released. -/
theorem dropDead_rc {s : State} {t : Nat} {x : Context} (hx : s.ctx? t = some x) :
    ∀ p ∈ ((dropDead s t).core x.core).rc, p.1 = t → deadBlock x p.2 = false := by
  intro p hp ht
  have hkeep : (p.1 != t || !deadBlock x p.2) = true → deadBlock x p.2 = false := by simp [ht]
  refine hkeep ?_
  unfold dropDead at hp
  simp only [hx] at hp
  split at hp
  · rename_i hall
    rw [Bool.and_eq_true, List.all_eq_true] at hall
    exact hall.1 p hp
  · rw [State.modCore_core_self] at hp
    exact (List.mem_filter.mp hp).2

theorem getD_keepLive {α : Type} (z : α) (old new : W32) (v : Vector α 32) {r : Nat} (hr : r < 32) :
    (keepLive z old new v).getD r z = if new.getLsbD r && old.getLsbD r then v.getD r z else z := by
  simp [keepLive, Vector.getD, hr]

theorem kReg_setLive (y : Context) (m : W32) {r : Nat} (hr : r < 32) :
    (setLive y .k m).kReg r = if m.getLsbD r && y.liveK.getLsbD r then y.kReg r else 0 := by
  simp only [setLive, Context.kReg, getD_keepLive _ _ _ _ hr]
  cases m.getLsbD r <;> cases y.liveK.getLsbD r <;> rfl
theorem vReg_setLive_a (y : Context) (m : W32) {r : Nat} (hr : r < 32) :
    (setLive y .va m).vReg .a r = if m.getLsbD r && y.liveA.getLsbD r then y.vReg .a r else VReg.zero := by
  simp only [setLive, Context.vReg, getD_keepLive _ _ _ _ hr]
  cases m.getLsbD r <;> cases y.liveA.getLsbD r <;> rfl
theorem vReg_setLive_b (y : Context) (m : W32) {r : Nat} (hr : r < 32) :
    (setLive y .vb m).vReg .b r = if m.getLsbD r && y.liveB.getLsbD r then y.vReg .b r else VReg.zero := by
  simp only [setLive, Context.vReg, getD_keepLive _ _ _ _ hr]
  cases m.getLsbD r <;> cases y.liveB.getLsbD r <;> rfl

/-- Settles O8: the instructions by their checks, the queue a bundle leaves, and what a liveness mask keeps. -/
theorem countQueueAndLiveRegisters : Obligations.CountQueueAndLiveRegisters := by
  refine ⟨⟨fun s t x g a hi hr => ⟨fun hg => ?_, fun hg hn => ?_, fun hg hn => ?_⟩, fun s l t x hi hl => ?_, fun s t x hi hl => ?_,
    fun s c l hq hp => length_commitCq hq hp⟩, fun s t x g a ft hi hr => exec_live hi hr, fun s t x hx => dropDead_rc hx,
    fun y m r hr => kReg_setLive y m hr, fun y m r hr => ⟨vReg_setLive_a y m hr, vReg_setLive_b y m hr⟩⟩
  · rw [exec_cqpush hi hr, hg]; rfl
  · rw [exec_cqpush hi hr, if_pos hg, if_pos hn]
  · rw [exec_cqpush hi hr, if_pos hg, if_neg hn.not_gt]
  · rw [exec_cqclr hi, hl]; simp [State.modLatch, hl]
  · rw [exec_cqclr hi, hl]; rfl

end Sys2Proof.Machine
end

section
/-!
PROOFS. The select engine (R227 to R231): the statement of O22.
-/

namespace Sys2Proof.Machine

/-! ### CXS, THRC and HIST -/

/-- An operand that can be read and popped can be read where it does not pop. -/
theorem readable_of_true {s : State} {x : Context} {os : List Opd} {n : Nat} (on : Bool) (h : readable s x true os n = true) :
    readable s x on os n = true := by
  cases on
  · simp only [readable, Bool.and_eq_true, List.all_eq_true] at h ⊢
    obtain ⟨⟨hos, hroom⟩, hblocks⟩ := h
    exact ⟨⟨fun o ho => ⟨(hos o ho).1, rfl⟩, hroom⟩, hblocks⟩
  · exact h

theorem noTrapMode_ok {x : Context} (h : x.trapMode = false) : noTrapMode x = .ok () := by simp [noTrapMode, need, h]

section
variable {s : State} {t : Nat} {x : Context} {g : Guard} {a b : VSel} {cl : Clu} (hi : s.issuer = .ok (t, x))
  (hm : x.trapMode = false)
include hi hm

theorem exec_cxs (sg : Stg) (hr : readable s x true [.v cl a, .v cl b] 2 = true) :
    let k := vVal x cl (.flt .f32) a
    let i := vVal x cl .i32 b
    exec (.cxs g a b cl sg) s = .next (pushAll (pushAll s t cl 3 (gTrue g x) (VReg.of fun l => k.lane (cxsFrom sg.val k i l)))
      t cl 3 (gTrue g x) (VReg.of fun l => i.lane (cxsFrom sg.val k i l))) := by
  change execCxs g a b cl sg s = _
  simp only [execCxs, hi, noTrapMode_ok hm, guardOps_ok (readable_of_true _ hr), bind, Except.bind, pure, Except.pure, conclude_ok]

theorem exec_thrc (ty : ThrTy) (ge : Bool) (hr : readable s x true [.v cl a, .v cl b] 3 = true) :
    let va := vVal x cl (thrEf ty) a
    let kept := (lanesOf (topMask x cl)).filter fun l => thrKeep ty ge (va.lane l) ((vVal x cl (thrEf ty) b).lane 0)
    exec (.thrc g a b cl ty ge) s = .next (pushS (pushAll (pushAll s t cl 4 (gTrue g x)
      (VReg.of fun n => ((kept[n]?).map va.lane).getD 0)) t cl 4 (gTrue g x)
      (VReg.of fun n => ((kept[n]?).map (BitVec.ofNat 32 ·)).getD 0)) t 4 (if gTrue g x then BitVec.ofNat 64 kept.length else 0)) := by
  change execThrc g a b cl ty ge s = _
  simp only [execThrc, hi, noTrapMode_ok hm, guardOps_ok (readable_of_true _ hr), bind, Except.bind, pure, Except.pure, conclude_ok]

/-- HIST: a false guard pushes zero, a bad number of bins and a full count queue raise their causes. -/
theorem exec_hist (dir : Bool) (hr : readable s x true [.v cl a, .v cl b] 1 = true) :
    let nb := ((vVal x cl .i32 b).lane 0).toNat
    let h := histVec dir (topMask x cl) (vVal x cl .i32 a) nb
    exec (.hist g a b cl dir) s = .next (
      if gTrue g x = false then pushAll s t cl 4 false VReg.zero
      else if nb = 0 ∨ 64 < nb then raise s { code := cOperand, sub := 3, info := BitVec.ofNat 64 nb }
      else if cqHeld s x.core false + nb ≤ 64 then pushAll (cqPush s x.core ((List.range nb).map h.lane)) t cl 4 true h
      else raise s { code := cCqFull }) := by
  intro nb h
  change execHist g a b cl dir s = _
  simp only [execHist, hi, noTrapMode_ok hm, guardOps_ok (readable_of_true _ hr), bind, Except.bind, pure, Except.pure]
  cases gTrue g x
  · simp
  · by_cases hn : nb = 0 ∨ 64 < nb
    · simp [nb, hn, operand, trapWith]
    · by_cases hc : cqHeld s x.core false + nb ≤ 64 <;> simp [nb, h, hn, hc, need, trapWith]

end

/-! ### The pairs of a bitonic stage -/

/-- The lane a stage of distance 2^j compares with lane l. -/
def flipLane (j l : Nat) : Nat := if l.testBit j then l - 2 ^ j else l + 2 ^ j
/-- The lower lane of the pair. -/
def lowLane (j l : Nat) : Nat := if l.testBit j then l - 2 ^ j else l

theorem stagePair_eq {sg : Nat} (h : sg ≠ 21) (l : Nat) :
    stagePair sg l = some (flipLane (bitonic sg).2 l, !(lowLane (bitonic sg).2 l).testBit (bitonic sg).1) := if_neg h

theorem bitonic_lt {sg : Nat} (h : sg < 21) : (bitonic sg).2 < 6 := by
  unfold bitonic
  repeat' split
  all_goals omega

theorem flipLane_pairs : ∀ j : Fin 6, ∀ l : Fin 64, flipLane j l < 64 ∧ flipLane j l ≠ l ∧ flipLane j (flipLane j l) = l ∧
    lowLane j (flipLane j l) = lowLane j l := by decide

/-- Every stage pairs a lane with another, and the pairing is its own inverse (R229). -/
theorem stagePair_partner {sg l p : Nat} {up : Bool} (hs : sg < 22) (hl : l < 64) (h : stagePair sg l = some (p, up)) :
    p < 64 ∧ p ≠ l ∧ stagePair sg p = some (l, up) := by
  by_cases h21 : sg = 21
  · subst h21
    simp only [stagePair, if_true] at h ⊢
    split at h
    · cases h
    · obtain ⟨rfl, rfl⟩ := Prod.mk.inj (Option.some.inj h)
      refine ⟨by split <;> omega, by split <;> omega, ?_⟩
      rw [if_neg (by split <;> omega)]
      exact congrArg (fun n => some (n, true)) (by split <;> split <;> omega)
  · obtain ⟨hlt, hne, hinv, hlow⟩ := flipLane_pairs ⟨_, bitonic_lt (sg := sg) (by omega)⟩ ⟨l, hl⟩
    rw [stagePair_eq h21] at h ⊢
    obtain ⟨rfl, rfl⟩ := Prod.mk.inj (Option.some.inj h)
    exact ⟨hlt, hne, by simp only at hinv hlow; rw [hinv, hlow]⟩

/-! ### Rank -/

theorem above_iff (k i k' i' : W32) : above k i k' i' = true ↔
    Arith.totalKey k' < Arith.totalKey k ∨ Arith.totalKey k = Arith.totalKey k' ∧ i.toNat < i'.toNat := by simp [above]

/-- Of two pairs that differ, exactly one ranks above the other (R227). -/
theorem above_total {k i k' i' : W32} (h : Arith.totalKey k ≠ Arith.totalKey k' ∨ i ≠ i') :
    above k i k' i' = true ↔ above k' i' k i = false := by
  have hne : Arith.totalKey k ≠ Arith.totalKey k' ∨ i.toNat ≠ i'.toNat := h.imp_right fun hi he => hi (BitVec.eq_of_toNat_eq he)
  rw [← Bool.not_eq_true, above_iff, above_iff]
  omega

theorem above_irrefl (k i : W32) : above k i k i = false := by simp [above]

theorem above_trans {k i k' i' k'' i'' : W32} (h : above k i k' i' = true) (h' : above k' i' k'' i'' = true) :
    above k i k'' i'' = true := by
  rw [above_iff] at *
  omega

/-- Settles O22: the engine's instructions by their checks, the pairing of a stage by the lane it flips. -/
theorem selectEngineResults : Obligations.SelectEngineResults := by
  refine ⟨⟨fun s t x g a b cl sg hi hm hr => exec_cxs hi hm sg hr, fun s t x g a b cl ty ge hi hm hr => exec_thrc hi hm ty ge hr,
    fun s t x g a b cl dir hi hm hr => ?_⟩, fun sg l p up hs hl h => stagePair_partner hs hl h,
    fun sg l hs hl => by rw [stagePair_eq (by omega)]; rfl, fun _ _ _ _ h => above_total h, above_irrefl,
    fun _ _ _ _ _ _ => above_trans⟩
  have hx := exec_hist (g := g) hi hm dir hr
  refine ⟨fun hg => ?_, fun hg h0 h64 hc => ?_, fun hg hn => ?_, fun hg h0 h64 hc => ?_⟩ <;> rw [hx, hg]
  · rfl
  · rw [if_neg (by simp), if_neg (by omega), if_pos hc]
  · rw [if_neg (by simp), if_pos hn]
  · rw [if_neg (by simp), if_neg (by omega), if_neg (by omega)]

end Sys2Proof.Machine
end

section
/-!
PROOFS. What the computing instructions leave unchanged in a bundle (R36, R113, R131, R171 to R174): the statement of O60.
-/

namespace Sys2Proof.Machine

/-! ### How a meaning ends -/

/-- A sequence that ends well has gone well at its first step. -/
theorem bind_ok {α β : Type} {r : Res α} {f : α → Res β} {b : β} (h : (r >>= f) = .ok b) : ∃ a, r = .ok a ∧ f a = .ok b := by
  cases r with
  | error e => cases h
  | ok a => exact ⟨a, rfl, h⟩

theorem issuer_bundle {s : State} {t : Nat} {l : Latch} (hc : s.cur = some t) (hl : s.latch = some l) : s.issuer = .ok (t, l.ctx) := by
  simp [State.issuer, hc, hl]

/-- In a bundle a meaning completes, or its cause or its waiting is noted in the latch. -/
theorem conclude_bundle {s s' : State} {t : Nat} {l : Latch} {r : Res State} (hc : s.cur = some t) (hl : s.latch = some l)
    (h : conclude s r = .next s') : r = .ok s' ∨ ∃ f, s' = s.modLatch f := by
  cases r with
  | ok s1 => exact .inl (congrArg _ (Host.Outcome.next.inj h))
  | error e =>
    cases e with
    | trap c =>
      refine .inr ⟨fun l => { l with causes := l.causes ++ [(l.pos, c)] }, ?_⟩
      rw [← Host.Outcome.next.inj h, raise, hc, hl]
    | hold => exact .inr ⟨_, (Host.Outcome.next.inj h).symm⟩
    | fault f => cases h

/-! ### The frame of a slot -/

/-- What a slot of core c leaves alone that has only popped its operands. -/
def OnlyPops (s s' : State) (c : Nat) : Prop := Untouched s s' c ∧ s'.ctxs = s.ctxs
/-- What a slot of task t on core c leaves alone whose context then satisfies P. -/
def OnlyContext (s s' : State) (c t : Nat) (P : Context → Prop) : Prop :=
  Untouched s s' c ∧ (∀ u, u ≠ t → s'.ctx? u = s.ctx? u) ∧ ∃ z, s'.ctx? t = some z ∧ P z
/-- The outcome of a meaning of task t on operands read in context x, where t's context is y: it pops operands, and makes of y
one that satisfies P or leaves it. -/
def Computes (s : State) (t : Nat) (x y : Context) (P : Context → Prop) (o : Host.Outcome State Fault Refusal) : Prop :=
  ∃ r, o = conclude s r ∧ ∀ s1, r = .ok s1 → ∃ on os,
    s1 = popOps s x on os ∨ ∃ f, s1 = (popOps s x on os).modCtx t f ∧ P (f y)

theorem onlyPops_modLatch (s : State) (f : Latch → Latch) (c : Nat) : OnlyPops s (s.modLatch f) c :=
  ⟨⟨rfl, fun _ _ => rfl, ⟨s.core c, rfl⟩, fun _ => rfl⟩, rfl⟩

/-- Pops in a bundle change no other core. -/
theorem popOps_core_ne {s : State} {l : Latch} (hl : s.latch = some l) (x : Context) (on : Bool) (os : List Opd) {d : Nat}
    (hd : d ≠ x.core) : (popOps s x on os).core d = s.core d := by
  unfold popOps
  generalize (on && os.contains (.s .fin)) = p
  generalize (on && os.contains (.s .cq)) = q
  cases p <;> cases q <;> simp [hl, State.modCore_core_ne _ _ hd]

/-- They take a word from the receive FIFO of the slot's own core, which is then refilled. -/
theorem popOps_core_self {s : State} {l : Latch} (hl : s.latch = some l) (x : Context) (on : Bool) (os : List Opd) :
    (popOps s x on os).core x.core = if on && os.contains (.s .fin) then
      Core.refillRx { s.core x.core with rx := (s.core x.core).rx.drop 1 } 64 else s.core x.core := by
  unfold popOps
  generalize (on && os.contains (.s .fin)) = p
  generalize (on && os.contains (.s .cq)) = q
  cases p <;> cases q <;> simp [hl]

theorem onlyPops_popOps {s : State} {l : Latch} (hl : s.latch = some l) (x : Context) (on : Bool) (os : List Opd) :
    OnlyPops s (popOps s x on os) x.core := by
  obtain ⟨k, m, h⟩ := popOps_effect s x on os
  refine ⟨⟨by rw [h], fun d hd => popOps_core_ne hl x on os hd, ?_, fun _ => by rw [h]⟩, by rw [h]⟩
  rw [popOps_core_self hl]
  split
  · obtain ⟨r, d, m, hr⟩ := refillRx_effect 64 { s.core x.core with rx := (s.core x.core).rx.drop 1 }
    exact ⟨{ s.core x.core with rx := r, ringRd := d, ringN := m }, hr⟩
  · exact ⟨s.core x.core, rfl⟩

theorem untouched_modCtx {s s' : State} {c : Nat} (t : Nat) (f : Context → Context) (h : Untouched s s' c) :
    Untouched s (s'.modCtx t f) c := by
  obtain ⟨hs, hne, hc, hm⟩ := h
  refine ⟨?_, fun d hd => ?_, ?_, fun a => ?_⟩
  · unfold State.modCtx
    split
    · rw [State.setCtx, hs]
    · exact hs
  · rw [State.modCtx_core, hne d hd]
  · rw [State.modCtx_core]; exact hc
  · rw [State.modCtx_mem, hm]

theorem onlyContext_of_pops {s s' : State} {c t : Nat} {y : Context} {P : Context → Prop} (h : OnlyPops s s' c)
    (hy : s.ctx? t = some y) (hp : P y) : OnlyContext s s' c t P := by
  obtain ⟨hu, hx⟩ := h
  exact ⟨hu, fun u _ => by rw [State.ctx?, hx]; rfl, y, by rw [State.ctx?, hx]; exact hy, hp⟩

theorem onlyContext_modCtx {s s' : State} {c t : Nat} {y : Context} {P : Context → Prop} {f : Context → Context}
    (h : OnlyPops s s' c) (hy : s.ctx? t = some y) (hp : P (f y)) : OnlyContext s (s'.modCtx t f) c t P := by
  obtain ⟨hu, hx⟩ := h
  have hx' : ∀ u, s'.ctx? u = s.ctx? u := fun u => by rw [State.ctx?, hx]; rfl
  exact ⟨untouched_modCtx t f hu, fun u hne => by rw [State.modCtx_ctx?_ne _ _ hne, hx'], f y,
    by simp [State.modCtx_ctx?, hx', hy], hp⟩

section
variable {s s' : State} {t : Nat} {l : Latch} {y : Context} (hc : s.cur = some t) (hl : s.latch = some l)
  (hy : s.ctx? t = some y)
include hc hl hy

/-- The frame of a computing slot in a bundle. -/
theorem onlyContext_of_computes {P : Context → Prop} {o : Host.Outcome State Fault Refusal} (hp : P y)
    (h : Computes s t l.ctx y P o) (ho : o = .next s') : OnlyContext s s' l.ctx.core t P := by
  obtain ⟨r, rfl, hr⟩ := h
  rcases conclude_bundle hc hl ho with hok | ⟨f, rfl⟩
  · obtain ⟨on, os, rfl | ⟨f, rfl, hf⟩⟩ := hr _ hok
    · exact onlyContext_of_pops (onlyPops_popOps hl _ _ _) hy hp
    · exact onlyContext_modCtx (onlyPops_popOps hl _ _ _) hy hf
  · exact onlyContext_of_pops (onlyPops_modLatch s f _) hy hp

end

theorem Computes.mono {s : State} {t : Nat} {x y : Context} {P Q : Context → Prop} {o : Host.Outcome State Fault Refusal}
    (h : Computes s t x y P o) (hpq : ∀ z, P z → Q z) : Computes s t x y Q o := by
  obtain ⟨r, ho, hr⟩ := h
  refine ⟨r, ho, fun s1 h1 => ?_⟩
  obtain ⟨on, os, hs | ⟨f, hs, hf⟩⟩ := hr s1 h1
  · exact ⟨on, os, .inl hs⟩
  · exact ⟨on, os, .inr ⟨f, hs, hpq _ hf⟩⟩

/-! ### Instructions that push -/

/-- The context pushed an entry onto queue q. -/
def Pushed (y : Context) (q : Qn) (z : Context) : Prop :=
  ∃ lat v, z = { y with fr := y.fr.push q lat v y.nextId, nextId := y.nextId + 1 }

theorem issued_ok {s s1 : State} {t : Nat} {x : Context} {b : Nat × Context → Res State} (hi : s.issuer = .ok (t, x))
    (h : (s.issuer >>= b) = .ok s1) : b (t, x) = .ok s1 := by
  rw [hi] at h
  exact h

/-- A bit-field instruction pushes A or the field, where it raises nothing. -/
theorem pushed_of_field {s s1 : State} {t op lat : Nat} {on : Bool} {fo : Option (Nat × Nat)} {va vb : W64} {f : Nat → Nat → W64}
    (h : (if !on then pure (pushS s t lat va) else
      match fo with
      | none => operand op vb
      | some (pos, len) => pure (pushS s t lat (f pos len)) : Res State) = .ok s1) : ∃ w, s1 = pushS s t lat w := by
  cases on <;> cases fo <;> cases h <;> exact ⟨_, rfl⟩

section
variable {s : State} {t : Nat} {x : Context} (y : Context) (hi : s.issuer = .ok (t, x))
include hi

theorem sBin_computes (g : Guard) (a b : SSel) (lat : Nat) (f : W64 → W64 → W64) :
    Computes s t x y (Pushed y .s) (sBin g a b lat f s) := by
  refine ⟨_, rfl, fun s1 h => ?_⟩
  obtain ⟨_, -, h⟩ := bind_ok (issued_ok hi h)
  cases h
  exact ⟨_, _, .inr ⟨_, rfl, _, _, rfl⟩⟩

theorem sUn_computes (gd : Context → Bool) (a : SSel) (lat : Nat) (f : W64 → W64) :
    Computes s t x y (Pushed y .s) (sUn gd a lat f s) := by
  refine ⟨_, rfl, fun s1 h => ?_⟩
  obtain ⟨_, -, h⟩ := bind_ok (issued_ok hi h)
  cases h
  exact ⟨_, _, .inr ⟨_, rfl, _, _, rfl⟩⟩

theorem execMovi_computes (g : BitVec 3) (i : BitVec 13) : Computes s t x y (Pushed y .s) (execMovi g i s) := by
  refine ⟨_, rfl, fun s1 h => ?_⟩
  obtain ⟨_, -, h⟩ := bind_ok (issued_ok hi h)
  cases h
  exact ⟨false, [], .inr ⟨_, rfl, _, _, rfl⟩⟩

theorem execSel_computes (g : Guard) (a b : SSel) (p : BitVec 3) : Computes s t x y (Pushed y .s) (execSel g a b p s) := by
  refine ⟨_, rfl, fun s1 h => ?_⟩
  obtain ⟨_, -, h⟩ := bind_ok (issued_ok hi h)
  cases h
  exact ⟨_, _, .inr ⟨_, rfl, _, _, rfl⟩⟩

theorem execBfx_computes (g : Guard) (a b : SSel) (u : Bool) : Computes s t x y (Pushed y .s) (execBfx g a b u s) := by
  refine ⟨_, rfl, fun s1 h => ?_⟩
  obtain ⟨_, -, h⟩ := bind_ok (issued_ok hi h)
  obtain ⟨w, rfl⟩ := pushed_of_field (f := fun pos len => bfxVal (sVal s x (gTrue g x) a) pos len u) h
  exact ⟨_, _, .inr ⟨_, rfl, _, _, rfl⟩⟩

theorem execBfi_computes (g : Guard) (a b : SSel) (m : BitVec 4) : Computes s t x y (Pushed y .s) (execBfi g a b m s) := by
  refine ⟨_, rfl, fun s1 h => ?_⟩
  obtain ⟨_, -, h⟩ := bind_ok (issued_ok hi h)
  obtain ⟨w, rfl⟩ := pushed_of_field (f := bfiVal (sVal s x (gTrue g x) a) (x.qsAt m)) h
  exact ⟨_, _, .inr ⟨_, rfl, _, _, rfl⟩⟩

theorem vOp_computes {c : Clu} {q : Qn} (hq : cluQ c = q) (g : Guard) (os : List Opd) (lat : Nat) (base f : Context → VReg) :
    Computes s t x y (Pushed y q) (vOp c g os lat base f s) := by
  refine ⟨_, rfl, fun s1 h => ?_⟩
  obtain ⟨_, -, h⟩ := bind_ok (issued_ok hi h)
  obtain ⟨_, -, h⟩ := bind_ok h
  cases h
  exact ⟨false, [], .inr ⟨_, rfl, _, _, by rw [hq]⟩⟩

theorem exec_computes_s {i : Instr} (h : pushQueue i = some .s) : Computes s t x y (Pushed y .s) (exec i s) := by
  delta exec
  unfold pushQueue at h
  split at h
  all_goals cases h
  all_goals dsimp only
  iterate 9 exact sBin_computes y hi ..
  iterate 3 exact sUn_computes y hi ..
  iterate 2 exact sBin_computes y hi ..
  iterate 2 exact sUn_computes y hi ..
  · exact execMovi_computes y hi ..
  iterate 2 exact sBin_computes y hi ..
  iterate 2 exact sUn_computes y hi ..
  · exact execBfx_computes y hi ..
  · exact execBfi_computes y hi ..
  · exact sUn_computes y hi ..
  · exact execSel_computes y hi ..

theorem exec_computes_a {i : Instr} (h : pushQueue i = some .a) : Computes s t x y (Pushed y .a) (exec i s) := by
  delta exec
  unfold pushQueue at h
  split at h
  all_goals cases h
  all_goals dsimp only [execVaddA, execVsubA, execVmulA, execVfmaA, execVfmsA, execVaddminA, execVminA, execVmaxA,
    execVabsA, execVnegA, execVandA, execVorA, execVxorA, execVshlA, execVshrA, vAdd, vSub, vMul, vFma, vAddmin, vMin,
    vMax, vAbs, vNeg, vBit, vShl, vShr, vBin, vUn, vTri]
  all_goals exact vOp_computes y hi (c := .a) rfl ..

theorem exec_computes_b {i : Instr} (h : pushQueue i = some .b) : Computes s t x y (Pushed y .b) (exec i s) := by
  delta exec
  unfold pushQueue at h
  split at h
  all_goals cases h
  all_goals dsimp only [execVaddB, execVsubB, execVmulB, execVfmaB, execVfmsB, execVaddminB, execVminB, execVmaxB,
    execVabsB, execVnegB, execVandB, execVorB, execVxorB, execVshlB, execVshrB, vAdd, vSub, vMul, vFma, vAddmin, vMin,
    vMax, vAbs, vNeg, vBit, vShl, vShr, vBin, vUn, vTri]
  all_goals exact vOp_computes y hi (c := .b) rfl ..

theorem exec_computes {i : Instr} {q : Qn} (h : pushQueue i = some q) : Computes s t x y (Pushed y q) (exec i s) := by
  cases q with
  | s => exact exec_computes_s y hi h
  | a => exact exec_computes_a y hi h
  | b => exact exec_computes_b y hi h

end

/-! ### CMP, PLOG, PUTX, XADDI and PUT -/

/-- Only predicate d of the context may have changed. -/
def SetsPred (y : Context) (d : BitVec 3) (z : Context) : Prop :=
  ∃ p, z = { y with fr := { y.fr with ps := p } } ∧ ∀ j, j ≠ d.toNat → p.getLsbD j = y.fr.ps.getLsbD j
/-- Only index register r may have. -/
def SetsIdx (y : Context) (r : IdxReg) (z : Context) : Prop :=
  z = { y with fr := { y.fr with xs := z.fr.xs, xa := z.fr.xa, xb := z.fr.xb } } ∧ ∀ q, q ≠ r → z.xReg q = y.xReg q
/-- Only the k registers for which `own` holds may have, and their live bits. -/
def SetsK (y : Context) (own : Nat → Prop) (z : Context) : Prop :=
  z = { y with k := z.k, liveK := z.liveK } ∧
    ∀ r, ¬ own r → z.k.getD r 0 = y.k.getD r 0 ∧ z.liveK.getLsbD r = y.liveK.getLsbD r

theorem getLsbD_twoPow_ne (w : Nat) {n j : Nat} (h : j ≠ n) : (BitVec.ofNat w (2 ^ n)).getLsbD j = false := by
  rw [BitVec.getLsbD_ofNat, Nat.testBit_two_pow_of_ne h.symm, Bool.and_false]

theorem getLsbD_setBit8 (p : BitVec 8) {d j : Nat} (v : Bool) (h : j ≠ d) : (setBit8 p d v).getLsbD j = p.getLsbD j := by
  have hb := getLsbD_twoPow_ne 8 h
  unfold setBit8
  split
  · rw [BitVec.getLsbD_or, hb, Bool.or_false]
  · rw [BitVec.getLsbD_and, BitVec.getLsbD_not, hb, Bool.not_false, Bool.and_true]
    rcases Nat.lt_or_ge j 8 with hj | hj
    · simp [hj]
    · simp [BitVec.getLsbD_of_ge p j hj]

theorem setsPred_set (y : Context) (d : BitVec 3) (v : Bool) :
    SetsPred y d { y with fr := { y.fr with ps := setBit8 y.fr.ps d.toNat v } } :=
  ⟨_, rfl, fun _ hj => getLsbD_setBit8 _ v hj⟩

/-- What `wrX` makes of a context. -/
def Context.withX (y : Context) (v : W32) : IdxReg → Context
  | .xs => { y with fr := { y.fr with xs := v } }
  | .xa => { y with fr := { y.fr with xa := v } }
  | .xb => { y with fr := { y.fr with xb := v } }

theorem wrX_eq (s : State) (t : Nat) (r : IdxReg) (v : W32) : wrX s t r v = s.modCtx t fun y => y.withX v r := rfl

theorem setsIdx_withX (y : Context) (r : IdxReg) (v : W32) : SetsIdx y r (y.withX v r) := by
  cases r <;> refine ⟨rfl, fun q hq => ?_⟩ <;> cases q <;> trivial

theorem setsK_set {y : Context} {own : Nat → Prop} {n : Nat} (v : W64) (h : own n) :
    SetsK y own { y with k := y.k.setIfInBounds n v, liveK := y.liveK ||| BitVec.ofNat 32 (2 ^ n) } := by
  refine ⟨rfl, fun r hr => ?_⟩
  have hne : n ≠ r := fun he => hr (he ▸ h)
  constructor
  · simp [Vector.getD, hne]
  · simp only [BitVec.getLsbD_or, getLsbD_twoPow_ne 32 hne.symm, Bool.or_false]

/-- A slot that passes its checks names registers of its file. -/
theorem reg_nonneg_of_guardOps {s : State} {x : Context} {on : Bool} {os : List Opd} {n : Nat} {o : Opd} {f : File3} {r : Int} {u : Unit}
    (h : guardOps s x on os n = .ok u) (ho : o ∈ os) (hreg : o.reg x = some (f, r)) : 0 ≤ r := by
  have hidx : os.findSome? (idxStop x) = none := by
    unfold guardOps check at h
    cases hf : os.findSome? (idxStop x) with
    | none => rfl
    | some e => simp [hf] at h
  have hstop := List.findSome?_eq_none_iff.mp hidx o ho
  unfold idxStop at hstop
  rw [hreg] at hstop
  by_contra hneg
  simp [hneg] at hstop

section
variable {s : State} {t : Nat} {x : Context} (y : Context) (hi : s.issuer = .ok (t, x))
include hi

theorem execCmp_computes (g : Guard) (a b : SSel) (cond : CmpCond) (d : BitVec 3) :
    Computes s t x y (SetsPred y d) (execCmp g a b cond d s) := by
  refine ⟨_, rfl, fun s1 h => ?_⟩
  obtain ⟨_, -, h⟩ := bind_ok (issued_ok hi h)
  cases h
  refine ⟨gTrue g x, [.s a, .s b], ?_⟩
  split
  · exact .inr ⟨_, rfl, setsPred_set y d _⟩
  · exact .inl rfl

theorem execPlog_computes (g : Guard) (a b : BitVec 3) (op : PlogOp) (d : BitVec 3) :
    Computes s t x y (SetsPred y d) (execPlog g a b op d s) := by
  refine ⟨_, rfl, fun s1 h => ?_⟩
  obtain ⟨_, -, h⟩ := bind_ok (issued_ok hi h)
  cases h
  refine ⟨false, [], ?_⟩
  split
  · exact .inr ⟨_, rfl, setsPred_set y d _⟩
  · exact .inl rfl

theorem execPutx_computes (g : Guard) (a : SSel) (r : IdxReg) : Computes s t x y (SetsIdx y r) (execPutx g a r s) := by
  refine ⟨_, rfl, fun s1 h => ?_⟩
  obtain ⟨_, -, h⟩ := bind_ok (issued_ok hi h)
  cases h
  refine ⟨gTrue g x, [.s a], ?_⟩
  split
  · exact .inr ⟨_, wrX_eq .., setsIdx_withX y r _⟩
  · exact .inl rfl

theorem execXaddi_computes (g : BitVec 3) (r : IdxReg) (i : BitVec 13) : Computes s t x y (SetsIdx y r) (execXaddi g r i s) := by
  refine ⟨_, rfl, fun s1 h => ?_⟩
  obtain ⟨_, -, h⟩ := bind_ok (issued_ok hi h)
  cases h
  refine ⟨false, [], ?_⟩
  split
  · exact .inr ⟨_, wrX_eq .., setsIdx_withX y r _⟩
  · exact .inl rfl

theorem execPut_computes (g : Guard) (a : SSel) {d : KDst} (hd : d ≠ .fout) :
    Computes s t x y (SetsK y fun r => (Opd.d d).reg x = some (.k, (r : Int))) (execPut g a d s) := by
  refine ⟨_, rfl, fun s1 h => ?_⟩
  obtain ⟨_, hg, h⟩ := bind_ok (issued_ok hi h)
  dsimp only at h
  split at h
  · cases h
    exact ⟨false, [], .inl (popOps_nil s x _).symm⟩
  · refine ⟨gTrue g x, [.s a], .inr ?_⟩
    cases d with
    | fout => exact absurd rfl hd
    | k r =>
      cases h
      exact ⟨_, rfl, setsK_set _ rfl⟩
    | kx j =>
      cases h
      refine ⟨_, rfl, setsK_set _ ?_⟩
      have hpos := reg_nonneg_of_guardOps hg (o := .d (.kx j)) (by simp) rfl
      exact congrArg (fun n => some (File3.k, n)) (Int.toNat_of_nonneg hpos).symm

end

/-! ### ST and STW -/

/-- What a slot leaves alone that only asks for a store. -/
def OnlyAsks (s s' : State) : Prop :=
  s'.ctxs = s.ctxs ∧ (∀ c, (s'.core c).pool = (s.core c).pool ∧ (s'.core c).full = (s.core c).full ∧ (s'.core c).cq = (s.core c).cq) ∧
    ∀ a, rd8 s'.mem a = rd8 s.mem a

theorem onlyAsks_of_pops {s s' : State} {c : Nat} (h : OnlyPops s s' c) : OnlyAsks s s' := by
  obtain ⟨⟨-, hne, ⟨r, hr⟩, hm⟩, hx⟩ := h
  refine ⟨hx, fun d => ?_, hm⟩
  by_cases hd : d = c
  · subst hd; rw [hr]; exact ⟨rfl, rfl, rfl⟩
  · rw [hne d hd]; exact ⟨rfl, rfl, rfl⟩

theorem onlyAsks_dropClean {s s' : State} (c : Nat) (h : OnlyAsks s s') : OnlyAsks s (dropClean s' c) := by
  obtain ⟨hx, hk, hm⟩ := h
  refine ⟨hx, fun d => ?_, hm⟩
  unfold dropClean
  rw [State.modCore_core]
  split
  · subst d; exact hk c
  · exact hk d

theorem deferWrite_bundle {s : State} {l : Latch} (hl : s.latch = some l) (src : Nat) (w : Write) :
    deferWrite s src w = s.modLatch fun l => { l with writes := w :: l.writes, far := w.farSlot ++ l.far } := by
  simp [deferWrite, hl]

theorem onlyAsks_spStore {s s' : State} {l : Latch} (hl : s'.latch = some l) (c rc o : Nat) (fe : FeS) (bs : List (Nat × Byte))
    (ls : List Nat) (h : OnlyAsks s s') : OnlyAsks s (spStore s' c rc o fe bs ls) := by
  unfold spStore
  dsimp only
  split
  · rw [deferWrite_bundle (s := dropClean s' rc) hl]
    exact onlyAsks_dropClean rc h
  · rw [deferWrite_bundle hl]
    exact h

theorem spSt_asks {s s' : State} {t : Nat} {l : Latch} (hc : s.cur = some t) (hl : s.latch = some l) (g : Guard) (a b : SSel)
    (fe : FeS) (sz : Size) (w : Space) (h : spSt g a b fe sz w s = .next s') : OnlyAsks s s' := by
  rcases conclude_bundle hc hl h with hok | ⟨f, rfl⟩
  · obtain ⟨_, -, hok⟩ := bind_ok (issued_ok (issuer_bundle hc hl) hok)
    dsimp only at hok
    split at hok
    · cases hok
      exact onlyAsks_of_pops (c := l.ctx.core) ⟨⟨rfl, fun _ _ => rfl, ⟨s.core l.ctx.core, rfl⟩, fun _ => rfl⟩, rfl⟩
    · obtain ⟨⟨c, o⟩, -, hok⟩ := bind_ok hok
      dsimp only at hok
      split at hok
      · cases hok
      · obtain ⟨_, -, hok⟩ := bind_ok hok
        cases hok
        obtain ⟨l', hl'⟩ : ∃ l', (popOps s l.ctx (gTrue g l.ctx) [.s a, .s b]).latch = some l' :=
          Option.isSome_iff_exists.mp (by rw [popOps_latch_isSome, hl]; rfl)
        exact onlyAsks_spStore hl' _ _ _ _ _ _ (onlyAsks_of_pops (onlyPops_popOps hl _ _ _))
  · exact onlyAsks_of_pops (onlyPops_modLatch s f l.ctx.core)

/-- Settles O60: every computing instruction checks, pops and then changes its task's context alone, or asks for a store. -/
theorem frames : Obligations.Frames := by
  intro s s' t l y hc hl hy
  have hi := issuer_bundle hc hl
  refine ⟨fun i q hq h => ?_, fun g a b cond d h => ?_, fun g a b op d h => ?_, fun i r hir h => ?_, fun g a d hd h => ?_,
    fun i hi' h => ?_⟩
  · obtain ⟨hu, hne, z, hz, hp⟩ := onlyContext_of_computes (P := fun z => z = y ∨ Pushed y q z) hc hl hy (.inl rfl)
      ((exec_computes y hi hq).mono fun _ => .inr) h
    exact ⟨hu, hne, by rcases hp with rfl | ⟨lat, v, rfl⟩; exacts [.inl hz, .inr ⟨lat, v, hz⟩]⟩
  · obtain ⟨hu, hne, z, hz, p, rfl, hp⟩ := onlyContext_of_computes hc hl hy ⟨y.fr.ps, rfl, fun _ _ => rfl⟩
      (execCmp_computes y hi g a b cond d) h
    exact ⟨hu, hne, p, hz, hp⟩
  · obtain ⟨hu, hne, z, hz, p, rfl, hp⟩ := onlyContext_of_computes hc hl hy ⟨y.fr.ps, rfl, fun _ _ => rfl⟩
      (execPlog_computes y hi g a b op d) h
    exact ⟨hu, hne, p, hz, hp⟩
  · have hcomp : Computes s t l.ctx y (SetsIdx y r) (exec i s) := by
      obtain ⟨g, a, rfl⟩ | ⟨g, n, rfl⟩ := hir
      · exact execPutx_computes y hi g a r
      · exact execXaddi_computes y hi g r n
    exact onlyContext_of_computes hc hl hy ⟨rfl, fun _ _ => rfl⟩ hcomp h
  · exact onlyContext_of_computes hc hl hy ⟨rfl, fun _ _ => ⟨rfl, rfl⟩⟩ (execPut_computes y hi g a hd) h
  · obtain ⟨g, a, b, fe, sz, rfl⟩ | ⟨g, a, b, fe, sz, rfl⟩ := hi'
    · exact spSt_asks hc hl g a b fe sz .own h
    · exact spSt_asks hc hl g a b fe sz .win h

end Sys2Proof.Machine
end

section
/-!
PROOFS. Weight halves, modes and formats of the matrix engine (R248 to R278): the statement of O24.
-/

namespace Sys2Proof.Machine

/-- A check that does not hold stops nothing. -/
theorem meStop_skip {p : Bool × Nat × W64} {r : List (Bool × Nat × W64)} (h : p.1 = false) : meStop (p :: r) = meStop r := by
  obtain ⟨b, n, i⟩ := p
  cases h
  rfl

@[simp] theorem setHalf_filled (m : MatrixEng) (h : Nat) (v : Half) : (m.setHalf h v).filled = m.filled := by
  unfold MatrixEng.setHalf
  split <;> rfl

section
variable {s : State} {t : Nat} {x : Context} {g : Guard} (hi : s.issuer = .ok (t, x)) (hm : x.trapMode = false)
include hi hm

/-! ### A true guard -/

section
variable (hg : gTrue g x = true)
include hg

theorem exec_mstat (hr : readable s x true [] 1 = true) : exec (.mstat g) s = .next (pushS s t 2 (mestat s x.core t)) := by
  change execMstat g s = _
  simp [execMstat, hi, hg, noTrapMode_ok hm, guardOps_ok hr, bind, Except.bind, pure, Except.pure]

section
variable (hb : (busySweep s x.core t).1 = false)
include hb

theorem exec_mwld {a : SSel} {h : BitVec 1} (hr : readable s x true [.s a] 0 = true)
    (hsel : ¬((s.core x.core).me.selv = true ∧ (s.core x.core).me.sel = h.toNat))
    (hst : ((s.core x.core).me.half h.toNat).st ≠ .loading) (hd : drainHeld s x t x.core = false) :
    let s0 := popOps s x true [.s a]
    let half : Half := { st := .loading, src := sVal s x true a, task := t, launch := x.launch, fetch := inSweep s0 x.core t,
                         fork := forkOf s0 t x }
    exec (.mwld g a h) s = .next ((popOps s x true [.s a]).modMe x.core fun m =>
      { m.setHalf h.toNat half with filled := if (m.filled.map (·.1)) = some h.toNat then none else m.filled }) := by
  have hfree : ((s.core x.core).me.selv && (s.core x.core).me.sel == h.toNat ||
      ((s.core x.core).me.half h.toNat).st == .loading) = false := by
    rw [Bool.or_eq_false_iff, beq_eq_false_iff_ne]
    exact ⟨Bool.eq_false_iff.mpr fun h => hsel (by simpa using h), hst⟩
  have hstop : meStop [((s.core x.core).me.selv && (s.core x.core).me.sel == h.toNat ||
      ((s.core x.core).me.half h.toNat).st == .loading, 4, BitVec.ofNat 64 h.toNat), busySweep s x.core t] = .ok () := by
    rw [meStop_skip hfree, meStop_skip hb]; rfl
  change execMwld g a h s = _
  simp only [execMwld, hi, hg, noTrapMode_ok hm, guardOps_ok hr, bind, Except.bind, pure, Except.pure, hstop, hd,
    setHalf_filled, Bool.not_true, Bool.false_eq_true, if_false, conclude_ok]

/-- MWSEL by the state of its half (R255, R265). -/
theorem exec_mwsel (h : BitVec 1) :
    let m := (s.core x.core).me
    let f := m.half h.toNat
    exec (.mwsel g h) s = match f.st with
      | .empty => .next (raise s { code := cMatrix, sub := 2, info := BitVec.ofNat 64 h.toNat })
      | .failed => .next (raise s
          { code := cMatrix, sub := 3, info := BitVec.ofNat 64 f.detail, addr := f.addr, aux := h.toNat, fetch := f.fetch })
      | .loading => .next (s.modLatch fun l => { l with held := true })
      | .ready => .next (if m.selv = true ∧ m.sel = h.toNat then s else
          s.modMe x.core fun m => { m with sel := h.toNat, selv := true, filled := none, filling := none }) := by
  change execMwsel g h s = _
  simp only [execMwsel, hi, hg, noTrapMode_ok hm, guardOps_nil, meStop_skip hb, bind, Except.bind, pure, Except.pure]
  cases hst : ((s.core x.core).me.half h.toNat).st
  case ready =>
    by_cases hsel : (s.core x.core).me.selv = true ∧ (s.core x.core).me.sel = h.toNat
    · simp only [if_pos hsel]; rfl
    · simp only [if_neg hsel]; rfl
  all_goals rfl

theorem exec_mswap (w : Gw) : exec (.mswap g w) s = .next (s.modMe x.core fun m =>
    { m with gw := w, slots := [], inv := false, outv := false, filled := none, filling := none }) := by
  change execMswap g w s = _
  simp [execMswap, hi, hg, noTrapMode_ok hm, guardOps_nil, meStop_skip hb, meStop, bind, Except.bind, pure, Except.pure]

theorem exec_mfmt (f : AFmt) : exec (.mfmt g f) s = .next (s.modMe x.core fun m =>
    { m with afmt := f, slots := [], inv := false, outv := false, filled := none, filling := none }) := by
  change execMfmt g f s = _
  simp [execMfmt, hi, hg, noTrapMode_ok hm, guardOps_nil, meStop_skip hb, meStop, bind, Except.bind, pure, Except.pure]

end
end

end

/-- Settles O24: each instruction by its checks; under a false guard its meaning ends behind them. -/
theorem matrixControl : Obligations.MatrixControl := by
  refine ⟨fun s t x g hi hm hg hb => ?_, fun s t x g hi hm hg => ?_⟩
  · have hsel := fun h => exec_mwsel hi hm hg hb h
    refine ⟨fun a h hr hs hst hd => exec_mwld hi hm hg hb hr hs hst hd, fun h hst hn => ?_, fun h hst hy => ?_, fun h hst => ?_,
      fun h hst => ?_, fun h hst => ?_, fun w => exec_mswap hi hm hg hb w, fun f => exec_mfmt hi hm hg hb f,
      fun hr => exec_mstat hi hm hg hr⟩
    all_goals rw [hsel h, hst]
    · rw [if_neg hn]
    · rw [if_pos hy]
  · refine ⟨fun a h hr => ?_, fun h => ?_, fun a b cl acc seg hr => ?_, fun b acc seg hr => ?_, fun a hr => ?_,
      fun a b cl df clr hr => ?_, fun a n hr => ⟨?_, ?_⟩, ?_, fun w => ?_, fun f => ?_, fun hr => ?_⟩
    all_goals delta exec; dsimp only
    all_goals simp [execMwld, execMwsel, execMpush, execMshift, execMacc, execMdrn, execMzero, execMsweep, execMend, execMswap,
      execMfmt, execMstat, noTrapMode_ok, guardOps_nil, guardOps_ok, *, bind, Except.bind, pure, Except.pure]

end Sys2Proof.Machine
end

section
/-!
PROOFS. Steps, fetch, and the execution of a bundle (R25, R36, R89, R104, R139, R146, R153): the statement of O55.
-/

namespace Sys2Proof.Machine

/-! ### What a slot executes -/

/-- An instruction that a word encodes means in a bundle what it means alone. -/
theorem slotExec_eq_exec {i : Instr} {f : Fields} (h : i.fields = some f) (s : State) : slotExec i s = exec i s := by
  delta slotExec exec
  cases i
  all_goals dsimp only
  all_goals cases h

theorem slotExec_of_decodeWord {w : W32} {i : Instr} (h : decodeWord w = .ok i) (s : State) : slotExec i s = exec i s := by
  obtain ⟨-, hf⟩ := decodeWord_eq_ok_iff.mp h
  exact slotExec_eq_exec hf s

/-! ### Fetch -/

section
variable {s : State} {c : Nat} {pc : W64} {ws : List W32}
  (hw : ∀ k, k < ws.length → ∃ pa nc, xlate s c (pc + BitVec.ofNat 64 (4 * k)) .ex = .ok (s, pa, nc) ∧
    s.poison.contains (pa / 128) = false ∧ ws[k]? = some (laneOf (rdBytes s.mem pa 4)) ∧
    endsBundle (laneOf (rdBytes s.mem pa 4)) = decide (k + 1 = ws.length))
include hw

/-- A word of the bundle is fetched as it stands in memory, and E marks the last. -/
theorem fetchWord_mapped {k : Nat} (hk : k < ws.length) :
    fetchWord s c (pc + BitVec.ofNat 64 (4 * k)) = (s, .ok ws[k]) ∧ endsBundle ws[k] = decide (k + 1 = ws.length) := by
  obtain ⟨pa, nc, hx, hp, hg, he⟩ := hw k hk
  rw [List.getElem?_eq_getElem hk, Option.some.injEq] at hg
  rw [hg, fetchWord, hx]
  exact ⟨by simp only [hp, Bool.false_eq_true, if_false], he⟩

/-- The fetch goes on from the k-th word to the last. -/
theorem fetchRun_mapped {k n : Nat} (hk : k < ws.length) (hn : ws.length ≤ k + n) :
    fetchRun s c (pc + BitVec.ofNat 64 (4 * k)) (ws.take k) n = (s, .ok ws) := by
  induction n generalizing k with
  | zero => omega
  | succ n ih =>
    obtain ⟨hf, he⟩ := fetchWord_mapped hw hk
    have htake : ws.take k ++ [ws[k]] = ws.take (k + 1) := List.take_append_getElem hk
    rw [fetchRun, hf]
    dsimp only
    rw [he, htake]
    by_cases hlast : k + 1 = ws.length
    · rw [if_pos (decide_eq_true hlast), hlast, List.take_length]
    · rw [if_neg (by simpa using hlast)]
      have hva : pc + BitVec.ofNat 64 (4 * k) + 4 = pc + BitVec.ofNat 64 (4 * (k + 1)) := by
        rw [Nat.mul_succ, BitVec.ofNat_add, BitVec.add_assoc]
        rfl
      rw [hva]
      exact ih (by omega) (by omega)

end

theorem bundleAt_fetch {s : State} {x : Context} {n : Nat} {va : W64} (hn : x.fr.nest.act = []) (hf : x.fetched = none) :
    bundleAt s x n va = fetchRun s x.core va [] 8 := by
  simp [bundleAt, hn, hf]

theorem bundleAt_captured {s : State} {x : Context} {n : Nat} {ws : List W32} {va : W64} (hn : x.fr.nest.act ≠ [])
    (hb : look x.fr.nest.buf n = some (va, ws)) : bundleAt s x n va = (s, .ok ws) := by
  have hne : x.fr.nest.act.isEmpty = false := by simpa using hn
  simp [bundleAt, hne, hb]

/-! ### The order of execution -/

theorem insBy_perm {α : Type} (before : α → α → Bool) (a : α) (l : List α) : (insBy before a l).Perm (a :: l) := by
  induction l with
  | nil => exact .refl _
  | cons b r ih =>
    unfold insBy
    split
    · exact .refl _
    · exact (ih.cons b).trans (.swap a b r)

theorem sortBy_perm {α : Type} (before : α → α → Bool) (l : List α) : (sortBy before l).Perm l := by
  induction l with
  | nil => exact .refl _
  | cons a r ih => exact (insBy_perm before a _).trans (ih.cons a)

/-- One slot executes ahead of another (R36). -/
def Slot.Ahead (a b : Slot) : Prop := orderRank a.cls < orderRank b.cls ∨ (orderRank a.cls = orderRank b.cls ∧ a.pos < b.pos)

/-- A slot that stands before all of an ordered list in its bundle takes its place in it. -/
theorem ahead_insBy {a : Slot} {l : List Slot} (hl : l.Pairwise Slot.Ahead) (ha : ∀ b ∈ l, a.pos < b.pos) :
    (insBy (fun a b => decide (orderRank a.cls ≤ orderRank b.cls)) a l).Pairwise Slot.Ahead := by
  induction l with
  | nil => exact List.pairwise_singleton _ a
  | cons b r ih =>
    obtain ⟨hb, hr⟩ := List.pairwise_cons.mp hl
    have hab := ha b (List.mem_cons_self ..)
    unfold insBy
    split
    · rename_i hle
      rw [decide_eq_true_eq] at hle
      refine List.pairwise_cons.mpr ⟨fun d hd => ?_, hl⟩
      have had := ha d hd
      rcases List.mem_cons.mp hd with rfl | hd
      · unfold Slot.Ahead; omega
      · have hbd := hb d hd
        unfold Slot.Ahead at *; omega
    · rename_i hlt
      rw [decide_eq_true_eq] at hlt
      refine List.pairwise_cons.mpr ⟨fun d hd => ?_, ih hr fun d hd => ha d (List.mem_cons_of_mem _ hd)⟩
      rcases List.mem_cons.mp ((insBy_perm _ a r).mem_iff.mp hd) with rfl | hd
      · exact .inl (by omega)
      · exact hb d hd

theorem inOrder_pairwise {ps : List Slot} (h : ps.Pairwise fun a b => a.pos < b.pos) : (inOrder ps).Pairwise Slot.Ahead := by
  induction ps with
  | nil => exact .nil
  | cons a r ih =>
    obtain ⟨ha, hr⟩ := List.pairwise_cons.mp h
    exact ahead_insBy (ih hr) fun b hb => ha b ((sortBy_perm _ r).mem_iff.mp hb)

theorem slotsOf_pairwise (ws : List W32) : (slotsOf ws).Pairwise fun a b => a.pos < b.pos := by
  refine List.pairwise_map.mpr ?_
  rw [List.pairwise_iff_getElem]
  intro i j hi hj hij
  simpa using hij

theorem slotsOf_get {ws : List W32} {p : Slot} (h : p ∈ slotsOf ws) : ws[p.pos]? = some p.word ∧ p.ins = decodeWord p.word := by
  obtain ⟨⟨w, n⟩, hq, rfl⟩ := List.mem_map.mp h
  exact ⟨List.mk_mem_zipIdx_iff_getElem?.mp hq, rfl⟩

/-! ### A slot of a bundle -/

theorem runSlot_error {r : RunSt} {p : Slot} {d : DecErr} (h : p.ins = .error d) : runSlot r p = r := by
  simp [runSlot, Slot.instr?, h]

/-- What a slot leaves whose instruction completes. -/
theorem runSlot_ok {r : RunSt} {p : Slot} {i : Instr} {s' : State} {l : Latch} (hp : p.ins = .ok i) (hd : decodeWord p.word = .ok i)
    (he : exec i (r.s.modLatch fun l => { l with pos := p.pos, ce := r.secondC, writes := [], cwrites := [] }) = .next s')
    (hl : s'.latch = some l) :
    runSlot r p = { s := s'.modLatch fun l' => { l' with causes := l'.causes ++ (slotEcc r.s l.ctx i).map fun c => (p.pos, c) },
                    ws := ((l.writes.map fun v => (portRank p.cls, v)) ++ l.cwrites.map fun v => (if r.secondC then 6 else 5, v)) ++ r.ws,
                    secondC := r.secondC || p.cls == 4 } := by
  rw [← slotExec_of_decodeWord hd] at he
  simp only [runSlot, Slot.instr?, hp, he, hl]

theorem modLatch_causes_nil (s : State) (p : Nat) :
    (s.modLatch fun l => { l with causes := l.causes ++ ([] : List Cause).map fun c => (p, c) }) = s := by
  simp [State.modLatch]

/-- An opened bundle is at its first place and holds no store. -/
theorem openBundle_slot (s : State) (t : Nat) (x : Context) (ws : List W32) :
    ((openBundle s t x ws).modLatch fun l => { l with pos := 0, ce := false, writes := [], cwrites := [] }) = openBundle s t x ws := rfl

/-- The bundle of one word runs it in the opened bundle. -/
theorem runSlots_single {s : State} {t : Nat} {x : Context} {w : W32} :
    runSlots s t x [w] = runSlot { s := openBundle s t x [w] } { pos := 0, word := w, ins := decodeWord w } := rfl

theorem slotsRun : SlotsRun := by
  refine ⟨fun ws => ⟨sortBy_perm _ _, fun p hp => slotsOf_get ((sortBy_perm _ _).mem_iff.mp hp),
    inOrder_pairwise (slotsOf_pairwise ws), fun _ _ _ => rfl⟩, fun r p d h => runSlot_error h, fun r p i s' l hp hd he hl => ?_,
    fun s t x w i s' l hd he hl hecc => ?_⟩
  · rw [runSlot_ok hp hd he hl]
    refine ⟨fun hecc => ?_, ?_, rfl, rfl⟩
    · rw [hecc]
      exact modLatch_causes_nil s' p.pos
    · simp only [State.modLatch, hl, Option.map_some]
  · rw [← openBundle_slot] at he
    rw [runSlots_single, runSlot_ok (r := { s := openBundle s t x [w] }) (p := { pos := 0, word := w, ins := decodeWord w }) hd hd he hl]
    refine ⟨?_, List.append_nil _⟩
    dsimp only
    rw [hecc]
    exact modLatch_causes_nil s' 0

/-! ### A context tries to issue -/

section
variable {s s1 : State} {t : Nat} {x : Context} {ws : List W32} (hx : s.ctx? t = some x) (ha : takeAsync s t = none)
  (hb : atBoundary s t x = true) (hp : x.park = false) (hw : x.wait = 0) (hr : x.rte = false) (hph : phawOf x = none)
  (hm : masked x.fr.nest.set x.fr.nest.pos x.fr.nest.act = false) (hf : bundleAt s x x.fr.nest.pos x.pc = (s1, .ok ws))
include hx ha hb hp hw hr hph hm hf

/-- An illegal bundle raises ILLEGAL. -/
theorem tryBundle_illegal {n : Nat} {m : BitVec 8} (h : illegal x ws = some (n, m)) :
    tryBundle s t = .trap (trapEntry s1 t { code := cIllegal, sub := n, addr := x.pc } m false false x.pc) := by
  simp [tryBundle, hx, ha, hb, hp, hw, hr, hph, hm, hf, h]

/-- A legal one whose registers are cached is attempted. -/
theorem tryBundle_legal (h : illegal x ws = none) (hc : missing s1 t x (slotsOf ws) = []) : tryBundle s t = attempt s1 t x ws := by
  simp [tryBundle, hx, ha, hb, hp, hw, hr, hph, hm, hf, h, hc]

end

theorem tryIssue_trap {s s' : State} {t : Nat} (h : tryBundle s t = .trap s') : tryIssue s t = .trap s' := by
  simp [tryIssue, h]

theorem tryIssue_done {s s1 : State} {t : Nat} {x : Context} {ws : List W32} {o : Ranked} (hx : s.ctx? t = some x)
    (h : tryBundle s t = .done s1 ws o) : tryIssue s t = if outranked s x.core o then .held s else .done s1 ws o := by
  simp [tryIssue, h, hx]

/-! ### The attempt -/

theorem standing_untrapped {x : Context} (h : x.trapMode = false) (ps : List Slot) (cs : List (Nat × Cause)) :
    standing x ps cs = cs := by
  simp [standing, h]

theorem mem_of_mem_standing {x : Context} {ps : List Slot} {cs : List (Nat × Cause)} {c : Nat × Cause} (h : c ∈ standing x ps cs) :
    c ∈ cs := by
  unfold standing at h
  split at h
  · exact (List.mem_filter.mp h).1
  · exact h

/-- What holds a bundle back whose slots have executed: a slot, its order, or two loads of one line. -/
def heldBack (r : RunSt) (x : Context) (ws : List W32) (l : Latch) : Bool :=
  l.held || (ordered (slotsOf ws) && x.holds.any Hold.ordered) || twiceTaken r.ws

section
variable {s : State} {t : Nat} {x : Context} {ws : List W32} {l : Latch} (hl : (runSlots s t x ws).s.latch = some l)
include hl

theorem attempt_eq : attempt s t x ws =
    let cs := standing x (slotsOf ws) l.causes
    let wait := heldBack (runSlots s t x ws) x ws l
    if cs.any (fun c => early c.2) || (!wait && !cs.isEmpty) then .trap (takeTrap s t cs false)
    else if wait then .held (startFill s x.core l.want)
    else .done (commit (runSlots s t x ws) t x ws).1 ws (commit (runSlots s t x ws) t x ws).2 := by
  unfold attempt
  dsimp only
  rw [hl]
  rfl

theorem attempt_done (hc : l.causes = []) (hw : heldBack (runSlots s t x ws) x ws l = false) :
    attempt s t x ws = .done (commit (runSlots s t x ws) t x ws).1 ws (commit (runSlots s t x ws) t x ws).2 := by
  have hs : standing x (slotsOf ws) l.causes = [] := List.eq_nil_iff_forall_not_mem.mpr fun c h => by
    have := mem_of_mem_standing h
    rw [hc] at this
    cases this
  simp [attempt_eq hl, hs, hw]

theorem attempt_trap (hc : l.causes ≠ []) (hm : x.trapMode = false) (hw : heldBack (runSlots s t x ws) x ws l = false) :
    attempt s t x ws = .trap (takeTrap s t l.causes false) := by
  simp [attempt_eq hl, standing_untrapped hm, hw, hc]

theorem attempt_trap_early (hm : x.trapMode = false) (hc : ∃ c ∈ l.causes, early c.2 = true) :
    attempt s t x ws = .trap (takeTrap s t l.causes false) := by
  have hany : l.causes.any (fun c => early c.2) = true := List.any_eq_true.mpr hc
  simp only [attempt_eq hl, standing_untrapped hm, hany, Bool.true_or, if_true]

theorem attempt_held (hc : ∀ c ∈ l.causes, early c.2 = false) (hw : heldBack (runSlots s t x ws) x ws l = true) :
    attempt s t x ws = .held (startFill s x.core l.want) := by
  have hany : (standing x (slotsOf ws) l.causes).any (fun c => early c.2) = false :=
    List.any_eq_false.mpr fun c h => by rw [hc c (mem_of_mem_standing h)]; exact Bool.false_ne_true
  simp only [attempt_eq hl, hany, hw, Bool.not_true, Bool.false_and, Bool.or_self, Bool.false_eq_true, if_false, if_true]

end

/-! ### The merge stage with one context -/

/-- A core with one resident context does what that context does. -/
theorem mergeCycle_single {s : State} {c t : Nat} (h : rankOrder s c = [t]) :
    mergeCycle s c = applyRanked (act s t).1 c (act s t).2 := by
  unfold mergeCycle
  rw [h, firstReady]
  unfold issueOne act
  cases ht : tryIssue s t with
  | held s' => rfl
  | trap s' => simp only [firstReady, ht]
  | done s' ws out => simp only [firstReady, ht]

/-- Settles O55: the step by its cases, the fetch by induction on the words, the slots by their order, the attempt by what holds it. -/
theorem stepRuns : Obligations.StepRuns := by
  refine ⟨fun s i e r h => by rw [step, h], fun s h => by rw [step, h]; rfl, fun s w i h => slotExec_of_decodeWord h s,
    fun s x n ws hn hf hne hlen hw => ?_, fun s x n ws hn hb => bundleAt_captured hn hb, slotsRun,
    fun s t x s1 ws hx ha hb hp hwt hr hph hm hf => ?_, fun s t x s1 ws o hx h => ?_, fun s t x ws l hl => ?_,
    fun s c t h => ?_⟩
  · rw [bundleAt_fetch hn hf]
    simpa using fetchRun_mapped hw (k := 0) (List.length_pos_iff.mpr hne) (by omega)
  · exact ⟨fun n m hill => tryIssue_trap (tryBundle_illegal hx ha hb hp hwt hr hph hm hf hill),
      tryBundle_legal hx ha hb hp hwt hr hph hm hf⟩
  · rw [tryIssue_done hx h]
    exact ⟨fun ho => by rw [if_neg (by simp [ho])], fun ho => if_pos ho⟩
  · refine ⟨fun hc hh ho h2 => attempt_done hl hc ?_, fun hc hh ho hm h2 => attempt_trap hl hc hm ?_,
      fun hm hc => attempt_trap_early hl hm hc, fun hc hw => attempt_held hl hc ?_⟩
    · rcases ho with ho | ho <;> simp [heldBack, hh, ho, h2]
    · simp [heldBack, hh, ho, h2]
    · rcases hw with hh | ⟨ho, hd⟩ | h2
      · simp [heldBack, hh]
      · simp [heldBack, ho, List.any_eq_true.mpr hd]
      · simp [heldBack, h2]
  · rw [mergeCycle_single h]
    exact ⟨fun s' ws out ht => by rw [act, ht], fun s' ht => by rw [act, ht]; rfl, fun s' ht => by rw [act, ht]; rfl⟩

end Sys2Proof.Machine
end

section
/-!
PROOFS. What the lane movement and the reductions of the vector slots push (R80, R224, R225): the statement of O20.
-/

namespace Sys2Proof.Machine

/-- What `vOp` pushes outside trap mode where its operands can be read (R199). -/
theorem vOp_pushes {c : Clu} {g : Guard} {os : List Opd} {lat : Nat} {base f : Context → VReg} {s : State} {t : Nat} {x : Context}
    (hi : s.issuer = .ok (t, x)) (hm : x.trapMode = false) (hr : readable s x true os 1 = true) :
    vOp c g os lat base f s = .next (pushV s t c lat (laneMask x c g) (f x) (base x)) := by
  simp only [vOp, hi, noTrapMode_ok hm, guardOps_ok (readable_of_true _ hr), bind, Except.bind, pure, Except.pure, conclude_ok]

theorem vPushes_of_vOp {c : Clu} {i : Instr} {g : Guard} {os : List Opd} {lat : Nat} {base f : Context → VReg}
    (h : ∀ s, exec i s = vOp c g os lat base f s) : VPushes c i g os lat f base :=
  fun s _ _ hi hm hr => (h s).trans (vOp_pushes hi hm hr)

/-- Settles O20: on each cluster an instruction is `vOp` with its operands, its latency and its movement. -/
theorem laneMovement : Obligations.LaneMovement := by
  intro c
  refine ⟨fun n g a b => ?_, fun n g a b => ?_, fun g a b => ?_, fun g a l => ?_, fun g a st => ?_, fun g a op => ?_⟩
  all_goals cases c
  all_goals exact vPushes_of_vOp fun _ => rfl

end Sys2Proof.Machine
end

section
/-!
PROOFS. Codes, rounding and the order of the number formats (R60 to R76, R365): the statement of O16.
-/

namespace Sys2Proof.Arith

/-! ### Sign and magnitude of a code -/

theorem testBit_of_lt {x n : Nat} (h : x < 2 ^ (n + 1)) : x.testBit n = decide (2 ^ n ≤ x) := by
  by_cases hx : 2 ^ n ≤ x
  · rw [Nat.testBit_of_two_pow_le_and_two_pow_add_one_gt hx h, decide_eq_true hx]
  · rw [Nat.testBit_lt_two_pow (Nat.lt_of_not_le hx), decide_eq_false hx]

section
variable {f : Fmt} {x : Nat}

theorem Fmt.mag_lt (f : Fmt) (x : Nat) : f.mag x < 2 ^ (f.ew + f.mw) := Nat.mod_lt _ (Nat.two_pow_pos _)

theorem Fmt.mag_signed {m : Nat} (s : Bool) (h : m < 2 ^ (f.ew + f.mw)) : f.mag (f.signed s m) = m := by
  cases s <;> simp [Fmt.mag, Fmt.signed, Nat.mod_eq_of_lt h]

/-- A code is its sign bit over its magnitude. -/
theorem Fmt.signed_neg_mag (hx : x < 2 ^ (1 + f.ew + f.mw)) : f.signed (f.neg x) (f.mag x) = x := by
  rw [Nat.add_assoc, Nat.add_comm] at hx
  rw [Fmt.neg, testBit_of_lt hx, Fmt.mag, Fmt.signed]
  rw [Nat.pow_succ] at hx
  split
  · rename_i hs
    rw [Nat.mod_eq_sub_mod (of_decide_eq_true hs), Nat.mod_eq_of_lt (by omega), Nat.add_sub_cancel' (of_decide_eq_true hs)]
  · rename_i hs
    rw [Nat.zero_add, Nat.mod_eq_of_lt (by simpa using hs)]

theorem Fmt.neg_eq (hx : x < 2 ^ (1 + f.ew + f.mw)) : f.neg x = decide (2 ^ (f.ew + f.mw) ≤ x) :=
  testBit_of_lt (by rwa [Nat.add_assoc, Nat.add_comm] at hx)

/-- The exponent field stands in the magnitude. -/
theorem Fmt.mag_shift (f : Fmt) (x : Nat) : f.mag x >>> f.mw = x / 2 ^ f.mw % 2 ^ f.ew := by
  rw [Fmt.mag, Nat.shiftRight_eq_div_pow, Nat.add_comm, Nat.pow_add, Nat.mod_mul_right_div_self]

theorem Fmt.mag_mod (f : Fmt) (x : Nat) : f.mag x % 2 ^ f.mw = x % 2 ^ f.mw :=
  Nat.mod_mod_of_dvd _ (Nat.pow_dvd_pow 2 (Nat.le_add_left _ _))

/-- The magnitude is the two fields. -/
theorem Fmt.mag_fields (f : Fmt) (x : Nat) : f.mag x = x / 2 ^ f.mw % 2 ^ f.ew * 2 ^ f.mw + x % 2 ^ f.mw := by
  rw [← Fmt.mag_shift, ← Fmt.mag_mod, Nat.shiftRight_eq_div_pow, Nat.div_add_mod']

/-! ### Infinities, NaN codes and values (R60) -/

theorem Fmt.mag_of_isInf (h : f.isInf x = true) : f.hasInf = true ∧ f.mag x = f.infMag := by
  simpa [Fmt.isInf] using h

/-- A code that is neither an infinity nor a NaN is at most the greatest finite one. -/
theorem Fmt.mag_le_maxCode (hi : f.isInf x = false) (hn : f.isNan x = false) : f.mag x ≤ f.maxCode := by
  unfold Fmt.isNan at hn
  unfold Fmt.isInf at hi
  cases hf : f.hasInf <;> simp [hf, Fmt.infMag] at hi hn <;> omega

theorem Fmt.val_of_isInf (h : f.isInf x = true) : f.val x = .inf (f.neg x) := if_pos h

theorem Fmt.val_subnormal (h : f.isInf x = false) (hE : x / 2 ^ f.mw % 2 ^ f.ew = 0) :
    f.val x = .fin (f.neg x) (x % 2 ^ f.mw) (1 - (f.bias : Int) - f.mw) := by
  simp [Fmt.val, h, Fmt.mag_shift, Fmt.mag_mod, hE]

theorem Fmt.val_normal (h : f.isInf x = false) (hE : x / 2 ^ f.mw % 2 ^ f.ew ≠ 0) :
    f.val x = .fin (f.neg x) (2 ^ f.mw + x % 2 ^ f.mw) (((x / 2 ^ f.mw % 2 ^ f.ew : Nat) : Int) - f.bias - f.mw) := by
  simp only [Fmt.val, h, Fmt.mag_shift, Fmt.mag_mod, hE, Bool.false_eq_true, if_false, Nat.add_comm]

/-- The value of a code by its fields. -/
theorem Fmt.val_fields (hx : x < 2 ^ (1 + f.ew + f.mw)) :
    (f.isInf x = true → f.val x = .inf (decide (2 ^ (f.ew + f.mw) ≤ x))) ∧
    (f.isInf x = false →
      (x / 2 ^ f.mw % 2 ^ f.ew = 0 →
        f.val x = .fin (decide (2 ^ (f.ew + f.mw) ≤ x)) (x % 2 ^ f.mw) (1 - (f.bias : Int) - f.mw)) ∧
      (x / 2 ^ f.mw % 2 ^ f.ew ≠ 0 → f.val x = .fin (decide (2 ^ (f.ew + f.mw) ≤ x)) (2 ^ f.mw + x % 2 ^ f.mw)
        (((x / 2 ^ f.mw % 2 ^ f.ew : Nat) : Int) - f.bias - f.mw))) := by
  rw [← Fmt.neg_eq hx]
  exact ⟨Fmt.val_of_isInf, fun hi => ⟨Fmt.val_subnormal hi, Fmt.val_normal hi⟩⟩

/-- A format whose greatest exponent field is kept for the infinities and the NaN codes. -/
def Fmt.TopReserved (f : Fmt) : Prop := f.hasInf = true ∧ f.infMag = (2 ^ f.ew - 1) * 2 ^ f.mw

/-- Two fields against the greatest exponent field over zeros. -/
theorem fields_eq_top_iff {e t m p : Nat} (he : e ≤ t) (hm : m < p) :
    (e * p + m = t * p ↔ e = t ∧ m = 0) ∧ (t * p < e * p + m ↔ e = t ∧ m ≠ 0) := by
  rcases he.lt_or_eq with h | rfl
  · have : (e + 1) * p ≤ t * p := Nat.mul_le_mul_right p h
    rw [Nat.succ_mul] at this
    omega
  · omega

theorem Fmt.specials_of_topReserved (hf : f.TopReserved) (x : Nat) :
    (f.isInf x = true ↔ x / 2 ^ f.mw % 2 ^ f.ew = 2 ^ f.ew - 1 ∧ x % 2 ^ f.mw = 0) ∧
    (f.isNan x = true ↔ x / 2 ^ f.mw % 2 ^ f.ew = 2 ^ f.ew - 1 ∧ x % 2 ^ f.mw ≠ 0) := by
  obtain ⟨hinf, htop⟩ := hf
  have hE : x / 2 ^ f.mw % 2 ^ f.ew ≤ 2 ^ f.ew - 1 := Nat.le_pred_of_lt (Nat.mod_lt _ (Nat.two_pow_pos _))
  have hM : x % 2 ^ f.mw < 2 ^ f.mw := Nat.mod_lt _ (Nat.two_pow_pos _)
  simp only [Fmt.isInf, Fmt.isNan, hinf, Bool.true_and, beq_iff_eq, if_true, decide_eq_true_eq, htop, Fmt.mag_fields]
  exact fields_eq_top_iff hE hM

theorem e4m3_specials {x : Nat} : e4m3.isInf x = false ∧ (e4m3.isNan x = true ↔ x / 2 ^ 3 % 2 ^ 4 = 15 ∧ x % 2 ^ 3 = 7) := by
  refine ⟨rfl, ?_⟩
  change decide (x % 2 ^ 7 > 126) = true ↔ _
  rw [decide_eq_true_iff]
  omega

theorem e2m1_specials {x : Nat} : e2m1.isInf x = false ∧ e2m1.isNan x = false :=
  ⟨rfl, decide_eq_false (Nat.not_lt.mpr (Nat.le_of_lt_succ (Fmt.mag_lt e2m1 x)))⟩

/-- The formats of R60. -/
def formats : List Fmt := [f32, f16, bf16, e4m3, e5m2, e2m1]

theorem topReserved_of_mem (hf : f ∈ formats) (h4 : f ≠ e4m3) (h2 : f ≠ e2m1) : f.TopReserved := by
  simp only [formats, List.mem_cons, List.not_mem_nil, or_false] at hf
  rcases hf with rfl | rfl | rfl | rfl | rfl | rfl
  case inr.inr.inr.inl => exact absurd rfl h4
  case inr.inr.inr.inr.inr => exact absurd rfl h2
  all_goals exact ⟨rfl, rfl⟩

/-- The infinities and the NaN codes of every format. -/
theorem Fmt.specials (hf : f ∈ formats) (x : Nat) :
    (f ≠ e4m3 → f ≠ e2m1 → (f.isInf x = true ↔ x / 2 ^ f.mw % 2 ^ f.ew = 2 ^ f.ew - 1 ∧ x % 2 ^ f.mw = 0) ∧
      (f.isNan x = true ↔ x / 2 ^ f.mw % 2 ^ f.ew = 2 ^ f.ew - 1 ∧ x % 2 ^ f.mw ≠ 0)) ∧
    (f = e4m3 → f.isInf x = false ∧ (f.isNan x = true ↔ x / 2 ^ f.mw % 2 ^ f.ew = 15 ∧ x % 2 ^ f.mw = 7)) ∧
    (f = e2m1 → f.isInf x = false ∧ f.isNan x = false) :=
  ⟨fun h4 h2 => Fmt.specials_of_topReserved (topReserved_of_mem hf h4 h2) x, fun h => h ▸ e4m3_specials,
    fun h => h ▸ e2m1_specials⟩

end

/-! ### round_fmt (R68) -/

section
variable {f : Fmt} {x : Nat}

/-- A magnitude on the format's grid, of a finite code, is encoded as that code. -/
theorem roundFmt_exact {s : Bool} {m : Nat} {e ex : Int} {rm : Rm} (hm : m ≠ 0) (he : e = ex - f.mw)
    (hex : max ((Nat.log2 m : Int) + e) (1 - f.bias) = ex) (hg : (ex - (1 - f.bias)).toNat * 2 ^ f.mw + m ≤ f.maxCode) :
    roundFmt f (.fin s m e) rm = f.signed s ((ex - (1 - f.bias)).toNat * 2 ^ f.mw + m) := by
  have hq : roundInt m (e - (ex - f.mw)) rm s = m := by rw [he, sub_self]; rfl
  simp only [roundFmt, hm, hex, hq, hg.not_gt, if_false, Bool.false_and, Bool.false_eq_true]

theorem roundFmt_subnormal {s : Bool} {M : Nat} {rm : Rm} (hM : M < 2 ^ f.mw) (hmax : M ≤ f.maxCode) :
    roundFmt f (.fin s M (1 - (f.bias : Int) - f.mw)) rm = f.signed s M := by
  by_cases h0 : M = 0
  · simp [roundFmt, h0]
  · have hlog : Nat.log2 M < f.mw := (Nat.log2_lt h0).mpr hM
    rw [roundFmt_exact (ex := 1 - f.bias) h0 rfl (by omega) (by simpa using hmax)]
    simp

theorem roundFmt_normal {s : Bool} {E M : Nat} {rm : Rm} (hE : E ≠ 0) (hM : M < 2 ^ f.mw) (hmax : E * 2 ^ f.mw + M ≤ f.maxCode) :
    roundFmt f (.fin s (2 ^ f.mw + M) ((E : Int) - f.bias - f.mw)) rm = f.signed s (E * 2 ^ f.mw + M) := by
  have hlog : Nat.log2 (2 ^ f.mw + M) = f.mw := (Nat.log2_eq_iff (by omega)).mpr ⟨by omega, by rw [Nat.pow_succ]; omega⟩
  have hg : ((E : Int) - f.bias - (1 - f.bias)).toNat * 2 ^ f.mw + (2 ^ f.mw + M) = E * 2 ^ f.mw + M := by
    obtain ⟨n, rfl⟩ := Nat.exists_eq_succ_of_ne_zero hE
    rw [show (((n.succ : Nat) : Int) - f.bias - (1 - f.bias)).toNat = n by omega, ← Nat.add_assoc, ← Nat.succ_mul]
  rw [roundFmt_exact (ex := (E : Int) - f.bias) (by omega) rfl (by rw [hlog]; omega) (hg.trans_le hmax), hg]

/-- Every code that is no NaN rounds to itself. -/
theorem roundFmt_val (hx : x < 2 ^ (1 + f.ew + f.mw)) (hn : f.isNan x = false) (rm : Rm) : roundFmt f (f.val x) rm = x := by
  cases hi : f.isInf x
  case true =>
    obtain ⟨hf, hmag⟩ := Fmt.mag_of_isInf hi
    rw [Fmt.val_of_isInf hi, roundFmt, hf, ← hmag]
    exact Fmt.signed_neg_mag hx
  case false =>
    have hM : x % 2 ^ f.mw < 2 ^ f.mw := Nat.mod_lt _ (Nat.two_pow_pos _)
    have hmax := Fmt.mag_le_maxCode hi hn
    refine Eq.trans ?_ (Fmt.signed_neg_mag hx)
    rw [Fmt.mag_fields] at hmax ⊢
    by_cases hE : x / 2 ^ f.mw % 2 ^ f.ew = 0
    · rw [hE, Nat.zero_mul, Nat.zero_add] at hmax ⊢
      rw [Fmt.val_subnormal hi hE, roundFmt_subnormal hM hmax]
    · rw [Fmt.val_normal hi hE, roundFmt_normal hE hM hmax]

/-- A rounded result is a magnitude up to the one behind the greatest finite code, with a sign. -/
theorem roundFmt_eq_signed (f : Fmt) (v : Ext) (rm : Rm) : ∃ s g, roundFmt f v rm = f.signed s g ∧ g ≤ f.infMag := by
  cases v with
  | inf s =>
    simp only [roundFmt]
    split
    · exact ⟨s, _, rfl, Nat.le_succ _⟩
    · exact ⟨s, _, rfl, le_rfl⟩
  | fin s m e =>
    simp only [roundFmt, overflow, Bool.false_and, Bool.false_eq_true, if_false]
    split_ifs with h0 hg
    · exact ⟨s, 0, rfl, Nat.zero_le _⟩
    · exact ⟨s, _, rfl, Nat.le_succ _⟩
    · exact ⟨s, _, rfl, le_rfl⟩
    · exact ⟨s, _, rfl, (Nat.le_of_not_lt hg).trans (Nat.le_succ _)⟩

theorem isNan_roundFmt (hf : f.hasInf = true) (hlt : f.infMag < 2 ^ (f.ew + f.mw)) (v : Ext) (rm : Rm) :
    f.isNan (roundFmt f v rm) = false := by
  obtain ⟨s, g, he, hg⟩ := roundFmt_eq_signed f v rm
  rw [he, Fmt.isNan, Fmt.mag_signed s (by omega), hf]
  simpa using hg

end

/-! ### round_int (R68) -/

/-- Where a quotient with floor q and remainder r over p is rounded up. -/
def roundsUp (rm : Rm) (neg : Bool) (q r p : Nat) : Prop :=
  match rm with
  | .rne => p < 2 * r ∨ 2 * r = p ∧ q % 2 = 1
  | .rna => r ≠ 0 ∧ p ≤ 2 * r
  | .rtz => False
  | .rup => r ≠ 0 ∧ neg = false
  | .rdn => r ≠ 0 ∧ neg = true

/-- A rounded quotient is the floor, or the next number where its mode rounds up. -/
theorem roundShift_cases (m k : Nat) (rm : Rm) (neg : Bool) :
    roundShift m k rm neg = m / 2 ^ k ∧ ¬ roundsUp rm neg (m / 2 ^ k) (m % 2 ^ k) (2 ^ k) ∨
    roundShift m k rm neg = m / 2 ^ k + 1 ∧ roundsUp rm neg (m / 2 ^ k) (m % 2 ^ k) (2 ^ k) := by
  by_cases h : roundsUp rm neg (m / 2 ^ k) (m % 2 ^ k) (2 ^ k)
  · refine .inr ⟨?_, h⟩
    cases rm <;> simp_all [roundShift, roundsUp, Nat.shiftRight_eq_div_pow]
  · refine .inl ⟨?_, h⟩
    cases rm <;> simp_all [roundShift, roundsUp, Nat.shiftRight_eq_div_pow]

section
variable (m k : Nat) (rm : Rm) (neg : Bool)

/-- What rounds up is no multiple. -/
theorem remainder_ne_zero_of_roundsUp {rm : Rm} {neg : Bool} {q r p : Nat} (hp : 0 < p) (h : roundsUp rm neg q r p) : r ≠ 0 := by
  rintro rfl
  cases rm <;> simp [roundsUp] at h
  omega

theorem roundShift_neighbour :
    roundShift m k rm neg = m / 2 ^ k ∨ (roundShift m k rm neg = m / 2 ^ k + 1 ∧ m % 2 ^ k ≠ 0) := by
  rcases roundShift_cases m k rm neg with ⟨hq, -⟩ | ⟨hq, hup⟩
  · exact .inl hq
  · exact .inr ⟨hq, remainder_ne_zero_of_roundsUp (Nat.two_pow_pos k) hup⟩

theorem roundShift_rtz : roundShift m k .rtz neg = m / 2 ^ k := by
  rcases roundShift_cases m k .rtz neg with ⟨hq, -⟩ | ⟨-, hup⟩
  · exact hq
  · exact hup.elim

variable {rm neg}

theorem roundShift_ge (h : rm = .rup ∧ neg = false ∨ rm = .rdn ∧ neg = true) : m ≤ roundShift m k rm neg * 2 ^ k := by
  have hm := Nat.div_add_mod' m (2 ^ k)
  have hr := Nat.mod_lt m (Nat.two_pow_pos k)
  rcases roundShift_cases m k rm neg with ⟨hq, hup⟩ | ⟨hq, -⟩
  · have h0 : m % 2 ^ k = 0 := by
      rcases h with ⟨rfl, rfl⟩ | ⟨rfl, rfl⟩ <;> simpa [roundsUp] using hup
    rw [hq]; omega
  · rw [hq, Nat.add_one_mul (m / 2 ^ k)]; omega

theorem roundShift_le (h : rm = .rup ∧ neg = true ∨ rm = .rdn ∧ neg = false) : roundShift m k rm neg * 2 ^ k ≤ m := by
  rcases roundShift_cases m k rm neg with ⟨hq, -⟩ | ⟨-, hup⟩
  · rw [hq]; exact Nat.div_mul_le_self m _
  · rcases h with ⟨rfl, rfl⟩ | ⟨rfl, rfl⟩ <;> simp [roundsUp] at hup

/-- The nearest modes stay within half a step. -/
theorem roundShift_near (h : rm = .rne ∨ rm = .rna) :
    2 * m ≤ 2 * roundShift m k rm neg * 2 ^ k + 2 ^ k ∧ 2 * roundShift m k rm neg * 2 ^ k ≤ 2 * m + 2 ^ k := by
  have hm := Nat.div_add_mod' m (2 ^ k)
  have hr := Nat.mod_lt m (Nat.two_pow_pos k)
  rw [Nat.mul_assoc]
  rcases roundShift_cases m k rm neg with ⟨hq, hup⟩ | ⟨hq, hup⟩ <;> rw [hq]
  · have hlow : 2 * (m % 2 ^ k) ≤ 2 ^ k := by
      rcases h with rfl | rfl <;> simp only [roundsUp] at hup <;> omega
    omega
  · have hhigh : 2 ^ k ≤ 2 * (m % 2 ^ k) := by
      rcases h with rfl | rfl <;> simp only [roundsUp] at hup <;> omega
    rw [Nat.add_one_mul (m / 2 ^ k)]; omega

/-- RNE gives an even number at a tie. -/
theorem roundShift_rne_even
    (h : 2 * m = 2 * roundShift m k .rne neg * 2 ^ k + 2 ^ k ∨ 2 * roundShift m k .rne neg * 2 ^ k = 2 * m + 2 ^ k) :
    roundShift m k .rne neg % 2 = 0 := by
  have hm := Nat.div_add_mod' m (2 ^ k)
  have hp := Nat.two_pow_pos k
  rw [Nat.mul_assoc] at h
  rcases roundShift_cases m k .rne neg with ⟨hq, hup⟩ | ⟨hq, hup⟩ <;> rw [hq] at h ⊢ <;> simp only [roundsUp] at hup
  · omega
  · rw [Nat.add_one_mul (m / 2 ^ k)] at h; omega

/-- RNA never leaves a tie below. -/
theorem roundShift_rna_tie : 2 * m ≠ 2 * roundShift m k .rna neg * 2 ^ k + 2 ^ k := by
  have hm := Nat.div_add_mod' m (2 ^ k)
  have hp := Nat.two_pow_pos k
  rw [Nat.mul_assoc]
  rcases roundShift_cases m k .rna neg with ⟨hq, hup⟩ | ⟨hq, hup⟩ <;> rw [hq] <;> simp only [roundsUp] at hup
  · omega
  · have hr := Nat.mod_lt m hp
    rw [Nat.add_one_mul (m / 2 ^ k)]; omega

end

/-! ### The order of values (R71, R72) -/

/-- The order of codes by sign and magnitude, −0 below +0. -/
def codeLt (s : Bool) (a : Nat) (t : Bool) (b : Nat) : Prop :=
  if s then t = false ∨ b < a else t = false ∧ a < b

theorem codeLt_iff_of_lt_iff {a b a' b' : Nat} (s t : Bool) (h : a < b ↔ a' < b') (h' : b < a ↔ b' < a') :
    codeLt s a t b ↔ codeLt s a' t b' := by simp only [codeLt, h, h']

/-- Finite values compare by their signs and their magnitudes on a common grid. -/
theorem ltExt_fin_iff (s t : Bool) (m n k l : Nat) (e : Int) :
    ltExt true (.fin s m (e + k)) (.fin t n (e + l)) = true ↔ codeLt s (m * 2 ^ k) t (n * 2 ^ l) := by
  have hp : 0 < 2 ^ min k l := Nat.two_pow_pos _
  have hk : (e + k - min (e + k) (e + l)).toNat + min k l = k := by omega
  have hl : (e + l - min (e + k) (e + l)).toNat + min k l = l := by omega
  rw [show 2 ^ k = 2 ^ (e + k - min (e + k) (e + l)).toNat * 2 ^ min k l by rw [← Nat.pow_add, hk],
    show 2 ^ l = 2 ^ (e + l - min (e + k) (e + l)).toNat * 2 ^ min k l by rw [← Nat.pow_add, hl],
    ← Nat.mul_assoc, ← Nat.mul_assoc]
  simp only [codeLt, Nat.mul_lt_mul_right hp, ltExt, Nat.shiftLeft_eq]
  generalize m * 2 ^ (e + k - min (e + k) (e + l)).toNat = a, n * 2 ^ (e + l - min (e + k) (e + l)).toNat = b
  cases s <;> cases t <;> simp
  omega

theorem ltExt_fin_inf {a b : Nat} (s t : Bool) (m : Nat) (e : Int) (h : a < b) :
    ltExt true (.fin s m e) (.inf t) = true ↔ codeLt s a t b := by
  cases s <;> simp [ltExt, codeLt, h, h.le]

theorem ltExt_inf_fin {a b : Nat} (s t : Bool) (m : Nat) (e : Int) (h : b < a) :
    ltExt true (.inf s) (.fin t m e) = true ↔ codeLt s a t b := by
  cases s <;> simp [ltExt, codeLt, h, h.le]

theorem ltExt_inf_inf (s t : Bool) (a : Nat) : ltExt true (.inf s) (.inf t) = true ↔ codeLt s a t a := by
  cases s <;> simp [ltExt, codeLt]

section
variable {f : Fmt} {x y : Nat}

/-- The value of a magnitude code in units of the least subnormal. -/
def Fmt.grid (f : Fmt) (g : Nat) : Nat :=
  if g >>> f.mw = 0 then g else (2 ^ f.mw + g % 2 ^ f.mw) * 2 ^ (g >>> f.mw - 1)

theorem Fmt.grid_of_zero {g : Nat} (h : g >>> f.mw = 0) : f.grid g = g := if_pos h

theorem Fmt.grid_of_ne_zero {g : Nat} (h : g >>> f.mw ≠ 0) :
    f.grid g = (2 ^ f.mw + g % 2 ^ f.mw) * 2 ^ (g >>> f.mw - 1) := if_neg h

/-- A value lies below the power of two of the next exponent field. -/
theorem Fmt.grid_lt (f : Fmt) (g : Nat) : f.grid g < 2 ^ f.mw * 2 ^ (g >>> f.mw) := by
  have hM : g % 2 ^ f.mw < 2 ^ f.mw := Nat.mod_lt _ (Nat.two_pow_pos _)
  by_cases h : g >>> f.mw = 0
  · have hg := Nat.div_add_mod' g (2 ^ f.mw)
    rw [← Nat.shiftRight_eq_div_pow, h] at hg
    rw [Fmt.grid_of_zero h, h]
    omega
  · obtain ⟨n, hn⟩ := Nat.exists_eq_succ_of_ne_zero h
    rw [Fmt.grid_of_ne_zero h, hn, Nat.succ_sub_one, Nat.pow_succ', ← Nat.mul_assoc]
    exact Nat.mul_lt_mul_of_pos_right (by omega) (Nat.two_pow_pos n)

/-- A normal value is at least the power of two of its exponent field. -/
theorem Fmt.le_grid {g : Nat} (h : g >>> f.mw ≠ 0) : 2 ^ f.mw * 2 ^ (g >>> f.mw - 1) ≤ f.grid g := by
  rw [Fmt.grid_of_ne_zero h]
  exact Nat.mul_le_mul_right _ (Nat.le_add_right _ _)

/-- A greater magnitude code stands for a greater value. -/
theorem Fmt.grid_strictMono (f : Fmt) : StrictMono f.grid := by
  intro a b hab
  have hE : a >>> f.mw ≤ b >>> f.mw := by
    simp only [Nat.shiftRight_eq_div_pow]; exact Nat.div_le_div_right hab.le
  rcases hE.lt_or_eq with hlt | heq
  · calc f.grid a < 2 ^ f.mw * 2 ^ (a >>> f.mw) := f.grid_lt a
      _ ≤ 2 ^ f.mw * 2 ^ (b >>> f.mw - 1) := Nat.mul_le_mul_left _ (Nat.pow_le_pow_right two_pos (Nat.le_pred_of_lt hlt))
      _ ≤ f.grid b := Fmt.le_grid (Nat.ne_zero_of_lt hlt)
  · by_cases h0 : a >>> f.mw = 0
    · rwa [Fmt.grid_of_zero h0, Fmt.grid_of_zero (heq ▸ h0)]
    · have hM : a % 2 ^ f.mw < b % 2 ^ f.mw := by
        have hq : a / 2 ^ f.mw = b / 2 ^ f.mw := by rwa [Nat.shiftRight_eq_div_pow, Nat.shiftRight_eq_div_pow] at heq
        have ha := Nat.div_add_mod' a (2 ^ f.mw)
        have hb := Nat.div_add_mod' b (2 ^ f.mw)
        rw [← hq] at hb
        omega
      rw [Fmt.grid_of_ne_zero h0, Fmt.grid_of_ne_zero (heq ▸ h0), ← heq]
      exact Nat.mul_lt_mul_of_pos_right (Nat.add_lt_add_left hM _) (Nat.two_pow_pos _)

theorem Fmt.grid_lt_iff (f : Fmt) {a b : Nat} : f.grid a < f.grid b ↔ a < b := f.grid_strictMono.lt_iff_lt

/-- A finite code's value on the format's grid. -/
theorem Fmt.val_grid (h : f.isInf x = false) : ∃ m k : Nat,
    f.val x = .fin (f.neg x) m (1 - (f.bias : Int) - f.mw + k) ∧ m * 2 ^ k = f.grid (f.mag x) := by
  have hsh := f.mag_shift x
  by_cases hE : x / 2 ^ f.mw % 2 ^ f.ew = 0
  · refine ⟨x % 2 ^ f.mw, 0, by rw [Fmt.val_subnormal h hE]; simp, ?_⟩
    rw [Fmt.grid_of_zero (hsh.trans hE), Fmt.mag_fields, hE]; simp
  · refine ⟨2 ^ f.mw + x % 2 ^ f.mw, x / 2 ^ f.mw % 2 ^ f.ew - 1, ?_, ?_⟩
    · rw [Fmt.val_normal h hE]
      congr 1
      omega
    · rw [Fmt.grid_of_ne_zero (hsh.trans_ne hE), hsh, Fmt.mag_mod]

/-- Every finite magnitude lies below that of infinity. -/
theorem Fmt.mag_lt_of_isInf (hi : f.isInf x = false) (hn : f.isNan x = false) (hj : f.isInf y = true) : f.mag x < f.mag y :=
  (Fmt.mag_of_isInf hj).2 ▸ Nat.lt_succ_of_le (Fmt.mag_le_maxCode hi hn)

/-- Codes that are no NaN compare as their signs and magnitudes do. -/
theorem ltExt_val_iff (hx : f.isNan x = false) (hy : f.isNan y = false) :
    ltExt true (f.val x) (f.val y) = true ↔ codeLt (f.neg x) (f.mag x) (f.neg y) (f.mag y) := by
  cases hi : f.isInf x <;> cases hj : f.isInf y
  · obtain ⟨m, k, hv, hg⟩ := Fmt.val_grid hi
    obtain ⟨n, l, hw, hh⟩ := Fmt.val_grid hj
    rw [hv, hw, ltExt_fin_iff, hg, hh]
    exact codeLt_iff_of_lt_iff _ _ f.grid_lt_iff f.grid_lt_iff
  · obtain ⟨m, k, hv, -⟩ := Fmt.val_grid hi
    rw [hv, Fmt.val_of_isInf hj]
    exact ltExt_fin_inf _ _ _ _ (Fmt.mag_lt_of_isInf hi hx hj)
  · obtain ⟨n, l, hw, -⟩ := Fmt.val_grid hj
    rw [hw, Fmt.val_of_isInf hi]
    exact ltExt_inf_fin _ _ _ _ (Fmt.mag_lt_of_isInf hj hy hi)
  · rw [Fmt.val_of_isInf hi, Fmt.val_of_isInf hj, (Fmt.mag_of_isInf hi).2, (Fmt.mag_of_isInf hj).2]
    exact ltExt_inf_inf _ _ _

end

/-! ### total_key (R72) -/

theorem f32_neg_eq (x : W32) : f32.neg x.toNat = x.getLsbD 31 := rfl

theorem totalKey_eq_or (x : W32) : totalKey x =
    if f32.isNan x.toNat then 0 else if x.getLsbD 31 then (~~~x).toNat else (x ||| 0x80000000).toNat := by
  unfold totalKey
  by_cases hs : x.getLsbD 31
  · simp only [hs, if_true]
  · have hlt : x.toNat < 2 ^ 31 := by
      rw [BitVec.getLsbD, testBit_of_lt x.isLt] at hs
      simpa using hs
    rw [if_neg hs, if_neg hs, BitVec.toNat_or, Nat.or_comm, Nat.add_comm]
    exact congrArg (ite _ 0) (Nat.two_pow_add_eq_or_of_lt hlt 1)

theorem totalKey_of_nan {x : W32} (h : f32.isNan x.toNat = true) : totalKey x = 0 := if_pos h

/-- The key of a code by its sign and magnitude. -/
theorem totalKey_of_not_nan {x : W32} (h : f32.isNan x.toNat = false) :
    totalKey x = if f32.neg x.toNat then 2 ^ 31 - 1 - f32.mag x.toNat else 2 ^ 31 + f32.mag x.toNat := by
  have hx : (if f32.neg x.toNat then 2 ^ 31 else 0) + f32.mag x.toNat = x.toNat := Fmt.signed_neg_mag (f := f32) x.isLt
  rw [totalKey, h, ← f32_neg_eq, BitVec.toNat_not]
  cases hs : f32.neg x.toNat <;> rw [hs] at hx <;> simp at hx ⊢ <;> omega

theorem totalKey_pos {x : W32} (h : f32.isNan x.toNat = false) : 0 < totalKey x := by
  have : f32.mag x.toNat ≤ f32.infMag := by simpa [Fmt.isNan, f32] using h
  have hinf : f32.infMag < 2 ^ 31 - 1 := by decide
  rw [totalKey_of_not_nan h]
  split <;> omega

/-- Keys compare as the values do, −0 below +0. -/
theorem totalKey_lt_iff {x y : W32} (hx : f32.isNan x.toNat = false) (hy : f32.isNan y.toNat = false) :
    totalKey x < totalKey y ↔ ltExt true (f32.val x.toNat) (f32.val y.toNat) = true := by
  have ha : f32.mag x.toNat < 2 ^ 31 := Fmt.mag_lt f32 x.toNat
  have hb : f32.mag y.toNat < 2 ^ 31 := Fmt.mag_lt f32 y.toNat
  rw [ltExt_val_iff hx hy, totalKey_of_not_nan hx, totalKey_of_not_nan hy]
  cases f32.neg x.toNat <;> cases f32.neg y.toNat <;> simp [codeLt] <;> omega

/-! ### MX blocks and fx64 (R65, R74 to R76) -/

theorem mxValue_nan_scale (f : MxFmt) (e : Nat) : mxValue f 255 e = none := rfl

theorem mxDequant_of_none {f : MxFmt} {x8 e : Nat} (h : mxValue f x8 e = none) : mxDequant f x8 e = f32.canon := by
  rw [mxDequant, h]

theorem sx_eight_eq_toInt (x : Nat) : sx x 8 = (BitVec.ofNat 8 x).toInt := by
  rw [BitVec.toInt_eq_toNat_cond, BitVec.toNat_ofNat]
  simp only [sx]
  split <;> split <;> omega

section
variable {f : MxFmt} {x8 : Nat} (hs : x8 < 255)
include hs

theorem mxValue_mxi8 (e : Nat) :
    mxValue .mxi8 x8 e = some (.fin (sx e 8 < 0) (sx e 8).natAbs ((x8 : Int) - 127 - 6)) := if_neg hs.ne

/-- The value of a float element under a scale that is no NaN. -/
theorem mxValue_float (hf : f ≠ .mxi8) (e : Nat) : mxValue f x8 e =
    if (mxElem f).isNan e then none
    else match (mxElem f).val e with
      | .inf s => some (.inf s)
      | .fin s m x => some (.fin s m (x + ((x8 : Int) - 127))) := by
  rw [mxValue, if_neg hs.ne]
  cases f
  case mxi8 => exact absurd rfl hf
  all_goals rfl

end

theorem mxElem_of_mem {f : MxFmt} {r : Fmt} (h : (f, r) ∈ [(MxFmt.mxf8, e4m3), (.mxf8b, e5m2), (.mxf4, e2m1)]) :
    f ≠ .mxi8 ∧ r = mxElem f := by
  simp only [List.mem_cons, Prod.mk.injEq, List.not_mem_nil, or_false] at h
  rcases h with ⟨rfl, rfl⟩ | ⟨rfl, rfl⟩ | ⟨rfl, rfl⟩ <;> exact ⟨by decide, rfl⟩

theorem clampS64_bounds (v : Int) : -(2 ^ 63) ≤ clampS v 64 ∧ clampS v 64 ≤ 2 ^ 63 - 1 := by
  unfold clampS; omega

theorem toFx64_finite {x : W32} {s : Bool} {m : Nat} {e : Int} (hn : f32.isNan x.toNat = false)
    (hv : f32.val x.toNat = .fin s m e) :
    (toFx64 x).toInt = clampS (if s then -(roundInt m (e + 32) .rne s : Int) else roundInt m (e + 32) .rne s) 64 := by
  rw [toFx64, hn, hv]
  simp only [Bool.false_eq_true, if_false]
  obtain ⟨h1, h2⟩ := clampS64_bounds (if s then -(roundInt m (e + 32) .rne s : Int) else roundInt m (e + 32) .rne s)
  exact BitVec.toInt_ofInt_eq_self (by decide) (by simpa using h1) (by simpa using Int.lt_of_le_sub_one h2)

theorem toFx64_inf {x : W32} {s : Bool} (hn : f32.isNan x.toNat = false) (hv : f32.val x.toNat = .inf s) :
    toFx64 x = if s then 0x8000000000000000 else 0x7FFFFFFFFFFFFFFF := by
  rw [toFx64, hn, hv]
  cases s <;> rfl

end Sys2Proof.Arith

namespace Sys2Proof.Machine

/-- The header entries where neither is a NaN, of a value: the greater of the entry and v rounded up, the smaller of the
entry and v rounded down (R365). -/
theorem hdrUpdate_some {mx mn : Nat} (x : Arith.Ext) (hmx : Arith.bf16.isNan mx = false) (hmn : Arith.bf16.isNan mn = false) :
    let up := Arith.roundFmt Arith.bf16 x .rup
    let down := Arith.roundFmt Arith.bf16 x .rdn
    hdrUpdate (some x) mx mn =
      (if Arith.ltExt true (Arith.bf16.val mx) (Arith.bf16.val up) then up else mx,
       if Arith.ltExt true (Arith.bf16.val down) (Arith.bf16.val mn) then down else mn) := by
  have hn := Arith.isNan_roundFmt (f := Arith.bf16) rfl (by decide) x
  simp [hdrUpdate, Arith.fMax, Arith.fMin, hmx, hmn, hn]

theorem hdrUpdate_nan {v : Option Arith.Ext} {mx mn : Nat}
    (h : v = none ∨ Arith.bf16.isNan mx = true ∨ Arith.bf16.isNan mn = true) :
    hdrUpdate v mx mn = (0x7FC0, 0x7FC0) := by
  cases v with
  | none => rfl
  | some x => exact if_pos (by simpa using h)

/-- Settles O16: codes by their fields, rounding by its remainder, keys by sign and magnitude, the rest by their cases. -/
theorem numberFormats : Obligations.NumberFormats := by
  refine ⟨fun f ew mw bias top te hf => ?_, fun m k rm neg => ?_,
    ⟨Arith.totalKey_eq_or, fun x y hx => ⟨fun hy => ?_, fun hy => Arith.totalKey_lt_iff hx hy⟩⟩,
    fun f x8 e h8 he => ⟨?_, fun hs => ⟨?_, ?_⟩⟩,
    ⟨fun x => ⟨fun h => if_pos h, fun s => Arith.toFx64_inf, fun s m e => Arith.toFx64_finite⟩, fun v => rfl⟩,
    fun v mx mn => ⟨hdrUpdate_nan, ?_⟩⟩
  · obtain ⟨hmem, rfl, rfl, rfl, hlimits⟩ : f ∈ Arith.formats ∧ ew = f.ew ∧ mw = f.mw ∧ bias = f.bias ∧
        f.val f.maxCode = .fin false top te ∧ f.val (2 ^ f.mw) = .fin false (2 ^ f.mw) (1 - (f.bias : Int) - f.mw) ∧
        f.val 1 = .fin false 1 (1 - (f.bias : Int) - f.mw) := by
      simp only [List.mem_cons, Prod.mk.injEq, List.not_mem_nil, or_false] at hf
      rcases hf with h | h | h | h | h | h <;> obtain ⟨rfl, rfl, rfl, rfl, rfl, rfl⟩ := h <;> decide
    obtain ⟨hmax, hnormal, hone⟩ := hlimits
    refine ⟨rfl, hmax, hnormal, hone, fun x hx => ?_⟩
    obtain ⟨htop, h4, h2⟩ := Arith.Fmt.specials hmem x
    obtain ⟨hinf, hfin⟩ := Arith.Fmt.val_fields hx
    exact ⟨htop, h4, h2, hinf, fun hi _ => hfin hi, Arith.roundFmt_val hx⟩
  · refine ⟨Arith.roundShift_neighbour m k rm neg, ?_, Arith.roundShift_ge m k, Arith.roundShift_le m k,
      Arith.roundShift_near m k, ?_, ?_⟩
    · rintro rfl
      exact Arith.roundShift_rtz m k neg
    · rintro rfl -
      exact Arith.roundShift_rne_even m k
    · rintro rfl -
      exact Arith.roundShift_rna_tie m k
  · rw [Arith.totalKey_of_nan hy]
    exact Arith.totalKey_pos hx
  · rintro rfl
    exact ⟨Arith.mxValue_nan_scale f e, Arith.mxDequant_of_none (Arith.mxValue_nan_scale f e)⟩
  · rintro rfl
    refine ⟨_, _, Arith.mxValue_mxi8 hs e, ?_⟩
    rw [← Arith.sx_eight_eq_toInt]
    simp only [decide_eq_true_eq]
    split <;> omega
  · intro r hr
    obtain ⟨hf, rfl⟩ := Arith.mxElem_of_mem hr
    have hv := Arith.mxValue_float hs hf e
    refine ⟨fun hn => ?_, fun s hi hn => ?_, fun s m k hk hn => ?_⟩
    · rw [hn] at hv
      exact ⟨hv, Arith.mxDequant_of_none hv⟩
    · rw [hv, hn, hi]; rfl
    · rw [hv, hn, hk]; rfl
  · rintro x rfl hmx hmn
    rw [hdrUpdate_some x hmx hmn]
    exact ⟨rfl, rfl⟩

end Sys2Proof.Machine
end

section
/-!
PROOFS. Memory keeps its canonical form (R91): the state, translation, fetch and the memory operations.
-/

namespace Sys2Proof.Machine

/-- The state a meaning ends in, where it ends in one, holds memory in its form. -/
def NextWf (o : Host.Outcome State Fault Refusal) : Prop := ∀ s', o = .next s' → Mem.wf s'.mem = true
/-- The state a meaning's body makes, where it makes one, does. -/
def OkWf (r : Res State) : Prop := ∀ s', r = .ok s' → Mem.wf s'.mem = true

@[simp] theorem nextWf_next {s : State} : NextWf (.next s) ↔ Mem.wf s.mem = true :=
  ⟨fun h => h s rfl, fun h _ e => Host.Outcome.next.inj e ▸ h⟩
@[simp] theorem nextWf_fault (r : Fault) : NextWf (.fault r) := fun _ e => nomatch e
@[simp] theorem nextWf_refused (r : Refusal) : NextWf (.refused r) := fun _ e => nomatch e
@[simp] theorem okWf_ok {s : State} : OkWf (.ok s) ↔ Mem.wf s.mem = true :=
  ⟨fun h => h s rfl, fun h _ e => Except.ok.inj e ▸ h⟩
@[simp] theorem okWf_pure {s : State} : OkWf (pure s) ↔ Mem.wf s.mem = true := okWf_ok
@[simp] theorem okWf_error (e : Stop) : OkWf (.error e) := fun _ h => nomatch h
@[simp] theorem okWf_trapWith (c u : Nat) (i a : W64) : OkWf (trapWith c u i a) := okWf_error _
@[simp] theorem okWf_operand (op : Nat) (i : W64) : OkWf (operand op i) := okWf_error _
@[simp] theorem okWf_memTrap (m : MM) (a : W64) : OkWf (memTrap m a) := okWf_error _
@[simp] theorem okWf_bind {α : Type} {r : Res α} {f : α → Res State} : OkWf (r >>= f) ↔ ∀ a, r = .ok a → OkWf (f a) :=
  ⟨fun h a e s' hs => h s' (by rw [e]; exact hs), fun h s' hs => let ⟨a, e, hf⟩ := bind_ok hs; h a e s' hf⟩
@[simp] theorem okWf_map {α : Type} {r : Res α} {f : α → State} : OkWf (f <$> r) ↔ ∀ a, r = .ok a → Mem.wf (f a).mem = true := by
  cases r <;> simp [Functor.map, Except.map]
@[simp] theorem trapWith_ne_ok {α : Type} (c u : Nat) (i a : W64) (v : α) : trapWith c u i a ≠ .ok v := fun h => nomatch h
@[simp] theorem operand_ne_ok {α : Type} (op : Nat) (i : W64) (v : α) : operand op i ≠ .ok v := fun h => nomatch h
@[simp] theorem memTrap_ne_ok {α : Type} (m : MM) (a : W64) (v : α) : memTrap m a ≠ .ok v := fun h => nomatch h
@[simp] theorem okWf_ite {p : Prop} [Decidable p] {a b : Res State}
    : OkWf (if p then a else b) ↔ (p → OkWf a) ∧ (¬ p → OkWf b) := by
  split <;> simp [*]
/-- A check that stops the body, as `do` writes it: the rest runs where it passes. -/
theorem okWf_check {p : Prop} [Decidable p] {e : Stop} {f : Unit → Res State} (h : ¬ p → OkWf (f ())) :
    OkWf (if p then (.error e : Res Unit) >>= f else f ()) := by
  split
  · exact okWf_error e
  · exact h ‹_›
@[simp] theorem nextWf_ite {p : Prop} [Decidable p] {a b : Host.Outcome State Fault Refusal} :
    NextWf (if p then a else b) ↔ (p → NextWf a) ∧ (¬ p → NextWf b) := by
  split <;> simp [*]
theorem wf_ite {p : Prop} [Decidable p] {a b : State} :
    Mem.wf (if p then a else b).mem = true ↔ (p → Mem.wf a.mem = true) ∧ (¬ p → Mem.wf b.mem = true) := by
  split <;> simp [*]
theorem mem_ite {p : Prop} [Decidable p] {a b : State} : (if p then a else b).mem = if p then a.mem else b.mem := apply_ite ..

/-- What the fold of a step that keeps the form keeps. -/
theorem foldl_wf {β : Type} {f : State → β → State} (hf : ∀ s b, Mem.wf s.mem = true → Mem.wf (f s b).mem = true) (l : List β)
    {s : State} (hw : Mem.wf s.mem = true) : Mem.wf (l.foldl f s).mem = true :=
  foldl_keeps (fun s : State => Mem.wf s.mem = true) f l s hw hf
theorem wf_of_mem {s s' : State} (h : s'.mem = s.mem) (hw : Mem.wf s.mem = true) : Mem.wf s'.mem = true := h ▸ hw
theorem wf_fst {α : Type} {r : State × α} {s : State} {v : α} (h : r = (s, v))
    (hw : Mem.wf r.1.mem = true) : Mem.wf s.mem = true := by
  rw [h] at hw; exact hw
theorem mem_fst {α : Type} {r : State × α} {s s' : State} {v : α} (h : r = (s', v)) (hm : r.1.mem = s.mem) : s'.mem = s.mem := by
  rw [h] at hm; exact hm
/-- What holds of the start of a fold, and through each of its steps, holds of its value. -/
theorem keeps_of_foldl {α β : Type} {P : α → Prop} {f : α → β → α} {l : List β} {a r : α} (e : l.foldl f a = r) (h : P a)
    (hf : ∀ a b, P a → P (f a b)) : P r := e ▸ foldl_keeps P f l a h hf
theorem foldl_mem {β : Type} {f : State → β → State} (hf : ∀ s b, (f s b).mem = s.mem) (l : List β) (s : State) :
    (l.foldl f s).mem = s.mem := by
  induction l generalizing s with
  | nil => rfl
  | cons b r ih => rw [List.foldl_cons, ih, hf]


/-! ### Machine/Base -/

/-! ### Machine/Operands -/

@[simp] theorem pushQ_mem (s : State) (t : Nat) (q : Qn) (lat : Nat) (v : Option QVal) :
    (pushQ s t q lat v).mem = s.mem := by simp [pushQ]

@[simp] theorem pushS_mem (s : State) (t : Nat) (lat : Nat) (v : W64) :
    (pushS s t lat v).mem = s.mem := by simp [pushS]

@[simp] theorem pushV_mem (s : State) (t : Nat) (c : Clu) (lat : Nat) (m : W64) (v base : VReg) :
    (pushV s t c lat m v base).mem = s.mem := by simp [pushV]

@[simp] theorem pushAll_mem (s : State) (t : Nat) (c : Clu) (lat : Nat) (on : Bool) (v : VReg) :
    (pushAll s t c lat on v).mem = s.mem := by simp [pushAll]

@[simp] theorem wrK_mem (s : State) (t : Nat) (r : Nat) (v : W64) :
    (wrK s t r v).mem = s.mem := by simp [wrK]

@[simp] theorem healV_mem (s : State) (t : Nat) (c : Clu) (r : Nat) :
    (healV s t c r).mem = s.mem := by
  unfold healV
  dsimp only
  repeat' split
  all_goals simp

@[simp] theorem wrV_mem (s : State) (t : Nat) (c : Clu) (r : Nat) (m : W64) (v : VReg) :
    (wrV s t c r m v).mem = s.mem := by simp [wrV, apply_ite State.mem]

@[simp] theorem wrX_mem (s : State) (t : Nat) (r : IdxReg) (v : W32) :
    (wrX s t r v).mem = s.mem := by simp [wrX]

@[simp] theorem cqPush_mem (s : State) (c : Nat) (vs : List W32) :
    (cqPush s c vs).mem = s.mem := by
  unfold cqPush
  split <;> simp

/-! ### Machine/Global -/

@[simp] theorem logViol_mem (s : State) (d : Fin 2) (kind : Option Nat) (core ctx : Nat) (src : Option Nat) (addr : Option W64) :
    (logViol s d kind core ctx src addr).mem = s.mem := rfl

@[simp] theorem logRas_mem (s : State) (d : Fin 2) (kind core ctx : Nat) (src : Option Nat) (addr info : Option W64) :
    (logRas s d kind core ctx src addr info).mem = s.mem := rfl

@[simp] theorem launchErr_mem (s : State) (l : Nat) (addr : W64) :
    (launchErr s l addr).mem = s.mem := by
  unfold launchErr
  split <;> simp

@[simp] theorem noteUe_mem (s : State) (d : Fin 2) (core ctx : Nat) (addr : W64) :
    (noteUe s d core ctx addr).mem = s.mem := rfl

@[simp] theorem raceAt_mem (s : State) (t c pa : Nat) (va : W64) :
    (raceAt s t c pa va).mem = s.mem := by simp [raceAt]

@[simp] theorem aheadFault_mem (s : State) (x : Context) :
    (aheadFault s x).mem = s.mem := by
  unfold aheadFault
  split <;> simp

@[simp] theorem nsFail_mem (s : State) (t sub : Nat) (node : W32) :
    (nsFail s t sub node).mem = s.mem := by
  unfold nsFail
  split <;> simp

@[simp] theorem nsReport_mem (s : State) (t err : Nat) :
    (nsReport s t err).mem = s.mem := by simp [nsReport, apply_ite State.mem]

@[simp] theorem poolWrite_mem (s : State) (c rk : Nat) (bytes : List (Nat × Byte)) (fe : Option (Bool × List Nat)) :
    (poolWrite s c rk bytes fe).mem = s.mem := rfl

@[simp] theorem spWrite_mem (s : State) (c rk o : Nat) (bs : List Byte) (fe : Option (Bool × List Nat)) :
    (spWrite s c rk o bs fe).mem = s.mem := rfl

@[simp] theorem wfeTake_mem (s : State) (c rk : Nat) (ls : List Nat) :
    (wfeTake s c rk ls).mem = s.mem := rfl

@[simp] theorem memWrite_wf {s : State} (bs : List (Nat × Byte)) (hw : Mem.wf s.mem = true) :
    Mem.wf (memWrite s bs).mem = true := by simp [memWrite, wf_ite, hw, Mem.wf_wrBytes]

@[simp] theorem poisonLine_mem (s : State) (ln : Nat) :
    (poisonLine s ln).mem = s.mem := rfl

@[simp] theorem dropLine_mem (s : State) (c ln : Nat) :
    (dropLine s c ln).mem = s.mem := rfl

@[simp] theorem dropClean_mem (s : State) (c : Nat) :
    (dropClean s c).mem = s.mem := rfl

@[simp] theorem setDir_mem (s : State) (ln : Nat) (a0 : Option DirSt) :
    (setDir s ln a0).mem = s.mem := by
  unfold setDir
  split <;> simp

@[simp] theorem engineLine_wf {s : State} (c ln : Nat) (hw : Mem.wf s.mem = true) :
    Mem.wf (engineLine s c ln).1.mem = true := by
  unfold engineLine
  repeat' split
  all_goals simp [hw, writeBack_wf]

@[simp] theorem releaseCore_mem (s : State) (c t : Nat) :
    (releaseCore s c t).mem = s.mem := rfl

@[simp] theorem releaseActs_wf {s : State} (c t v : Nat) (sc : Scope) (away : Bool) (hw : Mem.wf s.mem = true) :
    Mem.wf (releaseActs s c t v sc away).mem = true := by
  unfold releaseActs
  split
  · exact hw
  · exact hw
  · split
    · exact writeBackMine_wf c t hw
    · exact foldl_wf (fun _ _ => writeBack_wf _ _) _ hw

theorem findLeaf_mem (s : State) (c va : Nat) {r : (State × Nat × Nat)} (hs : findLeaf s c va = .ok r) :
    r.1.mem = s.mem := by
  obtain ⟨s', lvl, e⟩ := r
  obtain ⟨k, t, h⟩ := findLeaf_effect hs
  rw [h]

theorem xlate_mem (s : State) (c : Nat) (va : W64) (n : Need) {r : (State × Nat × Bool)} (hs : xlate s c va n = .ok r) :
    r.1.mem = s.mem := by
  obtain ⟨s', pa, nc⟩ := r
  obtain ⟨k, t, h⟩ := xlate_effect hs
  rw [h]

@[simp] theorem engRead_wf {s : State} (c : Nat) (va : W64) (n : Nat) (hw : Mem.wf s.mem = true) :
    Mem.wf (engRead s c va n).1.mem = true := by
  refine foldl_keeps (fun r : State × Except (Nat × W64) (List Byte) => Mem.wf r.1.mem = true) _ _ _ hw fun r p hr => ?_
  dsimp only
  split
  · exact hr
  · split
    · exact hr
    · rename_i hx
      have he := fun ln => engineLine_wf c ln (wf_of_mem (xlate_mem _ _ _ _ hx) hr)
      split_ifs <;> exact he _

@[simp] theorem formMsg_mem (s : State) (m : OutMsg) :
    (formMsg s m).mem = s.mem := rfl

@[simp] theorem sendReq_mem (s : State) (va : W64) (size : Nat) (mask : W64) (acq : Option Scope) (launch task : Nat)
    (k : ReqKind) :
    (sendReq s va size mask acq launch task k).mem = s.mem := rfl

@[simp] theorem logBad_mem (s : State) (src e off : Nat) :
    (logBad s src e off).mem = s.mem := by
  unfold logBad
  split <;> simp [mem_ite]

@[simp] theorem homeLoad_wf {s : State} (src off size : Nat) (mask : W64) (acq : Option Scope) (hw : Mem.wf s.mem = true) :
    Mem.wf (homeLoad s src off size mask acq).1.mem = true := by
  unfold homeLoad
  dsimp only
  repeat' split
  all_goals simp [hw, recallVar_wf]

@[simp] theorem dropFar_mem (s : State) (c off n : Nat) :
    (dropFar s c off n).mem = s.mem := foldl_mem (fun s p => by split <;> simp) _ _

@[simp] theorem deferWrite_wf {s : State} (src : Nat) (w : Write) (hw : Mem.wf s.mem = true) :
    Mem.wf (deferWrite s src w).mem = true := by
  unfold deferWrite
  split <;> simp [hw, applyWrite_wf]

/-! ### Machine/Fetch -/

@[simp] theorem fetchWord_mem (s : State) (c : Nat) (va : W64) :
    (fetchWord s c va).1.mem = s.mem := by
  unfold fetchWord
  split
  · rfl
  · rename_i hx
    split_ifs <;> exact xlate_mem _ _ _ _ hx

@[simp] theorem fetchRun_mem (s : State) (c : Nat) (va : W64) (ws : List W32) (a0 : Nat) :
    (fetchRun s c va ws a0).1.mem = s.mem := by
  induction a0 generalizing s va ws with
  | zero => rfl
  | succ n ih =>
    unfold fetchRun
    split
    · rename_i hf
      exact mem_fst hf (fetchWord_mem s c va)
    · rename_i hf
      have hm := mem_fst hf (fetchWord_mem s c va)
      split
      · exact hm
      · rw [ih, hm]

@[simp] theorem bundleAt_mem (s : State) (x : Context) (place : Nat) (va : W64) :
    (bundleAt s x place va).1.mem = s.mem := by
  unfold bundleAt
  dsimp only
  repeat' split
  all_goals simp

@[simp] theorem capture_mem (s : State) (t place : Nat) (va : W64) (ws : List W32) :
    (capture s t place va ws).mem = s.mem := by simp [capture]

@[simp] theorem nestSkip_mem (s : State) (t : Nat) (a0 : Nat) :
    (nestSkip s t a0).mem = s.mem := by
  induction a0 generalizing s with
  | zero => rfl
  | succ n ih =>
    unfold nestSkip
    dsimp only
    split
    · rfl
    · split
      · rfl
      · split
        · split
          · rw [ih, State.setCtx_mem]
          · split <;> rfl
        · split
          · split <;> rename_i hb
            · rw [ih, State.modCtx_mem, capture_mem, mem_fst hb (bundleAt_mem ..)]
            · exact mem_fst hb (bundleAt_mem ..)
          · rfl

@[simp] theorem iterationEnd_mem (s : State) (t : Nat) :
    (iterationEnd s t).mem = s.mem := by
  unfold iterationEnd
  dsimp only
  repeat' split
  all_goals simp

/-! ### Machine/MemOps -/

@[simp] theorem feLoaded_wf {s : State} (c rc : Nat) (fe : FeL) (ls : List Nat) (hw : Mem.wf s.mem = true) :
    Mem.wf (feLoaded s c rc fe ls).mem = true := by
  unfold feLoaded
  split <;> simp [hw]

@[simp] theorem spStore_wf {s : State} (c rc o : Nat) (fe : FeS) (bytes : List (Nat × Byte)) (ls : List Nat)
    (hw : Mem.wf s.mem = true) :
    Mem.wf (spStore s c rc o fe bytes ls).mem = true := by simp [spStore, wf_ite, hw]

@[simp] theorem ownLoad_wf {s : State} (x : Context) (a : W64) (n : Nat) (mask : W64) (acq : Option Scope)
    (hw : Mem.wf s.mem = true) :
    Mem.wf (ownLoad s x a n mask acq).1.mem = true := by
  unfold ownLoad
  dsimp only
  repeat' split
  all_goals simp [hw]

theorem scalarGo_wf {s : State} (t : Nat) (x : Context) (a : W64) (n : Nat) (u : Bool) (acq : Option Scope) (id : Nat)
    {land : State → Option W64 → State} (hw : Mem.wf s.mem = true)
    (hl : ∀ s v, Mem.wf s.mem = true → Mem.wf (land s v).mem = true) : Mem.wf (scalarGo s t x a n u acq id land).mem = true := by
  have ho := ownLoad_wf x a n 0 acq hw
  unfold scalarGo
  split
  · split
    · rename_i h
      exact hl _ _ (wf_fst h ho)
    · rename_i h
      exact hl _ _ (by simpa using wf_fst h ho)
  · split
    · exact hl _ _ (by simpa using hw)
    · exact hl _ _ (by simpa using hw)

@[simp] theorem remoteScal_wf {s : State} (t : Nat) (x : Context) (a : W64) (n : Nat) (u : Bool) (acq : Option Scope) (lat : Nat)
    (hw : Mem.wf s.mem = true) :
    Mem.wf (remoteScal s t x a n u acq lat).mem = true := scalarGo_wf t x a n u acq _ hw fun s v h => by simpa using h

@[simp] theorem pushLater_mem (s : State) (t : Nat) (q : Qn) (a : W64) (span acks : List (Nat × Nat)) (acc : Nat → LaterAcc)
    (pends : List Nat) :
    (pushLater s t q a span acks acc pends).mem = s.mem := by simp [pushLater]

theorem wf_of_orTrap_xlate {s : State} {c : Nat} {a b : W64} {n : Need} {r : State × Nat × Bool}
    (h : orTrap b (xlate s c a n) = .ok r) (hw : Mem.wf s.mem = true) : Mem.wf r.1.mem = true := by
  cases hx : xlate s c a n with
  | error m => rw [hx] at h; cases h
  | ok q =>
    rw [hx] at h
    cases h
    exact wf_of_mem (xlate_mem _ _ _ _ hx) hw

@[simp] theorem ldgAt_wf {s : State} (t : Nat) (x : Context) (a : W64) (n : Nat) (u : Bool) (hw : Mem.wf s.mem = true) :
    OkWf (ldgAt s t x a n u) := by
  unfold ldgAt
  split
  · simp [hw]
  · refine okWf_bind.mpr fun _ _ => okWf_check fun _ => okWf_bind.mpr fun ⟨s', pa, nc⟩ hx => ?_
    have hs := wf_of_orTrap_xlate hx hw
    refine okWf_ite.mpr ⟨fun _ => by simpa using hs, fun _ => ?_⟩
    have hp := plainLoad_wf x.core t pa n nc hs
    split
    · rename_i h
      simpa using wf_fst h hp
    · rename_i h
      simpa using wf_fst h hp
    · exact okWf_error _

@[simp] theorem stgAt_wf {s : State} (t : Nat) (x : Context) (a : W64) (slot n : Nat) (v : W64) (hw : Mem.wf s.mem = true) :
    OkWf (stgAt s t x a slot n v) := by
  unfold stgAt
  split
  · simp [hw]
  · refine okWf_bind.mpr fun _ _ => okWf_check fun _ => okWf_bind.mpr fun ⟨s', pa, nc⟩ hx => ?_
    exact okWf_pure.mpr (deferWrite_wf _ _ (wf_of_orTrap_xlate hx hw))

@[simp] theorem loadLanes_wf {s : State} (c t : Nat) (ls : List (Nat × W64 × Nat × Bool)) (hw : Mem.wf s.mem = true) :
    Mem.wf (loadLanes s c t ls).1.mem = true := by
  refine foldl_keeps (fun r : State × List (Nat × W32) × Option (W64 × Nat) => Mem.wf r.1.mem = true) _ _ _ hw fun r p hr => ?_
  have hp := plainLoad_wf c t p.2.2.1 4 p.2.2.2 hr
  split <;> rename_i h <;> exact wf_fst h hp

theorem rowGo_wf {s : State} (t : Nat) (x : Context) (a : W64) (mask : W64) (base : VReg) (id : Nat)
    {land : State → Option VReg → State} (hw : Mem.wf s.mem = true)
    (hl : ∀ s v, Mem.wf s.mem = true → Mem.wf (land s v).mem = true) : Mem.wf (rowGo s t x a mask base id land).mem = true := by
  have ho := ownLoad_wf x a 256 mask none hw
  unfold rowGo
  split
  · split
    · rename_i h
      exact hl _ _ (wf_fst h ho)
    · rename_i h
      exact hl _ _ (by simpa using wf_fst h ho)
  · split
    · exact hl _ _ (by simpa using hw)
    · exact hl _ _ (by simpa using hw)

@[simp] theorem homeStore_wf {s : State} (c pa : Nat) (bs : List Byte) (hw : Mem.wf s.mem = true) :
    Mem.wf (homeStore s c pa bs).mem = true := by
  unfold homeStore
  dsimp only
  repeat' split
  all_goals simp [hw, Mem.wf_wrBytes]

@[simp] theorem acquireAt_wf {s : State} (c pa n : Nat) (sc : Scope) (hw : Mem.wf s.mem = true) :
    Mem.wf (acquireAt s c pa n sc).1.mem = true := by
  unfold acquireAt
  dsimp only
  repeat' split
  all_goals simp [hw, recallVar_wf]

@[simp] theorem releaseHere_wf {s : State} (t : Nat) (x : Context) (va val : W64) (sc : Scope) (hw : Mem.wf s.mem = true) :
    Mem.wf (releaseHere s t x va val sc).mem = true := by
  unfold releaseHere
  split
  · simpa using hw
  · rename_i hx
    have h := wf_of_mem (xlate_mem _ _ _ _ hx) hw
    split <;> simp [h]

@[simp] theorem releaseSend_wf {s : State} (t : Nat) (x : Context) (va val : W64) (sc : Scope) (n q : Nat)
    (hw : Mem.wf s.mem = true) :
    Mem.wf (releaseSend s t x va val sc n q).mem = true := by
  unfold releaseSend
  dsimp only
  repeat' split
  all_goals simp [hw]

@[simp] theorem landVal_mem (s : State) (t id : Nat) (v : QVal) :
    (landVal s t id v).mem = s.mem := by simp [landVal]

@[simp] theorem lateEcc_mem (s : State) (t sub : Nat) (a : W64) :
    (lateEcc s t sub a).mem = s.mem := by simp [lateEcc]

@[simp] theorem ldaDone_mem (s : State) (t id : Nat) :
    (ldaDone s t id).mem = s.mem := by simp [ldaDone]

@[simp] theorem performLater_wf {s : State} (t : Nat) (x : Context) (e : Later) (hw : Mem.wf s.mem = true) :
    Mem.wf (performLater s t x e).mem = true := by
  unfold performLater
  dsimp only
  split
  · exact releaseHere_wf t x e.va _ _ hw
  · rename_i sc n u id _
    split
    · split
      · rw [dropClean_mem]
        exact scalarGo_wf t x e.va n u _ _ hw fun s v h => by cases v <;> simpa using h
      · exact scalarGo_wf t x e.va n u _ _ hw fun s v h => by cases v <;> simpa using h
    · split
      · simpa using hw
      · rename_i s' pa nc h
        have hx := wf_of_mem (xlate_mem _ _ _ _ h) hw
        split
        · simpa using hx
        · have ha := acquireAt_wf x.core pa n sc hx
          split <;> rename_i hq <;> simpa using wf_fst hq ha
  · rename_i pa nc n u id _
    have hp := plainLoad_wf x.core t pa n nc hw
    split <;> rename_i h <;> simpa using wf_fst h hp
  · rename_i ls mask base id _
    have hl := loadLanes_wf x.core t ls hw
    split
    · simpa using hw
    · split <;> rename_i h <;> simpa using wf_fst h hl
  · exact scalarGo_wf t x e.va _ _ none _ hw fun s v h => by cases v <;> simpa using h
  · exact rowGo_wf t x e.va _ _ _ hw fun s v h => by cases v <;> simpa using h
  · exact storeAll_wf _ t _ hw
  · repeat' split
    all_goals simpa using hw

@[simp] theorem releaseStep_wf {s : State} (t : Nat) (hw : Mem.wf s.mem = true) :
    Mem.wf (releaseStep s t).mem = true := by
  unfold releaseStep
  repeat' split
  all_goals simp [hw]

@[simp] theorem releaseAll_wf {s : State} (t : Nat) (a0 : Nat) (hw : Mem.wf s.mem = true) :
    Mem.wf (releaseAll s t a0).mem = true := by
  induction a0 generalizing s with
  | zero => exact hw
  | succ n ih => exact ih (releaseStep_wf t hw)

@[simp] theorem fenceActs_wf {s : State} (c t : Nat) (sc : Scope) (hw : Mem.wf s.mem = true) :
    Mem.wf (fenceActs s c t sc).mem = true := by
  unfold fenceActs
  split <;> simp [hw, writeBackMine_wf]

@[simp] theorem sendPh_mem (s : State) (t src c n : Nat) (a : PhAct) :
    (sendPh s t src c n a).mem = s.mem := by simp [sendPh, apply_ite State.mem]

@[simp] theorem sendGs_mem (s : State) (t c : Nat) (a : GsAct) :
    (sendGs s t c a).mem = s.mem := by
  unfold sendGs
  split <;> simp

@[simp] theorem settle_wf {s : State} (t : Nat) (hw : Mem.wf s.mem = true) :
    Mem.wf (settle s t).mem = true := by
  unfold settle
  split
  · exact hw
  · have hr := releaseAll_wf t (2 * (‹Context›).rels.length) hw
    dsimp only
    split
    · exact hr
    · refine foldl_wf (fun s h hs => ?_) _ hr
      cases h <;> dsimp only <;> repeat' split
      all_goals simp [hs]

@[simp] theorem ldaAt_wf {s : State} (t : Nat) (x : Context) (a : W64) (n : Nat) (u : Bool) (sc : Scope)
    (hw : Mem.wf s.mem = true) :
    OkWf (ldaAt s t x a n u sc) := by
  unfold ldaAt
  dsimp only
  split
  · simp [hw, wf_ite]
  · refine okWf_bind.mpr fun _ _ => okWf_bind.mpr fun ⟨s', pa, nc⟩ hx => ?_
    have hs := wf_of_orTrap_xlate hx hw
    refine okWf_ite.mpr ⟨fun _ => by simpa using hs, fun _ => okWf_ite.mpr ⟨fun _ => by simpa using hs, fun _ => ?_⟩⟩
    have ha := acquireAt_wf x.core pa n sc hs
    split
    · rename_i h
      simpa using wf_fst h ha
    · exact okWf_error _

@[simp] theorem strlAt_wf {s : State} (t : Nat) (x : Context) (a v : W64) (slot : Nat) (sc : Scope) (hw : Mem.wf s.mem = true) :
    OkWf (strlAt s t x a v slot sc) := by
  unfold strlAt
  split
  · simp [hw]
  · refine okWf_bind.mpr fun _ _ => okWf_bind.mpr fun ⟨s', pa, nc⟩ hx => ?_
    exact okWf_pure.mpr (deferWrite_wf _ _ (wf_of_orTrap_xlate hx hw))

end Sys2Proof.Machine
end

section
/-!
PROOFS. Memory keeps its canonical form (R91): the copy engine, the fabric, collectives, generation, pages, tasks and phasers.
-/

namespace Sys2Proof.Machine

/-! ### Machine/CopyOps -/

@[simp] theorem modCe_mem (s : State) (c : Nat) (e : Bool) (f : CeRegs → CeRegs) :
    (modCe s c e f).mem = s.mem := rfl

@[simp] theorem modCmds_mem (s : State) (c : Nat) (e : Bool) (f : List Cmd → List Cmd) :
    (modCmds s c e f).mem = s.mem := rfl

@[simp] theorem setCmd_mem (s : State) (c : Nat) (e : Bool) (q : Cmd) :
    (setCmd s c e q).mem = s.mem := rfl

@[simp] theorem dropCmd_mem (s : State) (c : Nat) (e : Bool) (id : Nat) :
    (dropCmd s c e id).mem = s.mem := rfl

@[simp] theorem unclaim_mem (s : State) (c : Nat) (e : Bool) (t : Nat) :
    (unclaim s c e t).mem = s.mem := rfl

@[simp] theorem deferEng_wf {s : State} (src : Nat) (w : Write) (hw : Mem.wf s.mem = true) :
    Mem.wf (deferEng s src w).mem = true := by
  unfold deferEng
  split <;> simp [hw, applyWrite_wf]

@[simp] theorem countTick_mem (s : State) (t : Nat) (i : Option Nat) :
    (countTick s t i).mem = s.mem := by simp [countTick, apply_ite State.mem]

@[simp] theorem tickApplied_mem (s : State) (t : Nat) (i : Option Nat) :
    (tickApplied s t i).mem = s.mem := by simp [tickApplied, apply_ite State.mem]

@[simp] theorem resolveMem_mem (s : State) (c : Nat) (a : W64) (n : Nat) (nd : Need) :
    (resolveMem s c a n nd).1.mem = s.mem := by
  refine foldl_keeps (fun r : State × Except MM Side => r.1.mem = s.mem) _ _ _ rfl fun r p hr => ?_
  dsimp only
  split
  · exact hr
  · split
    · exact hr
    · rename_i hx
      exact (xlate_mem _ _ _ _ hx).trans hr

@[simp] theorem resolve_mem (s : State) (c launch : Nat) (a : W64) (n al : Nat) (nd : Need) :
    (resolve s c launch a n al nd).1.mem = s.mem := by
  unfold resolve
  grind [resolveMem_mem]

@[simp] theorem readyLines_wf {s : State} (c : Nat) (d : Side) (hw : Mem.wf s.mem = true) :
    Mem.wf (readyLines s c d).1.mem = true := by
  refine foldl_keeps (fun r : State × Option Nat => Mem.wf r.1.mem = true) _ _ _ hw fun r p hr => ?_
  have he := fun ln => engineLine_wf c ln hr
  dsimp only
  split
  · split <;> exact he _
  · exact hr

@[simp] theorem readSide_wf {s : State} (c rk : Nat) (d : Side) (acc : Bool) (hw : Mem.wf s.mem = true) :
    Mem.wf (readSide s c rk d acc).1.mem = true := by
  unfold readSide
  grind [readyLines_wf, Mem.wf_wrBytes]

@[simp] theorem engWrite_wf {s : State} (c pa : Nat) (bs : List Byte) (hw : Mem.wf s.mem = true) :
    Mem.wf (engWrite s c pa bs).mem = true := by simp [engWrite, hw, Mem.wf_wrBytes]

@[simp] theorem writeSide_wf {s : State} (c rk : Nat) (d : Side) (bs : List Byte) (acc : Bool) (hw : Mem.wf s.mem = true) :
    Mem.wf (writeSide s c rk d bs acc).1.mem = true := by
  have hl := readyLines_wf c d hw
  unfold writeSide
  split <;> rename_i h
  · exact wf_fst h hl
  · refine foldl_keeps (fun r : State × List Byte => Mem.wf r.1.mem = true) _ _ _ (wf_fst h hl) fun r p hr => ?_
    dsimp only
    split <;> simp [hr]

@[simp] theorem rmwSide_wf {s : State} (c rk n : Nat) (d : Side) (f : Nat → Nat) (hw : Mem.wf s.mem = true) :
    Mem.wf (rmwSide s c rk n d f).1.mem = true := by
  unfold rmwSide
  grind [readSide_wf, writeSide_wf, Mem.wf_wrBytes]

@[simp] theorem syncArrive_mem (s : State) (o : Nat × Nat) (n : Nat) :
    (syncArrive s o n).mem = s.mem := rfl

@[simp] theorem arrive_mem (s : State) (q : Cmd) (n : Nat) :
    (arrive s q n).mem = s.mem := by
  unfold arrive
  split <;> simp [mem_ite]

@[simp] theorem ftgUse_mem (s : State) (launch : Nat) :
    (ftgUse s launch).mem = s.mem := by
  unfold ftgUse
  split <;> simp

@[simp] theorem takeNums_mem (s : State) (n : Nat) (r : Strm) (k : Nat) :
    (takeNums s n r k).1.mem = s.mem := rfl

@[simp] theorem sendOn_mem (s : State) (q : Cmd) (va : W64) (num bytes elem : Nat) (body : StreamBody) (span : Nat) :
    (sendOn s q va num bytes elem body span).1.mem = s.mem := by
  unfold sendOn
  dsimp only
  repeat' split
  all_goals simp

@[simp] theorem topUp_mem (s : State) (q : Cmd) :
    (topUp s q).1.mem = s.mem := by
  unfold topUp
  dsimp only
  repeat' split
  all_goals simp

@[simp] theorem flushMsg_mem (s : State) (q : Cmd) :
    (flushMsg s q).1.mem = s.mem := by
  unfold flushMsg
  dsimp only
  repeat' split
  all_goals simp

@[simp] theorem leaveHoles_mem (s : State) (q : Cmd) :
    (leaveHoles s q).mem = s.mem := by
  unfold leaveHoles
  dsimp only
  repeat' split
  all_goals simp

@[simp] theorem landZero_mem (s : State) (q : Cmd) :
    (landZero s q).mem = s.mem := by
  unfold landZero
  split <;> simp

@[simp] theorem abandonCmd_mem (s : State) (c : Nat) (e : Bool) (q : Cmd) :
    (abandonCmd s c e q).mem = s.mem := by simp [abandonCmd]

@[simp] theorem discardAfter_mem (s : State) (c : Nat) (e : Bool) (q : Cmd) :
    (discardAfter s c e q).1.mem = s.mem := foldl_mem (fun s r => by split <;> simp) _ _

@[simp] theorem postCopy_mem (s : State) (q : Cmd) (sub : Nat) (addr info : W64) :
    (postCopy s q sub addr info).mem = s.mem := by simp [postCopy]

@[simp] theorem endFailed_mem (s : State) (c : Nat) (e : Bool) (q : Cmd) (k : Nat) :
    (endFailed s c e q k).mem = s.mem := by simp [endFailed, apply_ite State.mem]

@[simp] theorem copyFault_mem (s : State) (c : Nat) (e : Bool) (q : Cmd) (sub : Nat) (addr : W64) (src : Bool) (k : Nat) :
    (copyFault s c e q sub addr src k).mem = s.mem := by simp [copyFault, apply_ite State.mem]

@[simp] theorem logOut_mem (s : State) (c : Nat) (a : W64) (out : Bool) :
    (logOut s c a out).mem = s.mem := by simp [logOut, apply_ite State.mem]

@[simp] theorem copyRemote_mem (s : State) (e : Bool) (q : Cmd) (addr : W64) (gran r101 : Nat) (src : Bool) :
    (copyRemote s e q addr gran r101 src).mem = s.mem := by simp [copyRemote]

@[simp] theorem applyTOp_wf {s : State} (c : Nat) (op : TOp) (hw : Mem.wf s.mem = true) :
    Mem.wf (applyTOp s c op).1.mem = true := by
  unfold applyTOp
  grind [writeSide_wf, rmwSide_wf, Mem.wf_wrBytes]

@[simp] theorem opDone_mem (s : State) (q : Cmd) (op : TOp) (old : Nat) :
    (opDone s q op old).mem = s.mem := by
  unfold opDone
  split <;> simp

@[simp] theorem applyNow_wf {s : State} (c : Nat) (e : Bool) (q : Cmd) (op : TOp) (addr : W64) (k : Nat)
    (hw : Mem.wf s.mem = true) :
    Mem.wf (applyNow s c e q op addr k).1.mem = true := by
  unfold applyNow
  grind [copyFault_mem, applyTOp_wf, opDone_mem, Mem.wf_wrBytes]

@[simp] theorem cbPut_mem (s : State) (q : Cmd) (os : List (Nat × TOp)) (elem : Nat) :
    (cbPut s q os elem).mem = s.mem := rfl

/-! ### Machine/CopyRun -/

@[simp] theorem checkElem_mem (c : Nat) (q : Cmd) (k : Chk) (i : Nat) : (checkElem c q k i).st.mem = k.st.mem := by
  unfold checkElem
  split
  · rfl
  · dsimp only
    split <;> rename_i h
    · exact mem_fst h (resolve_mem ..)
    · split <;> rename_i h' <;> exact (mem_fst h' (resolve_mem ..)).trans (mem_fst h (resolve_mem ..))

@[simp] theorem checkOne_mem (s : State) (c : Nat) (q : Cmd) (a : W64) (n al : Nat) : (checkOne s c q a n al).st.mem = s.mem := by
  unfold checkOne
  split <;> rename_i h <;> exact mem_fst h (resolve_mem ..)

@[simp] theorem checkGranule_mem (s : State) (c : Nat) (q : Cmd) : (checkGranule s c q).1.st.mem = s.mem := by
  unfold checkGranule
  split
  · simp
  · simp
  · split
    · simp
    · split
      · rfl
      · exact foldl_keeps (fun k : Chk => k.st.mem = s.mem) _ _ _ rfl fun k i h => (checkElem_mem ..).trans h

/-- The state a turn of an element leaves. -/
def Turn.st : Turn → State
  | .wait s _ => s
  | .done s _ => s
  | .ended s => s
@[simp] theorem Turn.st_wait (s : State) (q : Cmd) : (Turn.wait s q).st = s := rfl
@[simp] theorem Turn.st_done (s : State) (q : Cmd) : (Turn.done s q).st = s := rfl
@[simp] theorem Turn.st_ended (s : State) : (Turn.ended s).st = s := rfl

@[simp] theorem waitAfter_mem (s : State) (c : Nat) (q : Cmd) (first : Bool) : (waitAfter s c q first).st.mem = s.mem := by
  unfold waitAfter
  split <;> simp

theorem readFar_wf {s : State} {c : Nat} {e : Bool} {q : Cmd} {va : W64} {t : Turn} (hw : Mem.wf s.mem = true)
    (ht : readFar s c e q va = .inl t) : Mem.wf t.st.mem = true := by
  unfold readFar at ht
  dsimp only at ht
  repeat' split at ht
  all_goals cases ht
  all_goals simp [hw]

@[simp] theorem joinMsg_mem (s : State) (c : Nat) (q : Cmd) (va : W64) (bs : List Byte) : (joinMsg s c q va bs).st.mem = s.mem
    := by
  unfold joinMsg
  dsimp only
  repeat' split
  all_goals simp

@[simp] theorem fillLines_mem (e : Bool) (s : State) (c : Nat) (q : Cmd) :
    (fillLines e s c q).1.mem = s.mem := by
  unfold fillLines
  split
  · rfl
  · exact foldl_mem (fun _ _ => by rfl) _ _

@[simp] theorem stopAt_mem (s : State) (c : Nat) (e : Bool) (q : Cmd) (sub : Nat) (a : W64) (src : Bool) :
    (stopAt s c e q sub a src).st.mem = s.mem := by simp [stopAt]

@[simp] theorem ticketed_wf {s : State} (c : Nat) (e : Bool) (q : Cmd) (os : List (Nat × TOp)) (addr : W64)
    (hw : Mem.wf s.mem = true) : Mem.wf (ticketed s c e q os addr).st.mem = true := by
  unfold ticketed
  dsimp only
  split
  · split
    · exact hw
    · have hf := foldl_keeps (fun r : State × Bool => Mem.wf r.1.mem = true)
        (fun r o => if r.2 then applyNow r.1 c e q o.2 addr q.elem else r) os (s, true) hw
        fun r o hr => by split <;> simp [hr]
      split <;> exact hf
  · split
    · simpa using hw
    · exact hw

@[simp] theorem writeElem_wf {s : State} (c : Nat) (e : Bool) (q : Cmd) (da : W64) (d : Side) (bs : List Byte)
    (hw : Mem.wf s.mem = true) : Mem.wf (writeElem s c e q da d bs).st.mem = true := by
  unfold writeElem
  dsimp only
  split
  · have ht := topUp_mem s q
    split <;> simp [hw]
  · simpa using hw
  · rename_i op _ _
    split
    · exact ticketed_wf c e q _ da hw
    · have hr := rmwSide_wf c (rkCe e) q.esize d (fun old => accVal op old (leNat bs)) hw
      split <;> rename_i h <;> simpa using wf_fst h hr
  · split
    · exact ticketed_wf c e q _ da hw
    · have hr := writeSide_wf c (rkCe e) d bs false hw
      split <;> rename_i h <;> simpa using wf_fst h hr

@[simp] theorem missElem_mem (s : State) (c : Nat) (q : Cmd) (d : Side) : (missElem s c q d).st.mem = s.mem := by
  unfold missElem
  dsimp only
  repeat' split
  all_goals simp

@[simp] theorem copyElem_wf {s : State} (c : Nat) (e : Bool) (q : Cmd) (hw : Mem.wf s.mem = true) :
    Mem.wf (copyElem s c e q).st.mem = true := by
  unfold copyElem
  dsimp only
  split
  · exact hw
  · split
    · simpa using hw
    · split
      · split
        · rename_i h
          exact readFar_wf hw h
        · split_ifs <;> simp [hw]
      · split
        · simpa using hw
        · have hr := fun d => readSide_wf c (rkCe e) d false hw
          split <;> rename_i h
          · simpa using wf_fst h (hr _)
          · exact writeElem_wf c e q _ _ _ (wf_fst h (hr _))

@[simp] theorem zeroElem_wf {s : State} (c : Nat) (e : Bool) (q : Cmd) (hw : Mem.wf s.mem = true) :
    Mem.wf (zeroElem s c e q).st.mem = true := by
  unfold zeroElem
  dsimp only
  repeat' split
  all_goals simp [hw]

@[simp] theorem retElem_wf {s : State} (c : Nat) (e : Bool) (q : Cmd) (a : W64) (hw : Mem.wf s.mem = true) :
    Mem.wf (retElem s c e q a).st.mem = true := by
  unfold retElem
  dsimp only
  split
  · repeat' split
    all_goals simp [hw]
  · split
    · exact ticketed_wf c e q _ a hw
    · have hr := fun d => rmwSide_wf c (rkCe e) q.esize d q.retVal hw
      split <;> rename_i h <;> simpa using wf_fst h (hr _)

@[simp] theorem elemStep_wf {s : State} (c : Nat) (e : Bool) (q : Cmd) (hw : Mem.wf s.mem = true) :
    Mem.wf (elemStep s c e q).st.mem = true := by
  unfold elemStep
  repeat' split
  all_goals simp [hw]

@[simp] theorem endGranule_mem (s : State) (c : Nat) (e : Bool) (q : Cmd) :
    (endGranule s c e q).mem = s.mem := by simp [endGranule]

@[simp] theorem performAll_wf (c : Nat) (e : Bool) (a0 : Nat) {s : State} (a2 : Cmd) (hw : Mem.wf s.mem = true) :
    Mem.wf (performAll c e a0 s a2).mem = true := by
  induction a0 generalizing s a2 with
  | zero =>
    unfold performAll
    split <;> simp [hw]
  | succ n ih =>
    have he := elemStep_wf c e a2 hw
    unfold performAll
    split <;> rename_i h <;> rw [h] at he
    · exact ih _ he
    · simpa using he
    · exact he

theorem reserve_mem (s : State) (q : Cmd) (k : Chk) {r : (State × Cmd)} (hs : reserve s q k = some r) :
    r.1.mem = s.mem := by
  unfold reserve at hs
  grind [takeNums_mem]

@[simp] theorem runGranule_wf {s : State} (c : Nat) (e : Bool) (q : Cmd) (hw : Mem.wf s.mem = true) :
    Mem.wf (runGranule s c e q).mem = true := by
  unfold runGranule
  split
  · exact performAll_wf c e _ _ hw
  · split
    · exact hw
    · have hc := checkGranule_mem s c q
      split
      rename_i k q' hk
      rw [hk] at hc
      dsimp only at hc
      split
      · simp [hc, hw]
      · split
        · exact hw
        · split
          · exact hw
          · rename_i hr
            exact performAll_wf c e _ _ (by simpa using wf_of_mem ((reserve_mem _ _ _ hr).trans hc) hw)

theorem boundary_mem (s : State) (c : Nat) (e : Bool) (q : Cmd) {s' : State} (hs : boundary s c e q = some s') :
    s'.mem = s.mem := by
  unfold boundary at hs
  grind [abandonCmd_mem, setCmd_mem]

@[simp] theorem completeCmd_mem (s : State) (c : Nat) (e : Bool) (q : Cmd) :
    (completeCmd s c e q).mem = s.mem := by
  unfold completeCmd
  dsimp only
  repeat' split
  all_goals simp

@[simp] theorem applyCb_wf {s : State} (o : CbOp) (hw : Mem.wf s.mem = true) :
    Mem.wf (applyCb s o).mem = true := by
  unfold applyCb
  dsimp only
  repeat' split
  all_goals simp [hw]

@[simp] theorem headApply_wf {s : State} (sc : Nat) (tk : W64) (hw : Mem.wf s.mem = true) :
    Mem.wf (headApply s sc tk).mem = true := foldl_wf (fun s o hs => by split <;> simp [hs]) _ hw

@[simp] theorem applyHeld_wf {s : State} (q : Cmd) (hw : Mem.wf s.mem = true) :
    Mem.wf (applyHeld s q).mem = true := by simp [applyHeld, wf_ite, hw]

/-! ### Machine/MatrixOps -/

@[simp] theorem State.modMe_mem (s : State) (c : Nat) (f : MatrixEng → MatrixEng) :
    (State.modMe s c f).mem = s.mem := rfl

@[simp] theorem tileRead_wf {s : State} (c : Nat) (a : W64) (n : Nat) (hw : Mem.wf s.mem = true) :
    Mem.wf (tileRead s c a n).1.mem = true := by
  unfold tileRead
  grind [noteUe_mem, engRead_wf, Mem.wf_wrBytes]

@[simp] theorem accWrite_mem (s : State) (c row : Nat) (vs : List Nat) :
    (accWrite s c row vs).mem = s.mem := rfl

@[simp] theorem accumulate_mem (s : State) (c row : Nat) :
    (accumulate s c row).mem = s.mem := rfl

@[simp] theorem closeSweep_mem (s : State) (c : Nat) :
    (closeSweep s c).mem = s.mem := rfl

@[simp] theorem dropFetch_mem (s : State) (c : Nat) :
    (dropFetch s c).mem = s.mem := by
  unfold dropFetch
  exact foldl_mem (fun s e => foldl_mem (fun s q => abandonCmd_mem ..) _ _) _ _

@[simp] theorem rollBack_mem (s : State) (c : Nat) (w : Sweep) :
    (rollBack s c w).mem = s.mem := by simp [rollBack]

theorem needFill_mem (s : State) (c seg : Nat) {s' : State} (hs : needFill s c seg = some s') :
    s'.mem = s.mem := by
  unfold needFill at hs
  grind [State.modLatch_mem, State.modMe_mem]

/-! ### Machine/NodeOps -/

@[simp] theorem setBasin_mem (s : State) (die : Nat) (m : SMap NodeRec) :
    (setBasin s die m).mem = s.mem := rfl

@[simp] theorem putRec_mem (s : State) (x : W32) (r : NodeRec) :
    (putRec s x r).mem = s.mem := rfl

@[simp] theorem nsLog_mem (s : State) (w : Who) (sub : Nat) (x : W32) :
    (nsLog s w sub x).mem = s.mem := by simp [nsLog, apply_ite State.mem]

@[simp] theorem walkRun_mem (w : Who) (op : NsOp) (die : Nat) (a0 : Nat) (s : State) (a2 : WalkAt) :
    (walkRun w op die a0 s a2).1.mem = s.mem := by
  induction a0 generalizing s a2 with
  | zero => rfl
  | succ n ih =>
    unfold walkRun
    dsimp only
    repeat' split
    all_goals simp [ih]

@[simp] theorem walkStep_mem (w : Who) (op : NsOp) (s : State) (a : WalkAt) :
    (walkStep w op s a).1.mem = s.mem := by simp [walkStep]

@[simp] theorem walkAll_mem (w : Who) (op : NsOp) (a0 : Nat) (s : State) (a2 : WalkAt) :
    (walkAll w op a0 s a2).1.mem = s.mem := by
  induction a0 generalizing s a2 with
  | zero => rfl
  | succ n ih =>
    have hs := walkStep_mem w op s a2
    unfold walkAll
    split <;> rename_i h
    · exact mem_fst h hs
    · exact (ih ..).trans (mem_fst h hs)

@[simp] theorem freeOwned_mem (s : State) (ep launch : Nat) :
    (freeOwned s ep launch).mem = s.mem := rfl

@[simp] theorem nsErr_mem (s : State) (w : Who) (val : W64) (sub : Nat) (x : W32) :
    (nsErr s w val sub x).1.mem = s.mem := by simp [nsErr]

@[simp] theorem doSel_mem (s : State) (w : Who) (x cp fpu : W32) :
    (doSel s w x cp fpu).1.mem = s.mem := by
  unfold doSel
  dsimp only
  repeat' split
  all_goals simp

@[simp] theorem doRd_mem (s : State) (w : Who) (x : W32) (f : NsRd) :
    (doRd s w x f).1.mem = s.mem := by
  unfold doRd
  repeat' split
  all_goals simp

@[simp] theorem doWr_mem (s : State) (w : Who) (x : W32) (f : NsField) (b : W64) :
    (doWr s w x f b).1.mem = s.mem := by
  unfold doWr
  split <;> simp

theorem allocRun_mem (s : State) (w : Who) (die : Nat) (x : W32) (ps : List (BitVec 16))
    {r : (State × W32)} (hs : allocRun s w die x ps = some r) :
    r.1.mem = s.mem := by
  obtain ⟨i, -, rfl⟩ := Option.map_eq_some_iff.mp hs
  rfl

@[simp] theorem doAlloc_mem (s : State) (w : Who) (die : Nat) (x : W32) (ps : List (BitVec 16)) :
    (doAlloc s w die x ps).1.mem = s.mem := by
  unfold doAlloc
  split
  · split
    · rename_i h
      exact allocRun_mem _ _ _ _ _ h
    · rfl
  · split
    · simp
    · split
      · rfl
      · split
        · rfl
        · rename_i h
          simpa using allocRun_mem _ _ _ _ _ h

@[simp] theorem doFree_mem (s : State) (w : Who) (x : W32) :
    (doFree s w x).1.mem = s.mem := by
  have hf : ∀ l : List W32, (l.foldl (fun s y => setBasin s (idDie y) (del (basinOf s (idDie y)) (idIndex y))) s).mem = s.mem :=
    fun l => foldl_mem (fun _ _ => by rfl) l s
  unfold doFree
  dsimp only
  repeat' split
  all_goals simp [hf]

@[simp] theorem applyNs_mem (s : State) (w : Who) (die : Nat) (x : W32) (op : NsOp) :
    (applyNs s w die x op).1.mem = s.mem := by
  unfold applyNs
  split <;> simp

@[simp] theorem homeNode_mem (s : State) (src launch : Nat) (x : W32) (op : NsOp) :
    (homeNode s src launch x op).1.mem = s.mem := by
  unfold homeNode
  dsimp only
  repeat' split
  all_goals simp

@[simp] theorem spRecord_mem (s : State) (c off : Nat) (bs : List Byte) :
    (spRecord s c off bs).mem = s.mem := rfl

@[simp] theorem lands_mem (s : State) (q : NodeOp) (v : W64) :
    (lands s q v).mem = s.mem := by
  unfold lands
  split <;> simp

@[simp] theorem endNop_mem (s : State) (q : NodeOp) (r : NsRes) :
    (endNop s q r).mem = s.mem := by
  unfold endNop
  dsimp only
  repeat' split
  all_goals simp

@[simp] theorem nopStep_mem (s : State) (id : Nat) (walk : Bool) :
    (nopStep s id walk).mem = s.mem := by
  unfold nopStep
  grind [lands_mem, walkStep_mem, endNop_mem, applyNs_mem]

@[simp] theorem dropNops_mem (s : State) (t : Nat) :
    (dropNops s t).mem = s.mem := rfl

/-! ### Machine/FabricOps -/

@[simp] theorem fifoSend_mem (s : State) (c : Nat) :
    (fifoSend s c).mem = s.mem := by
  unfold fifoSend
  dsimp only
  rw [State.modCore_mem]
  refine foldl_keeps (fun p : State × List OutFifo × List (Nat × Nat) => p.1.mem = s.mem) _ _ _ rfl fun p f hp => ?_
  split <;> exact hp

@[simp] theorem fifoDrain_mem (s : State) (c : Nat) (a0 : Nat) :
    (fifoDrain s c a0).mem = s.mem := by
  induction a0 generalizing s with
  | zero => exact fifoSend_mem s c
  | succ n ih =>
    unfold fifoDrain
    dsimp only
    repeat' split
    all_goals simp [ih]

@[simp] theorem fifoPush_mem (s : State) (c t : Nat) (v : W64) :
    (fifoPush s c t v).mem = s.mem := by simp [fifoPush]

@[simp] theorem rxWord_mem (s : State) (c : Nat) (w : W64) :
    (rxWord s c w).mem = s.mem := by simp [rxWord, apply_ite State.mem]

@[simp] theorem fifoDeliver_mem (s : State) (id : Nat) (m : FifoMsg) :
    (fifoDeliver s id m).mem = s.mem := by
  have hf : ∀ (l : List W64) d s, (l.foldl (fun s w => rxWord s d w) s).mem = s.mem := fun l d => foldl_mem (fun _ _ => by simp) l
  unfold fifoDeliver
  dsimp only
  repeat' split
  all_goals simp [hf]

@[simp] theorem sendResume_mem (s : State) (c : Nat) :
    (sendResume s c).mem = s.mem := by
  unfold sendResume
  dsimp only
  repeat' split
  all_goals simp

@[simp] theorem takeResume_mem (s : State) (c p : Nat) :
    (takeResume s c p).mem = s.mem := by simp [takeResume]

@[simp] theorem detLost_mem (s : State) (m : OutMsg) :
    (detLost s m).mem = s.mem := by
  unfold detLost
  dsimp only
  repeat' split
  all_goals simp

@[simp] theorem freeCmd_mem (s : State) (c : Nat) (e : Bool) (cmd : Nat) :
    (freeCmd s c e cmd).mem = s.mem := by
  unfold freeCmd
  split <;> simp

@[simp] theorem wordFail_mem (s : State) (rq : Nat) (err : Nat) :
    (wordFail s rq err).mem = s.mem := by
  unfold wordFail
  dsimp only
  repeat' split
  all_goals simp

@[simp] theorem landNone_mem (s : State) (rq : Nat) :
    (landNone s rq).mem = s.mem := by
  unfold landNone
  dsimp only
  repeat' split
  all_goals simp

@[simp] theorem dropStrm_mem (s : State) (st : Nat) :
    (dropStrm s st).mem = s.mem := (foldl_mem (fun _ _ => landNone_mem ..) _ _).trans rfl

@[simp] theorem deliver_wf {s : State} (src id : Nat) (m : Msg) (hw : Mem.wf s.mem = true) :
    Mem.wf (deliver s src id m).mem = true := by
  unfold deliver
  dsimp only
  split
  · exact homeLoad_wf src _ _ _ _ hw
  · exact hw
  · exact hw
  · exact hw
  · exact hw
  · exact wf_of_mem (foldl_mem (fun _ _ => by simp) _ _) hw
  · exact hw
  · split
    · split <;> simp [hw]
    · exact hw
  all_goals exact hw

@[simp] theorem sealAt_wf {s : State} (i : Nat) (hw : Mem.wf s.mem = true) :
    Mem.wf (sealAt s i).mem = true := by
  unfold sealAt
  split <;> simp [wf_ite, hw]

@[simp] theorem receiveFlit_wf {s : State} (f : Flit) (hw : Mem.wf s.mem = true) :
    Mem.wf (receiveFlit s f).mem = true := by simp [receiveFlit, wf_ite, hw]

@[simp] theorem closeStream_mem (s : State) (n : Nat) (r : Strm) (fill : Bool) :
    (closeStream s n r fill).mem = s.mem := by simp [closeStream, apply_ite State.mem]

@[simp] theorem closeDying_mem (s : State) :
    (closeDying s).mem = s.mem := foldl_mem (fun s p => by split <;> simp) _ _

@[simp] theorem endStreams_mem (s : State) (t : Nat) :
    (endStreams s t).mem = s.mem := by simp [endStreams]

@[simp] theorem ackStream_mem (s : State) (st n err off : Nat) :
    (ackStream s st n err off).mem = s.mem := by
  unfold ackStream
  dsimp only
  repeat' split
  all_goals simp

@[simp] theorem halfArrives_mem (s : State) (c h rq : Nat) (r : RemoteResp) :
    (halfArrives s c h rq r).mem = s.mem := by
  unfold halfArrives
  dsimp only
  repeat' split
  all_goals simp

@[simp] theorem answer_mem (s : State) (rq : Nat) (r : RemoteResp) :
    (answer s rq r).mem = s.mem := by
  unfold answer
  dsimp only
  repeat' split
  all_goals simp

@[simp] theorem lendWindow_mem (s : State) (h : BitVec 1) :
    (lendWindow s h).mem = s.mem := foldl_mem (fun s e => by rw [mem_ite]; simp) _ _

@[simp] theorem loseReqs_mem (s : State) (p : Nat) :
    (loseReqs s p).mem = s.mem := foldl_mem (fun s r => by
  dsimp only
  split
  · simp
  · simp
  · simp
  · split <;> simp
  · rfl
  · simp) _ _

@[simp] theorem loseStreams_mem (s : State) (p : Nat) :
    (loseStreams s p).mem = s.mem := by
  unfold loseStreams
  dsimp only
  refine (foldl_mem (fun s r => by rw [mem_ite]; simp) _ _).trans ?_
  exact foldl_mem (fun _ _ => detLost_mem ..) _ _

@[simp] theorem loseFifo_mem (s : State) (p : Nat) :
    (loseFifo s p).mem = s.mem := foldl_mem (fun s c => by
  dsimp only
  have hf : ∀ (l : List OutFifo) s, (l.foldl (fun s f => postAsync s f.task (fabCause 4 0 (f.msg.words.headD 0))) s).mem = s.mem :=
    fun l s => foldl_mem (fun _ _ => by simp) l s
  rw [mem_ite, fifoDrain_mem, hf]
  simp) _ _

@[simp] theorem dropWeirs_mem (s : State) (p : Nat) :
    (dropWeirs s p).mem = s.mem := rfl

@[simp] theorem loseEndpoint_mem (s : State) (p : Nat) :
    (loseEndpoint s p).mem = s.mem := by
  unfold loseEndpoint
  exact (foldl_mem (fun _ _ => by rfl) _ _).trans (by simp)

/-! ### Machine/CollOps -/

@[simp] theorem modColl_mem (s : State) (cid inst : Nat) (f : Coll → Coll) :
    (modColl s cid inst f).mem = s.mem := rfl

@[simp] theorem collTell_mem (s : State) (c : Coll) (es : List Nat) (b : CollBody) :
    (collTell s c es b).mem = s.mem := foldl_mem (fun _ _ => by rfl) _ _

@[simp] theorem collSend_mem (s : State) (c : Coll) (b : CollBody) :
    (collSend s c b).mem = s.mem := by simp [collSend]

@[simp] theorem collCause_mem (s : State) (c : Coll) (sub : Nat) :
    (collCause s c sub).mem = s.mem := by simp [collCause, apply_ite State.mem]

@[simp] theorem collFault_mem (s : State) (c : Coll) (sub : Nat) (a : W64) (src : Bool) :
    (collFault s c sub a src).mem = s.mem := by simp [collFault, apply_ite State.mem]

@[simp] theorem collFinish_mem (s : State) (c : Coll) :
    (collFinish s c).mem = s.mem := by
  unfold collFinish
  dsimp only
  repeat' split
  all_goals simp

@[simp] theorem collStop_mem (s : State) (c : Coll) (bits : BitVec 10) (sub : Nat) :
    (collStop s c bits sub).mem = s.mem := by simp [collStop, apply_ite State.mem]

@[simp] theorem collRead_wf {s : State} (c : Coll) (a : W64) (n : Nat) (hw : Mem.wf s.mem = true) :
    Mem.wf (collRead s c a n).1.mem = true := by
  unfold collRead
  grind [resolve_mem, readSide_wf, Mem.wf_wrBytes]

@[simp] theorem collWrite_wf {s : State} (c : Coll) (a : W64) (bs : List Byte) (hw : Mem.wf s.mem = true) :
    Mem.wf (collWrite s c a bs).1.mem = true := by
  unfold collWrite
  grind [resolve_mem, writeSide_wf, Mem.wf_wrBytes]

@[simp] theorem shardRow_wf {s : State} (c : Coll) (a : W64) (hw : Mem.wf s.mem = true) :
    Mem.wf (shardRow s c a).1.mem = true := by
  refine foldl_keeps (fun r : State × Except (Nat × W64) (List Byte) => Mem.wf r.1.mem = true) _ _ _ hw fun r j hr => ?_
  have hc := fun a => collRead_wf c a 4 hr
  split
  · exact hr
  · split <;> rename_i h <;> exact wf_fst h (hc _)

@[simp] theorem contribs_wf {s : State} (c : Coll) (hw : Mem.wf s.mem = true) :
    Mem.wf (contribs s c).1.mem = true := by
  unfold contribs
  split
  · refine foldl_keeps (fun r : State × Except (Nat × W64) (List Byte) => Mem.wf r.1.mem = true) _ _ _ hw fun r i hr => ?_
    have hc := fun a => shardRow_wf c a hr
    split
    · exact hr
    · split <;> rename_i h <;> exact wf_fst h (hc _)
  · split
    · exact hw
    · have hc := collRead_wf c c.src c.srcLen hw
      split <;> rename_i h <;> exact wf_fst h hc

/-- The writes of a collective's result: they end at the first fault. -/
theorem collWrites_wf {s : State} (c : Coll) (ws : List (W64 × List Byte)) (hw : Mem.wf s.mem = true) :
    Mem.wf (ws.foldl (fun (r : State × Bool) w =>
      if r.2 then r
      else match collWrite r.1 c w.1 w.2 with
        | (s, none) => (s, false)
        | (s, some (e, a)) => (collFault s c e a false, true)) (s, false)).1.mem = true := by
  refine foldl_keeps (fun r : State × Bool => Mem.wf r.1.mem = true) _ _ _ hw fun r w hr => ?_
  have hc := collWrite_wf c w.1 w.2 hr
  split
  · exact hr
  · split <;> rename_i h <;> simpa using wf_fst h hc

@[simp] theorem collPerform_wf {s : State} (c : Coll) (hw : Mem.wf s.mem = true) :
    Mem.wf (collPerform s c).mem = true := by
  have hp := fun ws => collWrites_wf c ws hw
  unfold collPerform
  dsimp only
  split
  · rw [collSend_mem, modColl_mem]; exact hp _
  · rw [collSend_mem, modColl_mem]; exact hp _
  · rw [collSend_mem, modColl_mem]; exact hp _
  · rw [collSend_mem, modColl_mem]; exact hp _
  · rw [modColl_mem]
    exact wf_of_mem (foldl_mem (fun _ _ => by rfl) _ _) (hp _)
  · rw [collSend_mem, modColl_mem]; exact hp _
  · rw [collSend_mem, modColl_mem, wf_ite]
    exact ⟨fun _ => hp _, fun _ => hw⟩

@[simp] theorem collRowEnd_mem (s : State) (c : Coll) :
    (collRowEnd s c).mem = s.mem := by
  unfold collRowEnd
  dsimp only
  repeat' split
  all_goals simp

@[simp] theorem collAdvance_wf {s : State} (cid : Nat) (hw : Mem.wf s.mem = true) :
    Mem.wf (collAdvance s cid).mem = true := by
  unfold collAdvance
  split <;> simp [wf_ite, hw]

@[simp] theorem collTake_mem (s : State) (c : Coll) (src : Nat) (b : CollBody) :
    (collTake s c src b).mem = s.mem := by
  unfold collTake
  dsimp only
  repeat' split
  all_goals simp

@[simp] theorem collLate_mem (s : State) (m : CollMsg) :
    (collLate s m).mem = s.mem := by
  unfold collLate
  split <;> simp [mem_ite]

@[simp] theorem collArrive_mem (s : State) (m : CollMsg) :
    (collArrive s m).mem = s.mem := by
  unfold collArrive
  dsimp only
  repeat' split
  all_goals simp

@[simp] theorem collStart_wf {s : State} (cid : Nat) (hw : Mem.wf s.mem = true) :
    Mem.wf (collStart s cid).mem = true := by
  unfold collStart
  split
  · exact hw
  · rename_i c _
    split
    · exact hw
    · dsimp only
      have hc := contribs_wf c (s := modColl s cid c.inst fun d => { d with started := true }) (by simpa using hw)
      split <;> rename_i h
      · split <;> simpa using wf_fst h hc
      · rw [State.due_mem]
        refine wf_of_mem (foldl_mem (fun _ _ => collTell_mem ..) _ _) ?_
        rw [modColl_mem, wf_ite]
        exact ⟨fun _ => by simpa using wf_fst h hc, fun _ => wf_fst h hc⟩

@[simp] theorem collIssue_mem (s : State) (c : Coll) :
    (collIssue s c).mem = s.mem := (foldl_mem (fun _ _ => collArrive_mem ..) _ _).trans rfl

@[simp] theorem collAbort_mem (s : State) (t : Nat) :
    (collAbort s t).mem = s.mem := foldl_mem (fun _ _ => by simp) _ _

@[simp] theorem collDiscard_mem (s : State) (cid : Nat) :
    (collDiscard s cid).mem = s.mem := by
  unfold collDiscard
  dsimp only
  repeat' split
  all_goals simp

@[simp] theorem collLose_mem (s : State) (p : Nat) :
    (collLose s p).mem = s.mem := foldl_mem (fun s c => by
  rw [State.due_mem]
  split
  all_goals simp [mem_ite]) _ _

/-! ### Machine/GenOps -/

@[simp] theorem drainSamps_mem (s : State) (e : Nat) :
    (drainSamps s e).mem = s.mem := rfl

@[simp] theorem setGsq_mem (s : State) (e : Nat) (g : Gsq) :
    (setGsq s e g).mem = s.mem := rfl

@[simp] theorem gsStart_mem (s : State) (e t : Nat) (word : W64) :
    (gsStart s e t word).mem = s.mem := by
  unfold gsStart
  dsimp only
  repeat' split
  all_goals simp

@[simp] theorem gsAcc_mem (s : State) (e t : Nat) (itn : W32) (n : Nat) (tok : W32) :
    (gsAcc s e t itn n tok).mem = s.mem := by
  unfold gsAcc
  dsimp only
  repeat' split
  all_goals simp

@[simp] theorem gsApply_mem (s : State) (o : GsOp) :
    (gsApply s o).mem = s.mem := by
  unfold gsApply
  dsimp only
  repeat' split
  all_goals simp

@[simp] theorem gsStep_mem (s : State) :
    (gsStep s).mem = s.mem := by
  unfold gsStep
  split <;> simp

@[simp] theorem gsLeave_mem (s : State) (t c : Nat) (killed : Bool) :
    (gsLeave s t c killed).mem = s.mem := by
  unfold gsLeave
  split <;> simp [mem_ite]

@[simp] theorem gsReset_mem (s : State) (e : Nat) :
    (gsReset s e).mem = s.mem := rfl

/-! ### Machine/PageOps -/

@[simp] theorem setEnt_mem (s : State) (h : Nat) (e : PgEntry) :
    (setEnt s h e).mem = s.mem := rfl

@[simp] theorem setUsedF_mem (s : State) (d : Nat) (l : List Nat) :
    (setUsedF s d l).mem = s.mem := rfl

theorem takeFrame_mem (s : State) (h : Nat) {r : (State × Nat)} (hs : takeFrame s h = some r) :
    r.1.mem = s.mem := by
  obtain ⟨f, -, rfl⟩ := Option.map_eq_some_iff.mp hs
  exact setUsedF_mem ..

@[simp] theorem freeFrame_mem (s : State) (h f : Nat) :
    (freeFrame s h f).mem = s.mem := rfl

@[simp] theorem freeSlots_mem (s : State) (fs hs : Nat) :
    (freeSlots s fs hs).mem = s.mem := rfl

@[simp] theorem reclaim_mem (s : State) (h : Nat) :
    (reclaim s h).mem = s.mem := by
  have hf : (((pgEnt s h).frame.map (freeFrame s h)).getD s).mem = s.mem := by
    cases (pgEnt s h).frame <;> simp
  unfold reclaim
  dsimp only
  repeat' split
  all_goals simp [hf]

@[simp] theorem reclaimDead_mem (s : State) (h : Nat) :
    (reclaimDead s h).mem = s.mem := by simp [reclaimDead, apply_ite State.mem]

theorem mapNew_wf {s : State} (h hdc pos0 : Nat) {s' : State} (hw : Mem.wf s.mem = true) (hs : mapNew s h hdc pos0 = some s') :
    Mem.wf s'.mem = true := by
  unfold mapNew at hs
  dsimp only at hs
  split at hs
  · cases hs
  · split at hs
    · cases hs
    · rename_i h
      cases hs
      simpa using Mem.wf_wrBytes _ (Mem.wf_wrBytes _ (wf_of_mem (takeFrame_mem _ _ h) hw))

theorem evictStart_mem (s : State) (h : Nat) {s' : State} (hs : evictStart s h = some s') :
    s'.mem = s.mem := by
  unfold evictStart at hs
  grind [State.tick_mem, setEnt_mem]

@[simp] theorem evictEnd_wf {s : State} (h : Nat) (hw : Mem.wf s.mem = true) :
    Mem.wf (evictEnd s h).mem = true := by
  unfold evictEnd
  dsimp only
  repeat' split
  · simpa using hw
  · simpa using Mem.wf_wrBytes _ hw
  · exact hw

@[simp] theorem prefetch_mem (s : State) (h : Nat) :
    (prefetch s h).mem = s.mem := by simp [prefetch, apply_ite State.mem]

@[simp] theorem demandFill_mem (s : State) (h : Nat) (next : List Nat) :
    (demandFill s h next).mem = s.mem := by
  have hf : ∀ (l : List Nat) s, (l.foldl (fun s g => if pgOk s g then prefetch s g else s) s).mem = s.mem :=
    fun l => foldl_mem (fun s g => by split <;> simp) l
  unfold demandFill
  dsimp only
  repeat' split
  all_goals simp [hf]

@[simp] theorem fillBegin_mem (s : State) :
    (fillBegin s).mem = s.mem := by
  unfold fillBegin
  split
  · rfl
  · split
    · rfl
    · rename_i h
      simpa using takeFrame_mem _ _ h

@[simp] theorem fillEnd_wf {s : State} (h : Nat) (bad : Bool) (hw : Mem.wf s.mem = true) :
    Mem.wf (fillEnd s h bad).mem = true := by
  unfold fillEnd
  grind [memWrite_wf, setEnt_mem, freeSlots_mem, logRas_mem, freeFrame_mem, reclaimDead_mem, Mem.wf_wrBytes]

@[simp] theorem pageStop_mem (s : State) (c : Nat) (e : Bool) (q : Cmd) (h : Nat) (next : List Nat) :
    (pageStop s c e q h next).mem = s.mem := by
  unfold pageStop
  dsimp only
  repeat' split
  all_goals simp

@[simp] theorem pageFault_mem (s : State) (c : Nat) (e : Bool) (q : Cmd) (sub : Nat) (addr : Nat) (src : Bool) :
    (pageFault s c e q sub addr src).mem = s.mem := by simp [pageFault]

@[simp] theorem kvSignal_mem (s : State) (c : Nat) (e : Bool) (q : Cmd) (later : List (Nat × Nat)) :
    (kvSignal s c e q later).1.mem = s.mem := by
  unfold kvSignal
  split
  · rfl
  · exact foldl_mem (fun _ _ => by rfl) _ _

@[simp] theorem pageNext_mem (s : State) (c : Nat) (e : Bool) (q : Cmd) (last : Bool) :
    (pageNext s c e q last).mem = s.mem := rfl

@[simp] theorem kvldGranule_wf {s : State} (c : Nat) (e : Bool) (q : Cmd) (list npg t0 nt part form : Nat)
    (hw : Mem.wf s.mem = true) :
    Mem.wf (kvldGranule s c e q list npg t0 nt part form).mem = true := by
  unfold kvldGranule
  dsimp only
  split
  · simpa using hw
  split
  · simpa using hw
  split
  · simpa using hw
  split
  · simpa using hw
  split
  · simpa using hw
  · simpa using hw
  split
  · simpa using hw
  split
  · simpa using hw
  split <;> rename_i hc
  all_goals
    replace hc := keeps_of_foldl (P := fun r => Mem.wf r.1.mem = true) hc hw fun r row hr => by
      split
      · exact hr
      · split
        · exact hr
        · split <;> rename_i h
          · exact wf_of_mem (mem_fst h (resolve_mem ..)) hr
          · split <;> exact wf_of_mem (mem_fst h (resolve_mem ..)) hr
  · simpa using hc
  split
  · exact hc
  split <;> rename_i hr
  all_goals
    replace hr := keeps_of_foldl (P := fun r => Mem.wf r.1.mem = true) hr hc fun r d hr => by
      have hd := writeSide_wf c (rkCe e) d.1 d.2.2 false hr
      split
      · exact hr
      · split <;> rename_i h <;> simpa using wf_fst h hd
  · simpa using hr
  · simpa using hr

@[simp] theorem storeToken_wf {s : State} (a hd t : Nat) (keys vals : List Nat) (hw : Mem.wf s.mem = true) :
    Mem.wf (storeToken s a hd t keys vals).mem = true := by
  unfold storeToken
  grind [memWrite_wf, Mem.wf_wrBytes]

@[simp] theorem kvstGranule_wf {s : State} (c : Nat) (e : Bool) (q : Cmd) (h t off : Nat) (hw : Mem.wf s.mem = true) :
    Mem.wf (kvstGranule s c e q h t off).mem = true := by
  unfold kvstGranule
  grind [pageFault_mem, pageStop_mem, storeToken_wf, setEnt_mem, pageNext_mem, arrive_mem, Mem.wf_wrBytes]

@[simp] theorem pselGranule_mem (s : State) (c : Nat) (e : Bool) (q : Cmd) (desc : Nat) :
    (pselGranule s c e q desc).mem = s.mem := by
  unfold pselGranule
  dsimp only
  repeat' split
  all_goals simp

theorem pmapDo_wf {s : State} (op h : Nat) (b : W64) {s' : State} (hw : Mem.wf s.mem = true) (hs : pmapDo s op h b = some s') :
    Mem.wf s'.mem = true := by
  unfold pmapDo at hs
  grind [mapNew_wf, reclaim_mem, evictStart_mem, prefetch_mem, Mem.wf_wrBytes]

@[simp] theorem pmapGranule_wf {s : State} (c : Nat) (e : Bool) (q : Cmd) (op h : Nat) (b : W64) (pend : Nat)
    (hw : Mem.wf s.mem = true) :
    Mem.wf (pmapGranule s c e q op h b pend).mem = true := by
  unfold pmapGranule
  grind [pmapDo_wf, pageNext_mem, landVal_mem, Mem.wf_wrBytes]

@[simp] theorem setSet_mem (s : State) (i : Nat) (v : Option PageSet) :
    (setSet s i v).mem = s.mem := rfl

@[simp] theorem addRef_mem (s : State) (h : Nat) :
    (addRef s h).mem = s.mem := rfl

@[simp] theorem subRef_mem (s : State) (h : Nat) :
    (subRef s h).mem = s.mem := rfl

@[simp] theorem dissolve_mem (s : State) (i : Nat) (g : PageSet) :
    (dissolve s i g).mem = s.mem := by
  unfold dissolve
  rw [setSet_mem]
  exact foldl_mem (fun s h => by rw [mem_ite]; simp) _ _

@[simp] theorem dropRef_mem (s : State) (i : Nat) (pin : Bool) :
    (dropRef s i pin).mem = s.mem := by
  unfold dropRef
  dsimp only
  repeat' split
  all_goals simp

@[simp] theorem modRefs_mem (s : State) (t : Nat) (f : List Nat → List Nat) :
    (modRefs s t f).mem = s.mem := by
  unfold modRefs
  split <;> simp

@[simp] theorem dropRefs_mem (s : State) (t : Nat) :
    (dropRefs s t).mem = s.mem := by
  unfold dropRefs
  split
  · exact (foldl_mem (fun _ _ => dropRef_mem ..) _ _).trans (modRefs_mem ..)
  · rfl

@[simp] theorem psrefNew_wf {s : State} (c : Nat) (q : Cmd) (set n hdc : Nat) (va : W64) (holder : Option Nat)
    (hw : Mem.wf s.mem = true) :
    Mem.wf (psrefNew s c q set n hdc va holder).mem = true := by
  have hg : ∀ (l : List Nat) (s : State), (l.foldl addRef s).mem = s.mem := fun l => foldl_mem (fun _ _ => addRef_mem ..) l
  have hp : Mem.wf (if 2 ^ 24 < storeUsed s + n then (s, .error (0x17, va)) else engRead s c va (4 * n)).1.mem = true := by
    split
    · exact hw
    · exact engRead_wf c va (4 * n) hw
  unfold psrefNew
  dsimp only
  split
  · rw [setSet_mem]; exact hp
  · rw [setSet_mem, hg]; exact hp

@[simp] theorem psState_mem (s : State) (c : Nat) (e : Bool) (q : Cmd) (set : Nat) :
    (psState s c e q set).mem = s.mem := by simp [psState]

@[simp] theorem holdRef_mem (s : State) (set : Nat) (holder : Option Nat) :
    (holdRef s set holder).mem = s.mem := by
  unfold holdRef
  split <;> simp [mem_ite]

@[simp] theorem psrefGranule_wf {s : State} (c : Nat) (e : Bool) (q : Cmd) (set n hdc : Nat) (new : Bool) (va : W64) (holder : Option Nat)
    (hw : Mem.wf s.mem = true) :
    Mem.wf (psrefGranule s c e q set n hdc new va holder).mem = true := by
  unfold psrefGranule
  split <;> simp [hw]

@[simp] theorem psdropGranule_mem (s : State) (c : Nat) (e : Bool) (q : Cmd) (set : Nat) (pin : Bool) :
    (psdropGranule s c e q set pin).mem = s.mem := by
  unfold psdropGranule
  dsimp only
  repeat' split
  all_goals simp

@[simp] theorem setBuilt_mem (s : State) (i : Nat) :
    (setBuilt s i).mem = s.mem := by
  unfold setBuilt
  dsimp only
  repeat' split
  all_goals simp

@[simp] theorem pageGranule_wf {s : State} (c : Nat) (e : Bool) (q : Cmd) (hw : Mem.wf s.mem = true) :
    Mem.wf (pageGranule s c e q).mem = true := by
  unfold pageGranule
  grind [copyFault_mem, kvldGranule_wf, kvstGranule_wf, pselGranule_mem, pmapGranule_wf, psrefGranule_wf,
    psdropGranule_mem, Mem.wf_wrBytes]

theorem pageBoundary_mem (s : State) (c : Nat) (e : Bool) (q : Cmd) {s' : State} (hs : pageBoundary s c e q = some s') :
    s'.mem = s.mem := by
  unfold pageBoundary at hs
  grind [abandonCmd_mem, setCmd_mem]

/-! ### Machine/TaskOps -/

@[simp] theorem modTask_mem (s : State) (i : Nat) (f : Task → Task) :
    (modTask s i f).mem = s.mem := by
  unfold modTask
  split <;> simp

@[simp] theorem maybeFree_mem (s : State) (i : Nat) :
    (maybeFree s i).mem = s.mem := by
  unfold maybeFree
  split <;> simp [mem_ite]

@[simp] theorem tryReady_mem (s : State) (i : Nat) :
    (tryReady s i).mem = s.mem := by
  unfold tryReady
  split <;> simp [mem_ite]

@[simp] theorem newHead_wf {s : State} (sc : Nat) (hw : Mem.wf s.mem = true) :
    Mem.wf (newHead s sc).mem = true := by
  unfold newHead
  split <;> simp [hw]

@[simp] theorem retireTicket_wf {s : State} (t : Nat) (hw : Mem.wf s.mem = true) :
    Mem.wf (retireTicket s t).mem = true := by
  unfold retireTicket
  split <;> simp [wf_ite, hw]

@[simp] theorem holeAt_mem (s : State) (st n : Nat) :
    (holeAt s st n).mem = s.mem := by
  unfold holeAt
  split <;> simp

@[simp] theorem dropMsgs_mem (s : State) (f : OutMsg → StreamMsg → Bool) :
    (dropMsgs s f).mem = s.mem := (foldl_mem (fun s o => by
  split
  · split
    · split <;> simp
    · rfl
  · rfl) _ _).trans rfl

@[simp] theorem voidTicket_wf {s : State} (t : Nat) (hw : Mem.wf s.mem = true) :
    Mem.wf (voidTicket s t).mem = true := by
  unfold voidTicket
  dsimp only
  repeat' split
  all_goals simp [hw]

@[simp] theorem endTask_mem (s : State) (t : Nat) (how : TEnd) (result : W64) :
    (endTask s t how result).mem = s.mem := by
  have hf : ∀ (l : List (Nat × Task)) s, (l.foldl (fun s p => maybeFree s p.1) s).mem = s.mem :=
    fun l => foldl_mem (fun _ _ => maybeFree_mem ..) l
  unfold endTask
  dsimp only
  split
  · split
    · rfl
    · simp [hf, mem_ite]
  · rfl

@[simp] theorem leaveBatch_mem (s : State) (i : Nat) :
    (leaveBatch s i).mem = s.mem := rfl

@[simp] theorem revoke_mem (s : State) (i : Nat) :
    (revoke s i).mem = s.mem := by
  unfold revoke
  repeat' split
  all_goals simp

@[simp] theorem cancelBatch_mem (s : State) (i : Nat) :
    (cancelBatch s i).mem = s.mem := foldl_mem (fun s p => by
  split
  · split <;> simp
  · rfl) _ _

@[simp] theorem markTask_mem (s : State) (i : Nat) :
    (markTask s i).mem = s.mem := by
  unfold markTask
  repeat' split
  all_goals simp

@[simp] theorem cancelTree_mem (a0 : Nat) (s : State) (a2 : Nat) :
    (cancelTree a0 s a2).mem = s.mem := by
  induction a0 generalizing s a2 with
  | zero => exact markTask_mem s a2
  | succ n ih =>
    unfold cancelTree
    exact (foldl_mem (fun _ _ => ih ..) _ _).trans (markTask_mem ..)

theorem createTask_mem (s : State) (n : NewTask) (cancelled : Bool) (spidx : Nat)
    {r : (State × Nat)} (hs : createTask s n cancelled spidx = some r) :
    r.1.mem = s.mem := by
  unfold createTask at hs
  grind [State.tick_mem, endTask_mem, tryReady_mem, revoke_mem]

@[simp] theorem launchWrite_wf {s : State} (c : Nat) (a : W64) (bs : List Byte) (hw : Mem.wf s.mem = true) :
    Mem.wf (launchWrite s c a bs).1.mem = true := by
  unfold launchWrite
  grind [resolveMem_mem, writeSide_wf, Mem.wf_wrBytes]

@[simp] theorem batchFail_mem (s : State) (b l : Nat) (leaves : List Nat) (a : W64) :
    (batchFail s b l leaves a).mem = s.mem := (foldl_mem (fun _ _ => endTask_mem ..) _ _).trans (launchErr_mem ..)

@[simp] theorem closeBatch_wf {s : State} (b : Nat) (hw : Mem.wf s.mem = true) :
    Mem.wf (closeBatch s b).mem = true := by
  unfold closeBatch
  split
  · exact hw
  rename_i g _
  split
  · exact hw
  dsimp only
  have he := fun c a => engRead_wf c a 32 hw
  split <;> rename_i h <;> replace he := wf_fst h (he _ _)
  · simpa using he
  split
  · simpa using he
  split
  · exact he
  split
  · exact he
  split <;> rename_i hr
  all_goals
    replace hr := keeps_of_foldl (P := fun r => Mem.wf r.1.mem = true) hr he fun r p hr => by
      split
      · exact hr
      · exact launchWrite_wf _ _ _ hr
  · simpa using hr
  split
  · exact hr
  · rename_i hn
    exact wf_of_mem ((foldl_mem (fun _ _ => modTask_mem ..) _ _).trans (createTask_mem _ _ _ _ hn)) hr

@[simp] theorem joinBatch_mem (s : State) (l wsid i : Nat) :
    (joinBatch s l wsid i).mem = s.mem := by
  unfold joinBatch
  dsimp only
  repeat' split
  all_goals simp

@[simp] theorem leafResult_wf {s : State} (l : Launch) (g : Batch) (i : Nat) (hw : Mem.wf s.mem = true) :
    Mem.wf (leafResult s l g i).1.mem = true := by
  unfold leafResult
  grind [engRead_wf, Mem.wf_wrBytes]

@[simp] theorem batchEnded_wf {s : State} (t : Nat) (hw : Mem.wf s.mem = true) :
    Mem.wf (batchEnded s t).mem = true := by
  unfold batchEnded
  split
  · refine foldl_wf (fun s p hs => ?_) _ hw
    have hl := fun l g => leafResult_wf l g p.2 hs
    split
    · split <;> rename_i h <;> simpa using wf_fst h (hl _ _)
    · simpa using hs
  · exact hw

@[simp] theorem applyDeferred_mem (s : State) (d : Deferred) :
    (applyDeferred s d).mem = s.mem := by
  unfold applyDeferred
  repeat' split
  all_goals simp

@[simp] theorem cutBatch_mem (s : State) (b : Nat) (g : Batch) :
    (cutBatch s b g).mem = s.mem := (foldl_mem (fun _ _ => by rfl) _ _).trans rfl

@[simp] theorem closeAll_wf {s : State} (l : Nat) (hw : Mem.wf s.mem = true) :
    Mem.wf (closeAll s l).mem = true := by
  unfold closeAll
  refine foldl_wf (fun _ _ hs => closeBatch_wf _ hs) _ ?_
  exact foldl_wf (fun s p hs => by split <;> simp [hs]) _ hw

@[simp] theorem chooseTask_mem (s : State) (sc w i t : Nat) :
    (chooseTask s sc w i t).mem = s.mem := by simp [chooseTask]

/-- The state a wave leaves, where it leaves one. -/
def Wave.st? : Wave → Option State
  | .none => Option.none
  | .full s => some s
  | .take s _ _ => some s
theorem formWave_wf {s s' : State} (sc : Nat) (hw : Mem.wf s.mem = true) (hs : (formWave s sc).st? = some s') :
    Mem.wf s'.mem = true := by
  have hd : ∀ (l : List Deferred) (s : State), (l.foldl applyDeferred s).mem = s.mem :=
    fun l => foldl_mem (fun _ _ => applyDeferred_mem ..) l
  unfold formWave at hs
  dsimp only at hs
  split at hs
  · cases hs
  · rename_i g _
    have hc := fun l => closeAll_wf (s := (sortBy Deferred.before g.deferred).foldl applyDeferred
      { s with scopes := put s.scopes sc { g with deferred := [] } }) l (by rw [hd]; exact hw)
    split_ifs at hs <;> cases hs <;> exact hc _

/-! ### Machine/PhaserOps -/

@[simp] theorem setPh_mem (s : State) (c n : Nat) (p : Phaser) :
    (setPh s c n p).mem = s.mem := rfl

@[simp] theorem phawDone_mem (s : State) (t n : Nat) :
    (phawDone s t n).mem = s.mem := by
  unfold phawDone
  split
  · refine foldl_mem (fun s h => ?_) _ _
    split
    · dsimp only
      rw [mem_ite, mem_ite]
      simp
    · rfl
  · rfl

@[simp] theorem phChange_mem (s : State) (c n : Nat) (p : Phaser) :
    (phChange s c n p).mem = s.mem := (foldl_mem (fun _ _ => tryReady_mem ..) _ _).trans (setPh_mem ..)

@[simp] theorem phBreak_mem (s : State) (c n t : Nat) :
    (phBreak s c n t).mem = s.mem := (foldl_mem (fun _ _ => revoke_mem ..) _ _).trans (setPh_mem ..)

@[simp] theorem phApply_mem (s : State) (o : PhOp) :
    (phApply s o).mem = s.mem := by
  unfold phApply
  split <;> simp

@[simp] theorem phStep_mem (s : State) :
    (phStep s).mem = s.mem := by
  unfold phStep
  split <;> simp

@[simp] theorem phLeave_mem (s : State) (t c : Nat) (kill : Bool) :
    (phLeave s t c kill).mem = s.mem := by
  unfold phLeave
  split
  · exact (foldl_mem (fun _ _ => by rfl) _ _).trans rfl
  · exact foldl_mem (fun _ _ => sendPh_mem ..) _ _

/-! ### Machine/Kill -/

@[simp] theorem chargeAsyncs_mem (s : State) (x : Context) :
    (chargeAsyncs s x).mem = s.mem := foldl_mem (fun _ _ => launchErr_mem ..) _ _

@[simp] theorem dropCtx_mem (s : State) (t : Nat) (x : Context) :
    (dropCtx s t x).mem = s.mem := by simp [dropCtx, apply_ite State.mem]

@[simp] theorem exitTask_wf {s : State} (t : Nat) (v : W64) (hw : Mem.wf s.mem = true) :
    Mem.wf (exitTask s t v).mem = true := by
  unfold exitTask
  split <;> simp [wf_ite, hw, writeBackMine_wf]

@[simp] theorem killCmd_mem (s : State) (c : Nat) (e : Bool) (q : Cmd) :
    (killCmd s c e q).mem = s.mem := by simp [killCmd, apply_ite State.mem]

@[simp] theorem killCmds_mem (s : State) (c t : Nat) :
    (killCmds s c t).mem = s.mem := foldl_mem (fun _ _ => foldl_mem (fun _ _ => killCmd_mem ..) _ _) _ _

@[simp] theorem dropTicketed_mem (s : State) (x : Context) :
    (dropTicketed s x).mem = s.mem := foldl_mem (fun s e => by split <;> simp) _ _

@[simp] theorem killCtx_mem (s : State) (t : Nat) (x : Context) :
    (killCtx s t x).mem = s.mem := by simp [killCtx, apply_ite State.mem]

@[simp] theorem finishDead_mem (s : State) (t : Nat) :
    (finishDead s t).mem = s.mem := by
  unfold finishDead
  split <;> simp [mem_ite]

@[simp] theorem sendHeldGs_mem (s : State) (t : Nat) (x : Context) :
    (sendHeldGs s t x).mem = s.mem := foldl_mem (fun s h => by split <;> simp) _ _

@[simp] theorem killTask_wf {s : State} (t : Nat) (hw : Mem.wf s.mem = true) :
    Mem.wf (killTask s t).mem = true := by
  unfold killTask
  split <;> simp [wf_ite, hw]

@[simp] theorem killLaunch_wf {s : State} (l : Nat) (hw : Mem.wf s.mem = true) :
    Mem.wf (killLaunch s l).mem = true := by
  unfold killLaunch
  refine foldl_wf (fun s p hs => ?_) _ (by split <;> exact hw)
  split
  · exact hs
  · split <;> simp [hs]

/-! ### Machine/Ops -/

@[simp] theorem clapAll_mem (s : State) (tag : W64) :
    (clapAll s tag).mem = s.mem := foldl_mem (fun _ _ => by rfl) _ _

@[simp] theorem fire_mem (s : State) (f : Firing) (fabric : Bool) :
    (fire s f fabric).mem = s.mem := by simp [fire, apply_ite State.mem]

@[simp] theorem fireFor_mem (s : State) (x : Context) (kind : Nat) (tag : W64) :
    (fireFor s x kind tag).mem = s.mem := by simp [fireFor]

@[simp] theorem clearFailed_mem (s : State) (c : Nat) (z : Cause) :
    (clearFailed s c z).mem = s.mem := by simp [clearFailed, apply_ite State.mem]

@[simp] theorem logCause_mem (s : State) (x : Context) (z : Cause) :
    (logCause s x z).mem = s.mem := by simp [logCause, apply_ite State.mem]

@[simp] theorem trapEntry_wf {s : State} (t : Nat) (c : Cause) (slots : BitVec 8) (async shadow : Bool) (pc : W64)
    (hw : Mem.wf s.mem = true) :
    Mem.wf (trapEntry s t c slots async shadow pc).mem = true := by
  unfold trapEntry
  split <;> simp [wf_ite, hw]

@[simp] theorem takeTrap_wf {s : State} (t : Nat) (cs : List (Nat × Cause)) (async : Bool) (hw : Mem.wf s.mem = true) :
    Mem.wf (takeTrap s t cs async).mem = true := by
  unfold takeTrap
  dsimp only
  repeat' split
  all_goals simp [hw]

@[simp] theorem raise_wf {s : State} (c : Cause) (hw : Mem.wf s.mem = true) :
    Mem.wf (raise s c).mem = true := by
  unfold raise
  repeat' split
  all_goals simp [hw]


theorem nextWf_conclude {s : State} {r : Res State} (hw : Mem.wf s.mem = true) : NextWf (conclude s r) ↔ OkWf r := by
  cases r with
  | ok s' => simp [conclude]
  | error e => cases e <;> simp [conclude, hw]

@[simp] theorem rteFinish_mem (s : State) (t cc : Nat) :
    (rteFinish s t cc).mem = s.mem := by
  unfold rteFinish
  dsimp only
  repeat' split
  all_goals simp

@[simp] theorem transfer_mem (s : State) (t : Nat) (pc target : W64) :
    (transfer s t pc target).mem = s.mem := by
  unfold transfer
  split <;> simp

end Sys2Proof.Machine
end

section
/-!
PROOFS. Memory keeps its canonical form (R91): what each instruction and each internal step does.
-/

namespace Sys2Proof.Machine

/-! ### Machine/Copy -/

@[simp] theorem writeCe_mem (s : State) (c t : Nat) (f : CeRegs → CeRegs) :
    (writeCe s c t f).mem = s.mem := rfl

@[simp] theorem execCnest_wf (g : Guard) (a : SSel) (l : Lvl) {s : State} (hw : Mem.wf s.mem = true) :
    NextWf (execCnest g a l s) := by simp [execCnest, nextWf_conclude hw, hw]

@[simp] theorem execCstride_wf (g : Guard) (a b : SSel) (l : Lvl) {s : State} (hw : Mem.wf s.mem = true) :
    NextWf (execCstride g a b l s) := by simp [execCstride, nextWf_conclude hw, hw]

@[simp] theorem execCbase_wf (g : Guard) (a b : SSel) (slot : BitVec 4) {s : State} (hw : Mem.wf s.mem = true) :
    NextWf (execCbase g a b slot s) := by simp [execCbase, nextWf_conclude hw, hw]

@[simp] theorem issueCopy_wf {s : State} (t : Nat) (x : Context) (op : Nat) (a b : W64) (tb : Bool) (acc : Option AccOp)
    (hw : Mem.wf s.mem = true) :
    OkWf (issueCopy s t x op a b tb acc) := by simp [issueCopy, wf_ite, hw]

@[simp] theorem execCcopy_wf (g : Guard) (a b : SSel) (tb : Bool) {s : State} (hw : Mem.wf s.mem = true) :
    NextWf (execCcopy g a b tb s) := by simp [execCcopy, nextWf_conclude hw, hw]

@[simp] theorem execCacc_wf (g : Guard) (a b : SSel) (tb : Bool) (op : AccOp) {s : State} (hw : Mem.wf s.mem = true) :
    NextWf (execCacc g a b tb op s) := by simp [execCacc, nextWf_conclude hw, hw]

theorem takeRet_mem (s : State) (q : Cmd) (va : W64) {r : (State × Cmd)} (hs : takeRet s q va = .ok r) :
    r.1.mem = s.mem := by
  unfold takeRet at hs
  grind [takeNums_mem]

@[simp] theorem issueRet_wf {s : State} (t : Nat) (x : Context) (op : Nat) (a : W64) (tb : Bool) (mk : Nat → CmdKind)
    (hw : Mem.wf s.mem = true) :
    OkWf (issueRet s t x op a tb mk) := by
  simp [issueRet, wf_ite, hw]
  and_intros
  all_goals
    intros
    have hs := wf_of_mem (takeRet_mem _ _ _ ‹takeRet _ _ _ = .ok _›) hw
    exact ⟨fun _ _ _ => hs, fun _ => hs⟩

@[simp] theorem execCaccr_wf (g : Guard) (a b : SSel) (tb : Bool) (op : AccOp) {s : State} (hw : Mem.wf s.mem = true) :
    NextWf (execCaccr g a b tb op s) := by simp [execCaccr, nextWf_conclude hw, hw]

@[simp] theorem execCcas_wf (g : Guard) (a b : SSel) (tb sz : Bool) (m : BitVec 4) {s : State} (hw : Mem.wf s.mem = true) :
    NextWf (execCcas g a b tb sz m s) := by simp [execCcas, nextWf_conclude hw, hw]

@[simp] theorem execCsync_wf (g : Guard) (a b : SSel) (rgen : Bool) {s : State} (hw : Mem.wf s.mem = true) :
    NextWf (execCsync g a b rgen s) := by simp [execCsync, nextWf_conclude hw, hw]

@[simp] theorem execCswait_wf (g : Guard) (a b : SSel) {s : State} (hw : Mem.wf s.mem = true) :
    NextWf (execCswait g a b s) := by simp [execCswait, nextWf_conclude hw, hw]

@[simp] theorem execCfeset_wf (g : Guard) (a b : SSel) (ft : Bool) {s : State} (hw : Mem.wf s.mem = true) :
    NextWf (execCfeset g a b ft s) := by simp [execCfeset, nextWf_conclude hw, hw]

@[simp] theorem modRing_mem (s : State) (c : Nat) (r : BitVec 3) (f : StageRing → StageRing) :
    (modRing s c r f).mem = s.mem := rfl

@[simp] theorem execCring_wf (g : Guard) (a b : SSel) (r : BitVec 3) {s : State} (hw : Mem.wf s.mem = true) :
    NextWf (execCring g a b r s) := by simp [execCring, nextWf_conclude hw, hw]

@[simp] theorem execCrsub_wf (g : Guard) (a b : SSel) (dir : SpoutDir) (r : BitVec 3) {s : State} (hw : Mem.wf s.mem = true) :
    NextWf (execCrsub g a b dir r s) := by simp [execCrsub, nextWf_conclude hw, hw]

@[simp] theorem operandFree_ne_ok {α : Type} (s : State) (op : Nat) (v : α) : operandFree s op ≠ .ok v
    := operand_ne_ok op (noInfo s) v
@[simp] theorem okWf_operandFree (s : State) (op : Nat) : OkWf (operandFree s op) := okWf_operand op (noInfo s)

@[simp] theorem execCrunsub_wf (g : Guard) (r : BitVec 3) {s : State} (hw : Mem.wf s.mem = true) :
    NextWf (execCrunsub g r s) := by
  simp [execCrunsub, nextWf_conclude hw, hw]
  intros
  split
  · exact okWf_operandFree _ _
  · simp [hw]

@[simp] theorem execCrfin_wf (g : Guard) (r : BitVec 3) {s : State} (hw : Mem.wf s.mem = true) :
    NextWf (execCrfin g r s) := by
  simp [execCrfin, nextWf_conclude hw, hw]
  intros
  repeat' split
  all_goals simp [hw]

@[simp] theorem execCwait_wf (g : Guard) {s : State} (hw : Mem.wf s.mem = true) :
    NextWf (execCwait g s) := by simp [execCwait, nextWf_conclude hw, hw]

@[simp] theorem spoutFail_mem (s : State) (c i : Nat) (g : StageRing) (slot sub : Nat) (src : Bool) :
    (spoutFail s c i g slot sub src).mem = s.mem := by
  unfold spoutFail
  dsimp only
  repeat' split
  all_goals simp

theorem spoutStep_wf {s : State} (c i : Nat) (g : StageRing) {r : (State × StageRing)}
    (hw : Mem.wf s.mem = true) (hs : spoutStep s c i g = some r) :
    Mem.wf r.1.mem = true := by
  unfold spoutStep at hs
  dsimp only at hs
  repeat' split at hs
  all_goals grind [spoutFail_mem, engRead_wf, spWrite_mem, State.tick_mem, readSide_wf, resolveMem_mem,
    writeSide_wf, poolWrite_mem, Mem.wf_wrBytes]

@[simp] theorem execSpoutTileTransfer_wf {s : State} (hw : Mem.wf s.mem = true) :
    NextWf (execSpoutTileTransfer s) := by
  unfold execSpoutTileTransfer
  dsimp only
  split
  · split
    · rename_i h
      simpa using spoutStep_wf _ _ _ hw h
    · simpa using hw
  · split
    · split
      · rename_i h
        simpa using spoutStep_wf _ _ _ hw h
      · simpa using hw
    · simpa using hw

@[simp] theorem execSpoutDepthUpdate_wf {s : State} (hw : Mem.wf s.mem = true) :
    NextWf (execSpoutDepthUpdate s) := by simp [execSpoutDepthUpdate, hw]

/-! ### Machine/Phaser -/

@[simp] theorem execPhreg_wf (g : Guard) (a : SSel) (mode : PhMode) {s : State} (hw : Mem.wf s.mem = true) :
    NextWf (execPhreg g a mode s) := by simp [execPhreg, nextWf_conclude hw, hw]

@[simp] theorem execPhdrop_wf (g : Guard) (a : SSel) {s : State} (hw : Mem.wf s.mem = true) :
    NextWf (execPhdrop g a s) := by simp [execPhdrop, nextWf_conclude hw, hw]

@[simp] theorem arriveAfter_wf {s : State} (t c n : Nat) (sc : Scope) (hw : Mem.wf s.mem = true) :
    Mem.wf (arriveAfter s t c n sc).mem = true := by simp [arriveAfter, wf_ite, hw]

@[simp] theorem execPharr_wf (g : Guard) (a : SSel) (sc : Scope) {s : State} (hw : Mem.wf s.mem = true) :
    NextWf (execPharr g a sc s) := by simp [execPharr, nextWf_conclude hw, hw]

@[simp] theorem execPhwait_wf (g : Guard) (a : SSel) (sc : Scope) {s : State} (hw : Mem.wf s.mem = true) :
    NextWf (execPhwait g a sc s) := by
  simp [execPhwait, nextWf_conclude hw, hw]
  intros
  repeat' split
  all_goals simp [hw]

@[simp] theorem execPhaw_wf (g : Guard) (a : SSel) (sc : Scope) {s : State} (hw : Mem.wf s.mem = true) :
    NextWf (execPhaw g a sc s) := by simp [execPhaw, nextWf_conclude hw, hw]

@[simp] theorem execPhrd_wf (g : Guard) (a : SSel) {s : State} (hw : Mem.wf s.mem = true) :
    NextWf (execPhrd g a s) := by simp [execPhrd, nextWf_conclude hw, hw]

@[simp] theorem execPhaserOpApply_wf {s : State} (hw : Mem.wf s.mem = true) :
    NextWf (execPhaserOpApply s) := by simp [execPhaserOpApply, hw]

/-! ### Machine/Flags -/

@[simp] theorem wrPs_mem (s : State) (t : Nat) (d : BitVec 3) (v : Bool) :
    (wrPs s t d v).mem = s.mem := by simp [wrPs]

@[simp] theorem wrPred_mem (s : State) (t : Nat) (c : Clu) (d : BitVec 3) (m v : W64) :
    (wrPred s t c d m v).mem = s.mem := by simp [wrPred]

@[simp] theorem setStack_mem (s : State) (t : Nat) (c : Clu) (m : List W64) :
    (setStack s t c m).mem = s.mem := by simp [setStack]

/-! ### Machine/VectorArith -/

@[simp] theorem vOp_wf (c : Clu) (g : Guard) (os : List Opd) (lat : Nat) (base : Context → VReg) (f : Context → VReg)
    {s : State} (hw : Mem.wf s.mem = true) :
    NextWf (vOp c g os lat base f s) := by simp [vOp, nextWf_conclude hw, hw]

@[simp] theorem vUn_wf (c : Clu) (g : Guard) (a : VSel) (e : EF) (lat : Nat) (f : W32 → W32)
    {s : State} (hw : Mem.wf s.mem = true) :
    NextWf (vUn c g a e lat f s) := by simp [vUn, hw]

@[simp] theorem vBin_wf (c : Clu) (g : Guard) (a b : VSel) (e : EF) (lat : Nat) (f : W32 → W32 → W32)
    {s : State} (hw : Mem.wf s.mem = true) :
    NextWf (vBin c g a b e lat f s) := by simp [vBin, hw]

@[simp] theorem vTri_wf (c : Clu) (g : Guard) (a b : VSel) (m : BitVec 4) (e : EF) (lat : Nat) (f : W32 → W32 → W32 → W32)
    {s : State} (hw : Mem.wf s.mem = true) :
    NextWf (vTri c g a b m e lat f s) := by simp [vTri, hw]

@[simp] theorem vAdd_wf (c : Clu) (g : Guard) (a b : VSel) (ty : VTy) {s : State} (hw : Mem.wf s.mem = true) :
    NextWf (vAdd c g a b ty s) := by simp [vAdd, hw]

@[simp] theorem vSub_wf (c : Clu) (g : Guard) (a b : VSel) (ty : VTy) {s : State} (hw : Mem.wf s.mem = true) :
    NextWf (vSub c g a b ty s) := by simp [vSub, hw]

@[simp] theorem vMul_wf (c : Clu) (g : Guard) (a b : VSel) (ty : VTy) {s : State} (hw : Mem.wf s.mem = true) :
    NextWf (vMul c g a b ty s) := by simp [vMul, hw]

@[simp] theorem vMin_wf (c : Clu) (g : Guard) (a b : VSel) (ty : VTy) {s : State} (hw : Mem.wf s.mem = true) :
    NextWf (vMin c g a b ty s) := by simp [vMin, hw]

@[simp] theorem vMax_wf (c : Clu) (g : Guard) (a b : VSel) (ty : VTy) {s : State} (hw : Mem.wf s.mem = true) :
    NextWf (vMax c g a b ty s) := by simp [vMax, hw]

@[simp] theorem vAbs_wf (c : Clu) (g : Guard) (a : VSel) (ty : VTy) {s : State} (hw : Mem.wf s.mem = true) :
    NextWf (vAbs c g a ty s) := by simp [vAbs, hw]

@[simp] theorem vNeg_wf (c : Clu) (g : Guard) (a : VSel) (ty : VTy) {s : State} (hw : Mem.wf s.mem = true) :
    NextWf (vNeg c g a ty s) := by simp [vNeg, hw]

@[simp] theorem vShl_wf (c : Clu) (g : Guard) (a b : VSel) (ty : VTy) {s : State} (hw : Mem.wf s.mem = true) :
    NextWf (vShl c g a b ty s) := by simp [vShl, hw]

@[simp] theorem vShr_wf (c : Clu) (g : Guard) (a b : VSel) (ty : VTy) {s : State} (hw : Mem.wf s.mem = true) :
    NextWf (vShr c g a b ty s) := by simp [vShr, hw]

@[simp] theorem vBit_wf (c : Clu) (g : Guard) (a b : VSel) (f : W32 → W32 → W32) {s : State} (hw : Mem.wf s.mem = true) :
    NextWf (vBit c g a b f s) := by simp [vBit, hw]

@[simp] theorem vFma_wf (c : Clu) (g : Guard) (a b : VSel) (ty : FFmt) (m : BitVec 4) (sub : Bool)
    {s : State} (hw : Mem.wf s.mem = true) :
    NextWf (vFma c g a b ty m sub s) := by simp [vFma, hw]

@[simp] theorem vAddmin_wf (c : Clu) (g : Guard) (a b : VSel) (ty : MinTy) (m : BitVec 4) {s : State} (hw : Mem.wf s.mem = true) :
    NextWf (vAddmin c g a b ty m s) := by simp [vAddmin, hw]

@[simp] theorem vCmp_wf (c : Clu) (g : Guard) (a b : VSel) (cond : VCmpCond) (d : BitVec 3)
    {s : State} (hw : Mem.wf s.mem = true) :
    NextWf (vCmp c g a b cond d s) := by simp [vCmp, nextWf_conclude hw, hw]

@[simp] theorem vSel_wf (c : Clu) (g : Guard) (a b : VSel) (p : BitVec 3) {s : State} (hw : Mem.wf s.mem = true) :
    NextWf (vSel c g a b p s) := by simp [vSel, hw]

@[simp] theorem vPlog_wf (c : Clu) (g : Guard) (p q : BitVec 3) (op : PlogOp) (d : BitVec 3)
    {s : State} (hw : Mem.wf s.mem = true) :
    NextWf (vPlog c g p q op d s) := by simp [vPlog, nextWf_conclude hw, hw]

@[simp] theorem vCvt_wf (c : Clu) (g : Guard) (a : VSel) (ft : CvtB) (p : BitVec 2) (su : Bool) (rm : Rm)
    {s : State} (hw : Mem.wf s.mem = true) :
    NextWf (vCvt c g a ft p su rm s) := by simp [vCvt, hw]

@[simp] theorem vMxq_wf (c : Clu) (g : Guard) (a : VSel) (ft : MxFmt) (p : BitVec 3) {s : State} (hw : Mem.wf s.mem = true) :
    NextWf (vMxq c g a ft p s) := by simp [vMxq, nextWf_conclude hw, hw]

@[simp] theorem vMxd_wf (c : Clu) (g : Guard) (a b : VSel) (ft : MxFmt) (p : BitVec 3) {s : State} (hw : Mem.wf s.mem = true) :
    NextWf (vMxd c g a b ft p s) := by simp [vMxd, hw]

@[simp] theorem vFun_wf (c : Clu) (g : Guard) (a : VSel) (ft : FFmt) (f : Arith.Fmt → Nat → Nat)
    {s : State} (hw : Mem.wf s.mem = true) :
    NextWf (vFun c g a ft f s) := by simp [vFun, hw]

@[simp] theorem vMovi_wf (c : Clu) (g : BitVec 3) (i : BitVec 13) {s : State} (hw : Mem.wf s.mem = true) :
    NextWf (vMovi c g i s) := by simp [vMovi, hw]

@[simp] theorem vPut_wf (c : Clu) (g : Guard) (a : VSel) (d : VDst) {s : State} (hw : Mem.wf s.mem = true) :
    NextWf (vPut c g a d s) := by simp [vPut, nextWf_conclude hw, hw]

@[simp] theorem vPutx_wf (c : Clu) (g : Guard) (a : VSel) (l : BitVec 6) {s : State} (hw : Mem.wf s.mem = true) :
    NextWf (vPutx c g a l s) := by simp [vPutx, wf_ite, nextWf_conclude hw, hw]

@[simp] theorem vXmov_wf (c : Clu) (g : Guard) (r : BitVec 5) {s : State} (hw : Mem.wf s.mem = true) :
    NextWf (vXmov c g r s) := by simp [vXmov, hw]

@[simp] theorem maskOp_wf (op : Nat) (c : Clu) (ok : Nat → Bool) (f : Context → List W64 → List W64)
    {s : State} (hw : Mem.wf s.mem = true) :
    NextWf (maskOp op c ok f s) := by simp [maskOp, nextWf_conclude hw, hw]

@[simp] theorem vMpush_wf (c : Clu) (inv : Bool) (p : BitVec 3) {s : State} (hw : Mem.wf s.mem = true) :
    NextWf (vMpush c inv p s) := by simp [vMpush, hw]

@[simp] theorem vMinv_wf (c : Clu) {s : State} (hw : Mem.wf s.mem = true) :
    NextWf (vMinv c s) := by simp [vMinv, hw]

@[simp] theorem vMpop_wf (c : Clu) {s : State} (hw : Mem.wf s.mem = true) :
    NextWf (vMpop c s) := by simp [vMpop, hw]

@[simp] theorem vMove_wf (c : Clu) (g : Guard) (a b : VSel) (lat : Nat) (f : VReg → VReg → Nat → W32)
    {s : State} (hw : Mem.wf s.mem = true) :
    NextWf (vMove c g a b lat f s) := by simp [vMove, hw]

@[simp] theorem vLshu_wf (c : Clu) (g : Guard) (a b : VSel) (n : BitVec 6) {s : State} (hw : Mem.wf s.mem = true) :
    NextWf (vLshu c g a b n s) := by simp [vLshu, hw]

@[simp] theorem vLshd_wf (c : Clu) (g : Guard) (a b : VSel) (n : BitVec 6) {s : State} (hw : Mem.wf s.mem = true) :
    NextWf (vLshd c g a b n s) := by simp [vLshd, hw]

@[simp] theorem vBcast_wf (c : Clu) (g : Guard) (a : VSel) (l : BitVec 6) {s : State} (hw : Mem.wf s.mem = true) :
    NextWf (vBcast c g a l s) := by simp [vBcast, hw]

@[simp] theorem vIota_wf (c : Clu) (g : Guard) (a : VSel) (step : BitVec 6) {s : State} (hw : Mem.wf s.mem = true) :
    NextWf (vIota c g a step s) := by simp [vIota, hw]

@[simp] theorem vPerm_wf (c : Clu) (g : Guard) (a b : VSel) {s : State} (hw : Mem.wf s.mem = true) :
    NextWf (vPerm c g a b s) := by simp [vPerm, hw]

@[simp] theorem vRed_wf (c : Clu) (g : Guard) (a : VSel) (op : RedOp) {s : State} (hw : Mem.wf s.mem = true) :
    NextWf (vRed c g a op s) := by simp [vRed, hw]

/-! ### Machine/VectorMem -/

@[simp] theorem vLdRow_wf (c : Clu) (g : Guard) (a b : VSel) (fe : FeL) (w : Space) (lat : Nat)
    {s : State} (hw : Mem.wf s.mem = true) :
    NextWf (vLdRow c g a b fe w lat s) := by simp [vLdRow, wf_ite, nextWf_conclude hw, hw]

@[simp] theorem vStRow_wf (c : Clu) (g : Guard) (a b : VSel) (fe : FeS) (w : Space) {s : State} (hw : Mem.wf s.mem = true) :
    NextWf (vStRow c g a b fe w s) := by simp [vStRow, nextWf_conclude hw, hw]

@[simp] theorem xlateLanes_mem (s : State) (c : Nat) (n : Need) (ls : List (Nat × W64)) :
    (xlateLanes s c n ls).1.mem = s.mem := by
  unfold xlateLanes
  refine foldl_keeps (fun r : State × List (Nat × W64 × Except MM (Nat × Bool)) => r.1.mem = s.mem) _ _ _ rfl fun r p hr => ?_
  split
  · rename_i h
    exact (xlate_mem _ _ _ _ h).trans hr
  · exact hr

theorem localLanes_mem (s : State) (c : Nat) (n : Need) (ls : List (Nat × W64))
    {r : (State × List (Nat × W64 × Nat × Bool))} (hs : localLanes s c n ls = .ok r) :
    r.1.mem = s.mem := by
  unfold localLanes at hs
  grind [xlateLanes_mem]

@[simp] theorem vLdg_wf (c : Clu) (g : Guard) (a b h : VSel) {s : State} (hw : Mem.wf s.mem = true) :
    NextWf (vLdg c g a b h s) := by
  simp [vLdg, nextWf_conclude hw, hw]
  intro t x
  intros
  have hrow := fun (a mask : W64) (base : VReg) => rowGo_wf t x a mask base (nextId s t) hw
    (land := fun s v => pushQ s t (cluQ c) 14 (v.map .v)) fun s v hs => by simpa using hs
  and_intros
  · intros
    and_intros
    · exact fun _ _ _ _ => hrow _ _ _
    · exact fun _ _ _ _ _ _ => hrow _ _ _
  · intro _ s' ps hq
    have hs : Mem.wf s'.mem = true := wf_of_mem (localLanes_mem _ _ _ _ hq) hw
    have hl := loadLanes_wf x.core t ps hs
    refine ⟨fun _ => hs, fun _ _ => ?_⟩
    split
    · simpa using hs
    · split
      · exact okWf_error _
      · rename_i h
        simpa using wf_fst h hl

@[simp] theorem vStg_wf (c : Clu) (g : Guard) (a b h : VSel) {s : State} (hw : Mem.wf s.mem = true) :
    NextWf (vStg c g a b h s) := by
  simp [vStg, nextWf_conclude hw, hw]
  intro t x _ _ _ _ _ _ _ _ _ _ s' ps hq
  simp [wf_of_mem (localLanes_mem _ _ _ _ hq) hw]

@[simp] theorem vGath_wf (c : Clu) (g : Guard) (a b : VSel) (gsp : GSpace) (sz : GSize) (u : Bool)
    {s : State} (hw : Mem.wf s.mem = true) :
    NextWf (vGath c g a b gsp sz u s) := by simp [vGath, nextWf_conclude hw, hw]

@[simp] theorem vScat_wf (c : Clu) (g : Guard) (a b : VSel) (gsp : GSpace) (sz : GSize) {s : State} (hw : Mem.wf s.mem = true) :
    NextWf (vScat c g a b gsp sz s) := by
  simp [vScat, nextWf_conclude hw]
  intros
  exact foldl_wf (fun _ _ hs => spStore_wf _ _ _ _ _ _ hs) _ hw

/-! ### Machine/Select -/

@[simp] theorem execCxs_wf (g : Guard) (a b : VSel) (cl : Clu) (sg : Stg) {s : State} (hw : Mem.wf s.mem = true) :
    NextWf (execCxs g a b cl sg s) := by simp [execCxs, nextWf_conclude hw, hw]

@[simp] theorem execThrc_wf (g : Guard) (a b : VSel) (cl : Clu) (ty : ThrTy) (ge : Bool) {s : State} (hw : Mem.wf s.mem = true) :
    NextWf (execThrc g a b cl ty ge s) := by simp [execThrc, nextWf_conclude hw, hw]

@[simp] theorem execHist_wf (g : Guard) (a b : VSel) (cl : Clu) (dir : Bool) {s : State} (hw : Mem.wf s.mem = true) :
    NextWf (execHist g a b cl dir s) := by simp [execHist, nextWf_conclude hw, hw]

@[simp] theorem setTree_mem (s : State) (c : Nat) (i : Fin 16) (d : TtDesc) :
    (setTree s c i d).mem = s.mem := rfl

theorem ttOp_wf (op : Nat) (g : Guard) (a : SSel) (extra : List Opd) (uses : Bool) (n : Nat) {idle : State → Nat → State}
    {f : State → Nat → Context → Fin 16 × TtDesc × Nat → Res State} {s : State} (hw : Mem.wf s.mem = true)
    (hi : ∀ t, Mem.wf (idle s t).mem = true) (hf : ∀ s t x r, Mem.wf s.mem = true → OkWf (f s t x r)) :
    NextWf (ttOp op g a extra uses n idle f s) := by
  simp [ttOp, nextWf_conclude hw, hi]
  intros
  split
  · exact okWf_operand _ _
  · exact hf _ _ _ _ (by simpa using hw)

@[simp] theorem execTtnew_wf (g : Guard) (a b : SSel) {s : State} (hw : Mem.wf s.mem = true) :
    NextWf (execTtnew g a b s) := by
  simp [execTtnew, nextWf_conclude hw, hw]
  intros
  repeat' split
  all_goals simp [hw]

@[simp] theorem execTtadd_wf (g : Guard) (a b : SSel) (fl : BitVec 6) {s : State} (hw : Mem.wf s.mem = true) :
    NextWf (execTtadd g a b fl s) := ttOp_wf _ _ _ _ _ _ hw (fun _ => by simpa using hw) fun s t x r hs => by
    simp [hs]

@[simp] theorem execTtpos_wf (g : Guard) (a : SSel) (cl : Clu) (blk : BitVec 2) {s : State} (hw : Mem.wf s.mem = true) :
    NextWf (execTtpos g a cl blk s) := ttOp_wf _ _ _ _ _ _ hw (fun _ => by simpa using hw) fun s t x r hs => by
    simp [hs]

@[simp] theorem execTtmask_wf (g : Guard) (a : SSel) (cl : Clu) (col : Bool) (form : MaskForm) (blk : BitVec 2)
    {s : State} (hw : Mem.wf s.mem = true) :
    NextWf (execTtmask g a cl col form blk s) := ttOp_wf _ _ _ _ _ _ hw (fun _ => by simpa using hw) fun s t x r hs => by
    simp [hs]

@[simp] theorem execTtpath_wf (g : Guard) (a : SSel) (cl : Clu) (fld : PathFld) (blk : BitVec 2)
    {s : State} (hw : Mem.wf s.mem = true) :
    NextWf (execTtpath g a cl fld blk s) := ttOp_wf _ _ _ _ _ _ hw (fun _ => by simpa using hw) fun s t x r hs => by
    simp [hs]

@[simp] theorem execTtprune_wf (g : Guard) (a b : SSel) (sf : Bool) {s : State} (hw : Mem.wf s.mem = true) :
    NextWf (execTtprune g a b sf s) := ttOp_wf _ _ _ _ _ _ hw (fun _ => by simpa using hw) fun s t x r hs => by
    simp [hs]

@[simp] theorem execTtfree_wf (g : Guard) (a : SSel) {s : State} (hw : Mem.wf s.mem = true) :
    NextWf (execTtfree g a s) := ttOp_wf _ _ _ _ _ _ hw (fun _ => by simpa using hw) fun s t x r hs => by
    simp [hs]

@[simp] theorem execTtrd_wf (g : Guard) (a : SSel) (what : TtWhat) {s : State} (hw : Mem.wf s.mem = true) :
    NextWf (execTtrd g a what s) := ttOp_wf _ _ _ _ _ _ hw (fun _ => by simpa using hw) fun s t x r hs => by
    simp [hs]

/-! ### Machine/Image -/

@[simp] theorem writeImage_wf {s : State} (t : Nat) (x : Context) (hw : Mem.wf s.mem = true) :
    Mem.wf (writeImage s t x).mem = true := by
  unfold writeImage
  split
  · exact foldl_wf (fun _ _ h => memWrite_wf _ h) _ hw
  · exact hw

/-! ### Machine/Tasks -/

@[simp] theorem spawnChild_wf {s : State} (t : Nat) (x : Context) (n : NewTask) (hw : Mem.wf s.mem = true) :
    Mem.wf (spawnChild s t x n).1.mem = true := by
  unfold spawnChild
  dsimp only
  split
  · exact hw
  · rename_i s' i h
    have hs : Mem.wf s'.mem = true := wf_of_mem (createTask_mem _ _ _ _ h) hw
    split
    · simp [wf_ite, hs]
    · exact releaseActs_wf _ _ _ _ _ (by simp [wf_ite, hs])

@[simp] theorem relsFirst_wf {s : State} (t : Nat) (x : Context) (hw : Mem.wf s.mem = true) :
    OkWf (relsFirst s t x) := by simp [relsFirst, hw]

theorem spawnChild_wf_of_relsFirst {s s' : State} {t : Nat} {x : Context} (on : Bool) (os : List Opd) (n : NewTask)
    (hw : Mem.wf s.mem = true) (hr : relsFirst s t x = .ok s') : Mem.wf (spawnChild (popOps s' x on os) t x n).1.mem = true :=
  spawnChild_wf _ _ _ (by simpa using relsFirst_wf t x hw s' hr)

@[simp] theorem execSpawn_wf (g : Guard) (a b : SSel) (desc nj : Bool) {s : State} (hw : Mem.wf s.mem = true) :
    NextWf (execSpawn g a b desc nj s) := by
  simp [execSpawn, nextWf_conclude hw, hw]
  intros
  and_intros
  · intros
    split
    · simp only [okWf_bind, okWf_map, pushS_mem]
      exact fun _ _ _ hr => spawnChild_wf_of_relsFirst _ _ _ hw hr
    · simp
  · exact fun _ _ _ _ _ _ hr => spawnChild_wf_of_relsFirst _ _ _ hw hr

@[simp] theorem execSpawnb_wf (g : Guard) (a b : SSel) (wsid : BitVec 6) {s : State} (hw : Mem.wf s.mem = true) :
    NextWf (execSpawnb g a b wsid s) := by simp [execSpawnb, nextWf_conclude hw, hw]

@[simp] theorem defer_mem (s : State) (t : Nat) (revoke : Bool) (i : Nat) (key : W32) :
    (defer s t revoke i key).mem = s.mem := by
  unfold defer
  dsimp only
  repeat' split
  all_goals simp

@[simp] theorem cancelOne_mem (s : State) (t : Nat) (p : Nat × Task) :
    (cancelOne s t p).mem = s.mem := by simp [cancelOne, apply_ite State.mem]

@[simp] theorem execCancel_wf (g : Guard) (a : SSel) {s : State} (hw : Mem.wf s.mem = true) :
    NextWf (execCancel g a s) := by
  simp [execCancel, nextWf_conclude hw, hw]
  intros
  and_intros <;> intros <;> simpa [foldl_mem (fun _ _ => cancelOne_mem ..)] using hw

@[simp] theorem reprioOne_mem (s : State) (t i : Nat) (k : Task) (key : W32) :
    (reprioOne s t i k key).mem = s.mem := by
  unfold reprioOne
  split <;> simp [mem_ite]

@[simp] theorem execReprio_wf (g : Guard) (a b : SSel) {s : State} (hw : Mem.wf s.mem = true) :
    NextWf (execReprio g a b s) := by simp [execReprio, nextWf_conclude hw, hw]

@[simp] theorem collect_wf {s : State} (t : Nat) (x : Context) (i : Nat) (k : Task) (hw : Mem.wf s.mem = true) :
    Mem.wf (collect s t x i k).mem = true := by simp [collect, hw, recallVar_wf]

@[simp] theorem execJoin_wf (g : Guard) (a : SSel) (any : Bool) {s : State} (hw : Mem.wf s.mem = true) :
    NextWf (execJoin g a any s) := by
  simp [execJoin, nextWf_conclude hw, hw]
  intros
  repeat' split
  all_goals simp [hw]

@[simp] theorem execTkdone_wf (g : Guard) {s : State} (hw : Mem.wf s.mem = true) :
    NextWf (execTkdone g s) := by simp [execTkdone, wf_ite, nextWf_conclude hw, hw]

@[simp] theorem execTstat_wf (g : Guard) {s : State} (hw : Mem.wf s.mem = true) :
    NextWf (execTstat g s) := by simp [execTstat, nextWf_conclude hw, hw]

@[simp] theorem startTask_wf {s : State} (c t : Nat) (k : Task) (hw : Mem.wf s.mem = true) :
    Mem.wf (startTask s c t k).mem = true := by
  unfold startTask
  dsimp only
  repeat' split
  all_goals simp [hw, recallVar_wf]

@[simp] theorem execTaskStart_wf {s : State} (hw : Mem.wf s.mem = true) :
    NextWf (execTaskStart s) := by
  unfold execTaskStart
  split <;> simp [wf_ite, hw]

@[simp] theorem failResumed_wf {s : State} (c t : Nat) (hw : Mem.wf s.mem = true) :
    Mem.wf (failResumed s c t).mem = true := by
  refine foldl_wf (fun s e => foldl_wf (fun s q hs => ?_) _) _ hw
  split <;> simp [hs]

@[simp] theorem resumeTask_wf {s : State} (c t : Nat) (hw : Mem.wf s.mem = true) :
    Mem.wf (resumeTask s c t).mem = true := by
  unfold resumeTask
  split <;> simp [hw]

@[simp] theorem execContextResume_wf {s : State} (hw : Mem.wf s.mem = true) :
    NextWf (execContextResume s) := by
  unfold execContextResume
  split <;> simp [wf_ite, hw]

@[simp] theorem execContextPark_wf {s : State} (hw : Mem.wf s.mem = true) :
    NextWf (execContextPark s) := by
  unfold execContextPark
  dsimp only
  repeat' split
  all_goals simp [hw]

@[simp] theorem execPriorityPark_wf {s : State} (hw : Mem.wf s.mem = true) :
    NextWf (execPriorityPark s) := by
  unfold execPriorityPark
  dsimp only
  repeat' split
  all_goals simp [hw]

@[simp] theorem execTicketRetire_wf {s : State} (hw : Mem.wf s.mem = true) :
    NextWf (execTicketRetire s) := by simp [execTicketRetire, hw]

@[simp] theorem execWaveFormation_wf {s : State} (hw : Mem.wf s.mem = true) :
    NextWf (execWaveFormation s) := by
  unfold execWaveFormation
  dsimp only
  split
  · simpa using hw
  · rename_i h
    have hs := formWave_wf _ hw (congrArg Wave.st? h)
    refine nextWf_next.mpr (killLaunch_wf _ ?_)
    split <;> split <;> exact hs
  · rename_i h
    have hs := formWave_wf _ hw (congrArg Wave.st? h)
    split
    · refine nextWf_next.mpr ?_
      simp [foldl_mem (fun _ _ => chooseTask_mem ..), hs]
    · simpa using hs

@[simp] theorem execBatchClose_wf {s : State} (hw : Mem.wf s.mem = true) :
    NextWf (execBatchClose s) := by
  unfold execBatchClose
  split <;> simp [wf_ite, hw]

@[simp] theorem execBatchTaskEnd_wf {s : State} (hw : Mem.wf s.mem = true) :
    NextWf (execBatchTaskEnd s) := by simp [execBatchTaskEnd, hw]

/-! ### Machine/Csr -/

@[simp] theorem modLaunch_mem (s : State) (l : Nat) (f : Launch → Launch) :
    (modLaunch s l f).mem = s.mem := by
  unfold modLaunch
  split <;> simp

@[simp] theorem writeExpchk_mem (s : State) (t : Nat) (v : W64) :
    (writeExpchk s t v).mem = s.mem := by simp [writeExpchk]

@[simp] theorem writeTvec_mem (s : State) (t : Nat) (v : W64) :
    (writeTvec s t v).mem = s.mem := by simp [writeTvec]

@[simp] theorem writeTrappc_mem (s : State) (t : Nat) (v : W64) :
    (writeTrappc s t v).mem = s.mem := by simp [writeTrappc]

@[simp] theorem writeRxring_mem (s : State) (c : Nat) (v : W64) :
    (writeRxring s c v).mem = s.mem := by simp [writeRxring, apply_ite State.mem]

@[simp] theorem writeFtgcfg_mem (s : State) (l : Nat) (v : W64) :
    (writeFtgcfg s l v).mem = s.mem := by simp [writeFtgcfg]

@[simp] theorem writeTteage_mem (s : State) (l : Nat) (v : W64) :
    (writeTteage s l v).mem = s.mem := by simp [writeTteage]

@[simp] theorem writeBfcfg_mem (s : State) (l : Nat) (v : W64) :
    (writeBfcfg s l v).mem = s.mem := by simp [writeBfcfg]

@[simp] theorem writeBftab_mem (s : State) (l : Nat) (v : W64) :
    (writeBftab s l v).mem = s.mem := by simp [writeBftab]

@[simp] theorem writeGsctl_mem (s : State) (t : Nat) (v : W64) :
    (writeGsctl s t v).mem = s.mem := by
  unfold writeGsctl
  dsimp only
  repeat' split
  all_goals simp

@[simp] theorem writeSnapcfg_mem (s : State) (l : Nat) (v : W64) :
    (writeSnapcfg s l v).mem = s.mem := by simp [writeSnapcfg]

@[simp] theorem csrWrite_mem (s : State) (t : Nat) (x : Context) (n : Nat) (v : W64) :
    (csrWrite s t x n v).mem = s.mem := by
  unfold csrWrite
  split <;> simp

@[simp] theorem execCsrr_wf (g : BitVec 3) (n : BitVec 12) {s : State} (hw : Mem.wf s.mem = true) :
    NextWf (execCsrr g n s) := by simp [execCsrr, nextWf_conclude hw, hw]

@[simp] theorem execCsrw_wf (g : BitVec 3) (a : SSel) (n : BitVec 12) {s : State} (hw : Mem.wf s.mem = true) :
    NextWf (execCsrw g a n s) := by simp [execCsrw, wf_ite, nextWf_conclude hw, hw]

@[simp] theorem csrStep_wf (n : Nat) {s : State} (hw : Mem.wf s.mem = true) :
    NextWf (csrStep n s) := by simp [csrStep, nextWf_conclude hw, hw]

@[simp] theorem execExpchkWrite_wf {s : State} (hw : Mem.wf s.mem = true) :
    NextWf (execExpchkWrite s) := by simp [execExpchkWrite, hw]

@[simp] theorem execTrappcWrite_wf {s : State} (hw : Mem.wf s.mem = true) :
    NextWf (execTrappcWrite s) := by simp [execTrappcWrite, hw]

@[simp] theorem execRxringWrite_wf {s : State} (hw : Mem.wf s.mem = true) :
    NextWf (execRxringWrite s) := by simp [execRxringWrite, hw]

@[simp] theorem execFtgcfgWrite_wf {s : State} (hw : Mem.wf s.mem = true) :
    NextWf (execFtgcfgWrite s) := by simp [execFtgcfgWrite, hw]

@[simp] theorem execTteageWrite_wf {s : State} (hw : Mem.wf s.mem = true) :
    NextWf (execTteageWrite s) := by simp [execTteageWrite, hw]

@[simp] theorem execBfcfgWrite_wf {s : State} (hw : Mem.wf s.mem = true) :
    NextWf (execBfcfgWrite s) := by simp [execBfcfgWrite, hw]

@[simp] theorem execBftabWrite_wf {s : State} (hw : Mem.wf s.mem = true) :
    NextWf (execBftabWrite s) := by simp [execBftabWrite, hw]

@[simp] theorem execGsctlWrite_wf {s : State} (hw : Mem.wf s.mem = true) :
    NextWf (execGsctlWrite s) := by simp [execGsctlWrite, hw]

@[simp] theorem execSnapcfgWrite_wf {s : State} (hw : Mem.wf s.mem = true) :
    NextWf (execSnapcfgWrite s) := by simp [execSnapcfgWrite, hw]

@[simp] theorem execGscurRead_wf {s : State} (hw : Mem.wf s.mem = true) :
    NextWf (execGscurRead s) := by simp [execGscurRead, nextWf_conclude hw, hw]

/-! ### Machine/Fabric -/

@[simp] theorem execPut_wf (g : Guard) (a : SSel) (d : KDst) {s : State} (hw : Mem.wf s.mem = true) :
    NextWf (execPut g a d s) := by
  unfold execPut
  split <;> simp [nextWf_conclude hw, hw]

@[simp] theorem execStream_wf (g : Guard) (a : SSel) (q : BitVec 4) {s : State} (hw : Mem.wf s.mem = true) :
    NextWf (execStream g a q s) := by
  unfold execStream
  split <;> simp [nextWf_conclude hw, hw]

@[simp] theorem execSclose_wf (g : Guard) (fill : Bool) (q : BitVec 4) {s : State} (hw : Mem.wf s.mem = true) :
    NextWf (execSclose g fill q s) := by
  simp [execSclose, nextWf_conclude hw, hw]
  intros
  repeat' split
  all_goals simp [hw]

@[simp] theorem issueColl_wf (op : Nat) (k : CollKind) (g : Guard) (a : SSel) {s : State} (hw : Mem.wf s.mem = true) :
    NextWf (issueColl op k g a s) := by simp [issueColl, nextWf_conclude hw, hw]

@[simp] theorem execClred_wf (g : Guard) (a : SSel) {s : State} (hw : Mem.wf s.mem = true) :
    NextWf (execClred g a s) := by simp [execClred, hw]

@[simp] theorem execClbc_wf (g : Guard) (a : SSel) {s : State} (hw : Mem.wf s.mem = true) :
    NextWf (execClbc g a s) := by simp [execClbc, hw]

@[simp] theorem execCla2a_wf (g : Guard) (a : SSel) {s : State} (hw : Mem.wf s.mem = true) :
    NextWf (execCla2a g a s) := by simp [execCla2a, hw]

@[simp] theorem execClvir_wf (g : Guard) (a : SSel) {s : State} (hw : Mem.wf s.mem = true) :
    NextWf (execClvir g a s) := by simp [execClvir, hw]

@[simp] theorem execClrowDisp_wf (g : Guard) (a : SSel) {s : State} (hw : Mem.wf s.mem = true) :
    NextWf (execClrowDisp g a s) := by simp [execClrowDisp, hw]

@[simp] theorem execClrowComb_wf (g : Guard) (a : SSel) {s : State} (hw : Mem.wf s.mem = true) :
    NextWf (execClrowComb g a s) := by simp [execClrowComb, hw]

@[simp] theorem execClwait_wf (g : Guard) (a : SSel) {s : State} (hw : Mem.wf s.mem = true) :
    NextWf (execClwait g a s) := by
  simp [execClwait, nextWf_conclude hw, hw]
  intros
  repeat' split
  all_goals simp [hw]

@[simp] theorem execFbstat_wf (g : Guard) (a : SSel) (what : Bool) {s : State} (hw : Mem.wf s.mem = true) :
    NextWf (execFbstat g a what s) := by simp [execFbstat, nextWf_conclude hw, hw]

@[simp] theorem execFlitSeal_wf {s : State} (hw : Mem.wf s.mem = true) :
    NextWf (execFlitSeal s) := by simp [execFlitSeal, hw]

@[simp] theorem execFlitReceive_wf {s : State} (hw : Mem.wf s.mem = true) :
    NextWf (execFlitReceive s) := by
  unfold execFlitReceive
  split <;> simp [hw]

@[simp] theorem execRetransmitTimeout_wf {s : State} (hw : Mem.wf s.mem = true) :
    NextWf (execRetransmitTimeout s) := by
  unfold execRetransmitTimeout
  split <;> simp [hw]

@[simp] theorem execEndpointUnreachable_wf {s : State} (hw : Mem.wf s.mem = true) :
    NextWf (execEndpointUnreachable s) := by simp [execEndpointUnreachable, hw]

@[simp] theorem execLinkStateChange_wf {s : State} (hw : Mem.wf s.mem = true) :
    NextWf (execLinkStateChange s) := by
  simp only [execLinkStateChange, nextWf_ite, nextWf_next]
  exact ⟨fun _ => foldl_wf (fun _ _ hs => by simpa using hs) _ hw, fun _ => hw⟩

@[simp] theorem execAckReceive_wf {s : State} (hw : Mem.wf s.mem = true) :
    NextWf (execAckReceive s) := by simp [execAckReceive, hw]

@[simp] theorem execRemoteResponse_wf {s : State} (hw : Mem.wf s.mem = true) :
    NextWf (execRemoteResponse s) := by
  unfold execRemoteResponse
  split <;> simp [hw]

@[simp] theorem execLendWindow_wf {s : State} (hw : Mem.wf s.mem = true) :
    NextWf (execLendWindow s) := by simp [execLendWindow, hw]

@[simp] theorem execLendReceive_wf {s : State} (hw : Mem.wf s.mem = true) :
    NextWf (execLendReceive s) := by simp [execLendReceive, hw]

@[simp] theorem execFifoDelivery_wf {s : State} (hw : Mem.wf s.mem = true) :
    NextWf (execFifoDelivery s) := by
  unfold execFifoDelivery
  split <;> simp [wf_ite, hw]

@[simp] theorem execResumeNotice_wf {s : State} (hw : Mem.wf s.mem = true) :
    NextWf (execResumeNotice s) := by simp [execResumeNotice, wf_ite, hw]

@[simp] theorem execRemoteRetryResend_wf {s : State} (hw : Mem.wf s.mem = true) :
    NextWf (execRemoteRetryResend s) := by
  unfold execRemoteRetryResend
  split <;> simp [hw]

@[simp] theorem execCollectiveArrival_wf {s : State} (hw : Mem.wf s.mem = true) :
    NextWf (execCollectiveArrival s) := by
  unfold execCollectiveArrival
  split <;> simp [hw]

@[simp] theorem execCollectiveComplete_wf {s : State} (hw : Mem.wf s.mem = true) :
    NextWf (execCollectiveComplete s) := by simp [execCollectiveComplete, hw]

@[simp] theorem execUalinkRefused_wf {s : State} (hw : Mem.wf s.mem = true) :
    NextWf (execUalinkRefused s) := by simp [execUalinkRefused, hw]

/-! ### Machine/Weir -/

theorem commitWrite_wf {s : State} (src : Nat) (bs : List (Nat × Byte)) (hw : Mem.wf s.mem = true) :
    Mem.wf (commitWrite s src bs).st.mem = true := by
  unfold commitWrite
  split <;> simp [hw, Mem.wf_wrBytes]

theorem commitRmw_wf {s : State} (src off n : Nat) (f : Nat → Nat) (hw : Mem.wf s.mem = true) :
    Mem.wf (commitRmw s src off n f).st.mem = true := by
  unfold commitRmw
  split <;> simp [hw, Mem.wf_wrBytes]

theorem commitBody_wf {s : State} (src : Nat) (b : StreamBody) (hw : Mem.wf s.mem = true) :
    Mem.wf (commitBody s src b).st.mem = true := by
  unfold commitBody
  split
  · exact commitWrite_wf _ _ hw
  · exact commitRmw_wf _ _ _ _ hw
  · exact commitRmw_wf _ _ _ _ hw
  · split <;> exact hw
  · simpa using hw
  · exact hw
  · exact hw

@[simp] theorem reply_mem (s : State) (src st n err off : Nat) (ret : Option Nat) (resp : Option RemoteResp) :
    (reply s src st n err off ret resp).mem = s.mem := by
  unfold reply
  split <;> simp

@[simp] theorem dropOwn_mem (s : State) (m : StreamMsg) :
    (dropOwn s m).mem = s.mem := by
  unfold dropOwn
  repeat' split
  all_goals simp

@[simp] theorem noteErr_mem (s : State) (m : StreamMsg) (err off : Nat) :
    (noteErr s m err off).mem = s.mem := by
  unfold noteErr
  dsimp only
  repeat' split
  all_goals simp

@[simp] theorem commitMsg_wf {s : State} (m : StreamMsg) (hw : Mem.wf s.mem = true) :
    Mem.wf (commitMsg s m).mem = true := by
  simp [commitMsg, commitBody_wf _ _ hw]

@[simp] theorem refuseMsg_mem (s : State) (m : StreamMsg) :
    (refuseMsg s m).mem = s.mem := by simp [refuseMsg]

@[simp] theorem setWeir_mem (s : State) (key : Nat) (w : Weir) :
    (setWeir s key w).mem = s.mem := rfl

@[simp] theorem passWeir_mem (s : State) (key : Nat) :
    (passWeir s key).mem = s.mem := by
  unfold passWeir
  split <;> simp

@[simp] theorem commitHeld_wf {s : State} (key : Nat) (w : Weir) (m : StreamMsg) (hw : Mem.wf s.mem = true) :
    Mem.wf (commitHeld s key w m).mem = true := by simp [commitHeld, wf_ite, hw]

@[simp] theorem weirRun_wf (key : Nat) (a0 : Nat) {s : State} (hw : Mem.wf s.mem = true) :
    Mem.wf (weirRun key a0 s).mem = true := by
  induction a0 generalizing s with
  | zero => exact hw
  | succ n ih =>
    unfold weirRun
    repeat' split
    all_goals simp [ih, hw]

@[simp] theorem weirGo_wf {s : State} (key : Nat) (hw : Mem.wf s.mem = true) :
    Mem.wf (weirGo s key).mem = true := by
  unfold weirGo
  split <;> simp [hw]

@[simp] theorem waveRun_wf (gid : Nat) (a0 : Nat) {s : State} (hw : Mem.wf s.mem = true) :
    Mem.wf (waveRun gid a0 s).mem = true := by
  induction a0 generalizing s with
  | zero => exact hw
  | succ n ih =>
    unfold waveRun
    dsimp only
    split
    · split
      · exact hw
      · split
        · exact hw
        · split
          · exact ih (weirGo_wf _ (commitHeld_wf _ _ _ hw))
          · exact hw
    · exact hw

@[simp] theorem waveApply_wf {s : State} (gid : Nat) (hw : Mem.wf s.mem = true) :
    Mem.wf (waveApply s gid).mem = true := by simp [waveApply, hw]

@[simp] theorem dropGroup_mem (s : State) (gid : Nat) :
    (dropGroup s gid).mem = s.mem := by
  unfold dropGroup
  dsimp only
  repeat' split
  all_goals simp

@[simp] theorem weirHold_mem (s : State) (key : Nat) (w : Weir) (m : StreamMsg) :
    (weirHold s key w m).mem = s.mem := by
  unfold weirHold
  dsimp only
  repeat' split
  all_goals simp

@[simp] theorem tellHeld_mem (s : State) (key : Nat) (m : StreamMsg) :
    (tellHeld s key m).mem = s.mem := by simp [tellHeld, apply_ite State.mem]

@[simp] theorem replyAgain_mem (s : State) (m : StreamMsg) (errs : List (Nat × Nat × Nat)) (n : Nat) :
    (replyAgain s m errs n).mem = s.mem := by
  unfold replyAgain
  split <;> simp

@[simp] theorem weirLate_mem (s : State) (m : StreamMsg) (errs : List (Nat × Nat × Nat)) :
    (weirLate s m errs).mem = s.mem := by
  unfold weirLate
  split
  · exact foldl_mem (fun _ _ => by simp) _ _
  · simp

@[simp] theorem weirArrive_wf {s : State} (id : Nat) (m : StreamMsg) (hw : Mem.wf s.mem = true) :
    Mem.wf (weirArrive s id m).mem = true := by
  unfold weirArrive
  dsimp only
  split
  · simpa using hw
  · split
    · simpa using hw
    · refine foldl_wf (fun _ _ hs => waveApply_wf _ hs) _ ?_
      rw [tellHeld_mem]
      refine weirGo_wf _ ?_
      simp [wf_ite, foldl_mem (fun _ _ => replyAgain_mem ..), hw]

@[simp] theorem sendDone_mem (s : State) (l : Launch) (w : Nat) :
    (sendDone s l w).mem = s.mem := foldl_mem (fun _ _ => by simp) _ _

@[simp] theorem execWeirArrival_wf {s : State} (hw : Mem.wf s.mem = true) :
    NextWf (execWeirArrival s) := by
  unfold execWeirArrival
  split <;> simp [hw]

@[simp] theorem execWavedone_wf {s : State} (hw : Mem.wf s.mem = true) :
    NextWf (execWavedone s) := by
  unfold execWavedone
  repeat' split
  all_goals simp [hw]

@[simp] theorem execWaveClose_wf {s : State} (hw : Mem.wf s.mem = true) :
    NextWf (execWaveClose s) := by simp [execWaveClose, hw]

/-! ### Machine/DeviceOps -/

@[simp] theorem hostSend_mem (s : State) (qp hq opc : Nat) (body : List Byte) :
    (hostSend s qp hq opc body).mem = s.mem := by simp [hostSend, apply_ite State.mem]

@[simp] theorem complete_mem (s : State) (d : Done) :
    (complete s d).mem = s.mem := by simp [complete]

@[simp] theorem launchDone_mem (s : State) (r : Launch) :
    (launchDone s r).mem = s.mem := by simp [launchDone]

@[simp] theorem fillGroups_mem (s : State) (a0 : List (BitVec 320)) :
    (fillGroups s a0).1.mem = s.mem := by
  induction a0 generalizing s with
  | nil => rfl
  | cons m r ih => simp [fillGroups, ih]

@[simp] theorem admitOne_mem (s : State) (l : Nat) (r : Launch) :
    (admitOne s l r).mem = s.mem := by simp [admitOne, apply_ite State.mem]

@[simp] theorem admitAll_mem (a0 : Nat) (s : State) :
    (admitAll a0 s).mem = s.mem := by
  induction a0 generalizing s with
  | zero => rfl
  | succ n ih =>
    unfold admitAll
    split <;> simp [ih]

@[simp] theorem pump_mem (s : State) :
    (pump s).mem = s.mem := by simp [pump, apply_ite State.mem]

@[simp] theorem grantCore_mem (s : State) (c l : Nat) (r : Launch) :
    (grantCore s c l r).mem = s.mem := rfl

@[simp] theorem openScope_mem (s : State) (l : Nat) :
    (openScope s l).mem = s.mem := by grind [openScope]

@[simp] theorem startLaunch_mem (s : State) (l : Nat) (r : Launch) :
    (startLaunch s l r).mem = s.mem := by
  unfold startLaunch
  dsimp only
  split
  · rename_i s' i h
    have hs : s'.mem = s.mem := createTask_mem _ _ _ _ h
    simp [mem_ite, hs]
  · rfl

@[simp] theorem endLaunch_wf {s : State} (l : Nat) (hw : Mem.wf s.mem = true) :
    Mem.wf (endLaunch s l).mem = true := by
  unfold endLaunch
  split
  · exact hw
  · have hb := fun l : List Nat => foldl_wf (fun s c => writeBackCore_wf c) l hw
    simp [wf_ite, hb, foldl_mem (fun _ _ => State.modCore_mem _ _ _)]

@[simp] theorem finishLaunch_wf {s : State} (l : Nat) (hw : Mem.wf s.mem = true) :
    Mem.wf (finishLaunch s l).mem = true := by simp [finishLaunch, hw]

@[simp] theorem killAny_wf {s : State} (l : Nat) (r : Launch) (hw : Mem.wf s.mem = true) :
    Mem.wf (killAny s l r).mem = true := by
  unfold killAny
  split <;> simp [hw]

@[simp] theorem watchStage1_mem (s : State) (l : Nat) (r : Launch) :
    (watchStage1 s l r).mem = s.mem := by simp [watchStage1]

@[simp] theorem dropUnsent_mem (s : State) (l : Nat) :
    (dropUnsent s l).mem = s.mem := by simp [dropUnsent]

@[simp] theorem dropRest_mem (s : State) (t : Nat) (x : Context) :
    (dropRest s t x).mem = s.mem := foldl_mem (fun s e => by split <;> simp) _ _

@[simp] theorem fenceLaunch_wf {s : State} (l : Nat) (r : Launch) (hw : Mem.wf s.mem = true) :
    Mem.wf (fenceLaunch s l r).mem = true := by
  have hd : ∀ (l : List (Nat × Context)) (s : State), (l.foldl (fun s p => dropRest s p.1 p.2) s).mem = s.mem :=
    foldl_mem fun _ _ => dropRest_mem ..
  unfold fenceLaunch
  refine finishLaunch_wf _ ?_
  simp only [modLaunch_mem, foldl_mem (fun _ _ => State.modCore_mem _ _ _)]
  refine foldl_wf (fun s t hs => by simp [hs]) _ ?_
  simp [foldl_mem (fun _ _ => State.modCore_mem _ _ _), hd, hw]

@[simp] theorem rdmaAnswer_mem (s : State) (qp : Nat) (a : RdmaAns) :
    (rdmaAnswer s qp a).mem = s.mem := rfl

@[simp] theorem rdmaRefuse_mem (s : State) (qp : Nat) (va : W64) (key : Nat) :
    (rdmaRefuse s qp va key).mem = s.mem := rfl

@[simp] theorem rdmaWrite_wf {s : State} (qp key : Nat) (va : W64) (bs : List Byte) (hw : Mem.wf s.mem = true) :
    Mem.wf (rdmaWrite s qp key va bs).mem = true := by
  unfold rdmaWrite
  dsimp only
  split
  · split
    · simpa using hw
    · split
      · simpa using hw
      · rw [rdmaAnswer_mem]
        exact foldl_wf (fun _ _ hs => memWrite_wf _ hs) _ hw
  · simpa using hw

@[simp] theorem rdmaRead_mem (s : State) (qp key : Nat) (va : W64) (n : Nat) :
    (rdmaRead s qp key va n).mem = s.mem := by
  unfold rdmaRead
  repeat' split
  all_goals simp

@[simp] theorem powerDown_wf (s : State) :
    Mem.wf (powerDown s).mem = true := Mem.wf_nil

@[simp] theorem fenceAll_mem (s : State) :
    (fenceAll s).mem = s.mem := foldl_mem (fun s p => by split <;> simp) _ _

@[simp] theorem goDown_wf (s : State) (m : DevMode) :
    Mem.wf (goDown s m).mem = true := by simp [goDown]

@[simp] theorem cutZero_mem (s : State) :
    (cutZero s).mem = s.mem := rfl

@[simp] theorem cutRegions_mem (s : State) (b : List Byte) :
    (cutRegions s b).mem = s.mem := rfl

@[simp] theorem cutStep_mem (s : State) (step : Nat) (mask : W64) (ds : List Byte) :
    (cutStep s step mask ds).mem = s.mem := by
  unfold cutStep
  split <;> simp

@[simp] theorem captureDie_mem (s : State) (f : Firing) (d : Fin 2) :
    (captureDie s f d).mem = s.mem := by simp [captureDie, apply_ite State.mem]

/-! ### Machine/Device -/

theorem hostStep_wf {i : Instr} {c : HostCmd} {field rsvd : State → HostMsg → Bool} {act : State → Nat → HostMsg → State}
    {s : State} (hw : Mem.wf s.mem = true) (ha : ∀ m, Mem.wf (act s s.ev.num m).mem = true) :
    NextWf (hostStep i c field rsvd act s) := by
  unfold hostStep
  split
  · dsimp only
    split
    · simpa using hw
    · split
      · simpa using hw
      · simp [wf_ite, ha, hw]
  · simpa using hw

@[simp] theorem okDone_mem (s : State) (qp opc : Nat) (m : HostMsg) (data : List Byte) :
    (okDone s qp opc m data).mem = s.mem := by simp [okDone]

@[simp] theorem execLaunch_wf {s : State} (hw : Mem.wf s.mem = true) :
    NextWf (execLaunch s) := hostStep_wf hw fun m => by simp [hw]

@[simp] theorem execKill_wf {s : State} (hw : Mem.wf s.mem = true) :
    NextWf (execKill s) := hostStep_wf hw fun m => by
    dsimp only
    simp only [pump_mem, complete_mem]
    exact foldl_wf (fun s p hs => by split <;> simp [hs]) _ hw

@[simp] theorem execResume_wf {s : State} (hw : Mem.wf s.mem = true) :
    NextWf (execResume s) := hostStep_wf hw fun m => by simp [wf_ite, hw]

@[simp] theorem execFinalcut_wf {s : State} (hw : Mem.wf s.mem = true) :
    NextWf (execFinalcut s) := hostStep_wf hw fun m => by simp [hw]

@[simp] theorem execReset_wf {s : State} (hw : Mem.wf s.mem = true) :
    NextWf (execReset s) := hostStep_wf hw fun m => by simp [wf_ite, hw]

@[simp] theorem execSetroot_wf {s : State} (hw : Mem.wf s.mem = true) :
    NextWf (execSetroot s) := hostStep_wf hw fun m => by simp [hw]

@[simp] theorem execSetprio_wf {s : State} (hw : Mem.wf s.mem = true) :
    NextWf (execSetprio s) := hostStep_wf hw fun m => by simp [hw]

@[simp] theorem execSetexp_wf {s : State} (hw : Mem.wf s.mem = true) :
    NextWf (execSetexp s) := hostStep_wf hw fun m => by simp [hw]

@[simp] theorem execXlinv_wf {s : State} (hw : Mem.wf s.mem = true) :
    NextWf (execXlinv s) := hostStep_wf hw fun m => by simp [hw]

@[simp] theorem execMrreg_wf {s : State} (hw : Mem.wf s.mem = true) :
    NextWf (execMrreg s) := hostStep_wf hw fun m => by
    dsimp only
    split <;> simp [hw]

@[simp] theorem execReach_wf {s : State} (hw : Mem.wf s.mem = true) :
    NextWf (execReach s) := hostStep_wf hw fun m => by simp [hw]

@[simp] theorem execKekset_wf {s : State} (hw : Mem.wf s.mem = true) :
    NextWf (execKekset s) := hostStep_wf hw fun m => by simp [hw]

@[simp] theorem execKeyset_wf {s : State} (hw : Mem.wf s.mem = true) :
    NextWf (execKeyset s) := hostStep_wf hw fun m => by simp [wf_ite, hw]

@[simp] theorem execFencerel_wf {s : State} (hw : Mem.wf s.mem = true) :
    NextWf (execFencerel s) := hostStep_wf hw fun m => by simp [hw]

@[simp] theorem execPwrcap_wf {s : State} (hw : Mem.wf s.mem = true) :
    NextWf (execPwrcap s) := hostStep_wf hw fun m => by simp [hw]

@[simp] theorem execMrdereg_wf {s : State} (hw : Mem.wf s.mem = true) :
    NextWf (execMrdereg s) := hostStep_wf hw fun m => by simp [hw]

@[simp] theorem execAttest_wf {s : State} (hw : Mem.wf s.mem = true) :
    NextWf (execAttest s) := hostStep_wf hw fun m => by simp [hw]

@[simp] theorem execCertread_wf {s : State} (hw : Mem.wf s.mem = true) :
    NextWf (execCertread s) := hostStep_wf hw fun m => by simp [hw]

@[simp] theorem execSnapcmd_wf {s : State} (hw : Mem.wf s.mem = true) :
    NextWf (execSnapcmd s) := hostStep_wf hw fun m => by simp [hw]

@[simp] theorem execSnapread_wf {s : State} (hw : Mem.wf s.mem = true) :
    NextWf (execSnapread s) := hostStep_wf hw fun m => by simp [hw]

@[simp] theorem execLogread_wf {s : State} (hw : Mem.wf s.mem = true) :
    NextWf (execLogread s) := hostStep_wf hw fun m => by simp [hw]

@[simp] theorem execPlohusUnknown_wf {s : State} (hw : Mem.wf s.mem = true) :
    NextWf (execPlohusUnknown s) := by
  unfold execPlohusUnknown
  split <;> simp [hw]

@[simp] theorem execPlohusDrop_wf {s : State} (hw : Mem.wf s.mem = true) :
    NextWf (execPlohusDrop s) := by simp [execPlohusDrop, wf_ite, hw]

@[simp] theorem execQpEstablish_wf {s : State} (hw : Mem.wf s.mem = true) :
    NextWf (execQpEstablish s) := by
  unfold execQpEstablish
  dsimp only
  repeat' split
  all_goals simp [hw]

@[simp] theorem execQpTeardown_wf {s : State} (hw : Mem.wf s.mem = true) :
    NextWf (execQpTeardown s) := by simp [execQpTeardown, hw]

@[simp] theorem execRdmaWrite_wf {s : State} (hw : Mem.wf s.mem = true) :
    NextWf (execRdmaWrite s) := by
  unfold execRdmaWrite
  split <;> simp [wf_ite, hw]

@[simp] theorem execRdmaRead_wf {s : State} (hw : Mem.wf s.mem = true) :
    NextWf (execRdmaRead s) := by simp [execRdmaRead, wf_ite, hw]

@[simp] theorem execRdmaAtomicOrUd_wf {s : State} (hw : Mem.wf s.mem = true) :
    NextWf (execRdmaAtomicOrUd s) := by simp [execRdmaAtomicOrUd, wf_ite, hw]

@[simp] theorem execPowerGood_wf {s : State} (hw : Mem.wf s.mem = true) :
    NextWf (execPowerGood s) := by
  simp only [execPowerGood, nextWf_next, wf_ite]
  exact ⟨fun _ => Mem.wf_nil, fun _ => hw⟩

@[simp] theorem endCut_mem (s : State) (m : DevMode) :
    (endCut s m).mem = s.mem := rfl

@[simp] theorem execFinalCutStepDone_wf {s : State} (hw : Mem.wf s.mem = true) :
    NextWf (execFinalCutStepDone s) := by
  unfold execFinalCutStepDone
  split <;> simp [wf_ite, hw]

@[simp] theorem throttleDie_mem (s : State) (d : Fin 2) (tj : BitVec 8) (mw : Nat) :
    (throttleDie s d tj mw).mem = s.mem := by simp [throttleDie, apply_ite State.mem]

@[simp] theorem tripped_wf (s : State) :
    Mem.wf (tripped s).mem = true := by simp [tripped]

@[simp] theorem execThrottleStep_wf {s : State} (hw : Mem.wf s.mem = true) :
    NextWf (execThrottleStep s) := by simp [execThrottleStep, wf_ite, hw]

@[simp] theorem execTrip_wf {s : State} (hw : Mem.wf s.mem = true) :
    NextWf (execTrip s) := by simp [execTrip, wf_ite, hw]

@[simp] theorem execCoreGrant_wf {s : State} (hw : Mem.wf s.mem = true) :
    NextWf (execCoreGrant s) := by
  unfold execCoreGrant
  split <;> simp [hw]

@[simp] theorem execEntryTaskCreate_wf {s : State} (hw : Mem.wf s.mem = true) :
    NextWf (execEntryTaskCreate s) := by
  unfold execEntryTaskCreate
  dsimp only
  repeat' split
  all_goals simp [hw]

@[simp] theorem execLaunchComplete_wf {s : State} (hw : Mem.wf s.mem = true) :
    NextWf (execLaunchComplete s) := by
  unfold execLaunchComplete
  split <;> simp [wf_ite, hw]

@[simp] theorem execWatchdogStage1_wf {s : State} (hw : Mem.wf s.mem = true) :
    NextWf (execWatchdogStage1 s) := by
  unfold execWatchdogStage1
  split <;> simp [wf_ite, hw]

@[simp] theorem execWatchdogStage2_wf {s : State} (hw : Mem.wf s.mem = true) :
    NextWf (execWatchdogStage2 s) := by
  unfold execWatchdogStage2
  split <;> simp [wf_ite, hw]

@[simp] theorem execWatchdogStage3_wf {s : State} (hw : Mem.wf s.mem = true) :
    NextWf (execWatchdogStage3 s) := by
  unfold execWatchdogStage3
  split <;> simp [wf_ite, hw]

@[simp] theorem execClapperCapture_wf {s : State} (hw : Mem.wf s.mem = true) :
    NextWf (execClapperCapture s) := by
  unfold execClapperCapture
  split <;> simp [wf_ite, hw]

@[simp] theorem execCaptureDone_wf {s : State} (hw : Mem.wf s.mem = true) :
    NextWf (execCaptureDone s) := by
  unfold execCaptureDone
  dsimp only
  repeat' split
  all_goals simp [hw, Mem.wf_wrBytes]

@[simp] theorem execClapperMessage_wf {s : State} (hw : Mem.wf s.mem = true) :
    NextWf (execClapperMessage s) := by simp [execClapperMessage, hw]

@[simp] theorem noteCe_mem (s : State) (d : Fin 2) (core : Nat) (addr : W64) (storage : Nat) :
    (noteCe s d core addr storage).mem = s.mem := rfl

@[simp] theorem recordErr_mem (s : State) (t : Nat) :
    (recordErr s t).mem = s.mem := by
  unfold recordErr
  split <;> simp

@[simp] theorem killRecord_wf {s : State} (t : Nat) (hw : Mem.wf s.mem = true) :
    Mem.wf (killRecord s t).mem = true := by
  unfold killRecord
  dsimp only
  repeat' split
  all_goals simp [hw]

@[simp] theorem spoilCore_mem (s : State) (c t storage kind : Nat) (a : W64) (b : EvBody) :
    (spoilCore s c t storage kind a b).mem = s.mem := by
  unfold spoilCore
  dsimp only
  repeat' split
  all_goals simp

@[simp] theorem execPatrolScrub_wf {s : State} (hw : Mem.wf s.mem = true) :
    NextWf (execPatrolScrub s) := by
  unfold execPatrolScrub
  dsimp only
  repeat' split
  all_goals simp [hw]

@[simp] theorem execFetchAheadFault_wf {s : State} (hw : Mem.wf s.mem = true) :
    NextWf (execFetchAheadFault s) := by
  unfold execFetchAheadFault
  split <;> simp [hw]

/-! ### Machine/Engine -/

@[simp] theorem granuleOf_wf {s : State} (c : Nat) (e : Bool) (q : Cmd) (hw : Mem.wf s.mem = true) :
    Mem.wf (granuleOf s c e q).mem = true := by
  unfold granuleOf
  grind [pageBoundary_mem, pageGranule_wf, boundary_mem, runGranule_wf, Mem.wf_wrBytes]

@[simp] theorem execCopyGranule_wf {s : State} (hw : Mem.wf s.mem = true) :
    NextWf (execCopyGranule s) := by
  unfold execCopyGranule
  dsimp only
  repeat' split
  all_goals simp [hw]

@[simp] theorem execCommandComplete_wf {s : State} (hw : Mem.wf s.mem = true) :
    NextWf (execCommandComplete s) := by
  unfold execCommandComplete
  dsimp only
  repeat' split
  all_goals simp [hw]

/-! ### Machine/Gen -/

@[simp] theorem gsSend_wf (g : Guard) (os : List Opd) (f : State → Nat → Context → Res GsAct)
    {s : State} (hw : Mem.wf s.mem = true) :
    NextWf (gsSend g os f s) := by simp [gsSend, nextWf_conclude hw, hw]

@[simp] theorem gsRelease_mem (s : State) (t : Nat) (a : GsAct) :
    (gsRelease s t a).mem = s.mem := by simp [gsRelease]

@[simp] theorem execGscfg_wf (g : Guard) (a : SSel) (clr : Bool) (n : BitVec 4) {s : State} (hw : Mem.wf s.mem = true) :
    NextWf (execGscfg g a clr n s) := by simp [execGscfg, hw]

@[simp] theorem execGsocc_wf (g : Guard) (a : SSel) {s : State} (hw : Mem.wf s.mem = true) :
    NextWf (execGsocc g a s) := by simp [execGsocc, hw]

@[simp] theorem execGsdlen_wf (g : Guard) (a : SSel) {s : State} (hw : Mem.wf s.mem = true) :
    NextWf (execGsdlen g a s) := by simp [execGsdlen, hw]

@[simp] theorem execGsseed_wf (g : Guard) (a : SSel) {s : State} (hw : Mem.wf s.mem = true) :
    NextWf (execGsseed g a s) := by simp [execGsseed, hw]

@[simp] theorem execGsiterStart_wf (g : Guard) (a : SSel) {s : State} (hw : Mem.wf s.mem = true) :
    NextWf (execGsiterStart g a s) := by simp [execGsiterStart, hw]

@[simp] theorem execGsiterLayer_wf (g : Guard) (a b : SSel) {s : State} (hw : Mem.wf s.mem = true) :
    NextWf (execGsiterLayer g a b s) := by simp [execGsiterLayer, nextWf_conclude hw, hw]

@[simp] theorem execGsiterEnd_wf (g : Guard) (b : SSel) {s : State} (hw : Mem.wf s.mem = true) :
    NextWf (execGsiterEnd g b s) := by simp [execGsiterEnd, nextWf_conclude hw, hw]

@[simp] theorem execGswait_wf (g : Guard) (a b : SSel) (lay : Bool) {s : State} (hw : Mem.wf s.mem = true) :
    NextWf (execGswait g a b lay s) := by simp [execGswait, nextWf_conclude hw, hw]

@[simp] theorem execGsacc_wf (g : Guard) (a b : SSel) {s : State} (hw : Mem.wf s.mem = true) :
    NextWf (execGsacc g a b s) := by
  simp [execGsacc, nextWf_conclude hw, hw]
  intros
  repeat' split
  all_goals simp [hw]

@[simp] theorem execGsnoise_wf (g : Guard) (a b : SSel) (cl : Clu) {s : State} (hw : Mem.wf s.mem = true) :
    NextWf (execGsnoise g a b cl s) := by simp [execGsnoise, nextWf_conclude hw, hw]

@[simp] theorem execGssamp_wf (g : Guard) (a : SSel) {s : State} (hw : Mem.wf s.mem = true) :
    NextWf (execGssamp g a s) := by
  simp [execGssamp, nextWf_conclude hw, hw]
  intros
  repeat' split
  all_goals simp [hw]

@[simp] theorem execGsqOpArrival_wf {s : State} (hw : Mem.wf s.mem = true) :
    NextWf (execGsqOpArrival s) := by simp [execGsqOpArrival, hw]

/-! ### Machine/Matrix -/

@[simp] theorem execMwld_wf (g : Guard) (a : SSel) (h : BitVec 1) {s : State} (hw : Mem.wf s.mem = true) :
    NextWf (execMwld g a h s) := by simp [execMwld, nextWf_conclude hw, hw]

@[simp] theorem execMwsel_wf (g : Guard) (h : BitVec 1) {s : State} (hw : Mem.wf s.mem = true) :
    NextWf (execMwsel g h s) := by simp [execMwsel, nextWf_conclude hw, hw]

@[simp] theorem beatDone_mem (s : State) (c row : Nat) (acc : Bool) (out : List (Option Arith.Ext)) :
    (beatDone s c row acc out).mem = s.mem := by simp [beatDone, apply_ite State.mem]

@[simp] theorem execMpush_wf (g : Guard) (a : VSel) (b : SSel) (cl : Clu) (acc : Bool) (seg : BitVec 4)
    {s : State} (hw : Mem.wf s.mem = true) :
    NextWf (execMpush g a b cl acc seg s) := by
  simp [execMpush, nextWf_conclude hw, hw]
  intros
  split
  · rename_i h
    have hs := wf_of_mem (needFill_mem _ _ _ h) hw
    split <;> simpa using hs
  · simp [hw]

@[simp] theorem execMshift_wf (g : Guard) (b : SSel) (acc : Bool) (seg : BitVec 4) {s : State} (hw : Mem.wf s.mem = true) :
    NextWf (execMshift g b acc seg s) := by
  simp [execMshift, nextWf_conclude hw, hw]
  intros
  split
  · rename_i h
    have hs := wf_of_mem (needFill_mem _ _ _ h) hw
    split <;> simpa using hs
  · simp [hw]

@[simp] theorem execMacc_wf (g : Guard) (a : SSel) {s : State} (hw : Mem.wf s.mem = true) :
    NextWf (execMacc g a s) := by simp [execMacc, nextWf_conclude hw, hw]

@[simp] theorem execMdrn_wf (g : Guard) (a b : SSel) (cl : Clu) (df : DrainFmt) (clr : Bool)
    {s : State} (hw : Mem.wf s.mem = true) :
    NextWf (execMdrn g a b cl df clr s) := by simp [execMdrn, wf_ite, nextWf_conclude hw, hw]

@[simp] theorem execMzero_wf (g : Guard) (a : SSel) (n : BitVec 6) {s : State} (hw : Mem.wf s.mem = true) :
    NextWf (execMzero g a n s) := by
  simp [execMzero, nextWf_conclude hw, hw]
  intros
  exact foldl_wf (fun _ _ hs => by simpa using hs) _ (by simpa using hw)

@[simp] theorem execMsweep_wf (g : Guard) (a : SSel) (n : BitVec 6) {s : State} (hw : Mem.wf s.mem = true) :
    NextWf (execMsweep g a n s) := by simp [execMsweep, nextWf_conclude hw, hw]

@[simp] theorem execMend_wf (g : Guard) {s : State} (hw : Mem.wf s.mem = true) :
    NextWf (execMend g s) := by simp [execMend, nextWf_conclude hw, hw]

@[simp] theorem execMswap_wf (g : Guard) (gw : Gw) {s : State} (hw : Mem.wf s.mem = true) :
    NextWf (execMswap g gw s) := by simp [execMswap, nextWf_conclude hw, hw]

@[simp] theorem execMfmt_wf (g : Guard) (ft : AFmt) {s : State} (hw : Mem.wf s.mem = true) :
    NextWf (execMfmt g ft s) := by simp [execMfmt, nextWf_conclude hw, hw]

@[simp] theorem execMstat_wf (g : Guard) {s : State} (hw : Mem.wf s.mem = true) :
    NextWf (execMstat g s) := by simp [execMstat, nextWf_conclude hw, hw]

@[simp] theorem tileStep_wf {s : State} (c n : Nat) (hw : Mem.wf s.mem = true) :
    Mem.wf (tileStep s c n).mem = true := by
  unfold tileStep
  grind [State.modMe_mem, sendReq_mem, tileRead_wf, Mem.wf_wrBytes]

@[simp] theorem execMwldComplete_wf {s : State} (hw : Mem.wf s.mem = true) :
    NextWf (execMwldComplete s) := by simp [execMwldComplete, hw]

@[simp] theorem execArrayFill_wf {s : State} (hw : Mem.wf s.mem = true) :
    NextWf (execArrayFill s) := by
  unfold execArrayFill
  split <;> simp [hw]

@[simp] theorem execSweepRollback_wf {s : State} (hw : Mem.wf s.mem = true) :
    NextWf (execSweepRollback s) := by
  unfold execSweepRollback
  dsimp only
  repeat' split
  all_goals simp [hw]

/-! ### Machine/Node -/

@[simp] theorem nodeLocal_wf {s : State} (t : Nat) (x : Context) (id : W32) (op : NsOp) (tick : Option Nat) (ret : Bool)
    (hw : Mem.wf s.mem = true) :
    OkWf (nodeLocal s t x id op tick ret) := by simp [nodeLocal, wf_ite, hw]

@[simp] theorem nodeSend_mem (s : State) (t : Nat) (x : Context) (n : Nat) (r : Strm) (a : W64) (tk : Option RTicket)
    (body : StreamBody) :
    (nodeSend s t x n r a tk body).mem = s.mem := by simp [nodeSend, apply_ite State.mem]

@[simp] theorem nodeFar_wf {s : State} (t : Nat) (x : Context) (id : W32) (slot : Nat) (op : NsOp) (tick : Option Nat) (ret : Bool)
    (hw : Mem.wf s.mem = true) :
    OkWf (nodeFar s t x id slot op tick ret) := by
  unfold nodeFar
  dsimp only
  repeat' split
  all_goals simp [hw]

@[simp] theorem nodeInstr_wf (opc : Nat) (g : Guard) (a : SSel) (b : Option SSel) (tb ret needRec : Bool) (ok : W64 → W64 → Bool) (mk : State → Nat → Context → W64 → Res NsOp)
    {s : State} (hw : Mem.wf s.mem = true) :
    NextWf (nodeInstr opc g a b tb ret needRec ok mk s) := by simp [nodeInstr, wf_ite, nextWf_conclude hw, hw]

@[simp] theorem execNsvl_wf (g : Guard) (a b : SSel) (tb : Bool) {s : State} (hw : Mem.wf s.mem = true) :
    NextWf (execNsvl g a b tb s) := by simp [execNsvl, hw]

@[simp] theorem execNsback_wf (g : Guard) (a b : SSel) (tb alt : Bool) {s : State} (hw : Mem.wf s.mem = true) :
    NextWf (execNsback g a b tb alt s) := by simp [execNsback, hw]

@[simp] theorem execNssel_wf (g : Guard) (a b : SSel) (tb : Bool) {s : State} (hw : Mem.wf s.mem = true) :
    NextWf (execNssel g a b tb s) := by simp [execNssel, hw]

@[simp] theorem execNsrd_wf (g : Guard) (a b : SSel) (tb : Bool) (ft : NsRd) {s : State} (hw : Mem.wf s.mem = true) :
    NextWf (execNsrd g a b tb ft s) := by
  unfold execNsrd
  split <;> simp [hw]

@[simp] theorem execNswr_wf (g : Guard) (a b : SSel) (tb : Bool) (ft : NsField) {s : State} (hw : Mem.wf s.mem = true) :
    NextWf (execNswr g a b tb ft s) := by simp [execNswr, hw]

@[simp] theorem execNsalloc_wf (g : Guard) (a b : SSel) (tb : Bool) {s : State} (hw : Mem.wf s.mem = true) :
    NextWf (execNsalloc g a b tb s) := by simp [execNsalloc, hw]

@[simp] theorem execNsallocFree_wf (g : Guard) (a : SSel) (tb : Bool) {s : State} (hw : Mem.wf s.mem = true) :
    NextWf (execNsallocFree g a tb s) := by simp [execNsallocFree, hw]

@[simp] theorem execNodeWalkStep_wf {s : State} (hw : Mem.wf s.mem = true) :
    NextWf (execNodeWalkStep s) := by simp [execNodeWalkStep, hw]

@[simp] theorem execBasinApply_wf {s : State} (hw : Mem.wf s.mem = true) :
    NextWf (execBasinApply s) := by simp [execBasinApply, hw]

/-! ### Machine/Page -/

@[simp] theorem pageCmd_mem (s : State) (t : Nat) (x : Context) (ck : Nat) (obj : Option (Nat × Nat)) (k : CmdKind) (r : CeRegs) :
    (pageCmd s t x ck obj k r).mem = s.mem := rfl

@[simp] theorem execKvld_wf (g : Guard) (a b : SSel) {s : State} (hw : Mem.wf s.mem = true) :
    NextWf (execKvld g a b s) := by simp [execKvld, nextWf_conclude hw, hw]

@[simp] theorem execKvst_wf (g : Guard) (a b : SSel) {s : State} (hw : Mem.wf s.mem = true) :
    NextWf (execKvst g a b s) := by simp [execKvst, nextWf_conclude hw, hw]

@[simp] theorem execPsel_wf (g : Guard) (a b : SSel) {s : State} (hw : Mem.wf s.mem = true) :
    NextWf (execPsel g a b s) := by simp [execPsel, nextWf_conclude hw, hw]

@[simp] theorem issuePmap_wf (g : Guard) (a b : SSel) (op : Nat) {s : State} (hw : Mem.wf s.mem = true) :
    OkWf (issuePmap g a b op s) := by simp [issuePmap, hw]

@[simp] theorem execPmapRead_wf (g : Guard) (a b : SSel) {s : State} (hw : Mem.wf s.mem = true) :
    NextWf (execPmapRead g a b s) := by simp [execPmapRead, nextWf_conclude hw, hw]

@[simp] theorem execPmapReadref_wf (g : Guard) (a b : SSel) {s : State} (hw : Mem.wf s.mem = true) :
    NextWf (execPmapReadref g a b s) := by simp [execPmapReadref, nextWf_conclude hw, hw]

@[simp] theorem execPmapMapnew_wf (g : Guard) (a b : SSel) {s : State} (hw : Mem.wf s.mem = true) :
    NextWf (execPmapMapnew g a b s) := by simp [execPmapMapnew, nextWf_conclude hw, hw]

@[simp] theorem execPmapRevoke_wf (g : Guard) (a b : SSel) {s : State} (hw : Mem.wf s.mem = true) :
    NextWf (execPmapRevoke g a b s) := by simp [execPmapRevoke, nextWf_conclude hw, hw]

@[simp] theorem execPmapEvict_wf (g : Guard) (a b : SSel) {s : State} (hw : Mem.wf s.mem = true) :
    NextWf (execPmapEvict g a b s) := by simp [execPmapEvict, nextWf_conclude hw, hw]

@[simp] theorem execPmapPrefetch_wf (g : Guard) (a b : SSel) {s : State} (hw : Mem.wf s.mem = true) :
    NextWf (execPmapPrefetch g a b s) := by simp [execPmapPrefetch, nextWf_conclude hw, hw]

@[simp] theorem execPsref_wf (g : Guard) (a b : SSel) (pin new : Bool) {s : State} (hw : Mem.wf s.mem = true) :
    NextWf (execPsref g a b pin new s) := by
  simp [execPsref, nextWf_conclude hw, hw]
  intros
  repeat' split
  all_goals simp [hw]

@[simp] theorem execPsdrop_wf (g : Guard) (a : SSel) (pin : Bool) {s : State} (hw : Mem.wf s.mem = true) :
    NextWf (execPsdrop g a pin s) := by simp [execPsdrop, nextWf_conclude hw, hw]

@[simp] theorem execFlashFill_wf {s : State} (hw : Mem.wf s.mem = true) :
    NextWf (execFlashFill s) := by
  simp [execFlashFill]
  repeat' split
  all_goals simp [hw]

@[simp] theorem execEvictComplete_wf {s : State} (hw : Mem.wf s.mem = true) :
    NextWf (execEvictComplete s) := by simp [execEvictComplete, hw]

@[simp] theorem execSetBuildComplete_wf {s : State} (hw : Mem.wf s.mem = true) :
    NextWf (execSetBuildComplete s) := by simp [execSetBuildComplete, hw]

/-! ### Machine/ScalarArith -/

@[simp] theorem sBin_wf (g : Guard) (a b : SSel) (lat : Nat) (f : W64 → W64 → W64) {s : State} (hw : Mem.wf s.mem = true) :
    NextWf (sBin g a b lat f s) := by simp [sBin, nextWf_conclude hw, hw]

@[simp] theorem sUn_wf (gd : Context → Bool) (a : SSel) (lat : Nat) (f : W64 → W64) {s : State} (hw : Mem.wf s.mem = true) :
    NextWf (sUn gd a lat f s) := by simp [sUn, nextWf_conclude hw, hw]

@[simp] theorem execAdd_wf (g : Guard) (a b : SSel) (sat u : Bool) (w : Width) {s : State} (hw : Mem.wf s.mem = true) :
    NextWf (execAdd g a b sat u w s) := by simp [execAdd, hw]

@[simp] theorem execSub_wf (g : Guard) (a b : SSel) (sat u : Bool) (w : Width) {s : State} (hw : Mem.wf s.mem = true) :
    NextWf (execSub g a b sat u w s) := by simp [execSub, hw]

@[simp] theorem execAddi_wf (g : BitVec 3) (a : SSel) (i : BitVec 13) {s : State} (hw : Mem.wf s.mem = true) :
    NextWf (execAddi g a i s) := by simp [execAddi, hw]

@[simp] theorem execMul_wf (g : Guard) (a b : SSel) (sat u : Bool) (w : Width) {s : State} (hw : Mem.wf s.mem = true) :
    NextWf (execMul g a b sat u w s) := by simp [execMul, hw]

@[simp] theorem execMulh_wf (g : Guard) (a b : SSel) (u : Bool) (w : Width) {s : State} (hw : Mem.wf s.mem = true) :
    NextWf (execMulh g a b u w s) := by simp [execMulh, hw]

@[simp] theorem execDiv_wf (g : Guard) (a b : SSel) (sat u : Bool) (w : Width) {s : State} (hw : Mem.wf s.mem = true) :
    NextWf (execDiv g a b sat u w s) := by simp [execDiv, hw]

@[simp] theorem execRem_wf (g : Guard) (a b : SSel) (u : Bool) (w : Width) {s : State} (hw : Mem.wf s.mem = true) :
    NextWf (execRem g a b u w s) := by simp [execRem, hw]

@[simp] theorem execAnd_wf (g : Guard) (a b : SSel) (u : Bool) (w : Width) {s : State} (hw : Mem.wf s.mem = true) :
    NextWf (execAnd g a b u w s) := by simp [execAnd, hw]

@[simp] theorem execOr_wf (g : Guard) (a b : SSel) (u : Bool) (w : Width) {s : State} (hw : Mem.wf s.mem = true) :
    NextWf (execOr g a b u w s) := by simp [execOr, hw]

@[simp] theorem execXor_wf (g : Guard) (a b : SSel) (u : Bool) (w : Width) {s : State} (hw : Mem.wf s.mem = true) :
    NextWf (execXor g a b u w s) := by simp [execXor, hw]

@[simp] theorem execAndi_wf (g : BitVec 3) (a : SSel) (i : BitVec 13) {s : State} (hw : Mem.wf s.mem = true) :
    NextWf (execAndi g a i s) := by simp [execAndi, hw]

@[simp] theorem execShl_wf (g : Guard) (a b : SSel) (u : Bool) (w : Width) {s : State} (hw : Mem.wf s.mem = true) :
    NextWf (execShl g a b u w s) := by simp [execShl, hw]

@[simp] theorem execShr_wf (g : Guard) (a b : SSel) (u : Bool) (w : Width) {s : State} (hw : Mem.wf s.mem = true) :
    NextWf (execShr g a b u w s) := by simp [execShr, hw]

@[simp] theorem execShli_wf (g : BitVec 3) (a : SSel) (u : Bool) (w : Width) (sh : BitVec 6)
    {s : State} (hw : Mem.wf s.mem = true) :
    NextWf (execShli g a u w sh s) := by simp [execShli, hw]

@[simp] theorem execShri_wf (g : BitVec 3) (a : SSel) (u : Bool) (w : Width) (sh : BitVec 6)
    {s : State} (hw : Mem.wf s.mem = true) :
    NextWf (execShri g a u w sh s) := by simp [execShri, hw]

@[simp] theorem execMovi_wf (g : BitVec 3) (i : BitVec 13) {s : State} (hw : Mem.wf s.mem = true) :
    NextWf (execMovi g i s) := by simp [execMovi, nextWf_conclude hw, hw]

@[simp] theorem execShori_wf (g : BitVec 3) (a : SSel) (i : BitVec 13) {s : State} (hw : Mem.wf s.mem = true) :
    NextWf (execShori g a i s) := by simp [execShori, hw]

@[simp] theorem execMin_wf (g : Guard) (a b : SSel) (u : Bool) (w : Width) {s : State} (hw : Mem.wf s.mem = true) :
    NextWf (execMin g a b u w s) := by simp [execMin, hw]

@[simp] theorem execMax_wf (g : Guard) (a b : SSel) (u : Bool) (w : Width) {s : State} (hw : Mem.wf s.mem = true) :
    NextWf (execMax g a b u w s) := by simp [execMax, hw]

@[simp] theorem execClz_wf (g : Guard) (a : SSel) (w : Width) {s : State} (hw : Mem.wf s.mem = true) :
    NextWf (execClz g a w s) := by simp [execClz, hw]

@[simp] theorem execPopc_wf (g : Guard) (a : SSel) (w : Width) {s : State} (hw : Mem.wf s.mem = true) :
    NextWf (execPopc g a w s) := by simp [execPopc, hw]

@[simp] theorem execSext_wf (g : Guard) (a : SSel) (u : Bool) (w : Width) {s : State} (hw : Mem.wf s.mem = true) :
    NextWf (execSext g a u w s) := by simp [execSext, hw]

@[simp] theorem execBfx_wf (g : Guard) (a b : SSel) (u : Bool) {s : State} (hw : Mem.wf s.mem = true) :
    NextWf (execBfx g a b u s) := by
  simp [execBfx, nextWf_conclude hw, hw]
  intros
  repeat' split
  all_goals simp [hw]

@[simp] theorem execBfi_wf (g : Guard) (a b : SSel) (m : BitVec 4) {s : State} (hw : Mem.wf s.mem = true) :
    NextWf (execBfi g a b m s) := by
  simp [execBfi, nextWf_conclude hw, hw]
  intros
  repeat' split
  all_goals simp [hw]

@[simp] theorem execSel_wf (g : Guard) (a b : SSel) (p : BitVec 3) {s : State} (hw : Mem.wf s.mem = true) :
    NextWf (execSel g a b p s) := by simp [execSel, nextWf_conclude hw, hw]

@[simp] theorem execCmp_wf (g : Guard) (a b : SSel) (cond : CmpCond) (d : BitVec 3) {s : State} (hw : Mem.wf s.mem = true) :
    NextWf (execCmp g a b cond d s) := by simp [execCmp, wf_ite, nextWf_conclude hw, hw]

@[simp] theorem execPlog_wf (g : Guard) (x y : BitVec 3) (op : PlogOp) (d : BitVec 3) {s : State} (hw : Mem.wf s.mem = true) :
    NextWf (execPlog g x y op d s) := by simp [execPlog, wf_ite, nextWf_conclude hw, hw]

@[simp] theorem execPutx_wf (g : Guard) (a : SSel) (x : IdxReg) {s : State} (hw : Mem.wf s.mem = true) :
    NextWf (execPutx g a x s) := by simp [execPutx, wf_ite, nextWf_conclude hw, hw]

@[simp] theorem execXaddi_wf (g : BitVec 3) (x : IdxReg) (i : BitVec 13) {s : State} (hw : Mem.wf s.mem = true) :
    NextWf (execXaddi g x i s) := by simp [execXaddi, wf_ite, nextWf_conclude hw, hw]

/-! ### Machine/ScalarCtl -/

@[simp] theorem execNop_wf {s : State} (hw : Mem.wf s.mem = true) :
    NextWf (execNop s) := by simp [execNop, nextWf_conclude hw, hw]

@[simp] theorem execBr_wf (g : BitVec 3) (i : BitVec 13) {s : State} (hw : Mem.wf s.mem = true) :
    NextWf (execBr g i s) := by simp [execBr, wf_ite, nextWf_conclude hw, hw]

@[simp] theorem execBrme_wf (g : BitVec 3) (cl : Cl3) (i : BitVec 13) {s : State} (hw : Mem.wf s.mem = true) :
    NextWf (execBrme g cl i s) := by simp [execBrme, wf_ite, nextWf_conclude hw, hw]

@[simp] theorem execJmp_wf (off : BitVec 22) {s : State} (hw : Mem.wf s.mem = true) :
    NextWf (execJmp off s) := by simp [execJmp, nextWf_conclude hw, hw]

@[simp] theorem execCall_wf (off : BitVec 22) {s : State} (hw : Mem.wf s.mem = true) :
    NextWf (execCall off s) := by simp [execCall, nextWf_conclude hw, hw]

@[simp] theorem jumpReg_wf (op : Nat) (g : Guard) (a : SSel) {s : State} (hw : Mem.wf s.mem = true) :
    NextWf (jumpReg op g a s) := by simp [jumpReg, nextWf_conclude hw, hw]

@[simp] theorem execJmpr_wf (g : Guard) (a : SSel) {s : State} (hw : Mem.wf s.mem = true) :
    NextWf (execJmpr g a s) := by simp [execJmpr, hw]

@[simp] theorem execRet_wf (g : Guard) (a : SSel) {s : State} (hw : Mem.wf s.mem = true) :
    NextWf (execRet g a s) := by simp [execRet, hw]

@[simp] theorem execCallr_wf (g : Guard) (a : SSel) {s : State} (hw : Mem.wf s.mem = true) :
    NextWf (execCallr g a s) := by simp [execCallr, nextWf_conclude hw, hw]

@[simp] theorem nestOpen_mem (s : State) (t trip stages len : Nat) :
    (nestOpen s t trip stages len).mem = s.mem := by
  unfold nestOpen
  split <;> simp

@[simp] theorem execNest_wf (g : Guard) (a : SSel) (bs : NestB) (len : BitVec 6) {s : State} (hw : Mem.wf s.mem = true) :
    NextWf (execNest g a bs len s) := by simp [execNest, nextWf_conclude hw, hw]

@[simp] theorem modSet_mem (s : State) (t : Nat) (l : Lvl) (f : NestSet → NestSet) :
    (modSet s t l f).mem = s.mem := by simp [modSet]

@[simp] theorem execNstride_wf (g : Guard) (a : SSel) (k : StrideB) (clr : Bool) (j : BitVec 2) (l : Lvl)
    {s : State} (hw : Mem.wf s.mem = true) :
    NextWf (execNstride g a k clr j l s) := by
  unfold execNstride
  split <;> simp [wf_ite, nextWf_conclude hw, hw]

@[simp] theorem execNestmask_wf (g : Guard) (a b : SSel) (l : Lvl) {s : State} (hw : Mem.wf s.mem = true) :
    NextWf (execNestmask g a b l s) := by simp [execNestmask, nextWf_conclude hw, hw]

@[simp] theorem execCqpush_wf (g : Guard) (a : SSel) {s : State} (hw : Mem.wf s.mem = true) :
    NextWf (execCqpush g a s) := by simp [execCqpush, nextWf_conclude hw, hw]

@[simp] theorem execCqclr_wf {s : State} (hw : Mem.wf s.mem = true) :
    NextWf (execCqclr s) := by simp [execCqclr, wf_ite, nextWf_conclude hw, hw]

@[simp] theorem dropDead_mem (s : State) (t : Nat) :
    (dropDead s t).mem = s.mem := by
  unfold dropDead
  dsimp only
  repeat' split
  all_goals simp

@[simp] theorem execLive_wf (g : Guard) (a : SSel) (ft : File3) {s : State} (hw : Mem.wf s.mem = true) :
    NextWf (execLive g a ft s) := by simp [execLive, wf_ite, nextWf_conclude hw, hw]

@[simp] theorem execTrap_wf (g : BitVec 3) (i : BitVec 8) {s : State} (hw : Mem.wf s.mem = true) :
    NextWf (execTrap g i s) := by simp [execTrap, nextWf_conclude hw, hw]

@[simp] theorem execRte_wf {s : State} (hw : Mem.wf s.mem = true) :
    NextWf (execRte s) := by simp [execRte, wf_ite, nextWf_conclude hw, hw]

@[simp] theorem execWaitcy_wf (g : BitVec 3) (i : BitVec 13) {s : State} (hw : Mem.wf s.mem = true) :
    NextWf (execWaitcy g i s) := by simp [execWaitcy, wf_ite, nextWf_conclude hw, hw]

@[simp] theorem execSnap_wf (g : Guard) (a : SSel) {s : State} (hw : Mem.wf s.mem = true) :
    NextWf (execSnap g a s) := by simp [execSnap, nextWf_conclude hw, hw]

@[simp] theorem execExit_wf (g : Guard) (a : SSel) {s : State} (hw : Mem.wf s.mem = true) :
    NextWf (execExit g a s) := by simp [execExit, wf_ite, nextWf_conclude hw, hw]

@[simp] theorem execPhase_wf (g : Guard) (a : SSel) {s : State} (hw : Mem.wf s.mem = true) :
    NextWf (execPhase g a s) := by simp [execPhase, nextWf_conclude hw, hw]

@[simp] theorem shrinkDc_wf {s : State} (c n : Nat) (a0 : Nat) (hw : Mem.wf s.mem = true) :
    Mem.wf (shrinkDc s c n a0).mem = true := by
  induction a0 generalizing s with
  | zero => exact hw
  | succ n ih =>
    unfold shrinkDc
    split
    · split
      · exact ih (evictLine_wf _ _ hw)
      · exact hw
    · exact hw

@[simp] theorem moveBanks_wf {s : State} (c d : Nat) (hw : Mem.wf s.mem = true) :
    Mem.wf (moveBanks s c d).mem = true := by simp [moveBanks, hw]

@[simp] theorem execPhaseDrainComplete_wf {s : State} (hw : Mem.wf s.mem = true) :
    NextWf (execPhaseDrainComplete s) := by
  unfold execPhaseDrainComplete
  split <;> simp [wf_ite, hw]

/-! ### Machine/ScalarMem -/

@[simp] theorem spLd_wf (g : Guard) (a b : SSel) (fe : FeL) (u : Bool) (sz : Size) (w : Space) (lat : Nat)
    {s : State} (hw : Mem.wf s.mem = true) :
    NextWf (spLd g a b fe u sz w lat s) := by simp [spLd, nextWf_conclude hw, hw]

@[simp] theorem spSt_wf (g : Guard) (a b : SSel) (fe : FeS) (sz : Size) (w : Space) {s : State} (hw : Mem.wf s.mem = true) :
    NextWf (spSt g a b fe sz w s) := by simp [spSt, nextWf_conclude hw, hw]

@[simp] theorem execLd_wf (g : Guard) (a b : SSel) (fe : FeL) (u : Bool) (sz : Size) {s : State} (hw : Mem.wf s.mem = true) :
    NextWf (execLd g a b fe u sz s) := by simp [execLd, hw]

@[simp] theorem execSt_wf (g : Guard) (a b : SSel) (fe : FeS) (sz : Size) {s : State} (hw : Mem.wf s.mem = true) :
    NextWf (execSt g a b fe sz s) := by simp [execSt, hw]

@[simp] theorem execLdw_wf (g : Guard) (a b : SSel) (fe : FeL) (u : Bool) (sz : Size) {s : State} (hw : Mem.wf s.mem = true) :
    NextWf (execLdw g a b fe u sz s) := by simp [execLdw, hw]

@[simp] theorem execStw_wf (g : Guard) (a b : SSel) (fe : FeS) (sz : Size) {s : State} (hw : Mem.wf s.mem = true) :
    NextWf (execStw g a b fe sz s) := by simp [execStw, hw]

@[simp] theorem execLdg_wf (g : Guard) (a b : SSel) (u : Bool) (sz : Size) {s : State} (hw : Mem.wf s.mem = true) :
    NextWf (execLdg g a b u sz s) := by simp [execLdg, nextWf_conclude hw, hw]

@[simp] theorem execStg_wf (g : Guard) (a b : SSel) (slot : BitVec 4) (sz : Size) {s : State} (hw : Mem.wf s.mem = true) :
    NextWf (execStg g a b slot sz s) := by simp [execStg, nextWf_conclude hw, hw]

@[simp] theorem execLda_wf (g : Guard) (a b : SSel) (sc : Scope) (u : Bool) (sz : Size) {s : State} (hw : Mem.wf s.mem = true) :
    NextWf (execLda g a b sc u sz s) := by simp [execLda, nextWf_conclude hw, hw]

@[simp] theorem execStrl_wf (g : Guard) (a b : SSel) (slot : BitVec 3) (sc : Scope) {s : State} (hw : Mem.wf s.mem = true) :
    NextWf (execStrl g a b slot sc s) := by simp [execStrl, nextWf_conclude hw, hw]

@[simp] theorem execFence_wf (g : Guard) (sc : Scope) {s : State} (hw : Mem.wf s.mem = true) :
    NextWf (execFence g sc s) := by simp [execFence, wf_ite, nextWf_conclude hw, hw]

/-! ### Machine/VectorA -/

@[simp] theorem execVaddA_wf (g : Guard) (a b : VSel) (ty : VTy) {s : State} (hw : Mem.wf s.mem = true) :
    NextWf (execVaddA g a b ty s) := by simp [execVaddA, hw]

@[simp] theorem execVsubA_wf (g : Guard) (a b : VSel) (ty : VTy) {s : State} (hw : Mem.wf s.mem = true) :
    NextWf (execVsubA g a b ty s) := by simp [execVsubA, hw]

@[simp] theorem execVmulA_wf (g : Guard) (a b : VSel) (ty : VTy) {s : State} (hw : Mem.wf s.mem = true) :
    NextWf (execVmulA g a b ty s) := by simp [execVmulA, hw]

@[simp] theorem execVfmaA_wf (g : Guard) (a b : VSel) (ty : FFmt) (m : BitVec 4) {s : State} (hw : Mem.wf s.mem = true) :
    NextWf (execVfmaA g a b ty m s) := by simp [execVfmaA, hw]

@[simp] theorem execVfmsA_wf (g : Guard) (a b : VSel) (ty : FFmt) (m : BitVec 4) {s : State} (hw : Mem.wf s.mem = true) :
    NextWf (execVfmsA g a b ty m s) := by simp [execVfmsA, hw]

@[simp] theorem execVaddminA_wf (g : Guard) (a b : VSel) (ty : MinTy) (m : BitVec 4) {s : State} (hw : Mem.wf s.mem = true) :
    NextWf (execVaddminA g a b ty m s) := by simp [execVaddminA, hw]

@[simp] theorem execVminA_wf (g : Guard) (a b : VSel) (ty : VTy) {s : State} (hw : Mem.wf s.mem = true) :
    NextWf (execVminA g a b ty s) := by simp [execVminA, hw]

@[simp] theorem execVmaxA_wf (g : Guard) (a b : VSel) (ty : VTy) {s : State} (hw : Mem.wf s.mem = true) :
    NextWf (execVmaxA g a b ty s) := by simp [execVmaxA, hw]

@[simp] theorem execVabsA_wf (g : Guard) (a : VSel) (ty : VTy) {s : State} (hw : Mem.wf s.mem = true) :
    NextWf (execVabsA g a ty s) := by simp [execVabsA, hw]

@[simp] theorem execVnegA_wf (g : Guard) (a : VSel) (ty : VTy) {s : State} (hw : Mem.wf s.mem = true) :
    NextWf (execVnegA g a ty s) := by simp [execVnegA, hw]

@[simp] theorem execVandA_wf (g : Guard) (a b : VSel) {s : State} (hw : Mem.wf s.mem = true) :
    NextWf (execVandA g a b s) := by simp [execVandA, hw]

@[simp] theorem execVorA_wf (g : Guard) (a b : VSel) {s : State} (hw : Mem.wf s.mem = true) :
    NextWf (execVorA g a b s) := by simp [execVorA, hw]

@[simp] theorem execVxorA_wf (g : Guard) (a b : VSel) {s : State} (hw : Mem.wf s.mem = true) :
    NextWf (execVxorA g a b s) := by simp [execVxorA, hw]

@[simp] theorem execVshlA_wf (g : Guard) (a b : VSel) (ty : VTy) {s : State} (hw : Mem.wf s.mem = true) :
    NextWf (execVshlA g a b ty s) := by simp [execVshlA, hw]

@[simp] theorem execVshrA_wf (g : Guard) (a b : VSel) (ty : VTy) {s : State} (hw : Mem.wf s.mem = true) :
    NextWf (execVshrA g a b ty s) := by simp [execVshrA, hw]

@[simp] theorem execVcmpA_wf (g : Guard) (a b : VSel) (cond : VCmpCond) (d : BitVec 3) {s : State} (hw : Mem.wf s.mem = true) :
    NextWf (execVcmpA g a b cond d s) := by simp [execVcmpA, hw]

@[simp] theorem execVselA_wf (g : Guard) (a b : VSel) (p : BitVec 3) {s : State} (hw : Mem.wf s.mem = true) :
    NextWf (execVselA g a b p s) := by simp [execVselA, hw]

@[simp] theorem execVplogA_wf (g : Guard) (x y : BitVec 3) (op : PlogOp) (d : BitVec 3) {s : State} (hw : Mem.wf s.mem = true) :
    NextWf (execVplogA g x y op d s) := by simp [execVplogA, hw]

@[simp] theorem execVcvtA_wf (g : Guard) (a : VSel) (ft : CvtB) (p : BitVec 2) (su : Bool) (rm : Rm)
    {s : State} (hw : Mem.wf s.mem = true) :
    NextWf (execVcvtA g a ft p su rm s) := by simp [execVcvtA, hw]

@[simp] theorem execVmxqA_wf (g : Guard) (a : VSel) (ft : MxFmt) (p : BitVec 3) {s : State} (hw : Mem.wf s.mem = true) :
    NextWf (execVmxqA g a ft p s) := by simp [execVmxqA, hw]

@[simp] theorem execVmxdA_wf (g : Guard) (a b : VSel) (ft : MxFmt) (p : BitVec 3) {s : State} (hw : Mem.wf s.mem = true) :
    NextWf (execVmxdA g a b ft p s) := by simp [execVmxdA, hw]

@[simp] theorem execVrcpA_wf (g : Guard) (a : VSel) (ft : FFmt) {s : State} (hw : Mem.wf s.mem = true) :
    NextWf (execVrcpA g a ft s) := by simp [execVrcpA, hw]

@[simp] theorem execVrsqA_wf (g : Guard) (a : VSel) (ft : FFmt) {s : State} (hw : Mem.wf s.mem = true) :
    NextWf (execVrsqA g a ft s) := by simp [execVrsqA, hw]

@[simp] theorem execVexpA_wf (g : Guard) (a : VSel) (ft : FFmt) {s : State} (hw : Mem.wf s.mem = true) :
    NextWf (execVexpA g a ft s) := by simp [execVexpA, hw]

@[simp] theorem execVlogA_wf (g : Guard) (a : VSel) (ft : FFmt) {s : State} (hw : Mem.wf s.mem = true) :
    NextWf (execVlogA g a ft s) := by simp [execVlogA, hw]

@[simp] theorem execVtanhA_wf (g : Guard) (a : VSel) (ft : FFmt) {s : State} (hw : Mem.wf s.mem = true) :
    NextWf (execVtanhA g a ft s) := by simp [execVtanhA, hw]

@[simp] theorem execVmoviA_wf (g : BitVec 3) (i : BitVec 13) {s : State} (hw : Mem.wf s.mem = true) :
    NextWf (execVmoviA g i s) := by simp [execVmoviA, hw]

@[simp] theorem execVputA_wf (g : Guard) (a : VSel) (d : VDst) {s : State} (hw : Mem.wf s.mem = true) :
    NextWf (execVputA g a d s) := by simp [execVputA, hw]

@[simp] theorem execVputxA_wf (g : Guard) (a : VSel) (l : BitVec 6) {s : State} (hw : Mem.wf s.mem = true) :
    NextWf (execVputxA g a l s) := by simp [execVputxA, hw]

@[simp] theorem execVxmovA_wf (g : Guard) (r : BitVec 5) {s : State} (hw : Mem.wf s.mem = true) :
    NextWf (execVxmovA g r s) := by simp [execVxmovA, hw]

@[simp] theorem execVmpushA_wf (inv : Bool) (p : BitVec 3) {s : State} (hw : Mem.wf s.mem = true) :
    NextWf (execVmpushA inv p s) := by simp [execVmpushA, hw]

@[simp] theorem execVminvA_wf {s : State} (hw : Mem.wf s.mem = true) :
    NextWf (execVminvA s) := by simp [execVminvA, hw]

@[simp] theorem execVmpopA_wf {s : State} (hw : Mem.wf s.mem = true) :
    NextWf (execVmpopA s) := by simp [execVmpopA, hw]

@[simp] theorem execVldA_wf (g : Guard) (a b : VSel) (fe : FeL) {s : State} (hw : Mem.wf s.mem = true) :
    NextWf (execVldA g a b fe s) := by simp [execVldA, hw]

@[simp] theorem execVstA_wf (g : Guard) (a b : VSel) (fe : FeS) {s : State} (hw : Mem.wf s.mem = true) :
    NextWf (execVstA g a b fe s) := by simp [execVstA, hw]

@[simp] theorem execVldwA_wf (g : Guard) (a b : VSel) (fe : FeL) {s : State} (hw : Mem.wf s.mem = true) :
    NextWf (execVldwA g a b fe s) := by simp [execVldwA, hw]

@[simp] theorem execVstwA_wf (g : Guard) (a b : VSel) (fe : FeS) {s : State} (hw : Mem.wf s.mem = true) :
    NextWf (execVstwA g a b fe s) := by simp [execVstwA, hw]

@[simp] theorem execVldgA_wf (g : Guard) (a b h : VSel) {s : State} (hw : Mem.wf s.mem = true) :
    NextWf (execVldgA g a b h s) := by
  unfold execVldgA
  grind [vLdg_wf, Mem.wf_wrBytes]

@[simp] theorem execVstgA_wf (g : Guard) (a b h : VSel) {s : State} (hw : Mem.wf s.mem = true) :
    NextWf (execVstgA g a b h s) := by
  unfold execVstgA
  grind [vStg_wf, Mem.wf_wrBytes]

@[simp] theorem execVgathA_wf (g : Guard) (a b : VSel) (gsp : GSpace) (sz : GSize) (u : Bool)
    {s : State} (hw : Mem.wf s.mem = true) :
    NextWf (execVgathA g a b gsp sz u s) := by simp [execVgathA, hw]

@[simp] theorem execVscatA_wf (g : Guard) (a b : VSel) (gsp : GSpace) (sz : GSize) {s : State} (hw : Mem.wf s.mem = true) :
    NextWf (execVscatA g a b gsp sz s) := by simp [execVscatA, hw]

@[simp] theorem execVlshuA_wf (g : Guard) (a b : VSel) (n : BitVec 6) {s : State} (hw : Mem.wf s.mem = true) :
    NextWf (execVlshuA g a b n s) := by simp [execVlshuA, hw]

@[simp] theorem execVlshdA_wf (g : Guard) (a b : VSel) (n : BitVec 6) {s : State} (hw : Mem.wf s.mem = true) :
    NextWf (execVlshdA g a b n s) := by simp [execVlshdA, hw]

@[simp] theorem execVbcastA_wf (g : Guard) (a : VSel) (l : BitVec 6) {s : State} (hw : Mem.wf s.mem = true) :
    NextWf (execVbcastA g a l s) := by simp [execVbcastA, hw]

@[simp] theorem execViotaA_wf (g : Guard) (a : VSel) (step : BitVec 6) {s : State} (hw : Mem.wf s.mem = true) :
    NextWf (execViotaA g a step s) := by simp [execViotaA, hw]

@[simp] theorem execVpermA_wf (g : Guard) (a b : VSel) {s : State} (hw : Mem.wf s.mem = true) :
    NextWf (execVpermA g a b s) := by simp [execVpermA, hw]

@[simp] theorem execVredA_wf (g : Guard) (a : VSel) (op : RedOp) {s : State} (hw : Mem.wf s.mem = true) :
    NextWf (execVredA g a op s) := by simp [execVredA, hw]

/-! ### Machine/VectorB -/

@[simp] theorem execVaddB_wf (g : Guard) (a b : VSel) (ty : VTy) {s : State} (hw : Mem.wf s.mem = true) :
    NextWf (execVaddB g a b ty s) := by simp [execVaddB, hw]

@[simp] theorem execVsubB_wf (g : Guard) (a b : VSel) (ty : VTy) {s : State} (hw : Mem.wf s.mem = true) :
    NextWf (execVsubB g a b ty s) := by simp [execVsubB, hw]

@[simp] theorem execVmulB_wf (g : Guard) (a b : VSel) (ty : VTy) {s : State} (hw : Mem.wf s.mem = true) :
    NextWf (execVmulB g a b ty s) := by simp [execVmulB, hw]

@[simp] theorem execVfmaB_wf (g : Guard) (a b : VSel) (ty : FFmt) (m : BitVec 4) {s : State} (hw : Mem.wf s.mem = true) :
    NextWf (execVfmaB g a b ty m s) := by simp [execVfmaB, hw]

@[simp] theorem execVfmsB_wf (g : Guard) (a b : VSel) (ty : FFmt) (m : BitVec 4) {s : State} (hw : Mem.wf s.mem = true) :
    NextWf (execVfmsB g a b ty m s) := by simp [execVfmsB, hw]

@[simp] theorem execVaddminB_wf (g : Guard) (a b : VSel) (ty : MinTy) (m : BitVec 4) {s : State} (hw : Mem.wf s.mem = true) :
    NextWf (execVaddminB g a b ty m s) := by simp [execVaddminB, hw]

@[simp] theorem execVminB_wf (g : Guard) (a b : VSel) (ty : VTy) {s : State} (hw : Mem.wf s.mem = true) :
    NextWf (execVminB g a b ty s) := by simp [execVminB, hw]

@[simp] theorem execVmaxB_wf (g : Guard) (a b : VSel) (ty : VTy) {s : State} (hw : Mem.wf s.mem = true) :
    NextWf (execVmaxB g a b ty s) := by simp [execVmaxB, hw]

@[simp] theorem execVabsB_wf (g : Guard) (a : VSel) (ty : VTy) {s : State} (hw : Mem.wf s.mem = true) :
    NextWf (execVabsB g a ty s) := by simp [execVabsB, hw]

@[simp] theorem execVnegB_wf (g : Guard) (a : VSel) (ty : VTy) {s : State} (hw : Mem.wf s.mem = true) :
    NextWf (execVnegB g a ty s) := by simp [execVnegB, hw]

@[simp] theorem execVandB_wf (g : Guard) (a b : VSel) {s : State} (hw : Mem.wf s.mem = true) :
    NextWf (execVandB g a b s) := by simp [execVandB, hw]

@[simp] theorem execVorB_wf (g : Guard) (a b : VSel) {s : State} (hw : Mem.wf s.mem = true) :
    NextWf (execVorB g a b s) := by simp [execVorB, hw]

@[simp] theorem execVxorB_wf (g : Guard) (a b : VSel) {s : State} (hw : Mem.wf s.mem = true) :
    NextWf (execVxorB g a b s) := by simp [execVxorB, hw]

@[simp] theorem execVshlB_wf (g : Guard) (a b : VSel) (ty : VTy) {s : State} (hw : Mem.wf s.mem = true) :
    NextWf (execVshlB g a b ty s) := by simp [execVshlB, hw]

@[simp] theorem execVshrB_wf (g : Guard) (a b : VSel) (ty : VTy) {s : State} (hw : Mem.wf s.mem = true) :
    NextWf (execVshrB g a b ty s) := by simp [execVshrB, hw]

@[simp] theorem execVcmpB_wf (g : Guard) (a b : VSel) (cond : VCmpCond) (d : BitVec 3) {s : State} (hw : Mem.wf s.mem = true) :
    NextWf (execVcmpB g a b cond d s) := by simp [execVcmpB, hw]

@[simp] theorem execVselB_wf (g : Guard) (a b : VSel) (p : BitVec 3) {s : State} (hw : Mem.wf s.mem = true) :
    NextWf (execVselB g a b p s) := by simp [execVselB, hw]

@[simp] theorem execVplogB_wf (g : Guard) (x y : BitVec 3) (op : PlogOp) (d : BitVec 3) {s : State} (hw : Mem.wf s.mem = true) :
    NextWf (execVplogB g x y op d s) := by simp [execVplogB, hw]

@[simp] theorem execVcvtB_wf (g : Guard) (a : VSel) (ft : CvtB) (p : BitVec 2) (su : Bool) (rm : Rm)
    {s : State} (hw : Mem.wf s.mem = true) :
    NextWf (execVcvtB g a ft p su rm s) := by simp [execVcvtB, hw]

@[simp] theorem execVmxqB_wf (g : Guard) (a : VSel) (ft : MxFmt) (p : BitVec 3) {s : State} (hw : Mem.wf s.mem = true) :
    NextWf (execVmxqB g a ft p s) := by simp [execVmxqB, hw]

@[simp] theorem execVmxdB_wf (g : Guard) (a b : VSel) (ft : MxFmt) (p : BitVec 3) {s : State} (hw : Mem.wf s.mem = true) :
    NextWf (execVmxdB g a b ft p s) := by simp [execVmxdB, hw]

@[simp] theorem execVrcpB_wf (g : Guard) (a : VSel) (ft : FFmt) {s : State} (hw : Mem.wf s.mem = true) :
    NextWf (execVrcpB g a ft s) := by simp [execVrcpB, hw]

@[simp] theorem execVrsqB_wf (g : Guard) (a : VSel) (ft : FFmt) {s : State} (hw : Mem.wf s.mem = true) :
    NextWf (execVrsqB g a ft s) := by simp [execVrsqB, hw]

@[simp] theorem execVexpB_wf (g : Guard) (a : VSel) (ft : FFmt) {s : State} (hw : Mem.wf s.mem = true) :
    NextWf (execVexpB g a ft s) := by simp [execVexpB, hw]

@[simp] theorem execVlogB_wf (g : Guard) (a : VSel) (ft : FFmt) {s : State} (hw : Mem.wf s.mem = true) :
    NextWf (execVlogB g a ft s) := by simp [execVlogB, hw]

@[simp] theorem execVtanhB_wf (g : Guard) (a : VSel) (ft : FFmt) {s : State} (hw : Mem.wf s.mem = true) :
    NextWf (execVtanhB g a ft s) := by simp [execVtanhB, hw]

@[simp] theorem execVmoviB_wf (g : BitVec 3) (i : BitVec 13) {s : State} (hw : Mem.wf s.mem = true) :
    NextWf (execVmoviB g i s) := by simp [execVmoviB, hw]

@[simp] theorem execVputB_wf (g : Guard) (a : VSel) (d : VDst) {s : State} (hw : Mem.wf s.mem = true) :
    NextWf (execVputB g a d s) := by simp [execVputB, hw]

@[simp] theorem execVputxB_wf (g : Guard) (a : VSel) (l : BitVec 6) {s : State} (hw : Mem.wf s.mem = true) :
    NextWf (execVputxB g a l s) := by simp [execVputxB, hw]

@[simp] theorem execVxmovB_wf (g : Guard) (r : BitVec 5) {s : State} (hw : Mem.wf s.mem = true) :
    NextWf (execVxmovB g r s) := by simp [execVxmovB, hw]

@[simp] theorem execVmpushB_wf (inv : Bool) (p : BitVec 3) {s : State} (hw : Mem.wf s.mem = true) :
    NextWf (execVmpushB inv p s) := by simp [execVmpushB, hw]

@[simp] theorem execVminvB_wf {s : State} (hw : Mem.wf s.mem = true) :
    NextWf (execVminvB s) := by simp [execVminvB, hw]

@[simp] theorem execVmpopB_wf {s : State} (hw : Mem.wf s.mem = true) :
    NextWf (execVmpopB s) := by simp [execVmpopB, hw]

@[simp] theorem execVldB_wf (g : Guard) (a b : VSel) (fe : FeL) {s : State} (hw : Mem.wf s.mem = true) :
    NextWf (execVldB g a b fe s) := by simp [execVldB, hw]

@[simp] theorem execVstB_wf (g : Guard) (a b : VSel) (fe : FeS) {s : State} (hw : Mem.wf s.mem = true) :
    NextWf (execVstB g a b fe s) := by simp [execVstB, hw]

@[simp] theorem execVldwB_wf (g : Guard) (a b : VSel) (fe : FeL) {s : State} (hw : Mem.wf s.mem = true) :
    NextWf (execVldwB g a b fe s) := by simp [execVldwB, hw]

@[simp] theorem execVstwB_wf (g : Guard) (a b : VSel) (fe : FeS) {s : State} (hw : Mem.wf s.mem = true) :
    NextWf (execVstwB g a b fe s) := by simp [execVstwB, hw]

@[simp] theorem execVldgB_wf (g : Guard) (a b h : VSel) {s : State} (hw : Mem.wf s.mem = true) :
    NextWf (execVldgB g a b h s) := by
  unfold execVldgB
  grind [vLdg_wf, Mem.wf_wrBytes]

@[simp] theorem execVstgB_wf (g : Guard) (a b h : VSel) {s : State} (hw : Mem.wf s.mem = true) :
    NextWf (execVstgB g a b h s) := by
  unfold execVstgB
  grind [vStg_wf, Mem.wf_wrBytes]

@[simp] theorem execVgathB_wf (g : Guard) (a b : VSel) (gsp : GSpace) (sz : GSize) (u : Bool)
    {s : State} (hw : Mem.wf s.mem = true) :
    NextWf (execVgathB g a b gsp sz u s) := by simp [execVgathB, hw]

@[simp] theorem execVscatB_wf (g : Guard) (a b : VSel) (gsp : GSpace) (sz : GSize) {s : State} (hw : Mem.wf s.mem = true) :
    NextWf (execVscatB g a b gsp sz s) := by simp [execVscatB, hw]

@[simp] theorem execVlshuB_wf (g : Guard) (a b : VSel) (n : BitVec 6) {s : State} (hw : Mem.wf s.mem = true) :
    NextWf (execVlshuB g a b n s) := by simp [execVlshuB, hw]

@[simp] theorem execVlshdB_wf (g : Guard) (a b : VSel) (n : BitVec 6) {s : State} (hw : Mem.wf s.mem = true) :
    NextWf (execVlshdB g a b n s) := by simp [execVlshdB, hw]

@[simp] theorem execVbcastB_wf (g : Guard) (a : VSel) (l : BitVec 6) {s : State} (hw : Mem.wf s.mem = true) :
    NextWf (execVbcastB g a l s) := by simp [execVbcastB, hw]

@[simp] theorem execViotaB_wf (g : Guard) (a : VSel) (step : BitVec 6) {s : State} (hw : Mem.wf s.mem = true) :
    NextWf (execViotaB g a step s) := by simp [execViotaB, hw]

@[simp] theorem execVpermB_wf (g : Guard) (a b : VSel) {s : State} (hw : Mem.wf s.mem = true) :
    NextWf (execVpermB g a b s) := by simp [execVpermB, hw]

@[simp] theorem execVredB_wf (g : Guard) (a : VSel) (op : RedOp) {s : State} (hw : Mem.wf s.mem = true) :
    NextWf (execVredB g a op s) := by simp [execVredB, hw]

end Sys2Proof.Machine
end

section
/-!
PROOFS. Memory keeps its canonical form (R91): the issue of bundles and one step: the statement of O59.
-/

namespace Sys2Proof.Machine

/-! ### Machine/Slots -/

/-! ### Machine/Issue -/

theorem slotExec_wf (i : Instr) {s : State} (hw : Mem.wf s.mem = true) : NextWf (slotExec i s) := by
  cases i <;> dsimp only [slotExec] <;> simp [hw]
theorem wf_of_next {o : Host.Outcome State Fault Refusal} {s : State} (ho : NextWf o) (hw : Mem.wf s.mem = true) :
    Mem.wf (match o with
      | .next s' => s'
      | _ => s).mem = true := by
  split
  · exact ho _ rfl
  · exact hw

theorem runSlot_wf {r : RunSt} (p : Slot) (hw : Mem.wf r.s.mem = true) : Mem.wf (runSlot r p).s.mem = true := by
  unfold runSlot
  split
  · exact hw
  · rename_i i _
    have hm : Mem.wf (r.s.modLatch fun l => { l with pos := p.pos, ce := r.secondC, writes := [], cwrites := [] }).mem = true := by
      simpa using hw
    have hs := wf_of_next (slotExec_wf i hm) hm
    dsimp only
    split
    · rw [State.modLatch_mem]
      exact hs
    · exact hs

@[simp] theorem openBundle_mem (s : State) (t : Nat) (x : Context) (ws : List W32) :
    (openBundle s t x ws).mem = s.mem := rfl

theorem runSlots_wf {s : State} (t : Nat) (x : Context) (ws : List W32) (hw : Mem.wf s.mem = true) :
    Mem.wf (runSlots s t x ws).s.mem = true :=
  foldl_keeps (fun r : RunSt => Mem.wf r.s.mem = true) _ _ _ hw fun _ p hr => runSlot_wf p hr

@[simp] theorem applyRanked_wf {s : State} (c : Nat) (ws : Ranked) (hw : Mem.wf s.mem = true) :
    Mem.wf (applyRanked s c ws).mem = true := foldl_wf (fun _ _ hs => applyWrite_wf _ _ _ hs) _ hw

@[simp] theorem commitCq_mem (s : State) (c : Nat) (l : Latch) :
    (commitCq s c l).mem = s.mem := by simp [commitCq, apply_ite State.mem]

@[simp] theorem finishExit_wf {s : State} (t : Nat) (hw : Mem.wf s.mem = true) :
    Mem.wf (finishExit s t).mem = true := by
  unfold finishExit
  dsimp only
  repeat' split
  all_goals simp [hw]

@[simp] theorem boundaryAfter_wf {s : State} (t : Nat) (hw : Mem.wf s.mem = true) :
    Mem.wf (boundaryAfter s t).mem = true := by
  unfold boundaryAfter
  split <;> simp [hw]

@[simp] theorem lateEffects_mem (s : State) (t : Nat) (x : Context) (ws : List W32) (l : Latch) :
    (lateEffects s t x ws l).mem = s.mem := by
  unfold lateEffects
  dsimp only
  repeat' split
  all_goals simp

@[simp] theorem commit_wf {r : RunSt} (t : Nat) (x : Context) (ws : List W32) (hw : Mem.wf r.s.mem = true) :
    Mem.wf (commit r t x ws).1.mem = true := by
  unfold commit
  grind [commitCq_mem, applyRanked_wf, capture_mem, State.modCtx_mem, boundaryAfter_wf, lateEffects_mem, Mem.wf_wrBytes]

@[simp] theorem startFill_mem (s : State) (c : Nat) (want : Option (Nat × Nat)) :
    (startFill s c want).mem = s.mem := by
  unfold startFill
  dsimp only
  repeat' split
  all_goals simp

/-- The state a context's try leaves. -/
def Try.st : Try → State
  | .done s _ _ => s
  | .trap s => s
  | .held s => s
theorem attempt_wf {s : State} (t : Nat) (x : Context) (ws : List W32) (hw : Mem.wf s.mem = true) :
    Mem.wf (attempt s t x ws).st.mem = true := by
  unfold attempt
  dsimp only
  split
  · exact hw
  · split_ifs
    · exact takeTrap_wf t _ false hw
    · exact wf_of_mem (startFill_mem ..) hw
    · exact commit_wf t x ws (runSlots_wf t x ws hw)

theorem takeAsync_wf {s : State} (t : Nat) {s' : State} (hw : Mem.wf s.mem = true) (hs : takeAsync s t = some s') :
    Mem.wf s'.mem = true := by
  unfold takeAsync at hs
  split at hs
  · split_ifs at hs
    obtain ⟨q, -, rfl⟩ := Option.map_eq_some_iff.mp hs
    exact takeTrap_wf _ _ _ (by simpa using hw)
  · cases hs

@[simp] theorem phawBroken_wf {s : State} (t : Nat) (x : Context) (n : Nat) (hw : Mem.wf s.mem = true) :
    Mem.wf (phawBroken s t x n).mem = true := by simp [phawBroken, hw]

theorem tryBundle_wf {s : State} (t : Nat) (hw : Mem.wf s.mem = true) : Mem.wf (tryBundle s t).st.mem = true := by
  unfold tryBundle
  split
  · exact hw
  · split
    · rename_i h
      exact takeAsync_wf t hw h
    · split
      · exact hw
      · split
        · split
          · exact phawBroken_wf _ _ _ hw
          · exact hw
        · dsimp only
          split <;> rename_i h <;> have hb := wf_of_mem (mem_fst h (bundleAt_mem ..)) hw
          · exact trapEntry_wf _ _ _ _ _ _ (by simpa using hb)
          · exact trapEntry_wf _ _ _ _ _ _ hb
          · split
            · exact wf_of_mem (nestSkip_mem ..) hb
            · split
              · exact trapEntry_wf _ _ _ _ _ _ hb
              · split
                · exact hb
                · exact attempt_wf _ _ _ hb

theorem firstReady_wf {f : State → Nat → Try} {s : State} (l : List Nat) (hw : Mem.wf s.mem = true)
    (hf : ∀ s t, Mem.wf s.mem = true → Mem.wf (f s t).st.mem = true) : Mem.wf (firstReady f s l).1.mem = true := by
  induction l generalizing s with
  | nil => exact hw
  | cons t r ih =>
    unfold firstReady
    split
    · rename_i h
      have ht := hf s t hw
      rw [h] at ht
      exact ih ht
    · exact hw

theorem tryIssue_wf {s : State} (t : Nat) (hw : Mem.wf s.mem = true) : Mem.wf (tryIssue s t).st.mem = true := by
  have hb := tryBundle_wf t hw
  unfold tryIssue
  split
  · rename_i h
    rw [h] at hb
    split
    · split
      · exact hw
      · exact hb
    · exact hw
  · exact hb

@[simp] theorem act_wf {s : State} (t : Nat) (hw : Mem.wf s.mem = true) :
    Mem.wf (act s t).1.mem = true := by
  have ht := tryIssue_wf t hw
  unfold act
  split <;> rename_i h <;> rw [h] at ht <;> exact ht

@[simp] theorem setWait_mem (s : State) (t : Nat) (f : Nat → Nat) :
    (setWait s t f).mem = s.mem := by simp [setWait]

@[simp] theorem noteSecond_mem (s : State) (c t : Nat) :
    (noteSecond s c t).mem = s.mem := by
  unfold noteSecond
  dsimp only
  repeat' split
  all_goals simp

@[simp] theorem issueOne_wf {s : State} (c t : Nat) (hw : Mem.wf s.mem = true) :
    Mem.wf (issueOne s c t).mem = true := by simp [issueOne, hw]

@[simp] theorem issueTwo_wf {s : State} (c p q : Nat) (hw : Mem.wf s.mem = true) :
    Mem.wf (issueTwo s c p q).mem = true := by
  unfold issueTwo
  grind [act_wf, applyRanked_wf, Mem.wf_wrBytes]

@[simp] theorem issuePair_wf {s : State} (c a b : Nat) (ra rb : Try) (hw : Mem.wf s.mem = true) :
    Mem.wf (issuePair s c a b ra rb).mem = true := by
  unfold issuePair
  dsimp only
  repeat' split
  all_goals simp [hw]

@[simp] theorem mergeCycle_wf {s : State} (c : Nat) (hw : Mem.wf s.mem = true) :
    Mem.wf (mergeCycle s c).mem = true := by
  have hf := fun (l : List Nat) {s : State} (hs : Mem.wf s.mem = true) => firstReady_wf (f := tryIssue) l hs fun _ _ h => tryIssue_wf _ h
  unfold mergeCycle
  split
  · rename_i h
    exact wf_fst h (hf _ hw)
  · rename_i h
    have h1 := wf_fst h (hf _ hw)
    split
    · rename_i h'
      exact issueOne_wf _ _ (wf_fst h' (hf _ h1))
    · rename_i h'
      exact issuePair_wf _ _ _ _ _ (wf_fst h' (hf _ h1))

/-! ### Machine/Sequence -/

@[simp] theorem execMergeIssueCycle_wf {s : State} (hw : Mem.wf s.mem = true) :
    NextWf (execMergeIssueCycle s) := by simp [execMergeIssueCycle, hw]

@[simp] theorem execAsyncCauseTaken_wf {s : State} (hw : Mem.wf s.mem = true) :
    NextWf (execAsyncCauseTaken s) := by
  rw [execAsyncCauseTaken, nextWf_next]
  cases h : takeAsync s s.ev.task with
  | none => exact hw
  | some s' => exact takeAsync_wf _ hw h

@[simp] theorem execResultLanding_wf {s : State} (hw : Mem.wf s.mem = true) :
    NextWf (execResultLanding s) := by simp [execResultLanding, hw]

@[simp] theorem fillBlock_mem (s : State) (c t : Nat) (b : RcBlock) :
    (fillBlock s c t b).mem = s.mem := by simp [fillBlock, apply_ite State.mem]

@[simp] theorem execRegcacheFill_wf {s : State} (hw : Mem.wf s.mem = true) :
    NextWf (execRegcacheFill s) := by
  unfold execRegcacheFill
  split <;> simp [wf_ite, hw]

@[simp] theorem execBundleFetch_wf {s : State} (hw : Mem.wf s.mem = true) :
    NextWf (execBundleFetch s) := by
  unfold execBundleFetch
  split
  · split <;> rename_i h <;> simpa using wf_of_mem (mem_fst h (bundleAt_mem ..)) hw
  · simpa using hw

@[simp] theorem execWaitExpiry_wf {s : State} (hw : Mem.wf s.mem = true) :
    NextWf (execWaitExpiry s) := by simp [execWaitExpiry, hw]

@[simp] theorem execRteResume_wf {s : State} (hw : Mem.wf s.mem = true) :
    NextWf (execRteResume s) := by
  unfold execRteResume
  split <;> simp [hw]

@[simp] theorem execReplayIterationEnd_wf {s : State} (hw : Mem.wf s.mem = true) :
    NextWf (execReplayIterationEnd s) := by simp [execReplayIterationEnd, hw]

@[simp] theorem execReleasePerform_wf {s : State} (hw : Mem.wf s.mem = true) :
    NextWf (execReleasePerform s) := by simp [execReleasePerform, hw]

@[simp] theorem execPageWalk_wf {s : State} (hw : Mem.wf s.mem = true) :
    NextWf (execPageWalk s) := by
  unfold execPageWalk
  split
  · rename_i h
    exact nextWf_next.mpr (wf_of_mem (findLeaf_mem _ _ _ h) hw)
  · simpa using hw

@[simp] theorem relLine_wf {s : State} (c t v ln : Nat) (hw : Mem.wf s.mem = true) :
    Mem.wf (relLine s c t v ln).mem = true := by
  unfold relLine
  split <;> simp [wf_ite, hw, writeBack_wf]

@[simp] theorem acqLine_wf {s : State} (c t v pa : Nat) (va : W64) (hw : Mem.wf s.mem = true) :
    Mem.wf (acqLine s c t v pa va).mem = true := by
  unfold acqLine
  split <;> simp [wf_ite, hw, writeBack_wf]

@[simp] theorem dirAccess_wf {s : State} (c t pa : Nat) (va : W64) (k : DirEvent) (hw : Mem.wf s.mem = true) :
    Mem.wf (dirAccess s c t pa va k).mem = true := by
  unfold dirAccess
  grind [plainLoad_wf, raceAt_mem, plainStore_wf, setDir_mem, relLine_wf, acqLine_wf, writeBack_wf,
    engineLine_wf, logViol_mem, Mem.wf_wrBytes]

@[simp] theorem execDirectoryAccess_wf {s : State} (hw : Mem.wf s.mem = true) :
    NextWf (execDirectoryAccess s) := by
  unfold execDirectoryAccess
  split <;> simp [hw]

@[simp] theorem execCacheEviction_wf {s : State} (hw : Mem.wf s.mem = true) :
    NextWf (execCacheEviction s) := by simp [execCacheEviction, hw, evictLine_wf]

/-! ### Machine/Dispatch -/

/-! ### Machine/Schedule -/

@[simp] theorem tickDie_mem (s : State) (d : Fin 2) :
    (tickDie s d).mem = s.mem := by simp [tickDie, apply_ite State.mem]

@[simp] theorem passWaits_mem (s : State) : (passWaits s).mem = s.mem
    := foldl_mem (fun s p => foldl_mem (fun s q => by split <;> simp) _ _) _ _

@[simp] theorem freshPools_mem (s : State) :
    (freshPools s).mem = s.mem := rfl

@[simp] theorem phawsTested_mem (s : State) :
    (phawsTested s).mem = s.mem := foldl_mem (fun s p => by
    split
    · split <;> simp
    · rfl) _ _

@[simp] theorem freshKeys_mem (s : State) :
    (freshKeys s).mem = s.mem := rfl

@[simp] theorem cycleStart_mem (s : State) :
    (cycleStart s).mem = s.mem := by simp [cycleStart]

@[simp] theorem beginCycle_wf {s : State} (hw : Mem.wf s.mem = true) :
    Mem.wf (beginCycle s).mem = true := by simp [beginCycle, wf_ite, hw]

/-! ### Machine/Step -/

theorem exec_wf (i : Instr) {s : State} (hw : Mem.wf s.mem = true) : NextWf (exec i s) := by
  cases i <;> dsimp only [exec] <;> simp [hw]
theorem step_wf {s : State} (hw : Mem.wf s.mem = true) : NextWf (step s) := by
  unfold step
  split
  · exact exec_wf _ hw
  · exact nextWf_next.mpr (beginCycle_wf hw)

/-- Settles O59: memory is written by four functions only, each of which keeps the form; every other function of the model passes it on. -/
theorem stepKeepsMemoryForm : Obligations.StepKeepsMemoryForm := fun _ _ hw h => step_wf hw _ h

end Sys2Proof.Machine
end

section
/-!
PROOFS. Sync words and full/empty lines (R102, R103, R286 to R289): the statement of O30.
-/

namespace Sys2Proof.Machine

/-! ### Sync words -/

theorem high_eq_zero_iff {v : W64} : v.extractLsb' 32 32 = 0#32 ↔ v.toNat < 2 ^ 32 := by
  have hv := v.isLt
  rw [← BitVec.toNat_inj, BitVec.extractLsb'_toNat, Nat.shiftRight_eq_div_pow, BitVec.toNat_ofNat]
  omega

section
variable {s : State} {t : Nat} {x : Context} {g : Guard} {a b : SSel} (hi : s.issuer = .ok (t, x))
  (hr : readable s x (gTrue g x) [.s a, .s b] 0 = true)
include hi hr

/-! CSYNC (R287) -/

theorem exec_csync_off (rgen : Bool) (hg : gTrue g x = false) : exec (.csync g a b rgen) s = .next s := by
  change execCsync g a b rgen s = _
  rw [hg] at hr
  simp [execCsync, hi, guardOps_ok hr, hg, bind, Except.bind, pure, Except.pure]

theorem exec_csync_wide (rgen : Bool) (hg : gTrue g x = true) (hv : 2 ^ 32 ≤ (sVal s x true b).toNat) :
    exec (.csync g a b rgen) s = .next (raise s { code := cOperand, sub := 8, info := sVal s x true b }) := by
  change execCsync g a b rgen s = _
  rw [hg] at hr
  have hh := mt high_eq_zero_iff.mp (Nat.not_lt.mpr hv)
  simp [execCsync, hi, guardOps_ok hr, hg, hh, operand, trapWith, bind, Except.bind]

theorem exec_csync_on (rgen : Bool) {o : Nat × Nat} (hg : gTrue g x = true) (hv : (sVal s x true b).toNat < 2 ^ 32)
    (ho : objAt s x 8 (sVal s x true a) 16 16 = .ok o) :
    exec (.csync g a b rgen) s = .next (if drainHeld s x t o.1 then s.modLatch fun l => { l with held := true } else
      deferEng (popOps s x true [.s a, .s b]) x.core (.pool o.1 (place (spBase ((popOps s x true [.s a, .s b]).core o.1).part + o.2)
        (leBytes (sVal s x true b).toNat 4 ++ [0, 0, 0, 0] ++ (if rgen then [0, 0, 0, 0] else []))) none)) := by
  change execCsync g a b rgen s = _
  rw [hg] at hr
  have hh := high_eq_zero_iff.mpr hv
  cases hd : drainHeld s x t o.1 <;>
    simp [execCsync, hi, guardOps_ok hr, hg, hh, ho, hd, bind, Except.bind, pure, Except.pure]

/-! CSWAIT (R288) -/

theorem exec_cswait_off (hg : gTrue g x = false) : exec (.cswait g a b) s = .next s := by
  change execCswait g a b s = _
  rw [hg] at hr
  simp [execCswait, hi, guardOps_ok hr, hg, bind, Except.bind, pure, Except.pure]

theorem exec_cswait_wide (hg : gTrue g x = true) (hv : 2 ^ 32 ≤ (sVal s x true b).toNat) :
    exec (.cswait g a b) s = .next (raise s { code := cOperand, sub := 9, info := sVal s x true b }) := by
  change execCswait g a b s = _
  rw [hg] at hr
  have hh := mt high_eq_zero_iff.mp (Nat.not_lt.mpr hv)
  simp [execCswait, hi, guardOps_ok hr, hg, hh, operand, trapWith, bind, Except.bind]

theorem exec_cswait_drain {o : Nat × Nat} (hg : gTrue g x = true) (hv : (sVal s x true b).toNat < 2 ^ 32)
    (ho : objAt s x 9 (sVal s x true a) 16 16 = .ok o) (hd : drainHeld s x t o.1 = true) :
    exec (.cswait g a b) s = .next (s.modLatch fun l => { l with held := true }) := by
  change execCswait g a b s = _
  rw [hg] at hr
  have hh := high_eq_zero_iff.mpr hv
  simp [execCswait, hi, guardOps_ok hr, hg, hh, ho, hd, bind, Except.bind]

theorem exec_cswait_on {o : Nat × Nat} (hg : gTrue g x = true) (hv : (sVal s x true b).toNat < 2 ^ 32)
    (ho : objAt s x 9 (sVal s x true a) 16 16 = .ok o) (hd : drainHeld s x t o.1 = false) (hb : spBad s o.1 o.2 12 = false) :
    exec (.cswait g a b) s = .next (
      if 0 ≤ Arith.sx (((syncWord s o).2.2 + 2 ^ 32 - (sVal s x true b).toNat) % 2 ^ 32) 32 then
        dropClean (popOps s x true [.s a, .s b]) x.core
      else s.modLatch fun l => { l with held := true }) := by
  change execCswait g a b s = _
  rw [hg] at hr
  have hh := high_eq_zero_iff.mpr hv
  simp [execCswait, hi, guardOps_ok hr, hg, hh, ho, hd, spEcc, hb, need, bind, Except.bind, pure, Except.pure]
  split
  · rw [if_neg (not_le.mpr ‹_›)]
    rfl
  · rw [if_pos (not_lt.mp ‹_›)]
    rfl

/-! CFESET (R289) -/

theorem exec_cfeset_off (ft : Bool) (hg : gTrue g x = false) : exec (.cfeset g a b ft) s = .next s := by
  change execCfeset g a b ft s = _
  rw [hg] at hr
  simp [execCfeset, hi, guardOps_ok hr, hg, bind, Except.bind, pure, Except.pure]

theorem exec_cfeset_number (ft : Bool) (hg : gTrue g x = true)
    (hn : (sVal s x true b).toNat = 0 ∨ 32768 < (sVal s x true b).toNat) :
    exec (.cfeset g a b ft) s = .next (raise s { code := cOperand, sub := 10, info := sVal s x true b }) := by
  change execCfeset g a b ft s = _
  rw [hg] at hr
  have hz : sVal s x true b = 0 ∨ 32768 < (sVal s x true b).toNat := hn.imp_left BitVec.eq_of_toNat_eq
  simp only [execCfeset, hi, guardOps_ok hr, hg, if_pos hz, bind, Except.bind]
  rfl

theorem exec_cfeset_on (ft : Bool) {o : Nat × Nat} (hg : gTrue g x = true) (h0 : 0 < (sVal s x true b).toNat)
    (hn : (sVal s x true b).toNat ≤ 32768) (ho : objAt s x 10 (sVal s x true a) 1 1 = .ok o) :
    exec (.cfeset g a b ft) s = .next (
      if 128 * (o.2 / 128 + (sVal s x true b).toNat) ≤ spExt (s.core o.1).part then
        (if drainHeld s x t o.1 then s.modLatch fun l => { l with held := true } else
          deferEng (popOps s x true [.s a, .s b]) x.core (.pool o.1 [] (some (ft, List.range' (o.2 / 128) (sVal s x true b).toNat))))
      else raise s { code := cMemory, sub := 4, addr := sVal s x true a }) := by
  change execCfeset g a b ft s = _
  rw [hg] at hr
  have hz : ¬ (sVal s x true b = 0 ∨ 32768 < (sVal s x true b).toNat) := by
    rintro (h | h)
    · simp [h] at h0
    · omega
  simp only [execCfeset, hi, guardOps_ok hr, hg, if_neg hz, ho, bind, Except.bind, pure, Except.pure]
  by_cases h : 128 * (o.2 / 128 + (sVal s x true b).toNat) ≤ spExt (s.core o.1).part
  · rw [if_pos h, if_neg (not_lt.mpr h)]
    cases drainHeld s x t o.1 <;> rfl
  · rw [if_neg h, if_pos (not_le.mp h)]
    rfl

end

/-- What an arrival makes of COUNT and GEN: the whole TARGETs move (R286). -/
theorem syncStep_moves {target count n : Nat} (gen : Nat) (ht : 0 < target) (hc : count + n < 2 ^ 32) :
    (syncStep target count gen n).1 < target ∧
    count + n = (syncStep target count gen n).1 + target * ((count + n) / target) ∧
    (syncStep target count gen n).2 = (gen + (count + n) / target) % 2 ^ 32 := by
  have hm : (count + n) % 2 ^ 32 = count + n := Nat.mod_eq_of_lt hc
  simp only [syncStep, hm, ht.ne', if_false]
  exact ⟨Nat.mod_lt _ ht, (Nat.mod_add_div _ _).symm, trivial⟩

/-- Settles O30: each of the three instructions runs through its checks in their order; an arrival is a division with remainder. -/
theorem syncObjects : Obligations.SyncObjects := by
  unfold Obligations.SyncObjects
  refine ⟨fun s t x g a b hi hr => ?_, fun target count gen n ht hc => syncStep_moves gen ht hc, fun count gen n => ?_⟩
  · refine ⟨fun o hg hv hd => ⟨fun ho rgen => ?_, fun ho => exec_cswait_drain hi hr hg hv ho hd⟩, fun hg =>
      ⟨fun rgen => exec_csync_off hi hr rgen hg, exec_cswait_off hi hr hg, fun ft => exec_cfeset_off hi hr ft hg⟩,
      fun o rgen hg hv ho hd => ?_, fun hg hv => ⟨fun rgen => exec_csync_wide hi hr rgen hg hv, exec_cswait_wide hi hr hg hv⟩,
      fun o hg hv ho hd hb => exec_cswait_on hi hr hg hv ho hd hb,
      fun o ft hg h0 hn ho => exec_cfeset_on hi hr ft hg h0 hn ho, fun ft hg hn => exec_cfeset_number hi hr ft hg hn⟩
    · rw [exec_csync_on hi hr rgen hg hv ho, if_pos hd]
    · rw [exec_csync_on hi hr rgen hg hv ho, hd]
      rfl
  · rfl

end Sys2Proof.Machine
end

section
/-!
PROOFS. Acknowledgements, answers and messages from other packages (R117, R299, R317, R324, R330, R335): the statement of O35.
-/

namespace Sys2Proof.Machine

/-! ### Acknowledgements (R324) -/

@[simp] theorem tickApplied_fab (s : State) (t : Nat) (i : Option Nat) : (tickApplied s t i).fab = s.fab := by
  unfold tickApplied
  split <;> simp

theorem ackStream_stays {s : State} {st n : Nat} (err off : Nat) (h : ∀ r, look s.fab.strms st = some r → n ∉ r.unacked) :
    ackStream s st n err off = s := by
  unfold ackStream
  cases hr : look s.fab.strms st with
  | none => rfl
  | some r => simp [h r hr]

/-- A stream once number n of it has been acknowledged; none where that was its CLOSE (R324). -/
def Strm.acked (r : Strm) (n : Nat) : Option Strm :=
  let r' : Strm := { r with unacked := r.unacked.filter (fun k => k != n), mine := r.mine.filter fun p => p.1 != n }
  if r'.closing = true ∧ r'.unacked = [] then none else some r'

section
variable {s : State} {st n : Nat} {r : Strm} (off : Nat) (hr : look s.fab.strms st = some r) (hn : n ∈ r.unacked)
include hr hn

/-- What ackStream leaves of the stream itself, before it turns to what the number belonged to. -/
theorem ackStream_none (hc : cmdOfMsg s st n = none) :
    ∃ s', ackStream s st n 0 off = s' ∧ look s'.fab.strms st = r.acked n ∧ s'.mem = s.mem := by
  refine ⟨_, rfl, ?_⟩
  have hk : r.unacked.contains n = true := by simpa using hn
  simp only [ackStream, hr, hk, Bool.not_true, Bool.false_eq_true, if_false]
  rw [show ∀ f, cmdOfMsg { s with fab := f } st n = none from fun _ => hc]
  simp only [errNoGroup, if_neg (show ¬ 0 = 0x88 by decide), if_neg (show ¬ 2 ^ 40 ≤ 0 by decide), ne_eq, not_true_eq_false,
    if_false, tickApplied_fab, tickApplied_mem, and_true, Strm.acked, Bool.and_eq_true, List.isEmpty_iff]
  split <;> simp

theorem ackStream_some {c m} {e : Bool} {q : Cmd} (hc : cmdOfMsg s st n = some (c, e, q, m)) :
    let q' : Cmd := { q with sent := q.sent.filter fun k => !(k.strm == st && k.seq == n) }
    ∃ s', ackStream s st n 0 off = setCmd (arrive s' q' m.bytes) c e q' ∧ look s'.fab.strms st = r.acked n ∧
      s'.mem = s.mem ∧ s'.ctxs = s.ctxs ∧ s'.cores = s.cores := by
  have hk : r.unacked.contains n = true := by simpa using hn
  simp only [ackStream, hr, hk, Bool.not_true, Bool.false_eq_true, if_false]
  rw [show ∀ f, cmdOfMsg { s with fab := f } st n = some (c, e, q, m) from fun _ => hc]
  refine ⟨_, rfl, ?_, rfl, rfl, rfl⟩
  simp only [Strm.acked, Bool.and_eq_true, List.isEmpty_iff]
  split <;> simp

end

theorem exec_ackReceive {s : State} (hv : s.ev.val = 0) :
    ∃ off, exec .ackReceive s = .next (closeDying (ackStream s s.ev.num s.ev.cnt 0 off)) := by
  refine ⟨match s.ev.body with
    | .remote r => r.off
    | _ => 0, ?_⟩
  change execAckReceive s = _
  rw [execAckReceive, hv]
  rfl

/-! ### Messages to a FIFO (R335) -/

theorem rxWord_rx {s : State} {c : Nat} (w : W64) (hn : (s.core c).ringN = 0) (hl : (s.core c).rx.length < 64) :
    ((rxWord s c w).core c).rx = (s.core c).rx ++ [w] ∧ ((rxWord s c w).core c).ringN = 0 := by
  simp [rxWord, hn, hl]

theorem foldl_rxWord_rx {c : Nat} (ws : List W64) {s : State} (hn : (s.core c).ringN = 0)
    (hl : (s.core c).rx.length + ws.length ≤ 64) :
    ((ws.foldl (fun s w => rxWord s c w) s).core c).rx = (s.core c).rx ++ ws := by
  induction ws generalizing s with
  | nil => simp
  | cons w r ih =>
    rw [List.length_cons] at hl
    obtain ⟨hx, hz⟩ := rxWord_rx (c := c) w hn (by omega)
    rw [List.foldl_cons, ih hz (by rw [hx, List.length_append, List.length_singleton]; omega), hx, List.append_assoc]
    rfl

section
variable {s : State} {id : Nat} {m : FifoMsg}

theorem fifoDeliver_again {last : Nat} (hk : look s.fab.fifoIds ((m.src * 512 + m.score) * 512 + m.dcore) = some last)
    (h : id ≤ last) : fifoDeliver s id m = formMsg s { dst := m.src, msg := .recv id, task := 0, addr := 0 } := by
  simp [fifoDeliver, hk, h]

variable (hk : ∀ last, look s.fab.fifoIds ((m.src * 512 + m.score) * 512 + m.dcore) = some last → last < id)
include hk

theorem not_delivered : (((look s.fab.fifoIds ((m.src * 512 + m.score) * 512 + m.dcore)).map fun last =>
    decide (id ≤ last)).getD false) = false := by
  cases hl : look s.fab.fifoIds ((m.src * 512 + m.score) * 512 + m.dcore) with
  | none => rfl
  | some last => simpa using hk last hl

theorem fifoDeliver_refuses (h : rxRoom (s.core m.dcore) < m.words.length) :
    ∃ s', fifoDeliver s id m = formMsg s' { dst := m.src, msg := .fifoRetry id, task := 0, addr := 0 } ∧
      (s'.core m.dcore).rx = (s.core m.dcore).rx ∧ (s'.core m.dcore).refused = (s.core m.dcore).refused + 1 := by
  simp only [fifoDeliver, not_delivered hk, Bool.false_eq_true, if_false, if_pos h]
  exact ⟨_, rfl, by simp, by simp⟩

theorem fifoDeliver_takes {h : W64} {r : List W64} (hw : m.words = h :: r) (hn : (s.core m.dcore).ringN = 0)
    (hl : (s.core m.dcore).rx.length + m.words.length ≤ 64) :
    ∃ s', fifoDeliver s id m = formMsg s' { dst := m.src, msg := .recv id, task := 0, addr := 0 } ∧
      (s'.core m.dcore).rx = (s.core m.dcore).rx ++ rxHeader h m.src m.score :: r ∧
      look s'.fab.fifoIds ((m.src * 512 + m.score) * 512 + m.dcore) = some id := by
  rw [hw] at hl
  have hroom : ¬ rxRoom (s.core m.dcore) < (h :: r).length := by
    unfold rxRoom
    omega
  simp only [fifoDeliver, not_delivered hk, Bool.false_eq_true, if_false, hw, if_neg hroom]
  refine ⟨_, rfl, foldl_rxWord_rx _ hn hl, ?_⟩
  simp

end

/-! ### Answers of a home (R90, R117, R299) -/

theorem exec_remoteResponse {s : State} {r : RemoteResp} (hb : s.ev.body = .remote r) :
    exec .remoteResponse s = .next (answer s s.ev.num r) := by
  change execRemoteResponse s = _
  simp only [execRemoteResponse, hb]

section
variable {s : State} {rq : Nat} {r : RemoteResp} {q : Req} (hq : look s.fab.reqs rq = some q) {t id : Nat}
include hq

theorem answer_scal {n : Nat} {u : Bool} {sc : Scope} (hk : q.kind = .scal t id n u false sc) : answer s rq r =
    if r.err = 0 then landVal (Answered s rq) t id (.s (extend n u r.data))
    else postAsync (landVal (Answered s rq) t id (.s 0)) t (farCause r.err (failAt q.addr r.off)) := by
  by_cases he : r.err = 0 <;> simp only [answer, hq, hk, he, if_true, if_false] <;> rfl

theorem answer_row {mask : W64} {base : VReg} (hk : q.kind = .row t id mask base) : answer s rq r =
    if r.err = 0 then landVal (Answered s rq) t id (.v (farRow mask base r.data))
    else postAsync (landVal (Answered s rq) t id (.v VReg.zero)) t (farCause r.err (failAt q.addr r.off)) := by
  by_cases he : r.err = 0 <;> simp only [answer, hq, hk, he, if_true, if_false] <;> rfl

theorem answer_word {n c cmd : Nat} {e : Bool} (hk : q.kind = .word t id n c e cmd) (he : r.err = 0) : answer s rq r =
    freeCmd (landVal (Answered s rq) t id (.s (BitVec.ofNat 64 (leNat r.data)))) c e cmd := by
  simp only [answer, hq, hk, he, if_true]
  rfl

theorem answer_node {c off : Nat} (hk : q.kind = .node t id c off false) (he : r.err = 0) : answer s rq r =
    landVal (Answered s rq) t id (.s (BitVec.ofNat 64 (leNat (r.data.take 8)))) := by
  simp only [answer, hq, hk, he]
  rfl

theorem answer_record {c off : Nat} (hk : q.kind = .node t id c off true) (he : r.err = 0) :
    let s2 := spRecord (Answered s rq) c off (r.data.drop 8)
    ∃ o : NodeOp, (answer s rq r).nops = s2.nops ++ [o] ∧ o.task = t ∧ o.pend = some id ∧
      o.fin = some (BitVec.ofNat 64 (leNat (r.data.take 8))) ∧ (answer s rq r).ctxs = s2.ctxs ∧ (answer s rq r).cores = s2.cores := by
  simp only [answer, hq, hk, he]
  exact ⟨_, rfl, rfl, rfl, rfl, rfl, rfl⟩

end

/-- Settles O35: each message that comes back meets the case of the model's receiver that its hypotheses name. -/
theorem remoteAnswers : Obligations.RemoteAnswers := by
  unfold Obligations.RemoteAnswers
  refine ⟨fun s h => ?_, fun s r hr hv hn => ⟨fun hc => ?_, fun c e q m hc => ?_⟩, fun s q r hq hb => ?_,
    fun s m hb hd => ?_, fun s => rfl, fun s m hm ha => ?_⟩
  · exact congrArg (fun z => Host.Outcome.next (closeDying z)) (ackStream_stays _ _ h)
  · obtain ⟨off, hx⟩ := exec_ackReceive hv
    obtain ⟨s', he, hl, hm⟩ := ackStream_none off hr hn hc
    exact ⟨s', by rw [hx, he], hl, hm⟩
  · obtain ⟨off, hx⟩ := exec_ackReceive hv
    obtain ⟨s', he, hs⟩ := ackStream_some off hr hn hc
    exact ⟨s', by rw [hx, he], hs⟩
  · rw [exec_remoteResponse hb]
    refine ⟨fun t id n u sc hk => ?_, fun t id mask base hk => ?_, fun t id n c e cmd hk he => ?_,
      fun t id c off hk he => ?_, fun t id c off hk he => ?_⟩
    · rw [answer_scal hq hk]
    · rw [answer_row hq hk]
    · rw [answer_word hq hk he]
    · rw [answer_node hq hk he]
    · obtain ⟨o, hn, ht, hp, hf, hx, hc⟩ := answer_record hq hk he
      exact ⟨_, rfl, hx, hc, o, hn, ht, hp, hf⟩
  · have hx : exec .fifoDelivery s = .next (fifoDeliver s s.ev.num m) := by
      change execFifoDelivery s = _
      simp only [execFifoDelivery, hb, if_pos hd]
    rw [hx]
    refine ⟨fun last hk h => by rw [fifoDeliver_again hk h], fun hk h => ?_, fun h r hk hw hn hl => ?_⟩
    · obtain ⟨s', he, hs⟩ := fifoDeliver_refuses hk h
      exact ⟨s', by rw [he], hs⟩
    · obtain ⟨s', he, hs⟩ := fifoDeliver_takes hk hw hn hl
      exact ⟨s', by rw [he], hs⟩
  · change execRemoteRetryResend s = _
    simp only [execRemoteRetryResend, hm, if_neg (Nat.not_lt.mpr ha)]

end Sys2Proof.Machine
end

section
/-!
PROOFS. Translation, the directory and the data cache (R94 to R97, R108, R118, R119, R153): the statement of O49.
-/

namespace Sys2Proof.Machine

/-! ### Translation (R94 to R97) -/

/-- An entry a TLB search finds stands for the address under the root. -/
theorem tlbFind_matches {root va : Nat} {l : List TlbE} {e : TlbE} (h : tlbFind root va l = some e) :
    e.root = root ∧ e.vpn = va / 2 ^ lvlShift e.lvl := by
  induction l with
  | nil => cases h
  | cons f r ih =>
    unfold tlbFind at h
    split at h
    · rename_i hf
      exact Option.some.inj h ▸ hf
    · exact ih h

/-- An entry that stands for the address is found where it stands first. -/
theorem tlbFind_first {root va : Nat} {e : TlbE} (h : e.root = root ∧ e.vpn = va / 2 ^ lvlShift e.lvl) (l : List TlbE) (n : Nat) :
    tlbFind root va ((e :: l).take (n + 1)) = some e := by
  rw [List.take_succ_cons, tlbFind, if_pos h]

/-- The physical address of a core's translation root. -/
def Core.root (k : Core) : Nat := (k.trroot.extractLsb' 12 27).toNat * 4096

section
variable {s : State} {c va : Nat} (hv : (s.core c).trroot.getLsbD 0 = true)
include hv

theorem findLeaf_tlb {e : TlbE} (h : tlbFind (s.core c).root va (s.core c).tlb = some e) :
    findLeaf s c va = .ok (s, e.lvl, e.leaf.toNat) := by
  rw [Core.root] at h
  simp only [findLeaf, hv, Bool.not_true, Bool.false_eq_true, if_false, h]

variable (hn : tlbFind (s.core c).root va (s.core c).tlb = none)
include hn

theorem findLeaf_cluster {e : TlbE} (h : tlbFind (s.core c).root va ((look s.ctlb (c / 8)).getD []) = some e) :
    findLeaf s c va = .ok (s.modCore c fun k => { k with tlb := (e :: k.tlb).take 256 }, e.lvl, e.leaf.toNat) := by
  rw [Core.root] at h hn
  simp only [findLeaf, hv, Bool.not_true, Bool.false_eq_true, if_false, hn, h]

variable (hc : tlbFind (s.core c).root va ((look s.ctlb (c / 8)).getD []) = none)
include hc

theorem findLeaf_fault {m : MM} (h : walk s.mem s.poison va 3 (s.core c).root = .error m) : findLeaf s c va = .error m := by
  rw [Core.root] at h hn hc
  simp only [findLeaf, hv, Bool.not_true, Bool.false_eq_true, if_false, hn, hc, h]

theorem findLeaf_walk {lvl w : Nat} (h : walk s.mem s.poison va 3 (s.core c).root = .ok (lvl, w)) :
    let leaf : TlbE := { root := (s.core c).root, lvl := lvl, vpn := va / 2 ^ lvlShift lvl, leaf := BitVec.ofNat 64 w }
    ∃ s', findLeaf s c va = .ok (s', lvl, w) ∧ s'.mem = s.mem ∧ s'.ctxs = s.ctxs ∧
      tlbFind (s.core c).root va (s'.core c).tlb = some leaf ∧
      tlbFind (s.core c).root va ((look s'.ctlb (c / 8)).getD []) = some leaf := by
  intro leaf
  have hl : leaf.root = (s.core c).root ∧ leaf.vpn = va / 2 ^ lvlShift leaf.lvl := ⟨rfl, rfl⟩
  have hcore := State.modCore_core_self s c fun k => { k with tlb := (leaf :: k.tlb).take 256 }
  rw [Core.root] at h hn hc
  simp only [findLeaf, hv, Bool.not_true, Bool.false_eq_true, if_false, hn, hc, h]
  refine ⟨_, rfl, rfl, rfl, ?_, ?_⟩
  · exact (congrArg (fun k : Core => tlbFind _ va k.tlb) hcore).trans (tlbFind_first hl _ 255)
  · rw [look_put_self]
    exact tlbFind_first hl _ 4095

end

theorem exec_pageWalk_ok {s s' : State} {lvl w : Nat} (h : findLeaf s s.ev.core s.ev.val.toNat = .ok (s', lvl, w)) :
    exec .pageWalk s = .next s' := by
  change execPageWalk s = _
  rw [execPageWalk, h]

theorem exec_pageWalk_error {s : State} {m : MM} (h : findLeaf s s.ev.core s.ev.val.toNat = .error m) :
    exec .pageWalk s = .next s := by
  change execPageWalk s = _
  rw [execPageWalk, h]

theorem walkDescends : WalkDescends := by
  refine ⟨fun m pz va l t => ?_, fun m pz va t => ?_, fun a aux => ⟨rfl, rfl, rfl, fun m hm => ?_⟩⟩
  · refine ⟨fun h => ?_, fun h h0 => ?_, fun h h0 hb => ?_, fun h h0 hb => ⟨fun h1 => ?_, fun h1 => ?_⟩⟩
    · simp [walk, h]
    · simp [walk, h, h0]
    · simp [walk, h, h0, hb]
    · simp [walk, h, h0, hb, h1]
    · rw [mul_comm 256]
      simp [walk, h, h0, hb, h1]
  · refine ⟨fun h => ?_, fun h h0 => ?_, fun h h0 => ?_⟩
    · simp [walk, h]
    · simp [walk, h, h0]
    · simp [walk, h, h0]
  · simp [mmCause, hm]

/-! ### The directory and the data cache (R108, R118) -/

/-- What writing some bytes of a run leaves of one place: the byte written, or what was there. -/
theorem rd8_wrBytes_filterMap {m : Memory} (hm : Mem.wf m = true) (a : Nat) (p : Nat → Bool) (v : Nat → Byte) (l : List Nat) (i : Nat) :
    rd8 (wrBytes m (l.filterMap fun j => if p j then some (a + j, v j) else none)) (a + i) =
      if i ∈ l ∧ p i = true then v i else rd8 m (a + i) := by
  induction l generalizing m with
  | nil => simp [wrBytes]
  | cons j r ih =>
    by_cases hj : p j = true
    · rw [List.filterMap_cons_some (by rw [if_pos hj])]
      refine (ih (Mem.wf_wr8 (a + j) (v j) hm)).trans ?_
      rw [rd8_wr8 hm]
      by_cases hi : i = j
      · subst hi
        simp [hj]
      · simp [hi]
    · rw [List.filterMap_cons_none (by rw [if_neg hj]), ih hm]
      refine if_congr ⟨fun h => ⟨List.mem_cons_of_mem _ h.1, h.2⟩, fun h => ⟨?_, h.2⟩⟩ rfl rfl
      rcases List.mem_cons.mp h.1 with rfl | hr
      · exact absurd h.2 hj
      · exact hr

theorem rd8_dirtyBytes {m : Memory} (hm : Mem.wf m = true) (d : DLine) (ln : Nat) {i : Nat} (hi : i < 128) :
    rd8 (wrBytes m (d.dirtyBytes ln)) (128 * ln + i) = if d.dirty.getD i false then d.data.getD i 0 else rd8 m (128 * ln + i) := by
  rw [DLine.dirtyBytes, rd8_wrBytes_filterMap hm (128 * ln) (fun i => d.dirty.getD i false) (fun i => d.data.getD i 0)]
  simp [hi]

theorem writeBack_mem {s : State} {c ln : Nat} {d : DLine} (h : dcLine s c ln = some d) :
    (writeBack s c ln).mem = wrBytes s.mem (d.dirtyBytes ln) := by
  simp only [writeBack, h]
  split <;> simp [poisonLine]

theorem look_writeBack_dir (s : State) (c ln : Nat) : look (writeBack s c ln).dir ln = none := by
  unfold writeBack
  split <;> simp

section
variable {s : State} {c t pa : Nat} {va : W64} {d : DirSt} (h : look s.dir (pa / 128) = some d)
include h

theorem dirAccess_fence : dirAccess s c t pa va .fence = if d.mine c t then writeBack s c (pa / 128) else s := by
  simp only [dirAccess, h]

theorem look_dirAccess_rel (v : Nat) (hd : d = .d c t) : look (dirAccess s c t pa va (.rel v)).dir (pa / 128) = some (.p c v) := by
  subst hd
  simp [dirAccess, relLine, h, setDir]

theorem look_dirAccess_acq (c' v : Nat) (hd : d = .p c' v) : look (dirAccess s c t pa va (.acq v)).dir (pa / 128) = none := by
  subst hd
  simp only [dirAccess, acqLine, h, if_true]
  exact look_writeBack_dir ..

end

theorem evictLine_line (s : State) (c ln : Nat) : dcLine (evictLine s c ln) c ln = none := by
  simp [dcLine, evictLine]

theorem evictLine_mem {s : State} {c ln : Nat} {d : DLine} (h : dcLine s c ln = some d) :
    (evictLine s c ln).mem = if d.isDirty then wrBytes s.mem (d.dirtyBytes ln) else s.mem := by
  simp only [evictLine, h, State.modCore_mem]
  split
  · exact writeBack_mem h
  · rfl

/-! ### Faults of a fetch ahead (R153) -/

theorem exec_fetchAheadFault {s : State} {x : Context} (hx : s.ctx? s.ev.task = some x) : exec .fetchAheadFault s = .next (
    if x.ffault.any fun f => f.1 != x.pc then (aheadFault s x).setCtx s.ev.task { x with ffault := none } else s) := by
  change execFetchAheadFault s = _
  simp only [execFetchAheadFault, hx]
  split <;> rfl

/-- Settles O49: the look-ups in their order, the walk by its levels, and what a write-back, an eviction and a faulted fetch ahead leave. -/
theorem translationAndDirectory : Obligations.TranslationAndDirectory := by
  unfold Obligations.TranslationAndDirectory
  refine ⟨fun s e => ?_, walkDescends, fun c t c' t' v store => ?_, fun s k hk => ?_, fun s c t pa va d h => ⟨fun hm => ?_, fun hm => ?_,
    fun hm hwf ln hl => ?_, fun v hd => look_dirAccess_rel h v hd, fun c' v hd => look_dirAccess_acq h c' v hd⟩,
    fun s => ⟨_, rfl, evictLine_line .., fun d hd => evictLine_mem hd⟩, fun s x hx => ⟨fun p a hf hp => ?_, fun hf => ?_⟩⟩
  · refine fun hv => ⟨fun h => exec_pageWalk_ok (findLeaf_tlb hv h), fun hn h => ?_, fun hn hc lvl w h => ?_, fun hn hc m h =>
      exec_pageWalk_error (findLeaf_fault hv hn hc h)⟩
    · refine ⟨_, exec_pageWalk_ok (findLeaf_cluster hv hn h), rfl, rfl, rfl, ?_⟩
      rw [State.modCore_core_self]
      exact tlbFind_first (tlbFind_matches h) _ 255
    · obtain ⟨s', he, hm, hx, h1, h2⟩ := findLeaf_walk hv hn hc h
      exact ⟨s', exec_pageWalk_ok he, hm, hx, h1, h2⟩
  · refine ⟨rfl, by simp [dirPlain], fun hne => ?_, fun hne => ⟨?_, ?_⟩, by simp [dirPlain]⟩
    · exact if_neg (by rintro ⟨rfl, rfl⟩; simp at hne)
    · exact if_neg hne
    · exact if_neg hne
  · change execDirectoryAccess s = _
    simp only [execDirectoryAccess, hk]
  · rw [dirAccess_fence h, if_pos hm]
    exact look_writeBack_dir ..
  · rw [dirAccess_fence h, hm]
    rfl
  · rw [dirAccess_fence h, if_pos hm]
    refine ⟨fun i hi => ?_, fun a ha => rd8_writeBack_ne hwf c ha⟩
    rw [writeBack_mem hl, rd8_dirtyBytes hwf _ _ hi]
  · have hne : (x.ffault.any fun f => f.1 != x.pc) = true := by simp [hf, hp]
    rw [exec_fetchAheadFault hx, if_pos hne, aheadFault, hf]
  · have heq : (x.ffault.any fun f => f.1 != x.pc) = false := by
      rcases hf with hf | ⟨a, hf⟩ <;> simp [hf]
    rw [exec_fetchAheadFault hx, heq]
    rfl

end Sys2Proof.Machine
end

section
/-!
PROOFS. Scalar scratchpad and window accesses (R100 to R104, R175 to R177): the statement of O11.
-/

namespace Sys2Proof.Machine

/-! ### The place of a scratchpad or window access (R100, R101) -/

section
variable {s : State} {x : Context} {a : W64} {n al : Nat}

theorem target_misaligned (w : Space) (h : a.toNat % al ≠ 0) :
    target s x w a n al = .error (.trap { code := cMemory, sub := 2, addr := a }) := by
  simp [target, need, h, bind, Except.bind]
  rfl

variable (h : a.toNat % al = 0)
include h

theorem target_own (hb : a.toNat + n ≤ spExt (s.core x.core).part) : target s x .own a n al = .ok (x.core, a.toNat) := by
  simp [target, need, h, not_lt.mpr hb, bind, Except.bind, pure, Except.pure]

theorem target_past (hb : spExt (s.core x.core).part < a.toNat + n) :
    target s x .own a n al = .error (.trap { code := cMemory, sub := 4, addr := a }) := by
  simp [target, need, h, hb, bind, Except.bind]
  rfl

theorem target_window {p : Nat × Nat} (hw : window s x.core x.launch a n = .ok p) : target s x .win a n al = .ok p := by
  simp [target, need, h, hw, bind, Except.bind, pure, Except.pure]

theorem target_outside {m : MM} {out : Bool} (hw : window s x.core x.launch a n = .error (m, out)) :
    target s x .win a n al = .error (.trap (mmCause m a (if out then 1 else 0))) := by
  simp [target, need, h, hw, bind, Except.bind]

end

/-! ### The conditions of full/empty lines (R102 to R104) -/

theorem feHold_load {s : State} {c : Nat} {fe : FeL} {ls : List Nat} :
    feHold s c (feLWant fe) ls = if fe = .plain ∨ linesAre s c true ls = true then .ok () else .error .hold := by
  cases fe <;> cases h : linesAre s c true ls <;> simp [feHold, feLWant, need, h]

theorem wfeHold_ok {s : State} {c : Nat} {fe : FeL} {ls : List Nat} (h : fe = .wfe → ∀ l ∈ ls, l ∉ (s.core c).wfe) :
    wfeHold s c fe ls = .ok () := by
  simpa [wfeHold, need] using h

theorem feSHold_eq (s : State) (c : Nat) (x : Context) (fe : FeS) (ls : List Nat) : feSHold s c x fe ls =
    if (fe = .wesf → linesAre s c false ls = true) ∧ ((fe = .sf ∨ fe = .wesf) → x.rels.any Later.localRel = false) then .ok ()
    else .error .hold := by
  cases fe <;> cases h : linesAre s c false ls <;> cases hx : x.rels.any Later.localRel <;>
    simp [feSHold, feHold, feSWant, feSAct, need, h, hx, bind, Except.bind]

/-! ### Loads (R175, R176) -/

section
variable {s : State} {t : Nat} {x : Context} {g : Guard} {a b : SSel} (hi : s.issuer = .ok (t, x))
  (hr : readable s x (gTrue g x) [.s a, .s b] 1 = true)
include hi hr

theorem spLd_off (fe : FeL) (u : Bool) (sz : Size) (w : Space) (lat : Nat) (hg : gTrue g x = false) :
    spLd g a b fe u sz w lat s = .next (pushS s t lat (sVal s x false a)) := by
  rw [hg] at hr
  simp [spLd, hi, hg, guardOps_ok hr, bind, Except.bind, pure, Except.pure]

variable (hg : gTrue g x = true)
include hg

theorem spLd_traps (fe : FeL) (u : Bool) (lat : Nat) {sz : Size} {w : Space} {c : Cause}
    (ht : target s x w (sVal s x true a + sVal s x true b) (szBytes sz) (szBytes sz) = .error (.trap c)) :
    spLd g a b fe u sz w lat s = .next (raise s c) := by
  rw [hg] at hr
  simp [spLd, hi, hg, guardOps_ok hr, ht, bind, Except.bind]

variable {sz : Size} {w : Space} {c o : Nat}
  (ht : target s x w (sVal s x true a + sVal s x true b) (szBytes sz) (szBytes sz) = .ok (c, o))
include ht

theorem spLd_goes {fe : FeL} (u : Bool) (lat : Nat) (hl : LoadGoes s x t c o (szBytes sz) fe) :
    spLd g a b fe u sz w lat s = .next (pushS (feLoaded (popOps s x true [.s a, .s b]) c x.core fe (linesOf o (szBytes sz))) t lat
      (extend (szBytes sz) u (spRead s c o (szBytes sz)))) := by
  obtain ⟨hd, hf, hw, hb⟩ := hl
  rw [hg] at hr
  simp [spLd, hi, hg, guardOps_ok hr, ht, hd, feHold_load, hf, wfeHold_ok hw, spEcc, need, hb, bind, Except.bind, pure, Except.pure]

theorem spLd_held {fe : FeL} (u : Bool) (lat : Nat)
    (hl : drainHeld s x t c = true ∨ (fe ≠ .plain ∧ linesAre s c true (linesOf o (szBytes sz)) = false)) :
    spLd g a b fe u sz w lat s = .next (s.modLatch fun l => { l with held := true }) := by
  rw [hg] at hr
  cases hd : drainHeld s x t c with
  | true => simp [spLd, hi, hg, guardOps_ok hr, ht, hd, bind, Except.bind]
  | false =>
    obtain ⟨hf, hn⟩ := hl.resolve_left (by simp [hd])
    simp [spLd, hi, hg, guardOps_ok hr, ht, hd, feHold_load, hf, hn, bind, Except.bind]

end

/-! ### Stores (R175, R177) -/

section
variable {s : State} {t : Nat} {x : Context} {g : Guard} {a b : SSel} (hi : s.issuer = .ok (t, x))
  (hr : readable s x (gTrue g x) [.s a, .s b] 0 = true)
include hi hr

theorem spSt_off (fe : FeS) (sz : Size) (w : Space) (hg : gTrue g x = false) : spSt g a b fe sz w s = .next s := by
  rw [hg] at hr
  simp [spSt, hi, hg, guardOps_ok hr, bind, Except.bind, pure, Except.pure]

variable (hg : gTrue g x = true)
include hg

theorem spSt_traps (fe : FeS) {sz : Size} {w : Space} {c : Cause}
    (ht : target s x w (sVal s x true a) (szBytes sz) (szBytes sz) = .error (.trap c)) :
    spSt g a b fe sz w s = .next (raise s c) := by
  rw [hg] at hr
  simp [spSt, hi, hg, guardOps_ok hr, ht, bind, Except.bind]

variable {sz : Size} {w : Space} {c o : Nat} (ht : target s x w (sVal s x true a) (szBytes sz) (szBytes sz) = .ok (c, o))
include ht

theorem spSt_goes {fe : FeS} (hs : StoreGoes s x t c o (szBytes sz) fe) :
    spSt g a b fe sz w s = .next (spStore (popOps s x true [.s a, .s b]) c x.core o fe
      (place 0 (leBytes (sVal s x true b).toNat (szBytes sz))) (linesOf o (szBytes sz))) := by
  obtain ⟨hd, hf⟩ := hs
  rw [hg] at hr
  simp [spSt, hi, hg, guardOps_ok hr, ht, hd, (feSHold_eq ..).trans (if_pos hf), bind, Except.bind, pure, Except.pure]

theorem spSt_held {fe : FeS} (hs : ¬ StoreGoes s x t c o (szBytes sz) fe) :
    spSt g a b fe sz w s = .next (s.modLatch fun l => { l with held := true }) := by
  rw [hg] at hr
  cases hd : drainHeld s x t c with
  | true => simp [spSt, hi, hg, guardOps_ok hr, ht, hd, bind, Except.bind]
  | false =>
    have hf := fun h => hs ⟨hd, h⟩
    simp [spSt, hi, hg, guardOps_ok hr, ht, hd, (feSHold_eq ..).trans (if_neg hf), bind, Except.bind]

end

/-- Settles O11: a load or store comes to the place its address names, or to the trap of the check that fails. -/
theorem scratchpadAccesses : Obligations.ScratchpadAccesses := by
  unfold Obligations.ScratchpadAccesses
  refine ⟨fun s t x g a b fe u sz hi hr => ?_, fun s t x g a b fe sz hi hr => ?_⟩
  · refine ⟨fun hg => ⟨spLd_off hi hr fe u sz .own 6 hg, spLd_off hi hr fe u sz .win 9 hg⟩, fun hg ha => ⟨fun hb hl => ?_,
      fun hb hl => ?_, fun hb => ?_, fun c o hw => ⟨fun hl => ?_, fun hl => ?_⟩, fun m out hw => ?_⟩, fun hg ha => ?_⟩
    · exact spLd_goes hi hr hg (target_own ha hb) u 6 hl
    · exact spLd_held hi hr hg (target_own ha hb) u 6 hl
    · exact spLd_traps hi hr hg fe u 6 (target_past ha hb)
    · exact spLd_goes hi hr hg (target_window ha hw) u 9 hl
    · exact spLd_held hi hr hg (target_window ha hw) u 9 hl
    · exact spLd_traps hi hr hg fe u 9 (target_outside ha hw)
    · exact ⟨spLd_traps hi hr hg fe u 6 (target_misaligned .own ha), spLd_traps hi hr hg fe u 9 (target_misaligned .win ha)⟩
  · refine ⟨fun hg => ⟨spSt_off hi hr fe sz .own hg, spSt_off hi hr fe sz .win hg⟩, fun hg ha => ⟨fun hb hl => ?_,
      fun hb hl => ?_, fun hb => ?_, fun c o hw => ⟨fun hl => ?_, fun hl => ?_⟩, fun m out hw => ?_⟩, fun hg ha => ?_⟩
    · exact spSt_goes hi hr hg (target_own ha hb) hl
    · exact spSt_held hi hr hg (target_own ha hb) hl
    · exact spSt_traps hi hr hg fe (target_past ha hb)
    · exact spSt_goes hi hr hg (target_window ha hw) hl
    · exact spSt_held hi hr hg (target_window ha hw) hl
    · exact spSt_traps hi hr hg fe (target_outside ha hw)
    · exact ⟨spSt_traps hi hr hg fe (target_misaligned .own ha), spSt_traps hi hr hg fe (target_misaligned .win ha)⟩

end Sys2Proof.Machine
end

section
/-!
PROOFS. Scalar accesses to global memory (R89, R98 to R101, R112, R118, R119, R178): the statements of O13 and O14.
-/

namespace Sys2Proof.Machine

/-! ### The checks of a global address (R89, R100, R101) -/

theorem extractLsb'_eq_zero_of_lt {a : W64} {lo : Nat} (len : Nat) (h : a.toNat < 2 ^ lo) : a.extractLsb' lo len = 0#len :=
  BitVec.eq_of_toNat_eq (by rw [BitVec.extractLsb'_toNat, Nat.shiftRight_eq_div_pow, Nat.div_eq_of_lt h]; simp)

theorem localOk_ok {a : W64} {al : Nat} (h : a.toNat < 2 ^ 48) (ha : a.toNat % al = 0) : localOk a al = .ok () := by
  simp [localOk, extractLsb'_eq_zero_of_lt 16 h, need, ha]

theorem remoteOk_ok {s : State} {a : W64} {al : Nat} (h : a.toNat < 2 ^ 57) (ha : a.toNat % al = 0)
    (hr : reaches s (pkgOf a) = true) : remoteOk s a al = .ok () := by
  simp [remoteOk, remoteChk, extractLsb'_eq_zero_of_lt 7 h, need, ha, hr, orTrap, bind, Except.bind]

theorem tagFree_ok {s : State} {c : Nat} (h : tagsOut s c + ((s.latch.map (·.far)).getD []).length < 4096) : tagFree s c = .ok () := by
  simp only [tagFree, h, decide_true, need, if_true]

/-! ### LDG (R178) -/

/-- What a plain load of the context answers: the extended bytes, zero where the race detector refuses it, or DATAECC. -/
def loadAnswer (t : Nat) (x : Context) (pa : Nat) (a : W64) (n : Nat) (u : Bool) : State × Got → Res State
  | (s, .ok bs) => .ok (pushS s t 14 (extend n u bs))
  | (s, .race) => .ok (pushS (raceAt s t x.core pa a) t 14 0)
  | (_, .ecc sub) => eccTrap sub a

section
variable {s : State} {t : Nat} {x : Context} {a : W64} {n : Nat} (u : Bool)

/-- A local address that translates comes to its plain load, or waits for what is before it. -/
theorem ldgAt_local {s1 : State} {pa : Nat} {nc : Bool} (hl : isRemote a = false) (h : a.toNat < 2 ^ 48) (ha : a.toNat % n = 0)
    (hd : drainHeld s x t x.core = false) (hx : xlate s x.core a .rd = .ok (s1, pa, nc)) :
    ldgAt s t x a n u =
      if behind x [(pa, n)] || !(ownStores s1 t [(pa, n)]).isEmpty then
        .ok (pushLater s1 t .s a [(pa, n)] (ownStores s1 t [(pa, n)]) fun id => .load pa nc n u id)
      else loadAnswer t x pa a n u (plainLoad s1 x.core t pa n nc) := by
  simp only [ldgAt, hl, Bool.false_eq_true, if_false, localOk_ok h ha, hd, hx, orTrap, bind, Except.bind]
  rfl

theorem ldgAt_fault {m : MM} (hl : isRemote a = false) (h : a.toNat < 2 ^ 48) (ha : a.toNat % n = 0)
    (hd : drainHeld s x t x.core = false) (hx : xlate s x.core a .rd = .error m) :
    ldgAt s t x a n u = .error (.trap (mmCause m a)) := by
  simp only [ldgAt, hl, Bool.false_eq_true, if_false, localOk_ok h ha, hd, hx, orTrap, bind, Except.bind, pure, Except.pure]
  rfl

theorem ldgAt_remote (hl : isRemote a = true) (h : a.toNat < 2 ^ 57) (ha : a.toNat % n = 0) (hr : reaches s (pkgOf a) = true)
    (hd : drainHeld s x t x.core = false)
    (ht : pkgOf a = s.fab.ep ∨ tagsOut s x.core + ((s.latch.map (·.far)).getD []).length < 4096)
    (hb : NothingBefore s t x (farSpan s (pkgOf a) (offOf a) n)) (ho : ownLoads s t (farSpan s (pkgOf a) (offOf a) n) = []) :
    ldgAt s t x a n u = .ok (remoteScal s t x a n u none 14) := by
  obtain ⟨hb, hs⟩ := hb
  by_cases hp : pkgOf a = s.fab.ep
  · simp [ldgAt, hl, remoteOk_ok h ha hr, hd, ho, hb, hs, if_neg (not_not.mpr hp), bind, Except.bind, pure, Except.pure]
  · simp [ldgAt, hl, remoteOk_ok h ha hr, hd, ho, hb, hs, tagFree_ok (ht.resolve_left hp), bind, Except.bind, pure, Except.pure]

theorem nothingBefore_iff {span : List (Nat × Nat)} :
    NothingBefore s t x span ↔ (behind x span || !(ownStores s t span).isEmpty) = false := by
  simp [NothingBefore]

end

section
variable {s : State} {t : Nat} {x : Context} {g : Guard} {a b : SSel} (u : Bool) (sz : Size) (hi : s.issuer = .ok (t, x))
  (hr : readable s x (gTrue g x) [.s a, .s b] 1 = true)
include hi hr

theorem exec_ldg_off (hg : gTrue g x = false) : exec (.ldg g a b u sz) s = .next (pushS s t 14 (sVal s x false a)) := by
  change execLdg g a b u sz s = _
  rw [hg] at hr
  simp [execLdg, hi, guardOps_ok hr, hg, bind, Except.bind, pure, Except.pure]

theorem exec_ldg_on (hg : gTrue g x = true) : exec (.ldg g a b u sz) s =
    conclude s (ldgAt (popOps s x true [.s a, .s b]) t x (sVal s x true a + sVal s x true b) (szBytes sz) u) := by
  change execLdg g a b u sz s = _
  rw [hg] at hr
  simp [execLdg, hi, guardOps_ok hr, hg, bind, Except.bind]

end

/-- Settles O13: past its checks a load is the plain load of the line, waits, or is sent. -/
theorem globalLoads : Obligations.GlobalLoads := by
  intro s t x g a b u sz hi hr
  refine ⟨exec_ldg_off u sz hi hr, fun hg hl h ha hd => ⟨fun s1 pa nc hx => ?_, fun m hx => ?_⟩, fun hg hl h ha hp hd ht hb ho => ?_⟩
  · rw [exec_ldg_on u sz hi hr hg, ldgAt_local u hl h ha hd hx, nothingBefore_iff]
    refine ⟨fun hb => ?_, fun hb => ?_⟩
    · rw [hb]
      refine ⟨fun s2 bs hp => ?_, fun s2 hp => ?_, fun s2 sub hp => ?_⟩ <;> rw [hp] <;> rfl
    · rw [if_pos (Bool.not_eq_false _ ▸ hb)]
      rfl
  · rw [exec_ldg_on u sz hi hr hg, ldgAt_fault u hl h ha hd hx]
    rfl
  · rw [exec_ldg_on u sz hi hr hg, ldgAt_remote u hl h ha hp hd ht hb ho]
    rfl

/-! ### STG (R178) -/

section
variable {s : State} {t : Nat} {x : Context} {a : W64} {slot n : Nat} (v : W64)

theorem stgAt_local {s1 : State} {pa : Nat} {nc : Bool} (hl : isRemote a = false) (h : a.toNat < 2 ^ 48) (ha : a.toNat % n = 0)
    (hd : drainHeld s x t x.core = false) (hx : xlate s x.core a .wr = .ok (s1, pa, nc)) :
    stgAt s t x a slot n v = .ok (deferWrite s1 x.core (.glob t [(a, pa, leBytes v.toNat n, nc)])) := by
  simp [stgAt, hl, localOk_ok h ha, hd, hx, orTrap, bind, Except.bind, pure, Except.pure]

theorem stgAt_fault {m : MM} (hl : isRemote a = false) (h : a.toNat < 2 ^ 48) (ha : a.toNat % n = 0)
    (hd : drainHeld s x t x.core = false) (hx : xlate s x.core a .wr = .error m) :
    stgAt s t x a slot n v = .error (.trap (mmCause m a)) := by
  simp only [stgAt, hl, Bool.false_eq_true, if_false, localOk_ok h ha, hd, hx, orTrap, bind, Except.bind]
  rfl

theorem stgAt_remote (hl : isRemote a = true) (h : a.toNat < 2 ^ 57) (ha : a.toNat % n = 0) (hr : reaches s (pkgOf a) = true)
    (hd : drainHeld s x t x.core = false) (hf : strmFull s x slot = false) :
    stgAt s t x a slot n v = .ok (deferWrite s x.core (.rem t slot a (.write (place (offOf a) (leBytes v.toNat n))))) := by
  simp [stgAt, hl, remoteOk_ok h ha hr, hd, hf, bind, Except.bind, pure, Except.pure]

end

section
variable {s : State} {t : Nat} {x : Context} {g : Guard} {a b : SSel} (slot : BitVec 4) (sz : Size) (hi : s.issuer = .ok (t, x))
  (hr : readable s x (gTrue g x) [.s a, .s b] 0 = true)
include hi hr

theorem exec_stg_off (hg : gTrue g x = false) : exec (.stg g a b slot sz) s = .next s := by
  change execStg g a b slot sz s = _
  rw [hg] at hr
  simp [execStg, hi, guardOps_ok hr, hg, bind, Except.bind, pure, Except.pure]

theorem exec_stg_on (hg : gTrue g x = true) : exec (.stg g a b slot sz) s =
    conclude s (stgAt (popOps s x true [.s a, .s b]) t x (sVal s x true a) slot.toNat (szBytes sz) (sVal s x true b)) := by
  change execStg g a b slot sz s = _
  rw [hg] at hr
  simp [execStg, hi, guardOps_ok hr, hg, bind, Except.bind]

end

/-- The race detector alone refuses a plain store. -/
theorem plainStore_eq_none_iff {s : State} {c t pa : Nat} {bs : List Byte} {nc : Bool} :
    plainStore s c t pa bs nc = none ↔ dirPlain (look s.dir (pa / 128)) c t true = none := by
  unfold plainStore
  dsimp only
  split
  · simp [*]
  · split <;> simp [*]

/-- One store of a context: a plain store where the directory lets it through, else a race. -/
theorem storeAll_one (s : State) (c t : Nat) (va : W64) (pa : Nat) (bs : List Byte) (nc : Bool) :
    storeAll s c t [(va, pa, bs, nc)] = (plainStore s c t pa bs nc).getD (raceAt s t c pa va) := by
  cases h : plainStore s c t pa bs nc with
  | none => simp [storeAll, storeRace, plainStore_eq_none_iff.mp h]
  | some s' =>
    have hd := mt plainStore_eq_none_iff.mpr (by rw [h]; simp : plainStore s c t pa bs nc ≠ none)
    simp [storeAll, storeRace, hd, h]

/-- The store of a context that waits for nothing there (R112). -/
theorem applyWrite_glob_one {s : State} {t : Nat} {x : Context} (src rk : Nat) (va : W64) {pa : Nat} {bs : List Byte} (nc : Bool)
    (hx : s.ctx? t = some x) (hb : behind x [(pa, bs.length)] = false) :
    applyWrite s src rk (.glob t [(va, pa, bs, nc)]) = (plainStore s x.core t pa bs nc).getD (raceAt s t x.core pa va) := by
  simp only [applyWrite, hx, accSpan, List.map_cons, List.map_nil, hb, Bool.false_eq_true, if_false]
  exact storeAll_one ..

/-- Settles O14: past its checks a store is left to its bundle, whose end performs it. -/
theorem globalStores : Obligations.GlobalStores := by
  refine ⟨fun s t x g a b slot sz hi hr => ?_, fun s t src rk x va pa bs nc hx hb => ?_⟩
  · refine ⟨exec_stg_off slot sz hi hr, fun hg hl h ha hd => ⟨fun s1 pa nc hx => ?_, fun m hx => ?_⟩, fun hg hl h ha hp hd hf => ?_⟩
    · rw [exec_stg_on slot sz hi hr hg, stgAt_local _ hl h ha hd hx]
      rfl
    · rw [exec_stg_on slot sz hi hr hg, stgAt_fault _ hl h ha hd hx]
      rfl
    · rw [exec_stg_on slot sz hi hr hg, stgAt_remote _ hl h ha hp hd hf]
      rfl
  · rw [applyWrite_glob_one src rk va nc hx hb]
    exact ⟨fun s' h => by rw [h]; rfl, fun h => by rw [h]; rfl⟩

end Sys2Proof.Machine
end

section
/-!
PROOFS. LDA, STRL and FENCE (R112, R114 to R118, R180 to R182): the statement of O15.
-/

namespace Sys2Proof.Machine

/-! ### Recalling the lines of a variable (R117) -/

theorem writeBack_dir (s : State) (c ln : Nat) : (writeBack s c ln).dir = del s.dir ln := by
  unfold writeBack
  split
  · rfl
  · obtain ⟨p, h⟩ := memWrite_effect s (DLine.dirtyBytes _ ln)
    rw [h]
    dsimp only
    split <;> rfl

theorem writeBack_ctxs (s : State) (c ln : Nat) : (writeBack s c ln).ctxs = s.ctxs := by
  obtain ⟨m, p, k, d, h⟩ := writeBack_effect s c ln
  rw [h]

theorem recallVar_ctxs (s : State) (v : Nat) : (recallVar s v).ctxs = s.ctxs :=
  foldl_keeps (fun s' : State => s'.ctxs = s.ctxs) _ _ s rfl fun s' _ h => (writeBack_ctxs s' _ _).trans h

/-- Writing the lines of some entries back takes just those lines out of the directory. -/
theorem mem_dir_foldl_writeBack {l : List (Nat × DirSt)} {s : State} {e : Nat × DirSt}
    (h : e ∈ (l.foldl (fun s p => writeBack s p.2.core p.1) s).dir) : e ∈ s.dir ∧ e ∉ l := by
  induction l generalizing s with
  | nil => exact ⟨h, List.not_mem_nil⟩
  | cons q r ih =>
    obtain ⟨hd, hr⟩ := ih h
    rw [writeBack_dir, del, List.mem_filter] at hd
    refine ⟨hd.1, fun he => ?_⟩
    rcases List.mem_cons.mp he with rfl | he
    · simp at hd
    · exact hr he

/-- No line released under the variable is left after its recall. -/
theorem released_recallVar {s : State} {v : Nat} {p : Nat × DirSt} (hp : p ∈ (recallVar s v).dir) : p.2.released v = false := by
  obtain ⟨hd, hn⟩ := mem_dir_foldl_writeBack hp
  by_contra hr
  exact hn (List.mem_filter.mpr ⟨hd, by simpa using hr⟩)

/-! ### LDA (R117, R180) -/

theorem acquireAt_wide {s s' : State} {c pa n : Nat} {sc : Scope} {bs : List Byte} (h : acquireAt s c pa n sc = (s', some bs))
    (hs : scWide sc = true) : s' = dropClean (recallVar s pa) c ∧ bs = homeBytes (recallVar s pa) c pa n := by
  simp only [acquireAt, hs, if_true] at h
  split at h
  · cases h
  · cases h
    exact ⟨rfl, rfl⟩

theorem isDirty_of_mem_dropClean {s : State} {c : Nat} {p : Nat × DLine} (hp : p ∈ ((dropClean s c).core c).dc) :
    p.2.isDirty = true := by
  rw [dropClean, State.modCore_core_self] at hp
  exact (List.mem_filter.mp hp).2

/-- What an acquire at the home slice answers: the extended bytes, or DATAECC. -/
def acquireAnswer (t : Nat) (a : W64) (n : Nat) (u : Bool) : State × Option (List Byte) → Res State
  | (s, some bs) => .ok (pushS s t 14 (extend n u bs))
  | (_, none) => eccTrap 4 a

theorem ldaAt_local {s s1 : State} {t : Nat} {x : Context} {a : W64} {n pa : Nat} {nc : Bool} (u : Bool) (sc : Scope)
    (hl : isRemote a = false) (h : a.toNat < 2 ^ 48) (ha : a.toNat % n = 0) (hx : x.rels = [])
    (ht : xlate s x.core a .rd = .ok (s1, pa, nc)) (ho : ownStores s1 t [(pa, n)] = []) :
    ldaAt s t x a n u sc =
      if syncRace s1 x.core t pa true then .ok (pushS (raceAt s1 t x.core pa a) t 14 0)
      else acquireAnswer t a n u (acquireAt s1 x.core pa n sc) := by
  simp only [ldaAt, hl, Bool.false_eq_true, if_false, localOk_ok h ha, ht, orTrap, hx, ho, List.isEmpty_nil, Bool.not_true, Bool.or_self,
    bind, Except.bind]
  rfl

section
variable {s : State} {t : Nat} {x : Context} {g : Guard} {a b : SSel} (sc : Scope) (u : Bool) (sz : Size) (hi : s.issuer = .ok (t, x))
  (hr : readable s x (gTrue g x) [.s a, .s b] 1 = true)
include hi hr

theorem exec_lda_off (hg : gTrue g x = false) : exec (.lda g a b sc u sz) s = .next (pushS s t 14 (sVal s x false a)) := by
  change execLda g a b sc u sz s = _
  rw [hg] at hr
  simp [execLda, hi, guardOps_ok hr, hg, bind, Except.bind, pure, Except.pure]

theorem exec_lda_on (hg : gTrue g x = true) : exec (.lda g a b sc u sz) s =
    conclude s (ldaAt (popOps s x true [.s a, .s b]) t x (sVal s x true a + sVal s x true b) (szBytes sz) u sc) := by
  change execLda g a b sc u sz s = _
  rw [hg] at hr
  simp [execLda, hi, guardOps_ok hr, hg, bind, Except.bind]

end

/-! ### STRL, FENCE and releases (R116, R181, R182) -/

section
variable {s : State} {t : Nat} {x : Context} {a : W64} (v : W64) {slot : Nat} (sc : Scope)

theorem strlAt_local {s1 : State} {pa : Nat} {nc : Bool} (hl : isRemote a = false) (h : a.toNat < 2 ^ 48) (ha : a.toNat % 8 = 0)
    (hx : xlate s x.core a .wr = .ok (s1, pa, nc)) :
    strlAt s t x a v slot sc = .ok (deferWrite s1 x.core (.strl t slot a v sc [(pa, 8)])) := by
  simp [strlAt, hl, localOk_ok h ha, hx, orTrap, bind, Except.bind, pure, Except.pure]

theorem strlAt_remote (hl : isRemote a = true) (h : a.toNat < 2 ^ 57) (ha : a.toNat % 8 = 0) (hr : reaches s (pkgOf a) = true)
    (hf : strmFull s x slot = false) :
    strlAt s t x a v slot sc = .ok (deferWrite s x.core (.strl t slot a v sc (farSpan s (pkgOf a) (offOf a) 8))) := by
  simp [strlAt, hl, remoteOk_ok h ha hr, hf, bind, Except.bind, pure, Except.pure]

end

section
variable {s : State} {t : Nat} {x : Context} {g : Guard} {a b : SSel} (slot : BitVec 3) (sc : Scope) (hi : s.issuer = .ok (t, x))
include hi

theorem exec_strl_off (hr : readable s x (gTrue g x) [.s a, .s b] 0 = true) (hg : gTrue g x = false) :
    exec (.strl g a b slot sc) s = .next s := by
  change execStrl g a b slot sc s = _
  rw [hg] at hr
  simp [execStrl, hi, guardOps_ok hr, hg, bind, Except.bind, pure, Except.pure]

theorem exec_strl_on (hr : readable s x (gTrue g x) [.s a, .s b] 0 = true) (hg : gTrue g x = true) : exec (.strl g a b slot sc) s =
    conclude s (strlAt (popOps s x true [.s a, .s b]) t x (sVal s x true a) (sVal s x true b) slot.toNat sc) := by
  change execStrl g a b slot sc s = _
  rw [hg] at hr
  simp [execStrl, hi, guardOps_ok hr, hg, bind, Except.bind]

theorem exec_fence : exec (.fence g sc) s = .next (
    if gTrue g x then
      if s.latch.isSome then s.modCtx t fun y => { y with holds := y.holds ++ [.fence sc] }
      else settle (s.modCtx t fun y => { y with holds := y.holds ++ [.fence sc] }) t
    else s) := by
  change execFence g sc s = _
  simp only [execFence, hi, guardOps_nil, bind, Except.bind, pure, Except.pure]
  cases gTrue g x <;> simp

end

theorem releaseStep_release {s : State} {t : Nat} {x : Context} {e : Later} {q : List Later} {val : W64} {sc : Scope} {sent : Bool}
    (hx : s.ctx? t = some x) (hq : x.rels = e :: q) (he : e.acc = .release val sc none sent) (hr : e.ready s t = true) :
    releaseStep s t = releaseHere (s.setCtx t { x with rels := q }) t x e.va val sc := by
  simp only [releaseStep, hx, hq, hr, Bool.not_true, Bool.false_eq_true, if_false, he, performLater]

theorem releaseHere_acts {s s1 : State} {t : Nat} {x : Context} {va : W64} (val : W64) (sc : Scope) {pa : Nat} {nc : Bool}
    (hx : xlate s x.core va .wr = .ok (s1, pa, nc)) (hr : syncRace s1 x.core t pa false = false) :
    releaseHere s t x va val sc = homeStore (releaseActs s1 x.core t pa sc false) x.core pa (leBytes val.toNat 8) := by
  simp only [releaseHere, hx, hr, Bool.false_eq_true, if_false]

/-- Settles O15: the acquire at the home slice, the release that takes its place and its turn, and the fence. -/
theorem synchronisingAccesses : Obligations.SynchronisingAccesses := by
  refine ⟨fun s t x g a b sc u sz hi hr => ?_, fun s s' c pa n sc bs h hs => ?_, fun s t x g a b slot sc hi hr => ?_,
  fun s t x g sc hi => ?_,
    fun s t x e q val sc sent hx hq he hr => releaseStep_release hx hq he hr,
    fun s t x va val sc s1 pa nc hx hr => releaseHere_acts val sc hx hr⟩
  · refine ⟨exec_lda_off sc u sz hi hr, fun hg hl h ha hx s1 pa nc ht ho => ?_⟩
    rw [exec_lda_on sc u sz hi hr hg, ldaAt_local u sc hl h ha hx ht ho]
    exact ⟨fun hn s2 bs hq => by rw [hn, hq]; rfl, fun hn => by rw [hn]; rfl⟩
  · obtain ⟨rfl, rfl⟩ := acquireAt_wide h hs
    exact ⟨rfl, fun p hp => isDirty_of_mem_dropClean hp, fun p hp => released_recallVar hp, recallVar_ctxs s pa⟩
  · refine ⟨exec_strl_off slot sc hi hr, fun hg hl h ha s1 pa nc hx => ?_, fun hg hl h ha hp hf => ?_⟩
    · rw [exec_strl_on slot sc hi hr hg, strlAt_local _ sc hl h ha hx]
      rfl
    · rw [exec_strl_on slot sc hi hr hg, strlAt_remote _ sc hl h ha hp hf]
      rfl
  · exact exec_fence sc hi

end Sys2Proof.Machine
end

section
/-!
PROOFS. The machine as power reaches it and a context as its task starts (R91, R126, R471, R477): the statement of O54.
-/

namespace Sys2Proof.Machine

/-- As power reaches it no step is due and no core is released: a step changes nothing. -/
theorem step_reset : step State.reset = .next State.reset := rfl

/-- Every core is then in its first state. -/
theorem reset_core (c : Nat) : State.reset.core c = {} := rfl

section
variable (s : State) (c n : Nat) (k : Task)

theorem newContext_k0 : (newContext s c n k).k[0] = k.arg := by simp [newContext]

theorem newContext_k1 : (newContext s c n k).k[1] = k.k1 := by simp [newContext]

theorem newContext_k_zero (r : Fin 32) (h : 2 ≤ r.val) : (newContext s c n k).k[r] = 0 := by
  simp only [newContext, Fin.getElem_fin]
  rw [Vector.getElem_set_ne _ _ (by omega), Vector.getElem_set_ne _ _ (by omega), Vector.getElem_replicate]

theorem newContext_rows (r : Fin 32) : (newContext s c n k).va[r] = VReg.zero ∧ (newContext s c n k).vb[r] = VReg.zero := by
  simp [newContext]

theorem newContext_fr : (newContext s c n k).fr = {} := rfl

end

/-- Settles O54: the reset state and the fields of a new context, place by place. -/
theorem resetState : Obligations.ResetState := by
  unfold Obligations.ResetState
  refine ⟨?_, fun c => ?_, fun s c n k => ?_⟩
  · exact ⟨rfl, rfl, rfl, rfl, rfl, rfl, rfl, rfl, rfl, rfl, rfl, fun _ => rfl, rfl, step_reset⟩
  · rw [reset_core]
    exact ⟨rfl, rfl, rfl, rfl, rfl, rfl, rfl, rfl, rfl, rfl, rfl⟩
  · refine ⟨rfl, rfl, rfl, rfl, rfl, rfl, rfl, newContext_k0 .., newContext_k1 .., newContext_k_zero s c n k, newContext_rows s c n k,
      rfl, rfl, rfl, rfl, rfl, rfl, rfl, ?_, ?_⟩
    · rw [newContext_fr]
      decide
    · intro i
      rw [newContext_fr]
      simp [Ring.emptyS, Ring.emptyV]

end Sys2Proof.Machine
end

section
/-!
PROOFS. The task instructions and the record of a new task (R379, R383, R388, R389, R402 to R409): the statement of O39.
-/

namespace Sys2Proof.Machine

/-! ### The shared conditions of the task instructions -/

theorem afterDone_ok {s : State} {t op : Nat}
    (h : ¬(((look s.tasks t).getD {}).retired = true ∧ scopeOf s t ≠ 0)) : afterDone s t op = .ok () := by
  unfold afterDone need
  cases hk : look s.tasks t with
  | none => simp
  | some k =>
    rw [hk, Option.getD_some] at h
    simpa using h

theorem afterDone_trap {s : State} {t op : Nat} (hk : ((look s.tasks t).getD {}).retired = true) (hs : scopeOf s t ≠ 0) :
    afterDone s t op = trapWith cTask 2 (BitVec.ofNat 64 op) := by
  unfold afterDone need
  cases hl : look s.tasks t with
  | none => simp [hl] at hk
  | some k =>
    rw [hl, Option.getD_some] at hk
    simp [hk, hs]

theorem childRec_some {s : State} {t : Nat} {h : W64} {p : Nat × Task} (hc : childOf s t h = some p) : childRec s t h = .ok p := by
  rw [childRec, hc]

theorem childRec_none {s : State} {t : Nat} {h : W64} (hc : childOf s t h = none) : childRec s t h = trapWith cTask 1 h := by
  rw [childRec, hc]

/-- The record of a child is the one its handle names. -/
theorem look_of_childOf {s : State} {t i : Nat} {h : W64} {k : Task} (hc : childOf s t h = some (i, k)) : look s.tasks i = some k := by
  obtain ⟨hr, -⟩ := Option.filter_eq_some_iff.mp hc
  unfold recOf at hr
  dsimp only at hr
  split at hr
  · rename_i k' hk
    split at hr
    · obtain ⟨rfl, rfl⟩ := Prod.mk.injEq _ _ _ _ ▸ Option.some.inj hr
      exact hk
    · cases hr
  · cases hr

section
variable {s : State} {t : Nat} {x : Context} (g : Guard) (a b : SSel) (hi : s.issuer = .ok (t, x))
include hi

/-! ### SPAWN and SPAWNB -/

/-- SPAWN once its child is known: its place after TKDONE, its releases, the child's record. -/
def spawnAt (s : State) (t : Nat) (x : Context) (a b : SSel) (n : NewTask) : Res State := do
  afterDone s t 0x01
  let s1 ← relsFirst s t x
  let r := spawnChild (popOps s1 x true [.s a, .s b]) t x n
  return pushS r.1 t 4 r.2

theorem exec_spawn_off (desc nj : Bool) (hg : gTrue g x = false) (hr : readable s x false [.s a, .s b] 1 = true) :
    exec (.spawn g a b desc nj) s = .next (pushS s t 4 0) := by
  change execSpawn g a b desc nj s = _
  simp [execSpawn, hi, guardOps_ok hr, hg, bind, Except.bind, pure, Except.pure]

section
variable (nj : Bool) (hg : gTrue g x = true) (hr : readable s x true [.s a, .s b] 1 = true)
include hg hr

theorem exec_spawn_word (hw : taskWordOk (launchOf s ((look s.tasks t).getD {})) (sVal s x true a) = true) :
    exec (.spawn g a b false nj) s = conclude s (spawnAt s t x a b
      { launch := x.launch, grp := (taskWord (sVal s x true a)).1, dcyc := (taskWord (sVal s x true a)).2.1,
        entry := (taskWord (sVal s x true a)).2.2, key := ((look s.tasks t).getD {}).key, aff := sVal s x true b,
        arg := sVal s x true b, nj := nj }) := by
  change execSpawn g a b false nj s = _
  simp only [Bool.not_true, Bool.false_eq_true, if_false, if_true, execSpawn, spawnAt, hi, guardOps_ok hr, hg, hw, need, bind,
    Except.bind, pure, Except.pure]

theorem exec_spawn_badWord (hw : taskWordOk (launchOf s ((look s.tasks t).getD {})) (sVal s x true a) = false) :
    exec (.spawn g a b false nj) s = .next (raise s { code := cOperand, sub := 1, info := sVal s x true a }) := by
  change execSpawn g a b false nj s = _
  simp only [Bool.not_true, Bool.false_eq_true, if_false, execSpawn, hi, guardOps_ok hr, hg, hw, need, operand, trapWith, bind,
    Except.bind, conclude_trap]

theorem exec_spawn_desc {n : NewTask} (hal : (sVal s x true a).toNat % 64 = 0)
    (hb : (sVal s x true a).toNat + 64 ≤ spExt (s.core x.core).part) (hd : drainHeld s x t x.core = false)
    (he : spBad s x.core (sVal s x true a).toNat 64 = false)
    (hn : spawnDesc s (launchOf s ((look s.tasks t).getD {})) x.launch (spRead s x.core (sVal s x true a).toNat 64)
      (sVal s x true b) nj = .ok n) :
    exec (.spawn g a b true nj) s = conclude s (spawnAt s t x a b n) := by
  change execSpawn g a b true nj s = _
  simp only [Bool.not_true, Bool.not_false, Bool.false_eq_true, if_false, if_true, execSpawn, spawnAt, hi, guardOps_ok hr, hg, hal,
    decide_true, Nat.not_lt.mpr hb, hd, spEcc, he, hn, need, bind, Except.bind, pure, Except.pure]

end

/-- SPAWNB past its guard: its place after TKDONE, the batch table, the leaves that are held, the child's record. -/
def spawnbAt (s : State) (t : Nat) (x : Context) (a b : SSel) (wsid : BitVec 6) : Res State := do
  let k := (look s.tasks t).getD {}
  afterDone s t 0x02
  need ((launchOf s k).bftab.getLsbD 0) (trapWith cTask 3 (wsid.setWidth 64))
  let s' := popOps s x true [.s a, .s b]
  if 65536 ≤ leavesHeld s then return pushS s' t 4 (BitVec.allOnes 64)
  let r := spawnChild s' t x {
    launch := x.launch, grp := k.grp, entry := 0, dcyc := 0, key := (sVal s x true b).setWidth 32,
    arg := sVal s x true a, leaf := true, wsid := wsid.toNat }
  return pushS r.1 t 4 r.2

theorem exec_spawnb_off (w : BitVec 6) (hg : gTrue g x = false) (hr : readable s x false [.s a, .s b] 1 = true) :
    exec (.spawnb g a b w) s = .next (pushS s t 4 0) := by
  change execSpawnb g a b w s = _
  simp [execSpawnb, hi, guardOps_ok hr, hg, bind, Except.bind, pure, Except.pure]

theorem exec_spawnb_on (w : BitVec 6) (hg : gTrue g x = true) (hr : readable s x true [.s a, .s b] 1 = true) :
    exec (.spawnb g a b w) s = conclude s (spawnbAt s t x a b w) := by
  change execSpawnb g a b w s = _
  simp only [execSpawnb, spawnbAt, hi, guardOps_ok hr, hg, bind, Except.bind, Bool.not_true, Bool.false_eq_true, if_false]

end

section
variable {s : State} {t : Nat} {x : Context} {a b : SSel}

section
variable {n : NewTask}

theorem spawnAt_retired (hk : ((look s.tasks t).getD {}).retired = true) (hs : scopeOf s t ≠ 0) :
    spawnAt s t x a b n = trapWith cTask 2 1 := by
  simp only [spawnAt, afterDone_trap hk hs]
  rfl

variable (hd : ¬(((look s.tasks t).getD {}).retired = true ∧ scopeOf s t ≠ 0))
include hd

theorem spawnAt_child {s1 : State} (h : relsFirst s t x = .ok s1) :
    spawnAt s t x a b n = .ok (pushS (spawnChild (popOps s1 x true [.s a, .s b]) t x n).1 t 4
      (spawnChild (popOps s1 x true [.s a, .s b]) t x n).2) := by
  simp only [spawnAt, afterDone_ok hd, h, bind, Except.bind, pure, Except.pure]

theorem spawnAt_hold (h : relsFirst s t x = .error .hold) : spawnAt s t x a b n = .error .hold := by
  simp only [spawnAt, afterDone_ok hd, h, bind, Except.bind]

end

section
variable {w : BitVec 6}

theorem spawnbAt_retired (hk : ((look s.tasks t).getD {}).retired = true) (hs : scopeOf s t ≠ 0) :
    spawnbAt s t x a b w = trapWith cTask 2 2 := by
  simp only [spawnbAt, afterDone_trap hk hs]
  rfl

variable (hd : ¬(((look s.tasks t).getD {}).retired = true ∧ scopeOf s t ≠ 0))
include hd

theorem spawnbAt_noTable (hb : (launchOf s ((look s.tasks t).getD {})).bftab.getLsbD 0 = false) :
    spawnbAt s t x a b w = trapWith cTask 3 (w.setWidth 64) := by
  simp only [spawnbAt, afterDone_ok hd, hb, need]
  rfl

variable (hb : (launchOf s ((look s.tasks t).getD {})).bftab.getLsbD 0 = true)
include hb

theorem spawnbAt_full (hl : 65536 ≤ leavesHeld s) :
    spawnbAt s t x a b w = .ok (pushS (popOps s x true [.s a, .s b]) t 4 (BitVec.allOnes 64)) := by
  simp only [spawnbAt, afterDone_ok hd, hb, need, hl, if_true, bind, Except.bind, pure, Except.pure]

theorem spawnbAt_child (hl : leavesHeld s < 65536) :
    spawnbAt s t x a b w =
      (let r := spawnChild (popOps s x true [.s a, .s b]) t x
        { launch := x.launch, grp := ((look s.tasks t).getD {}).grp, entry := 0, dcyc := 0, key := (sVal s x true b).setWidth 32,
          arg := sVal s x true a, leaf := true, wsid := w.toNat }
      .ok (pushS r.1 t 4 r.2)) := by
  simp only [spawnbAt, afterDone_ok hd, hb, need, Nat.not_le.mpr hl, if_true, if_false, bind, Except.bind, pure, Except.pure]

end

end

/-- SPAWN and SPAWNB answer as R403 and R404 say. -/
theorem spawnsAnswer : SpawnsAnswer := by
  intro s t x g a b hi u v k l goes
  refine ⟨fun hg hr => ⟨fun desc nj => exec_spawn_off g a b hi desc nj hg hr, fun w => exec_spawnb_off g a b hi w hg hr⟩,
    fun hg hr hd => ⟨fun s1 h1 => ⟨fun nj hw => ?_, fun nj n hal hb hdr he hn => ?_⟩, fun nj h1 hw => ?_, fun w hb hl => ?_,
      fun w hb hl => ?_, fun w hb => ?_, fun nj hw => exec_spawn_badWord g a b hi nj hg hr hw⟩,
    fun hg hr hk hs => ⟨fun nj hw => ?_, fun w => ?_⟩⟩
  · rw [exec_spawn_word g a b hi nj hg hr hw, spawnAt_child hd h1]
    rfl
  · rw [exec_spawn_desc g a b hi nj hg hr hal hb hdr he hn, spawnAt_child hd h1]
    rfl
  · rw [exec_spawn_word g a b hi nj hg hr hw, spawnAt_hold hd h1]
    rfl
  · rw [exec_spawnb_on g a b hi w hg hr, spawnbAt_child hd hb hl]
    rfl
  · rw [exec_spawnb_on g a b hi w hg hr, spawnbAt_full hd hb hl]
    rfl
  · rw [exec_spawnb_on g a b hi w hg hr, spawnbAt_noTable hd hb]
    rfl
  · rw [exec_spawn_word g a b hi nj hg hr hw, spawnAt_retired hk hs]
    rfl
  · rw [exec_spawnb_on g a b hi w hg hr, spawnbAt_retired hk hs]
    rfl

/-! ### CANCEL and REPRIO -/

section
variable {s : State} {t : Nat} {x : Context} (g : Guard) (a b : SSel) (hi : s.issuer = .ok (t, x))
include hi

theorem exec_cancel_off (hg : gTrue g x = false) (hr : readable s x false [.s a] 0 = true) : exec (.cancel g a) s = .next s := by
  change execCancel g a s = _
  simp [execCancel, hi, guardOps_ok hr, hg, bind, Except.bind, pure, Except.pure]

theorem exec_reprio_off (hg : gTrue g x = false) (hr : readable s x false [.s a, .s b] 0 = true) :
    exec (.reprio g a b) s = .next s := by
  change execReprio g a b s = _
  simp [execReprio, hi, guardOps_ok hr, hg, bind, Except.bind, pure, Except.pure]

section
variable (hg : gTrue g x = true) (hr : readable s x true [.s a] 0 = true)
include hg hr

theorem exec_cancel_badHandle (hu : sVal s x true a ≠ 0) (hc : childOf s t (sVal s x true a) = none) :
    exec (.cancel g a) s = .next (raise s { code := cTask, sub := 1, info := sVal s x true a }) := by
  change execCancel g a s = _
  simp only [execCancel, hi, guardOps_ok hr, hg, if_neg hu, Bool.not_true, Bool.false_eq_true, if_false, childRec_none hc, trapWith,
    Except.map, bind, Except.bind, conclude_trap]

variable (hd : ¬(((look s.tasks t).getD {}).retired = true ∧ scopeOf s t ≠ 0))
include hd

theorem exec_cancel_all (hu : sVal s x true a = 0) :
    exec (.cancel g a) s = .next ((childrenOf s t).foldl (fun s p => cancelOne s t p) (popOps s x true [.s a])) := by
  change execCancel g a s = _
  simp [execCancel, hi, guardOps_ok hr, hg, hu, afterDone_ok hd, bind, Except.bind, pure, Except.pure]

theorem exec_cancel_one {p : Nat × Task} (hu : sVal s x true a ≠ 0) (hc : childOf s t (sVal s x true a) = some p) :
    exec (.cancel g a) s = .next (cancelOne (popOps s x true [.s a]) t p) := by
  change execCancel g a s = _
  simp only [execCancel, hi, guardOps_ok hr, hg, if_neg hu, Bool.not_true, Bool.false_eq_true, if_false, childRec_some hc,
    afterDone_ok hd, Except.map, bind, Except.bind, pure, Except.pure, conclude_ok, List.foldl_cons, List.foldl_nil]

end

section
variable (hg : gTrue g x = true) (hr : readable s x true [.s a, .s b] 0 = true)
include hg hr

theorem exec_reprio_badHandle (hu : sVal s x true a ≠ 0) (hc : childOf s t (sVal s x true a) = none) :
    exec (.reprio g a b) s = .next (raise s { code := cTask, sub := 1, info := sVal s x true a }) := by
  change execReprio g a b s = _
  simp only [execReprio, hi, guardOps_ok hr, hg, if_neg hu, Bool.not_true, Bool.false_eq_true, if_false, childRec_none hc, trapWith,
    bind, Except.bind, conclude_trap]

variable (hd : ¬(((look s.tasks t).getD {}).retired = true ∧ scopeOf s t ≠ 0))
include hd

theorem exec_reprio_self (hu : sVal s x true a = 0) :
    exec (.reprio g a b) s = .next (reprioOne (popOps s x true [.s a, .s b]) t t ((look s.tasks t).getD {})
      ((sVal s x true b).setWidth 32)) := by
  change execReprio g a b s = _
  simp only [execReprio, hi, guardOps_ok hr, hg, hu, afterDone_ok hd, if_true, Bool.not_true, Bool.false_eq_true, if_false,
    bind, Except.bind, pure, Except.pure, conclude_ok]

theorem exec_reprio_child {p : Nat × Task} (hu : sVal s x true a ≠ 0) (hc : childOf s t (sVal s x true a) = some p) :
    exec (.reprio g a b) s = .next (reprioOne (popOps s x true [.s a, .s b]) t p.1 p.2 ((sVal s x true b).setWidth 32)) := by
  change execReprio g a b s = _
  simp only [execReprio, hi, guardOps_ok hr, hg, if_neg hu, Bool.not_true, Bool.false_eq_true, if_false, childRec_some hc,
    afterDone_ok hd, bind, Except.bind, pure, Except.pure, conclude_ok]

end

end

/-- A task that runs has its new key, and beside it the key it began the cycle with. -/
theorem look_reprioOne {s : State} {i : Nat} {c : Task} (t : Nat) (key : W32) (h : look s.tasks i = some c)
    (hst : c.st = .running ∨ c.st = .parked ∨ c.st = .chosen) :
    look (reprioOne s t i c key).tasks i = some { c with key := key, oldKey := some (c.oldKey.getD c.key) } := by
  have hm : reprioOne s t i c key = modTask s i fun k => { k with key := key, oldKey := some (k.oldKey.getD k.key) } := by
    rcases hst with h | h | h <;> simp [reprioOne, h]
  obtain ⟨ts, he, hl, -⟩ := modTask_effect s i fun k => { k with key := key, oldKey := some (k.oldKey.getD k.key) }
  rw [hm, he]
  exact hl.trans (congrArg _ h)

/-- The cycle's end forgets the former keys. -/
theorem look_freshKeys (s : State) (i : Nat) :
    look (freshKeys s).tasks i = (look s.tasks i).map fun k => { k with oldKey := none } :=
  look_map_of_keys (fun p : Nat × Task => (p.1, { p.2 with oldKey := none })) (fun _ => rfl) s.tasks i

/-- CANCEL and REPRIO act on the children they name (R402, R405, R406). -/
theorem childrenAnswer : ChildrenAnswer := by
  intro s t x g a b hi u v k s0 s1
  refine ⟨fun hg => ⟨exec_reprio_off g a b hi hg, exec_cancel_off g a hi hg⟩, fun hg hd => ⟨fun hr => ⟨fun hu => ?_, fun i c hu hc => ?_⟩,
    fun i c key h hst => ⟨look_reprioOne t key h hst, ?_⟩, fun hr => ⟨fun hu => ?_, fun p hu hc => ?_⟩⟩,
    fun hg hu hc => ⟨fun hr => exec_cancel_badHandle g a hi hg hr hu hc, fun hr => exec_reprio_badHandle g a b hi hg hr hu hc⟩⟩
  · exact exec_reprio_self g a b hi hg hr hd hu
  · exact exec_reprio_child g a b hi hg hr hd hu hc
  · rw [look_freshKeys, look_reprioOne t key h hst]
    rfl
  · exact exec_cancel_all g a hi hg hr hd hu
  · exact exec_cancel_one g a hi hg hr hd hu hc

/-! ### JOIN, TKDONE and TSTAT -/

theorem firstEnded_mem {l : List (Nat × Task)} {p : Nat × Task} (h : firstEnded l = some p) : p ∈ l := by
  induction l with
  | nil => cases h
  | cons a r ih =>
    unfold firstEnded at h
    split at h
    · rename_i b hb
      split at h
      · exact Option.some.inj h ▸ List.mem_cons_self
      · exact List.mem_cons_of_mem _ (ih (hb.trans h))
    · exact Option.some.inj h ▸ List.mem_cons_self

theorem firstEnded_isSome {l : List (Nat × Task)} {q : Nat × Task} (h : q ∈ l) : firstEnded l ≠ none := by
  cases l with
  | nil => cases h
  | cons a r =>
    unfold firstEnded
    split
    · split <;> simp
    · simp

/-- None of the tasks ended before the first. -/
theorem firstEnded_le {l : List (Nat × Task)} {p q : Nat × Task} (h : firstEnded l = some p) (hq : q ∈ l) :
    p.2.endSeq ≤ q.2.endSeq := by
  induction l generalizing p with
  | nil => cases h
  | cons a r ih =>
    unfold firstEnded at h
    split at h
    · rename_i b hb
      split at h
      · rename_i hab
        obtain rfl := Option.some.inj h
        rcases List.mem_cons.mp hq with rfl | hq
        · exact Nat.le_refl _
        · exact hab.trans (ih hb hq)
      · rename_i hab
        obtain rfl := Option.some.inj h
        rcases List.mem_cons.mp hq with rfl | hq
        · exact Nat.le_of_not_le hab
        · exact ih hb hq
    · rename_i hb
      obtain rfl := Option.some.inj h
      rcases List.mem_cons.mp hq with rfl | hq
      · exact Nat.le_refl _
      · exact absurd hb (firstEnded_isSome hq)

theorem handleOf_congr {s s' : State} (h : s'.tasks = s.tasks) (i : Nat) : handleOf s' i = handleOf s i := by
  rw [handleOf, h, handleOf]

@[simp] theorem popOps_tasks (s : State) (x : Context) (on : Bool) (os : List Opd) : (popOps s x on os).tasks = s.tasks := by
  obtain ⟨k, l, h⟩ := popOps_effect s x on os
  rw [h]

theorem recallVar_tasks (s : State) (v : Nat) : (recallVar s v).tasks = s.tasks :=
  foldl_keeps (fun s' : State => s'.tasks = s.tasks) _ _ s rfl fun s' p h => by
    obtain ⟨m, q, k, d, he⟩ := writeBack_effect s' p.2.core p.1
    rw [he]
    exact h

/-- The state after JOIN has recalled what its child released and freed the child's record (R124, R407). -/
def freed (s : State) (x : Context) (i : Nat) : State :=
  modTask (dropClean (recallVar s (recVar s i)) x.core) i fun k => { k with st := .free }

theorem freed_tasks (s : State) (x : Context) (i : Nat) :
    look (freed s x i).tasks i = (look s.tasks i).map (fun k => { k with st := .free }) ∧
      ∀ j, j ≠ i → look (freed s x i).tasks j = look s.tasks j := by
  have ht : (dropClean (recallVar s (recVar s i)) x.core).tasks = s.tasks := recallVar_tasks s _
  obtain ⟨ts, he, hl, hne⟩ := modTask_effect (dropClean (recallVar s (recVar s i)) x.core) i fun k => { k with st := .free }
  rw [ht] at hl hne
  rw [freed, he]
  exact ⟨hl, hne⟩

/-- The status word JOIN pushes for an ended child (R407). -/
def joinWord (s : State) (i : Nat) (k : Task) : W64 := BitVec.ofNat 64 (endCode k.how * 2 ^ 32 + (handleOf s i).toNat)

theorem collect_eq (s : State) (t : Nat) (x : Context) (i : Nat) (k : Task) :
    collect s t x i k = pushS (pushS (freed s x i) t 2 (joinWord s i k)) t 2 k.result := rfl

section
variable {s : State} {t : Nat} {x : Context} (g : Guard) (a : SSel) (hi : s.issuer = .ok (t, x))
include hi

theorem exec_join_off (any : Bool) (hg : gTrue g x = false) (hr : readable s x false (if any then [] else [.s a]) 2 = true) :
    exec (.join g a any) s = .next (pushS (pushS s t 2 0) t 2 0) := by
  change execJoin g a any s = _
  simp [execJoin, hi, guardOps_ok hr, hg, bind, Except.bind, pure, Except.pure]

section
variable (hg : gTrue g x = true) (hr : readable s x true [.s a] 2 = true)
include hg hr

theorem exec_join_badHandle (hc : childOf s t (sVal s x true a) = none) :
    exec (.join g a false) s = .next (raise s { code := cTask, sub := 1, info := sVal s x true a }) := by
  change execJoin g a false s = _
  simp [execJoin, hi, guardOps_ok hr, hg, childRec_none hc, trapWith, bind, Except.bind]

variable {i : Nat} {k : Task} (hc : childOf s t (sVal s x true a) = some (i, k))
include hc

theorem exec_join_noJoin (hn : k.nj = true) :
    exec (.join g a false) s = .next (raise s { code := cTask, sub := 1, info := sVal s x true a }) := by
  change execJoin g a false s = _
  simp [execJoin, hi, guardOps_ok hr, hg, childRec_some hc, hn, trapWith, bind, Except.bind]

theorem exec_join_running (hn : k.nj = false) (hst : k.st ≠ .ended) :
    exec (.join g a false) s = .next (s.modLatch fun l => { l with held := true }) := by
  change execJoin g a false s = _
  simp [execJoin, hi, guardOps_ok hr, hg, childRec_some hc, hn, hst, bind, Except.bind]

theorem exec_join_ended (hn : k.nj = false) (hst : k.st = .ended) :
    exec (.join g a false) s = .next (collect (popOps s x true [.s a]) t x i k) := by
  change execJoin g a false s = _
  simp [execJoin, hi, guardOps_ok hr, hg, childRec_some hc, hn, hst, bind, Except.bind, pure, Except.pure]

end

section
variable (hg : gTrue g x = true) (hr : readable s x true [] 2 = true)
include hg hr

theorem exec_joinAny_first {p : Nat × Task}
    (h : firstEnded (((childrenOf s t).filter fun p => !p.2.nj).filter fun p => p.2.st == .ended) = some p) :
    exec (.join g a true) s = .next (collect s t x p.1 p.2) := by
  change execJoin g a true s = _
  simp only [execJoin, hi, guardOps_ok hr, hg, h, if_true, Bool.not_true, Bool.false_eq_true, if_false, bind, Except.bind, pure,
    Except.pure, conclude_ok]

theorem exec_joinAny_running (hc : ((childrenOf s t).filter fun p => !p.2.nj) ≠ [])
    (he : (((childrenOf s t).filter fun p => !p.2.nj).filter fun p => p.2.st == .ended) = []) :
    exec (.join g a true) s = .next (s.modLatch fun l => { l with held := true }) := by
  change execJoin g a true s = _
  simp only [execJoin, hi, guardOps_ok hr, hg, he, firstEnded, List.isEmpty_eq_false_iff.mpr hc, if_true, Bool.not_true, Bool.not_false,
    Bool.false_eq_true, if_false, bind, Except.bind, conclude_hold]

theorem exec_joinAny_none (hc : ((childrenOf s t).filter fun p => !p.2.nj) = []) :
    exec (.join g a true) s = .next (pushS (pushS s t 2 0x300000000) t 2 0) := by
  change execJoin g a true s = _
  simp only [execJoin, hi, guardOps_ok hr, hg, hc, List.filter_nil, firstEnded, List.isEmpty_nil, if_true, Bool.not_true,
    Bool.false_eq_true, if_false, bind, Except.bind, pure, Except.pure, conclude_ok]

end

theorem exec_tkdone :
    exec (.tkdone g) s = .next (if gTrue g x then
      (if scopeOf s t = 0 then modTask s t fun k => { k with retired := true }
        else (modTask s t fun k => { k with retired := true }).due .ticketRetire { task := t }) else s) := by
  change execTkdone g s = _
  cases hg : gTrue g x <;> simp [execTkdone, hi, guardOps_nil, hg, bind, Except.bind, pure, Except.pure]

theorem exec_tstat (hr : readable s x (gTrue g x) [] 1 = true) :
    exec (.tstat g) s = .next (if gTrue g x then pushS s.tick t 1 (taskStatus s t ((look s.tasks t).getD {})) else pushS s t 1 0) := by
  change execTstat g s = _
  simp only [execTstat, hi, guardOps_ok hr, bind, Except.bind, pure, Except.pure]
  cases gTrue g x <;> rfl

end

theorem mem_keys_of_mem {α : Type} {m : SMap α} {i : Nat} {v : α} (h : (i, v) ∈ m) : (look m i).isSome = true := by
  induction m with
  | nil => cases h
  | cons p r ih =>
    unfold look
    split
    · rfl
    · rename_i hp
      exact ih ((List.mem_cons.mp h).resolve_left fun he => hp (congrArg Prod.fst he).symm)

/-- A child JOIN can collect stands in the records. -/
theorem look_of_mem_children {s : State} {t i : Nat} {k : Task} {f h : Nat × Task → Bool}
    (hm : (i, k) ∈ ((childrenOf s t).filter f).filter h) : (look s.tasks i).isSome = true :=
  mem_keys_of_mem (List.mem_of_mem_filter (List.mem_of_mem_filter (List.mem_of_mem_filter hm)))

/-- JOIN, TKDONE and TSTAT answer as R407 to R409 say. -/
theorem joinsAnswer : JoinsAnswer := by
  intro s t x g a hi
  refine ⟨fun any hg hr => exec_join_off g a hi any hg hr, fun hg hr => ⟨fun i k hc hn => ⟨fun hst => ?_, fun hst => ?_⟩, fun hc => ?_⟩,
    fun hg hr => ⟨exec_joinAny_none g a hi hg hr, exec_joinAny_running g a hi hg hr, fun i k hf => ⟨fun p hp => firstEnded_le hf hp, ?_⟩⟩,
    fun hg => ?_, fun hg k hk => ?_, exec_tstat g hi⟩
  · obtain ⟨hl, hne⟩ := freed_tasks (popOps s x true [.s a]) x i
    rw [popOps_tasks] at hl hne
    refine ⟨freed (popOps s x true [.s a]) x i, ?_, hl.trans (congrArg _ (look_of_childOf hc)), hne⟩
    rw [exec_join_ended g a hi hg hr hc hn hst, collect_eq, joinWord, handleOf_congr (popOps_tasks ..)]
  · exact exec_join_running g a hi hg hr hc hn hst
  · rcases hc with hc | ⟨i, k, hc, hn⟩
    · exact exec_join_badHandle g a hi hg hr hc
    · exact exec_join_noJoin g a hi hg hr hc hn
  · obtain ⟨hl, hne⟩ := freed_tasks s x i
    refine ⟨freed s x i, ?_, ?_, hne⟩
    · rw [exec_joinAny_first g a hi hg hr hf, collect_eq, joinWord]
    · obtain ⟨k', hk'⟩ := Option.isSome_iff_exists.mp (look_of_mem_children (firstEnded_mem hf))
      rw [hl, hk']
      rfl
  · rw [exec_tkdone g hi, hg]
    rfl
  · obtain ⟨ts, he, hl, hne⟩ := modTask_effect s t fun k => { k with retired := true }
    rw [exec_tkdone g hi, hg, if_pos rfl, he]
    refine ⟨_, rfl, ?_⟩
    split
    · exact ⟨hl.trans (congrArg _ hk), hne, (List.append_nil _).symm⟩
    · exact ⟨hl.trans (congrArg _ hk), hne, rfl⟩

/-! ### The record of a new task -/

/-- The record a new task takes, before its start conditions are looked at (R379, R383, R389). -/
def newRec (s : State) (n : NewTask) (i spidx : Nat) : Task :=
  let det := launchScope s n.launch != 0
  let own : W64 := BitVec.ofNat 64 ((s.taken + 1) % 2 ^ 48)
  let rk := n.rank.getD (if det then (0, spidx) else (own, 0))
  { st := if n.leaf then .batched else .waiting
    gen := ((look s.tasks i).map (·.gen)).getD 0 + 1, launch := n.launch, grp := n.grp, entry := n.entry, dcyc := n.dcyc, key := n.key
    ticket := if det then none else some own
    parent := n.parent, spidx := if n.rank.isSome then rk.2 else spidx, rank := rk.1, arg := n.arg, k1 := n.k1, aff := n.aff.toNat
    sem := n.sem, nj := n.nj, leaf := n.leaf, batch := n.batch, wsid := n.wsid, tvec := n.tvec, expchk := n.expchk }

/-- The state with that record in it. -/
def withRec (s : State) (n : NewTask) (i spidx : Nat) : State :=
  { s.tick with taken := s.taken + 1, tasks := put s.tasks i (newRec s n i spidx) }

/-- The record as it stands once its start conditions have been looked at (R388). -/
def takenRec (s : State) (n : NewTask) (i spidx : Nat) : Task :=
  { newRec s n i spidx with st := if n.leaf then .batched else if condsHold s (newRec s n i spidx) then .ready else .waiting }

/-- A new record waits on a broken phaser (R421). -/
def recBroken (s : State) (i : Nat) : Bool := ((look s.tasks i).map fun k => k.st == .waiting && condBroken s k).getD false

theorem createTask_none {s : State} (n : NewTask) (spidx : Nat) (h : pickRec s = none) : createTask s n false spidx = none := by
  simp only [createTask, h]

theorem tryReady_holds {s : State} {i : Nat} {k : Task} (h : look s.tasks i = some k) (hst : k.st = .waiting) (hc : condsHold s k = true) :
    tryReady s i = { s with tasks := put s.tasks i { k with st := .ready, at_ := s.acyc[0] } } := by
  simp only [tryReady, modTask, h, hst, hc, and_self, if_true]

theorem tryReady_waits {s : State} {i : Nat} {k : Task} (h : look s.tasks i = some k) (hc : condsHold s k = false) : tryReady s i = s := by
  simp only [tryReady, h, hc, Bool.false_eq_true, and_false, if_false]

section
variable {s : State} {n : NewTask} {i : Nat} (spidx : Nat)

theorem look_withRec : look (withRec s n i spidx).tasks i = some (newRec s n i spidx) := look_put_self ..

theorem withRec_keeps : ∀ j, j ≠ i → look (withRec s n i spidx).tasks j = look s.tasks j := fun _ hj => look_put_ne _ _ hj

section
variable (hp : pickRec s = some i)
include hp

theorem createTask_eq : createTask s n false spidx =
    (let s' := if n.leaf then withRec s n i spidx else tryReady (withRec s n i spidx) i
    some (if recBroken s' i then revoke s' i else s', i)) := by
  unfold createTask
  rw [hp]
  rfl

theorem createTask_keeps (h : n.leaf = true ∨ condsHold s (newRec s n i spidx) = false ∧ condBroken s (newRec s n i spidx) = false) :
    createTask s n false spidx = some (withRec s n i spidx, i) := by
  have hs : (if n.leaf then withRec s n i spidx else tryReady (withRec s n i spidx) i) = withRec s n i spidx := by
    split
    · rfl
    · rename_i hl
      exact tryReady_waits (look_withRec spidx) (h.resolve_left hl).1
  have hb : recBroken (withRec s n i spidx) i = false := by
    rw [recBroken, look_withRec]
    rcases h with hl | ⟨-, hb⟩
    · simp [newRec, hl]
    · exact (congrArg _ hb).trans (Bool.and_false _)
  rw [createTask_eq spidx hp, hs]
  simp only [hb, Bool.false_eq_true, if_false]

theorem createTask_goes (hl : n.leaf = false) (hc : condsHold s (newRec s n i spidx) = true) :
    createTask s n false spidx = some ({ withRec s n i spidx with
      tasks := put (withRec s n i spidx).tasks i { newRec s n i spidx with st := .ready, at_ := s.acyc[0] } }, i) := by
  have hst : (newRec s n i spidx).st = .waiting := by simp [newRec, hl]
  rw [createTask_eq spidx hp, hl]
  simp only [Bool.false_eq_true, if_false, tryReady_holds (look_withRec spidx) hst hc, recBroken, look_put_self, Option.map_some,
    Option.getD_some, beq_iff_eq, reduceCtorEq, Bool.and_eq_true, false_and]
  rfl

end

theorem takenRec_of_leaf (hl : n.leaf = true) : takenRec s n i spidx = newRec s n i spidx := by
  have hst : TState.batched = (newRec s n i spidx).st := by simp [newRec, hl]
  rw [takenRec, hl, if_pos rfl, hst]

theorem takenRec_of_waiting (hl : n.leaf = false) (hc : condsHold s (newRec s n i spidx) = false) :
    takenRec s n i spidx = newRec s n i spidx := by
  have hst : TState.waiting = (newRec s n i spidx).st := by simp [newRec, hl]
  rw [takenRec, hl, hc, if_neg Bool.false_ne_true, if_neg Bool.false_ne_true, hst]

theorem takenRec_of_ready (hl : n.leaf = false) (hc : condsHold s (newRec s n i spidx) = true) :
    takenRec s n i spidx = { newRec s n i spidx with st := .ready } := by
  rw [takenRec, hl, hc, if_neg Bool.false_ne_true, if_pos rfl]

theorem takenRec_ticket : (takenRec s n i spidx).ticket =
    if launchScope s n.launch ≠ 0 then none else some (BitVec.ofNat 64 ((s.taken + 1) % 2 ^ 48)) := by
  simp [takenRec, newRec]

variable (hp : pickRec s = some i)
include hp

/-- The task takes its record; unless it is revoked at once, the record stands as it was filled and no other changes. -/
theorem createTask_takes : ∃ s', createTask s n false spidx = some (s', i) ∧
    let k := takenRec s n i spidx
    ((n.leaf = true ∨ condsHold s k = true ∨ condBroken s k = false) →
      look s'.tasks i = some { k with at_ := if n.leaf = false ∧ condsHold s k then s.acyc[0] else k.at_ } ∧ s'.taken = s.taken + 1 ∧
      (∀ j, j ≠ i → look s'.tasks j = look s.tasks j)) := by
  cases hl : n.leaf with
  | true =>
    refine ⟨_, createTask_keeps spidx hp (.inl hl), fun _ => ⟨?_, rfl, withRec_keeps spidx⟩⟩
    simp only [look_withRec, takenRec_of_leaf spidx hl, Bool.true_eq_false, false_and, if_false]
  | false =>
    cases hc : condsHold s (newRec s n i spidx) with
    | true =>
      have hc' : condsHold s (takenRec s n i spidx) = true := hc
      refine ⟨_, createTask_goes spidx hp hl hc, fun _ => ⟨?_, rfl, fun j hj => ?_⟩⟩
      · rw [look_put_self, if_pos ⟨rfl, hc'⟩, takenRec_of_ready spidx hl hc]
      · exact (look_put_ne _ _ hj).trans (withRec_keeps spidx j hj)
    | false =>
      have hc' : condsHold s (takenRec s n i spidx) = false := hc
      cases hb : condBroken s (newRec s n i spidx) with
      | true => exact ⟨_, createTask_eq spidx hp, fun h => by simp [hc', show condBroken s (takenRec s n i spidx) = true from hb] at h⟩
      | false =>
        refine ⟨_, createTask_keeps spidx hp (.inr ⟨hc, hb⟩), fun _ => ⟨?_, rfl, withRec_keeps spidx⟩⟩
        simp only [look_withRec, takenRec_of_waiting spidx hl hc, hc, Bool.false_eq_true, and_false, if_false]

end

/-- A record taken for a task holds what it was given (R379, R383, R388, R389). -/
theorem recordsTaken : RecordsTaken := by
  intro s n sp
  refine ⟨createTask_none n sp, fun i hp => ?_⟩
  obtain ⟨s', hs, hk⟩ := createTask_takes (n := n) sp hp
  exact ⟨s', takenRec s n i sp, hs, rfl, rfl, rfl, rfl, rfl, rfl, rfl, rfl, rfl, rfl, takenRec_ticket sp, rfl, hk⟩

/-- Settles O39: the branches of each task instruction, JOIN's record through what it recalls, a new record through its start conditions. -/
theorem taskInstructions : Obligations.TaskInstructions := ⟨spawnsAnswer, childrenAnswer, joinsAnswer, recordsTaken⟩

end Sys2Proof.Machine
end

section
/-!
PROOFS. Vector accesses to scratchpads and global memory (R148, R216 to R223): the statement of O21.
-/

namespace Sys2Proof.Machine

/-! ### Checks of the active lanes (R146, R218) -/

/-- Where every lane passes, the checks answer with what each lane found. -/
theorem laneChecks_ok {α : Type} {ls : List Nat} {f : Nat → Except Cause α} {v : Nat → α} (h : ∀ l ∈ ls, f l = .ok (v l)) :
    laneChecks ls f = .ok (ls.map fun l => (l, v l)) := by
  unfold laneChecks
  split
  · rename_i c hc
    rw [List.filterMap_eq_nil_iff.mpr] at hc
    · cases hc
    · intro l hl
      rw [h l hl]
  · rw [← List.filterMap_eq_map, List.filterMap_congr]
    intro l hl
    rw [h l hl]
    rfl

theorem mem_lanesOf {m : W64} {l : Nat} : l ∈ lanesOf m ↔ l < 64 ∧ m.getLsbD l = true := by
  rw [lanesOf, List.mem_filter, List.mem_range]

theorem lanesOf_zero : lanesOf 0 = [] := by decide

/-- The lanes of an own access that are aligned and lie in the scratchpad (R85, R86). -/
theorem lanesAt_own {s : State} {x : Context} {n : Nat} {m : W64} {ad : Nat → W64}
    (h : ∀ l, l < 64 → m.getLsbD l = true → (ad l).toNat % n = 0 ∧ (ad l).toNat + n ≤ spExt (s.core x.core).part) :
    LanesAt s x .own n m ad ((lanesOf m).map fun l => (l, x.core, (ad l).toNat)) :=
  laneChecks_ok fun l hl => by
    obtain ⟨ha, hb⟩ := h l (mem_lanesOf.mp hl).1 (mem_lanesOf.mp hl).2
    simp [laneTarget, ha, Nat.not_lt.mpr hb]

theorem laneEcc_ok {s : State} {n : Nat} {ts : List (Nat × Nat × Nat)} (addr : Nat → W64) (h : LanesSound s n ts) :
    laneEcc s ts n addr = .ok () := by
  have hf : (ts.find? fun p => spBad s p.2.1 p.2.2 n) = none := List.find?_eq_none.mpr fun p hp => by simp [h p hp]
  rw [laneEcc, hf]

/-! ### Rows, gathers and scatters of scratchpads (R216 to R223) -/

section
variable {c : Clu} {s : State} {t : Nat} {x : Context} {g : Guard} {a b : VSel} {w : Space} {ts : List (Nat × Nat × Nat)}
  (hi : s.issuer = .ok (t, x)) (hm : x.trapMode = false)
include hi hm

theorem vLdRow_lands {fe : FeL} (lat : Nat) (hr : readable s x true [.v c a, .v c b] 1 = true)
    (hts : LanesAt s x w 4 (laneMask x c g) (rowAddr ((vVal x c .i32 a).lane 0 + (vVal x c .i32 b).lane 0)) ts)
    (hd : anyDrain s x t ts = false) (hf : fe = .plain ∨ linesAre s (rowCore x ts) true (rowLines ts) = true)
    (hw : fe = .wfe → ∀ l ∈ rowLines ts, l ∉ (s.core (rowCore x ts)).wfe) (hs : LanesSound s 4 ts) :
    vLdRow c g a b fe w lat s = .next
      (pushV (if ts.isEmpty then s else feLoaded s (rowCore x ts) x.core fe (rowLines ts)) t c lat (laneMask x c g)
        (loaded (vVal x c .i32 a) (ts.map fun p => (p.1, laneOf (spRead s p.2.1 p.2.2 4)))) (vVal x c .i32 a)) := by
  simp only [vLdRow, hi, noTrapMode_ok hm, guardOps_ok (readable_of_true _ hr), show laneChecks _ _ = _ from hts, hd, feHold_load, if_pos hf,
    wfeHold_ok hw, laneEcc_ok _ hs, Bool.false_eq_true, if_false, bind, Except.bind, pure, Except.pure, conclude_ok]

theorem vStRow_stores {fe : FeS} (hr : readable s x true [.v c a, .v c b] 0 = true)
    (hts : LanesAt s x w 4 (laneMask x c g) (rowAddr ((vVal x c .i32 a).lane 0)) ts)
    (hd : anyDrain s x t ts = false) (hf : fe = .wesf → linesAre s (rowCore x ts) false (rowLines ts) = true)
    (hl : (fe = .sf ∨ fe = .wesf) → x.rels.any Later.localRel = false) :
    vStRow c g a b fe w s = .next (if ts.isEmpty then s else spStore s (rowCore x ts) x.core 0 fe
      (ts.flatMap fun p => place p.2.2 (leBytes ((vVal x c .i32 b).lane p.1).toNat 4)) (rowLines ts)) := by
  simp only [vStRow, hi, noTrapMode_ok hm, guardOps_ok (readable_of_true _ hr), show laneChecks _ _ = _ from hts, hd,
    (feSHold_eq ..).trans (if_pos ⟨hf, hl⟩), Bool.false_eq_true, if_false, bind, Except.bind, pure, Except.pure]
  split <;> rfl

theorem vGath_lands {gsp : GSpace} {sz : GSize} (u : Bool) (hr : readable s x true [.v c a, .v c b] 1 = true)
    (hts : LanesAt s x (gSpace gsp) (gszBytes sz) (laneMask x c g)
      (fun l => ((vVal x c .i32 a).lane l + (vVal x c .i32 b).lane l).setWidth 64) ts)
    (hd : anyDrain s x t ts = false) (hs : LanesSound s (gszBytes sz) ts) :
    vGath c g a b gsp sz u s = .next (pushV s t c 10 (laneMask x c g)
      (loaded (vVal x c .i32 a) (ts.map fun p => (p.1, (extend (gszBytes sz) u (spRead s p.2.1 p.2.2 (gszBytes sz))).setWidth 32)))
      (vVal x c .i32 a)) := by
  simp only [vGath, hi, noTrapMode_ok hm, guardOps_ok (readable_of_true _ hr), show laneChecks _ _ = _ from hts, hd, laneEcc_ok _ hs,
    Bool.false_eq_true, if_false, bind, Except.bind, pure, Except.pure, conclude_ok]

theorem vScat_stores {gsp : GSpace} {sz : GSize} (hr : readable s x true [.v c a, .v c b] 0 = true)
    (hts : LanesAt s x (gSpace gsp) (gszBytes sz) (laneMask x c g) (fun l => ((vVal x c .i32 a).lane l).setWidth 64) ts)
    (hd : anyDrain s x t ts = false) :
    vScat c g a b gsp sz s = .next ((ts.map fun p => p.2.1).dedup.foldl (fun s k =>
      spStore s k x.core 0 .plain ((ts.filter fun p => p.2.1 == k).flatMap fun p =>
        place p.2.2 (leBytes ((vVal x c .i32 b).lane p.1).toNat (gszBytes sz))) []) s) := by
  simp only [vScat, hi, noTrapMode_ok hm, guardOps_ok (readable_of_true _ hr), show laneChecks _ _ = _ from hts, hd,
    Bool.false_eq_true, if_false, bind, Except.bind, pure, Except.pure, conclude_ok]

end

/-! ### Loads of rows of global memory (R216 to R218, R221) -/

/-- A global row past its checks: requested, read, or made to wait for what is before it. -/
def ldRowAt (s : State) (t : Nat) (x : Context) (c : Clu) (va : VReg) (m a0 : W64) (ls : List (Nat × W64)) : Res State := do
  if isRemote a0 then
    if pkgOf a0 ≠ s.fab.ep then tagFree s x.core
    let span := farSpan s (pkgOf a0) (offOf a0) 256
    let acks := ownStores s t span
    let pends := ownLoads s t span
    if behind x span || !acks.isEmpty || !pends.isEmpty then
      return pushLater s t (cluQ c) a0 span acks (fun id => .rrow m va id) pends
    return rowGo s t x a0 m va (nextId s t) fun s v => pushQ s t (cluQ c) 14 (v.map .v)
  let (s, ps) ← localLanes s x.core .rd ls
  let acks := ownStores s t (rowSpan ps)
  if behind x (rowSpan ps) || !acks.isEmpty then
    return pushLater s t (cluQ c) a0 (rowSpan ps) acks fun id => .row ps m va id
  match rowRace s x.core t ps with
  | some (ra, pa) => return pushQ (raceAt s t x.core pa ra) t (cluQ c) 14 (some (.v VReg.zero))
  | none =>
    match loadLanes s x.core t ps with
    | (_, _, some (ea, sub)) => eccTrap sub ea
    | (s, vs, none) => return pushV s t c 14 m (loaded va vs) va

section
variable {s : State} {t : Nat} {x : Context} {c : Clu} (va : VReg) (m : W64) {a0 : W64} {ls : List (Nat × W64)}

theorem ldRowAt_remote (hf : isRemote a0 = true)
    (hg : pkgOf a0 = s.fab.ep ∨ tagsOut s x.core + ((s.latch.map (·.far)).getD []).length < 4096)
    (hb : NothingBefore s t x (farSpan s (pkgOf a0) (offOf a0) 256)) (ho : ownLoads s t (farSpan s (pkgOf a0) (offOf a0) 256) = []) :
    ldRowAt s t x c va m a0 ls = .ok (rowGo s t x a0 m va (nextId s t) fun s v => pushQ s t (cluQ c) 14 (v.map .v)) := by
  obtain ⟨hb, hs⟩ := hb
  by_cases hp : pkgOf a0 = s.fab.ep
  · simp [ldRowAt, hf, hb, hs, ho, if_neg (not_not.mpr hp), bind, Except.bind, pure, Except.pure]
  · simp [ldRowAt, hf, hb, hs, ho, tagFree_ok (hg.resolve_left hp), bind, Except.bind, pure, Except.pure]

section
variable {s1 : State} {ps : List (Nat × W64 × Nat × Bool)} (hf : isRemote a0 = false) (hx : localLanes s x.core .rd ls = .ok (s1, ps))
  (hb : NothingBefore s1 t x (rowSpan ps))
include hf hx hb

theorem ldRowAt_race {ra : W64} {pa : Nat} (hr : rowRace s1 x.core t ps = some (ra, pa)) :
    ldRowAt s t x c va m a0 ls = .ok (pushQ (raceAt s1 t x.core pa ra) t (cluQ c) 14 (some (.v VReg.zero))) := by
  simp [ldRowAt, hf, hx, nothingBefore_iff.mp hb, hr, bind, Except.bind, pure, Except.pure]

theorem ldRowAt_read {s2 : State} {vs : List (Nat × W32)} (hr : rowRace s1 x.core t ps = none)
    (hl : loadLanes s1 x.core t ps = (s2, vs, none)) : ldRowAt s t x c va m a0 ls = .ok (pushV s2 t c 14 m (loaded va vs) va) := by
  simp [ldRowAt, hf, hx, nothingBefore_iff.mp hb, hr, hl, bind, Except.bind, pure, Except.pure]

end

end

section
variable {c : Clu} {s : State} {t : Nat} {x : Context} {g : Guard} {a b h : VSel} (hi : s.issuer = .ok (t, x)) (hm : x.trapMode = false)
include hi hm

section
variable (hr : readable s x true [.v c a, .v c b, .v c h] 1 = true)
include hr

theorem vLdg_none (hz : laneMask x c g = 0) :
    vLdg c g a b h s = .next (pushV s t c 14 (laneMask x c g) (vVal x c .i32 a) (vVal x c .i32 a)) := by
  have hc : ∀ f : Nat → Except Cause Unit, laneChecks (lanesOf 0) f = .ok [] := fun f => by rw [lanesOf_zero]; rfl
  simp only [vLdg, hi, noTrapMode_ok hm, guardOps_ok (readable_of_true _ hr), hz, hc, if_true, bind, Except.bind, pure, Except.pure,
    conclude_ok]

theorem vLdg_on {m : W64} {ad : Nat → W64} (hk : laneMask x c g = m)
    (ha : gRowAddr ((vVal x c .i32 h).lane 0) ((vVal x c .i32 a).lane 0) ((vVal x c .i32 b).lane 0) = ad) (hz : m ≠ 0)
    (hl : ∀ l ∈ lanesOf m, gLaneOk s (((vVal x c .i32 h).lane 0).extractLsb' 25 7 != 0) (ad 0) (ad l) = .ok ())
    (hd : drainHeld s x t x.core = false) :
    vLdg c g a b h s = conclude s (ldRowAt s t x c (vVal x c .i32 a) m (ad 0) ((lanesOf m).map fun l => (l, ad l))) := by
  simp only [vLdg, hi, noTrapMode_ok hm, guardOps_ok (readable_of_true _ hr), hk, ha, laneChecks_ok hl, if_neg hz, hd,
    Bool.false_eq_true, if_false, bind, Except.bind]
  rfl

end

/-! ### Stores of rows of global memory (R216 to R218, R221) -/

section
variable (hr : readable s x true [.v c a, .v c b, .v c h] 0 = true)
include hr

theorem vStg_none (hz : laneMask x c g = 0) : vStg c g a b h s = .next s := by
  have hc : ∀ f : Nat → Except Cause Unit, laneChecks (lanesOf 0) f = .ok [] := fun f => by rw [lanesOf_zero]; rfl
  simp only [vStg, hi, noTrapMode_ok hm, guardOps_ok (readable_of_true _ hr), hz, hc, if_true, bind, Except.bind, pure, Except.pure,
    conclude_ok]

variable {m : W64} {ad : Nat → W64} (hk : laneMask x c g = m)
  (ha : gRowAddr ((vVal x c .i32 h).lane 0) ((vVal x c .i32 a).lane 0) 0 = ad) (hz : m ≠ 0)
  (hl : ∀ l ∈ lanesOf m, gLaneOk s (((vVal x c .i32 h).lane 0).extractLsb' 25 3 != 0) (ad 0) (ad l) = .ok ())
  (hd : drainHeld s x t x.core = false)
include hk ha hz hl hd

theorem vStg_remote (hf : isRemote (ad 0) = true) (hs : strmFull s x (((vVal x c .i32 h).lane 0).extractLsb' 28 4).toNat = false) :
    vStg c g a b h s = .next (deferWrite s x.core (.rem t (((vVal x c .i32 h).lane 0).extractLsb' 28 4).toNat (ad 0)
      (.write ((lanesOf m).flatMap fun l => place (offOf (ad l)) (leBytes ((vVal x c .i32 b).lane l).toNat 4))))) := by
  simp only [vStg, hi, noTrapMode_ok hm, guardOps_ok (readable_of_true _ hr), hk, ha, laneChecks_ok hl, if_neg hz, hd, hf, hs,
    List.flatMap_map, Bool.false_eq_true, if_false, if_true, bind, Except.bind, pure, Except.pure, conclude_ok]

theorem vStg_local {s1 : State} {ps : List (Nat × W64 × Nat × Bool)} (hf : isRemote (ad 0) = false)
    (hx : localLanes s x.core .wr ((lanesOf m).map fun l => (l, ad l)) = .ok (s1, ps)) :
    vStg c g a b h s = .next (deferWrite s1 x.core
      (.glob t (ps.map fun p => (p.2.1, p.2.2.1, leBytes ((vVal x c .i32 b).lane p.1).toNat 4, p.2.2.2)))) := by
  simp only [vStg, hi, noTrapMode_ok hm, guardOps_ok (readable_of_true _ hr), hk, ha, laneChecks_ok hl, if_neg hz, hd, hf, hx,
    Bool.false_eq_true, if_false, bind, Except.bind, pure, Except.pure, conclude_ok]

end

end

/-! ### The instructions of the two clusters and of the two spaces -/

theorem exec_vld (c : Clu) (w : Space) (g : Guard) (a b : VSel) (fe : FeL) (s : State) :
    exec (onSp w (onCl c (.vldA g a b fe) (.vldB g a b fe)) (onCl c (.vldwA g a b fe) (.vldwB g a b fe))) s =
      vLdRow c g a b fe w (if w = .own then 6 else 9) s := by
  cases w <;> cases c <;> rfl

theorem exec_vst (c : Clu) (w : Space) (g : Guard) (a b : VSel) (fe : FeS) (s : State) :
    exec (onSp w (onCl c (.vstA g a b fe) (.vstB g a b fe)) (onCl c (.vstwA g a b fe) (.vstwB g a b fe))) s =
      vStRow c g a b fe w s := by
  cases w <;> cases c <;> rfl

theorem exec_vgath (c : Clu) (g : Guard) (a b : VSel) (gsp : GSpace) (sz : GSize) (u : Bool) (s : State) :
    exec (onCl c (.vgathA g a b gsp sz u) (.vgathB g a b gsp sz u)) s = vGath c g a b gsp sz u s := by
  cases c <;> rfl

theorem exec_vscat (c : Clu) (g : Guard) (a b : VSel) (gsp : GSpace) (sz : GSize) (s : State) :
    exec (onCl c (.vscatA g a b gsp sz) (.vscatB g a b gsp sz)) s = vScat c g a b gsp sz s := by
  cases c <;> rfl

theorem exec_vldg (c : Clu) (g : Guard) (a b h : VSel) (s : State) :
    exec (onCl c (.vldgA g a b h) (.vldgB g a b h)) s = vLdg c g a b h s := by
  cases c <;> rfl

theorem exec_vstg (c : Clu) (g : Guard) (a b h : VSel) (s : State) :
    exec (onCl c (.vstgA g a b h) (.vstgB g a b h)) s = vStg c g a b h s := by
  cases c <;> rfl

/-- Settles O21: past the checks of its lanes each access reads its lanes, is requested, or is left to its bundle. -/
theorem vectorAccesses : Obligations.VectorAccesses := by
  refine ⟨⟨fun c s t x g a b fe w ts hi hm hr hts hd hf hw hs => ?_, fun c s t x g a b fe w ts hi hm hr hts hd hf hl => ?_,
    fun c s t x g a b gsp sz u ts hi hm hr hts hd hs => ?_, fun c s t x g a b gsp sz ts hi hm hr hts hd => ?_,
    fun s x n m ad _ h => lanesAt_own h⟩,
    fun c s t x g a b h hi hm hr => ⟨fun hz => ?_, fun hz hl hd => ⟨fun hf hg hb ho => ?_, fun hf s1 ps hx hb =>
      ⟨fun s2 vs hn hv => ?_, fun ra pa hra => ?_⟩⟩⟩,
    fun c s t x g a b h hi hm hr => ⟨fun hz => ?_, fun hz hl hd => ⟨fun hf hs => ?_, fun hf s1 ps hx => ?_⟩⟩⟩
  · rw [exec_vld, vLdRow_lands hi hm _ hr hts hd hf hw hs]
  · rw [exec_vst, vStRow_stores hi hm hr hts hd hf hl]
  · rw [exec_vgath, vGath_lands hi hm u hr hts hd hs]
  · rw [exec_vscat, vScat_stores hi hm hr hts hd]
  · rw [exec_vldg, vLdg_none hi hm hr hz]
  · rw [exec_vldg, vLdg_on hi hm hr rfl rfl hz hl hd, ldRowAt_remote _ _ hf hg hb ho]
    rfl
  · rw [exec_vldg, vLdg_on hi hm hr rfl rfl hz hl hd, ldRowAt_read _ _ hf hx hb hn hv]
    rfl
  · rw [exec_vldg, vLdg_on hi hm hr rfl rfl hz hl hd, ldRowAt_race _ _ hf hx hb hra]
    rfl
  · rw [exec_vstg, vStg_none hi hm hr hz]
  · rw [exec_vstg, vStg_remote hi hm hr rfl rfl hz hl hd hf hs]
  · rw [exec_vstg, vStg_local hi hm hr rfl rfl hz hl hd hf hx]

end Sys2Proof.Machine
end

section
/-!
PROOFS. The replay nest's instructions and context control (R134, R142, R151, R185, R186, R191 to R195): the statements of O7 and O9.
-/

namespace Sys2Proof.Machine

section
variable {s : State} {t : Nat} {x : Context} (hi : s.issuer = .ok (t, x))
include hi

/-! ### NEST, NSTRIDE and NESTMASK -/

theorem exec_nest {g : Guard} {a : SSel} {bs : NestB} (len : BitVec 6)
    (hr : readable s x (gTrue g x) [.s (if bs.cq then .cq else a)] 0 = true) :
    let src : SSel := if bs.cq then .cq else a
    exec (.nest g a bs len) s = .next (
      if gTrue g x = false then s
      else if nestRoom x (len.toNat + 1) then
        nestOpen (popOps s x true [.s src]) t ((sVal s x true src).toNat % 2 ^ 32) bs.stages.toNat (len.toNat + 1)
      else raise s { code := cOperand, sub := 0x30, info := Config.freeInfo s.fresh }) := by
  change execNest g a bs len s = _
  simp only [execNest, hi, guardOps_ok hr, bind, Except.bind, pure, Except.pure]
  cases gTrue g x
  · rfl
  · cases nestRoom x (len.toNat + 1) <;> rfl

theorem exec_nstride_set {g : Guard} {a : SSel} {r : BitVec 5} (j : BitVec 2) (l : Lvl)
    (hr : readable s x (gTrue g x) [.s a, .d (.k r)] 0 = true) :
    exec (.nstride g a (.reg r) false j l) s = .next (
      if gTrue g x then modSet (popOps s x true [.s a]) t l fun m =>
        { m with stride := m.stride.setIfInBounds j.toNat (some (r, sVal s x true a)) } else s) := by
  change execNstride g a (.reg r) false j l s = _
  simp only [execNstride, hi, guardOps_ok hr, bind, Except.bind, pure, Except.pure]
  cases gTrue g x <;> rfl

theorem exec_nstride_clear (g : Guard) (a : SSel) (k : StrideB) (j : BitVec 2) (l : Lvl) :
    exec (.nstride g a k true j l) s = .next (
      if gTrue g x then modSet s t l fun m => { m with stride := m.stride.setIfInBounds j.toNat none } else s) := by
  change execNstride g a k true j l s = _
  simp only [execNstride, hi, guardOps_nil, bind, Except.bind, pure, Except.pure, conclude_ok]

theorem exec_nestmask {g : Guard} {a b : SSel} (l : Lvl) (hr : readable s x (gTrue g x) [.s a, .s b] 0 = true) :
    exec (.nestmask g a b l) s = .next (
      if gTrue g x then modSet (popOps s x true [.s a, .s b]) t l fun m =>
        { m with first := sVal s x true a, last := sVal s x true b } else s) := by
  change execNestmask g a b l s = _
  simp only [execNestmask, hi, guardOps_ok hr, bind, Except.bind, pure, Except.pure]
  cases gTrue g x <;> rfl

/-! ### TRAP, RTE, WAITCY, SNAP and EXIT -/

theorem exec_trap (g : BitVec 3) (i : BitVec 8) :
    exec (.trap g i) s = .next (if gOn g x then raise s { code := cSoft, sub := i.toNat, info := x.npc } else s) := by
  change execTrap g i s = _
  simp only [execTrap, hi, guardOps_nil, bind, Except.bind, pure, Except.pure]
  cases gOn g x <;> rfl

theorem exec_rte_priv (hm : x.trapMode = false) : exec .rte s = .next (raise s { code := cPriv }) := by
  change execRte s = _
  have hp : guardOps s x true [] 0 true = trapWith cPriv := guardOps_priv (by simp [readable, room, blocksOk])
  simp only [execRte, hi, hm, Bool.not_false, hp, bind, Except.bind]
  rfl

theorem exec_rte (hm : x.trapMode = true) : exec .rte s = .next (
    let s1 := s.modCtx t fun y => { y with rte := true, wait := rteWait y x.ccyc }
    if s.latch.isSome then s1 else rteFinish s1 t x.ccyc) := by
  change execRte s = _
  simp only [execRte, hi, hm, Bool.not_true, guardOps_nil, bind, Except.bind, pure, Except.pure, State.modCtx_latch, conclude_ok]

theorem exec_waitcy (g : BitVec 3) (i : BitVec 13) :
    exec (.waitcy g i) s = .next (if gOn g x then s.modCtx t fun y => { y with wait := y.wait + i.toNat } else s) := by
  change execWaitcy g i s = _
  simp only [execWaitcy, hi, guardOps_nil, bind, Except.bind, pure, Except.pure, conclude_ok]

section
variable {g : Guard} {a : SSel} (hr : readable s x (gTrue g x) [.s a] 0 = true)
include hr

theorem exec_snap :
    exec (.snap g a) s = .next (if gTrue g x then fireFor (popOps s x true [.s a]) x 1 (sVal s x true a) else s) := by
  change execSnap g a s = _
  simp only [execSnap, hi, guardOps_ok hr, bind, Except.bind, pure, Except.pure]
  cases gTrue g x <;> rfl

theorem exec_exit : exec (.exit g a) s = .next (
    if gTrue g x then
      if s.latch.isSome then (popOps s x true [.s a]).modCtx t fun y => { y with exit := some (sVal s x true a) }
      else exitTask (popOps s x true [.s a]) t (sVal s x true a)
    else s) := by
  change execExit g a s = _
  simp only [execExit, hi, guardOps_ok hr, bind, Except.bind, pure, Except.pure, popOps_latch_isSome]
  cases gTrue g x <;> rfl

end
end

/-- Settles O7: the three instructions by their checks. -/
theorem nestControl : Obligations.NestControl := by
  refine ⟨fun s t x g a bs len hi => ?_, fun s t x g a r j l hi hr => exec_nstride_set hi j l hr,
    fun s t x g a k j l hi => exec_nstride_clear hi g a k j l, fun s t x g a b l hi hr => exec_nestmask hi l hr⟩
  intro src hr
  refine ⟨fun hg => ?_, fun hg hn => ?_, fun hg hn => ?_⟩ <;> rw [exec_nest hi len hr, hg]
  · rfl
  · rw [if_neg (by decide), if_pos hn]
  · rw [if_neg (by decide), if_neg (by simp [hn])]

/-- Settles O9: each instruction by its checks; RTE and EXIT by whether a bundle issues. -/
theorem contextControl : Obligations.ContextControl := by
  refine ⟨fun s t x g i hi => exec_trap hi g i, fun s t x hi hm => exec_rte_priv hi hm, fun s l t x hi hm hl => ?_,
    fun s t x hi hm hl => ?_, fun s t x g i hi => exec_waitcy hi g i, fun s t x g a hi hr => exec_snap hi hr,
    fun s l t x g a hi hl hr => ?_, fun s t x g a hi hl hr => ?_⟩
  · rw [exec_rte hi hm, hl]; rfl
  · rw [exec_rte hi hm, hl]; rfl
  · rw [exec_exit hi hr, hl]; rfl
  · rw [exec_exit hi hr, hl]; rfl

end Sys2Proof.Machine
end

section
/-!
PROOFS. PHASE and the banks it moves (R145, R189): the statement of O10.
-/

namespace Sys2Proof.Machine

/-! ### PHASE and the end of its drain -/

theorem exec_phase {s : State} {t : Nat} {x : Context} {g : Guard} {a : SSel} (hi : s.issuer = .ok (t, x))
    (hr : readable s x (gTrue g x) [.s a] 0 = true) :
    let d := sVal s x true a
    let p := (s.core x.core).part
    exec (.phase g a) s = .next (
      if gTrue g x = false then s
      else if spBank p - 4 < d.toNat then raise s { code := cOperand, sub := 0x36, info := d }
      else if phaseQuiet s x.core then
        ((popOps s x true [.s a]).modCore x.core fun k => { k with drain := some { task := t, d := d.toNat } }).modCtx t fun y =>
          { y with wait := y.wait + 16 + 512 * (if dcBank p ≤ d.toNat then d.toNat - dcBank p else dcBank p - d.toNat) }
      else s.modLatch fun l => { l with held := true }) := by
  intro d p
  change execPhase g a s = _
  simp only [execPhase, hi, guardOps_ok hr, bind, Except.bind, pure, Except.pure]
  cases gTrue g x
  · rfl
  · by_cases hd : spBank p - 4 < d.toNat
    · simp only [d, p] at hd
      simp [d, p, hd, operand, trapWith]
    · simp only [d, p] at hd
      cases phaseQuiet s x.core <;> simp [d, p, hd]

section
variable {s : State} {d : Drain} (hd : (s.core s.ev.core).drain = some d)
include hd

theorem exec_phaseDrain_ctx {x : Context} (hx : s.ctx? d.task = some x) : exec .phaseDrainComplete s = .next (
    if x.wait + (x.frozen.map (·.2)).getD 0 = 0 then moveBanks s s.ev.core d.d else s) := by
  change execPhaseDrainComplete s = _
  simp only [execPhaseDrainComplete, hd, hx]

theorem exec_phaseDrain_gone (hx : s.ctx? d.task = none) : exec .phaseDrainComplete s = .next (moveBanks s s.ev.core d.d) := by
  change execPhaseDrainComplete s = _
  simp only [execPhaseDrainComplete, hd, hx, if_true]

end

/-! ### What shrinking a data cache leaves -/

/-- A change of a core's data cache changes no other part of a core. -/
theorem modCore_dc (s : State) (c d : Nat) (f : Core → SMap DLine) :
    ∃ m, (s.modCore c fun k => { k with dc := f k }).core d = { s.core d with dc := m } := by
  rw [State.modCore_core]
  split
  · subst d
    exact ⟨_, rfl⟩
  · exact ⟨_, rfl⟩

theorem core_with_dir (s : State) (m : SMap DirSt) (c : Nat) : ({ s with dir := m } : State).core c = s.core c := rfl

theorem writeBack_core (s : State) (c ln d : Nat) : ∃ m, (writeBack s c ln).core d = { s.core d with dc := m } := by
  unfold writeBack
  split
  · exact ⟨_, rfl⟩
  · obtain ⟨p, h⟩ := memWrite_effect s (DLine.dirtyBytes _ ln)
    rw [h]
    dsimp only
    split <;>
    · rw [core_with_dir]
      exact modCore_dc _ c d _

theorem evictLine_core (s : State) (c ln : Nat) : ∃ m, (evictLine s c ln).core c = { s.core c with dc := m } := by
  unfold evictLine
  rw [State.modCore_core_self]
  split
  · split
    · obtain ⟨m, h⟩ := writeBack_core s c ln c
      exact ⟨_, by rw [h]⟩
    · exact ⟨_, rfl⟩
  · exact ⟨_, rfl⟩

theorem evictLine_ctxs (s : State) (c ln : Nat) : (evictLine s c ln).ctxs = s.ctxs := by
  obtain ⟨m, p, k, d, h⟩ := evictLine_effect s c ln
  rw [h]

theorem shrinkDc_core (s : State) (c n fuel : Nat) : ∃ m, (shrinkDc s c n fuel).core c = { s.core c with dc := m } := by
  induction fuel generalizing s with
  | zero => exact ⟨_, rfl⟩
  | succ fuel ih =>
    unfold shrinkDc
    split
    · split
      · obtain ⟨m, hm⟩ := ih (evictLine s c _)
        obtain ⟨m', hm'⟩ := evictLine_core s c _
        exact ⟨m, by rw [hm, hm']⟩
      · exact ⟨_, rfl⟩
    · exact ⟨_, rfl⟩

theorem shrinkDc_ctxs (s : State) (c n fuel : Nat) : (shrinkDc s c n fuel).ctxs = s.ctxs := by
  induction fuel generalizing s with
  | zero => rfl
  | succ fuel ih =>
    unfold shrinkDc
    split
    · split
      · rw [ih, evictLine_ctxs]
      · rfl
    · rfl

/-! ### The partition word -/

/-- The partition word with DCBANK set to d, as PHASE writes it (R18). -/
def withDcBank (p : W32) (d : Nat) : W32 := (p &&& ~~~(0x3F000 : W32)) ||| BitVec.ofNat 32 (d * 4096)

theorem getLsbD_dcMask (i : Nat) : (0x3F000 : W32).getLsbD i = decide (12 ≤ i ∧ i < 18) := by
  by_cases h : i < 32
  · exact (by decide : ∀ i : Fin 32, (0x3F000 : W32).getLsbD i = decide (12 ≤ i.val ∧ i.val < 18)) ⟨i, h⟩
  · rw [BitVec.getLsbD_of_ge _ _ (by omega)]
    simp; omega

theorem getLsbD_withDcBank (p : W32) {d i : Nat} (hd : d < 64) (hi : i < 32) :
    (withDcBank p d).getLsbD i = if 12 ≤ i ∧ i < 18 then d.testBit (i - 12) else p.getLsbD i := by
  have hm : (d * 4096).testBit i = (decide (12 ≤ i) && d.testBit (i - 12)) := Nat.testBit_mul_two_pow (i := 12) ..
  have hs : 18 ≤ i → d.testBit (i - 12) = false := fun h =>
    Nat.testBit_lt_two_pow (lt_of_lt_of_le hd (Nat.pow_le_pow_right (by omega : 0 < 2) (by omega : 6 ≤ i - 12)))
  simp only [withDcBank, BitVec.getLsbD_or, BitVec.getLsbD_and, BitVec.getLsbD_not, getLsbD_dcMask, BitVec.getLsbD_ofNat, hm, hi,
    decide_true, Bool.true_and]
  by_cases h12 : 12 ≤ i
  · by_cases h18 : i < 18
    · simp [h12, h18]
    · simp [h12, h18, hs (by omega)]
  · simp [h12]

theorem dcBank_withDcBank (p : W32) {d : Nat} (hd : d < 64) : dcBank (withDcBank p d) = d := by
  have h : (withDcBank p d).extractLsb' 12 6 = BitVec.ofNat 6 d := by
    refine BitVec.eq_of_getLsbD_eq fun i hi => ?_
    rw [BitVec.getLsbD_extractLsb', getLsbD_withDcBank p hd (by omega), if_pos (by omega), BitVec.getLsbD_ofNat]
    simp [hi]
  rw [dcBank, h, BitVec.toNat_ofNat, Nat.mod_eq_of_lt hd]

/-- The fields below DCBANK stand. -/
theorem extractLsb'_withDcBank (p : W32) {d k : Nat} (hd : d < 64) (hk : k + 6 ≤ 12) :
    (withDcBank p d).extractLsb' k 6 = p.extractLsb' k 6 := by
  refine BitVec.eq_of_getLsbD_eq fun i hi => ?_
  rw [BitVec.getLsbD_extractLsb', BitVec.getLsbD_extractLsb', getLsbD_withDcBank p hd (by omega), if_neg (by omega)]

theorem rcBank_withDcBank (p : W32) {d : Nat} (hd : d < 64) : rcBank (withDcBank p d) = rcBank p := by
  rw [rcBank, extractLsb'_withDcBank p hd (by omega)]; rfl
theorem acBank_withDcBank (p : W32) {d : Nat} (hd : d < 64) : acBank (withDcBank p d) = acBank p := by
  rw [acBank, extractLsb'_withDcBank p hd (by omega)]; rfl
theorem spBase_withDcBank (p : W32) {d : Nat} (hd : d < 64) : spBase (withDcBank p d) = spBase p := by
  rw [spBase, rcBank_withDcBank p hd, acBank_withDcBank p hd]; rfl

/-! ### The banks move -/

/-- A byte of a memory of which only the bytes of some places are kept. -/
theorem rd8_filter (m : Memory) (f : Nat → Bool) (a : Nat) : rd8 (m.filter fun p => f p.1) a = if f a then rd8 m a else 0 := by
  induction m with
  | nil => simp [rd8]
  | cons p r ih =>
    obtain ⟨b, v⟩ := p
    rw [List.filter_cons]
    by_cases hb : b = a
    · subst hb
      cases hf : f b <;> simp [rd8, ih, hf]
    · cases hf : f b <;> simp [rd8, ih, hb]

/-- The core a move of its banks leaves: only its data cache, and what lay in a bank that changed hands. -/
theorem moveBanks_core (s : State) (c d : Nat) :
    let p := (s.core c).part
    let q := withDcBank p d
    let lo := spBase q + min (spExt p) (spExt q)
    let hi := spBase q + max (spExt p) (spExt q)
    let k := (moveBanks s c d).core c
    k.part = q ∧ k.drain = none ∧ k.pool = (s.core c).pool.filter (fun b => decide (b.1 < lo) || decide (hi ≤ b.1)) ∧
    k.full = (s.core c).full.filter fun l => decide (128 * l < min (spExt p) (spExt q)) := by
  obtain ⟨m, hm⟩ := shrinkDc_core s c (512 * d) (s.core c).dc.length
  unfold moveBanks
  rw [State.modCore_core_self, hm]
  exact ⟨rfl, rfl, rfl, rfl⟩

theorem moveBanks_ctxs (s : State) (c d : Nat) : (moveBanks s c d).ctxs = s.ctxs := shrinkDc_ctxs ..

/-- Settles O10: PHASE by its checks, the end of the drain by what is left of its wait, and the move by what a core keeps. -/
theorem phaseChange : Obligations.PhaseChange := by
  refine ⟨fun s t x g a hi hr => ?_, fun s d hd => ⟨fun x hx => ⟨fun hw hf => ?_, fun hw => ?_⟩, fun hx => exec_phaseDrain_gone hd hx⟩,
    fun s c d hd => ?_⟩
  · intro v p
    refine ⟨fun hg => ?_, fun hg hv => ?_, fun hg hv hq => ?_⟩ <;> rw [exec_phase hi hr, hg]
    · rfl
    · rw [if_neg (by decide), if_pos hv]
    · rw [if_neg (by decide), if_neg hv.not_gt, if_pos hq]
  · rw [exec_phaseDrain_ctx hd hx, hw, hf]; rfl
  · rw [exec_phaseDrain_ctx hd hx, if_neg (by omega)]
  · intro p k lo hi
    obtain ⟨hpart, hdrain, hpool, hfull⟩ := moveBanks_core s c d
    have hk : spBase (withDcBank p d) = spBase p := spBase_withDcBank p hd
    refine ⟨hdrain, ?_, ?_, ?_, fun a => ?_, fun l => ?_, moveBanks_ctxs s c d⟩
    · rw [hpart, dcBank_withDcBank _ hd]
    · rw [hpart, rcBank_withDcBank _ hd]
    · rw [hpart, acBank_withDcBank _ hd]
    · rw [hpool, rd8_filter _ (fun b => decide (b < spBase _ + _) || decide (_ ≤ b)), hk]
      by_cases ha : lo ≤ a ∧ a < hi
      · rw [if_pos ha, if_neg]; simpa [lo, hi, k, hpart] using ha
      · rw [if_neg ha, if_pos]
        simp only [lo, hi, k, hpart, p] at ha
        simp only [p, Bool.or_eq_true, decide_eq_true_eq]
        omega
    · rw [hfull, List.contains_iff_mem, List.mem_filter, decide_eq_true_eq, List.contains_iff_mem]
      simp only [k, hpart, p]

end Sys2Proof.Machine
end

section
/-!
PROOFS. Taking a trap, being killed and returning (R146, R149, R150, R151, R154): the statement of O50.
-/

namespace Sys2Proof.Machine

/-! ### The reported cause -/

theorem firstCause_cons (a : Nat × Cause) (r : List (Nat × Cause)) : firstCause (a :: r) =
    some (match firstCause r with
      | none => a
      | some b => if causeRank b.2.code < causeRank a.2.code then b else a) := by
  rw [firstCause]
  cases firstCause r with
  | none => rfl
  | some b => dsimp only; split <;> rfl

theorem firstCause_eq_none {cs : List (Nat × Cause)} (h : firstCause cs = none) : cs = [] := by
  cases cs with
  | nil => rfl
  | cons c r => rw [firstCause_cons] at h; cases h

/-- What is reported is one of the causes, and none stands before it (R146). -/
theorem firstCause_least {cs : List (Nat × Cause)} {a : Nat × Cause} (h : firstCause cs = some a) :
    a ∈ cs ∧ ∀ d ∈ cs, causeRank a.2.code ≤ causeRank d.2.code := by
  induction cs generalizing a with
  | nil => cases h
  | cons b r ih =>
    rw [firstCause_cons, Option.some.injEq] at h
    subst h
    cases hr : firstCause r with
    | none =>
      cases firstCause_eq_none hr
      simp
    | some c =>
      obtain ⟨hmem, hle⟩ := ih hr
      dsimp only
      split
      · exact ⟨List.mem_cons_of_mem _ hmem, List.forall_mem_cons.mpr ⟨by omega, hle⟩⟩
      · exact ⟨List.mem_cons_self, List.forall_mem_cons.mpr ⟨le_rfl, fun d hd => by have := hle d hd; omega⟩⟩

/-! ### Taking a trap -/

/-- The context with the record of a trap, and outside trap mode with TRAPPC (R149, R150). -/
def recorded (s : State) (x : Context) (t : Nat) (c : Cause) (m : BitVec 8) (async shadow : Bool) (pc : W64) : Context :=
  { x with trec := trapRecord s x t c m async shadow pc, trappc := if x.trapMode then x.trappc else pcField pc }
/-- The handler's context: the main state is frozen, nothing is pending, and the handler begins at TVEC (R150). -/
def Context.handled (x : Context) (main : Frame) : Context :=
  { x with frozen := some (main.freeze (x.ccyc - 1), x.wait), fr := main.handler, wait := 0, trapMode := true,
           jump := none, opening := none, pc := pcField x.tvec, npc := pcField x.tvec }

section
variable {s : State} {t : Nat} {x : Context} {c : Cause} {m : BitVec 8} {async shadow : Bool} {pc : W64} (hx : s.ctx? t = some x)
include hx

theorem trapEntry_taken (hm : x.trapMode = false) (hv : x.tvec.getLsbD 0 = true) :
    (trapEntry s t c m async shadow pc).ctx? t = some ((recorded s x t c m async shadow pc).handled x.fr) := by
  simp only [trapEntry, hx, hm, hv, Bool.not_true, Bool.or_self, Bool.false_eq_true, if_false, State.setCtx_ctx?_self, recorded,
    Context.handled]

theorem trapEntry_killed (h : x.trapMode = true ∨ x.tvec.getLsbD 0 = false) :
    ∃ s', trapEntry s t c m async shadow pc = killTask (launchErr s' x.launch c.addr) t ∧
      s'.ctx? t = some (recorded s x t c m async shadow pc) := by
  have hk : (x.trapMode || !x.tvec.getLsbD 0) = true := by simpa using h
  simp only [trapEntry, hx, hk, if_true]
  exact ⟨_, rfl, State.setCtx_ctx?_self ..⟩

/-- Where its slot executes alone, and no sweep must be rolled back first, a cause is taken at once. -/
theorem raise_alone (hc : s.cur = some t) (hl : s.latch = none) (hw : sweepOf s t = none) :
    raise s c = trapEntry s t c (slotMask c.code [(0, c)]) false false x.pc := by
  simp only [raise, hc, hl, takeTrap, firstCause, hx, hw, Bool.false_eq_true, if_false]

end

/-- Flag 1 of the record says whether the trap was taken in trap mode (R149). -/
theorem trapRecord_flag_trapMode (s : State) (x : Context) (t : Nat) (c : Cause) (m : BitVec 8) (async shadow : Bool) (pc : W64) :
    (trapRecord s x t c m async shadow pc).flags.getLsbD 1 = x.trapMode := by
  unfold trapRecord
  dsimp only
  cases async <;> cases x.trapMode <;> cases shadow <;> rfl

/-- Outside trap mode the flags say whether the cause was asynchronous, and whether a shadow was left (R149). -/
theorem trapRecord_flags {s : State} {x : Context} {t : Nat} {c : Cause} {m : BitVec 8} {async shadow : Bool} {pc : W64}
    (hm : x.trapMode = false) :
    (trapRecord s x t c m async shadow pc).flags = BitVec.ofNat 8 ((if async then 1 else 0) + (if shadow then 4 else 0)) := by
  simp [trapRecord, hm]

theorem raise_bundle {s : State} {c : Cause} {l : Latch} {t : Nat} (hc : s.cur = some t) (hl : s.latch = some l) :
    raise s c = s.modLatch fun l => { l with causes := l.causes ++ [(l.pos, c)] } := by
  simp only [raise, hc, hl]

/-! ### Slots that trap mode does not permit -/

theorem noTrapMode_priv {x : Context} (hm : x.trapMode = true) : noTrapMode x = trapWith cPriv := by simp [noTrapMode, need, hm]

/-- A meaning that asks first whether its class may execute raises PRIV in trap mode (R150). -/
theorem conclude_priv {s : State} {t : Nat} {x : Context} (hi : s.issuer = .ok (t, x)) (hm : x.trapMode = true)
    {r : Nat × Context → Res State} (k : Unit → Res State) (hr : r (t, x) = noTrapMode x >>= k) :
    conclude s (s.issuer >>= r) = .next (raise s { code := cPriv }) := by
  rw [hi]
  change conclude s (r (t, x)) = _
  rw [hr, noTrapMode_priv hm]
  rfl

/-- Every instruction of the VA, VB, M and X classes asks so first. -/
theorem exec_priv {i : Instr} {f : Fields} {s : State} {t : Nat} {x : Context} (hf : i.fields = some f)
    (hc : f.cls ∈ [1#3, 2#3, 3#3, 6#3]) (hi : s.issuer = .ok (t, x)) (hm : x.trapMode = true) :
    exec i s = .next (raise s { code := cPriv }) := by
  cases i <;> cases hf
  all_goals simp [immFields, jmpFields] at hc
  all_goals exact conclude_priv hi hm _ rfl

/-- Settles O50: the reported cause by induction, the trap by the context it leaves, the return by what it puts back. -/
theorem trapsAndReturns : Obligations.TrapsAndReturns := by
  refine ⟨fun cs p c h => firstCause_least h, fun s t x c m async shadow pc hx hm hv => ?_, fun s t x c m async shadow pc hx h => ?_,
    fun s t x c hc hl hx hw => raise_alone hx hc hl hw, fun s c l t hc hl => raise_bundle hc hl,
    fun s t x hi => ⟨exec_rte_priv hi, exec_rte hi⟩, fun x f w cc hf => ?_, fun i f s t x hf hc hi hm => exec_priv hf hc hi hm⟩
  · exact ⟨_, trapEntry_taken hx hm hv, rfl, rfl, by simp [recorded, Context.handled, hm, pcField], rfl, rfl, rfl, rfl, rfl, rfl,
      rfl, rfl, trapRecord_flags hm, rfl, rfl, rfl, rfl, rfl, rfl, rfl, rfl, rfl, rfl, rfl, rfl, rfl⟩
  · obtain ⟨s', he, hy⟩ := trapEntry_killed (c := c) (m := m) (async := async) (shadow := shadow) (pc := pc) hx h
    exact ⟨s', he, _, hy, rfl, trapRecord_flag_trapMode ..⟩
  · simp [rteRestore, hf, pcField]

end Sys2Proof.Machine
end

section
/-!
PROOFS. The sequencer's steps (R129, R132, R134, R138, R142, R147, R181): the statement of O48.
-/

namespace Sys2Proof.Machine

/-! ### Fetch changes translations only -/

theorem fetchWord_effect (s : State) (c : Nat) (va : W64) : ∃ k t, (fetchWord s c va).1 = { s with cores := k, ctlb := t } := by
  unfold fetchWord
  split
  · exact ⟨_, _, rfl⟩
  next hx =>
    obtain ⟨k, t, h⟩ := xlate_effect hx
    exact ⟨k, t, by rw [← h]; split <;> rfl⟩

theorem fetchRun_effect (s : State) (c : Nat) (va : W64) (ws : List W32) (n : Nat) :
    ∃ k t, (fetchRun s c va ws n).1 = { s with cores := k, ctlb := t } := by
  induction n generalizing s va ws with
  | zero => exact ⟨_, _, rfl⟩
  | succ n ih =>
    obtain ⟨k, t, h⟩ := fetchWord_effect s c va
    unfold fetchRun
    split <;> rename_i hw <;> rw [hw] at h <;> subst h
    · exact ⟨k, t, rfl⟩
    · split
      · exact ⟨k, t, rfl⟩
      · obtain ⟨k', t', h'⟩ := ih { s with cores := k, ctlb := t } (va + 4) (ws ++ [_])
        exact ⟨k', t', h'⟩

/-- A bundle is at hand already, or it is fetched. -/
theorem bundleAt_cases (s : State) (x : Context) (place : Nat) (va : W64) :
    (bundleAt s x place va).1 = s ∨ bundleAt s x place va = fetchRun s x.core va [] 8 := by
  have h : ∀ (p : Prop) [Decidable p] (ws : List W32), (if p then (s, .ok ws) else fetchRun s x.core va [] 8).1 = s ∨
      (if p then (s, .ok ws) else fetchRun s x.core va [] 8) = fetchRun s x.core va [] 8 := fun p _ ws => by split <;> simp
  unfold bundleAt
  dsimp only
  split
  · exact h ..
  · split
    · exact h ..
    · exact .inr rfl

theorem bundleAt_effect (s : State) (x : Context) (place : Nat) (va : W64) :
    ∃ k t, (bundleAt s x place va).1 = { s with cores := k, ctlb := t } := by
  rcases bundleAt_cases s x place va with h | h <;> rw [h]
  · exact ⟨_, _, rfl⟩
  · exact fetchRun_effect ..

@[simp] theorem bundleAt_ev (s : State) (x : Context) (place : Nat) (va : W64) : (bundleAt s x place va).1.ev = s.ev := by
  obtain ⟨k, t, h⟩ := bundleAt_effect s x place va
  rw [h]

/-! ### Causes at a boundary -/

theorem lowestAsync_eq_none {cs : List Cause} (h : lowestAsync cs = none) : cs = [] := by
  cases cs with
  | nil => rfl
  | cons b cs =>
    unfold lowestAsync at h
    split at h
    · split at h <;> cases h
    · cases h

/-- The lowest of the pending causes stands above none (R147). -/
theorem lowestAsync_le {cs r : List Cause} {c : Cause} (h : lowestAsync cs = some (c, r)) : ∀ d ∈ cs, c.code ≤ d.code := by
  induction cs generalizing c r with
  | nil => cases h
  | cons a cs ih =>
    unfold lowestAsync at h
    split at h
    next b r' hb =>
      have hle := ih hb
      split at h <;> cases h
      · exact List.forall_mem_cons.mpr ⟨le_rfl, fun d hd => le_trans ‹_› (hle d hd)⟩
      · exact List.forall_mem_cons.mpr ⟨by omega, hle⟩
    next hn =>
      cases lowestAsync_eq_none hn
      cases h
      simp

section
variable {s : State} {x : Context} (hx : s.ctx? s.ev.task = some x)
include hx

theorem exec_asyncCauseTaken {c : Cause} {r : List Cause} (hm : x.trapMode = false) (hb : atBoundary s s.ev.task x = true)
    (hc : lowestAsync x.asyncs = some (c, r)) :
    exec .asyncCauseTaken s = .next (takeTrap (s.setCtx s.ev.task { x with asyncs := r }) s.ev.task [(0, c)] true) := by
  change execAsyncCauseTaken s = _
  simp [execAsyncCauseTaken, takeAsync, hx, hm, hb, hc]

theorem exec_asyncCauseTaken_none (h : x.trapMode = true ∨ x.asyncs = []) : exec .asyncCauseTaken s = .next s := by
  change execAsyncCauseTaken s = _
  rcases h with hm | ha
  · simp [execAsyncCauseTaken, takeAsync, hx, hm]
  · simp [execAsyncCauseTaken, takeAsync, hx, ha, lowestAsync]

/-! ### Landings, waits and fetches -/

theorem exec_resultLanding : exec .resultLanding s = .next (s.setCtx s.ev.task { x with fr := x.fr.land x.ccyc }) := by
  change execResultLanding s = _
  rw [execResultLanding, State.modCtx_some _ hx]

theorem exec_waitExpiry (hw : x.wait = 1) : exec .waitExpiry s = .next (s.setCtx s.ev.task { x with wait := 0, ccyc := x.ccyc + 1 }) := by
  change execWaitExpiry s = _
  rw [execWaitExpiry, State.modCtx_some _ hx, if_pos hw, Context.waitOne, hw]

/-- What a fetch ahead leaves in its context: the bundle, or the fault it met. -/
theorem exec_bundleFetch : exec .bundleFetch s = .next (
    let q := bundleAt s x x.fr.nest.pos x.pc
    match q.2 with
    | .ok ws => q.1.modCtx s.ev.task fun y => { y with fetched := some (y.pc, ws) }
    | .fault _ a => q.1.modCtx s.ev.task fun y => { y with ffault := some (x.pc, a) }
    | .long _ => q.1) := by
  change execBundleFetch s = _
  simp only [execBundleFetch, hx]
  have he := bundleAt_ev s x x.fr.nest.pos x.pc
  split <;> rename_i h <;> rw [h] at he ⊢ <;> simp only at he ⊢ <;> rw [he]

theorem exec_rteResume : exec .rteResume s = .next (rteFinish s s.ev.task (x.ccyc - 1)) := by
  change execRteResume s = _
  simp only [execRteResume, hx]

end

/-! ### The end of an iteration -/

theorem nest_stagePreds (f : Frame) (l : Level) : (stagePreds f l).nest = f.nest := by
  unfold stagePreds
  split
  · rfl
  · exact foldl_keeps (fun g : Frame => g.nest = f.nest) _ _ f rfl fun g _ h => h

/-- The context that begins the next iteration of its innermost level (R142). -/
def Context.again (x : Context) (l : Level) (r : List Level) : Context :=
  let y := applyStrides x (x.fr.nest.set.getD r.length {})
  let l := { l with iter := l.iter + 1 }
  let z := { y.modNest fun n => { n with act := l :: r, pos := l.base } with pc := l.start }
  { z with fr := stagePreds z.fr l }

theorem again_nest (x : Context) (l : Level) (r : List Level) :
    (x.again l r).fr.nest.act = { l with iter := l.iter + 1 } :: r ∧ (x.again l r).fr.nest.pos = l.base := by
  unfold Context.again
  dsimp only
  rw [nest_stagePreds]
  exact ⟨rfl, rfl⟩

theorem exec_replayIterationEnd {s : State} {x : Context} {l : Level} {r : List Level} (hx : s.ctx? s.ev.task = some x)
    (ha : x.fr.nest.act = l :: r) (ht : l.trip ≠ 0) (hp : l.base + l.len ≤ x.fr.nest.pos) :
    exec .replayIterationEnd s = .next (nestSkip (s.setCtx s.ev.task (
      if l.iter + 1 < l.iters then x.again l r else closeLevel (applyStrides x (x.fr.nest.set.getD r.length {})))) s.ev.task skipFuel) := by
  change execReplayIterationEnd s = _
  simp only [execReplayIterationEnd, iterationEnd, hx, ha, if_neg (not_or.mpr ⟨ht, hp.not_gt⟩)]
  split <;> rfl

/-! ### The register cache -/

theorem mem_rc_fillBlock (s : State) (c t : Nat) (b : RcBlock) : (t, b) ∈ ((fillBlock s c t b).core c).rc := by
  unfold fillBlock
  dsimp only
  split
  · exact List.contains_iff_mem.mp ‹_›
  · rw [State.modCore_core_self]
    exact List.mem_cons_self

theorem fillBlock_ctxs (s : State) (c t : Nat) (b : RcBlock) : (fillBlock s c t b).ctxs = s.ctxs := by
  simp [fillBlock, apply_ite State.ctxs]

theorem exec_regcacheFill {s : State} {b : RcBlock} (hb : s.ev.body = .block b)
    (hr : (s.core s.ev.core).res.toList.contains (some s.ev.task) = true) :
    exec .regcacheFill s = .next (fillBlock s s.ev.core s.ev.task b) := by
  change execRegcacheFill s = _
  simp only [execRegcacheFill, hb, hr, if_true]

/-- Settles O48: what each step leaves in its context; the lowest cause by induction, the fetch by what it changes. -/
theorem sequencerSteps : Obligations.SequencerSteps := by
  refine ⟨fun s => rfl, fun s x hx => ⟨⟨_, exec_resultLanding hx, by simp, rfl, rfl⟩, fun hw => ⟨_, exec_waitExpiry hx hw, by simp⟩,
    fun c r hm hb hc => ⟨lowestAsync_le hc, exec_asyncCauseTaken hx hm hb hc⟩, exec_asyncCauseTaken_none hx,
    fun s1 ws h => ⟨_, exec_bundleFetch hx, fun hs => ?_⟩, fun s1 k a h => ⟨_, exec_bundleFetch hx, fun hs => ?_⟩,
    fun l r ha ht hp => ?_, exec_rteResume hx⟩,
    fun s b hb hr => ⟨_, exec_regcacheFill hb hr, mem_rc_fillBlock .., fillBlock_ctxs .., fillBlock_mem ..⟩, fun s => rfl⟩
  · have hx1 : s1.ctx? s.ev.task = some x := by rw [State.ctx?, hs]; exact hx
    simp [h, State.modCtx_some _ hx1]
  · have hx1 : s1.ctx? s.ev.task = some x := by rw [State.ctx?, hs]; exact hx
    simp [h, State.modCtx_some _ hx1]
  · obtain ⟨hact, hpos⟩ := again_nest x l r
    rw [exec_replayIterationEnd hx ha ht hp]
    refine ⟨fun hi => ⟨x.again l r, by rw [if_pos hi], rfl, hact, hpos⟩, fun hi => by rw [if_neg hi.not_gt]⟩

end Sys2Proof.Machine
end

section
/-!
PROOFS. The steps of the task tree engine (R126, R128, R155, R156, R386, R387, R391, R397, R399): the statement of O40.
-/

namespace Sys2Proof.Machine

/-! ### Starting and resuming -/

theorem recallVar_core (s : State) (v d : Nat) : ∃ m, (recallVar s v).core d = { s.core d with dc := m } :=
  foldl_keeps (fun s' : State => ∃ m, s'.core d = { s.core d with dc := m }) _ _ s ⟨_, rfl⟩ fun s' p ⟨m, h⟩ => by
    obtain ⟨m', h'⟩ := writeBack_core s' p.2.core p.1 d
    exact ⟨m', by rw [h', h]⟩

theorem freeNumber_lt {k : Core} {n : Nat} (h : freeNumber k = some n) : n < 16 := List.mem_range.mp (List.mem_of_find?_eq_some h)

theorem getD_setIfInBounds_self {α : Type} {m : Nat} (v : Vector α m) {i : Nat} (h : i < m) (a d : α) :
    (v.setIfInBounds i a).getD i d = a := by
  simp [Vector.getD, h]

/-- Where no command of a task has stopped on a page whose fill failed, none faults as the task resumes. -/
theorem failResumed_eq {s : State} {c t : Nat} (h : ∀ e, ∀ q ∈ cmds s c e, q.task = t → q.pgfail = false) : failResumed s c t = s := by
  have hnil : ∀ e, (cmds s c e).filter (fun q => q.task == t && q.pgfail) = [] := fun e =>
    List.filter_eq_nil_iff.mpr fun q hq hc => by
      obtain ⟨ht, hp⟩ := Bool.and_eq_true_iff.mp hc
      exact Bool.noConfusion ((h e q hq (beq_iff_eq.mp ht)).symm.trans hp)
  simp only [failResumed, List.foldl_cons, List.foldl_nil, hnil]

@[simp] theorem modTask_core (s : State) (i : Nat) (f : Task → Task) (c : Nat) : (modTask s i f).core c = s.core c := by
  unfold modTask
  split <;> rfl
@[simp] theorem modTask_ctx? (s : State) (i : Nat) (f : Task → Task) (t : Nat) : (modTask s i f).ctx? t = s.ctx? t := by
  unfold modTask
  split <;> rfl
theorem look_modTask {s : State} {i : Nat} {k : Task} (f : Task → Task) (h : look s.tasks i = some k) :
    look (modTask s i f).tasks i = some (f k) := by
  obtain ⟨ts, he, hl, -⟩ := modTask_effect s i f
  rw [he, hl, h]
  rfl
theorem look_modTask_ne (s : State) {i j : Nat} (f : Task → Task) (h : j ≠ i) : look (modTask s i f).tasks j = look s.tasks j := by
  obtain ⟨ts, he, -, hne⟩ := modTask_effect s i f
  rw [he]
  exact hne j h

section
variable {s : State} {c t n : Nat} {k : Task} (hn : freeNumber (s.core c) = some n) (hk : look s.tasks t = some k)
include hn hk

/-- The resumed task runs under the lowest free number (R156). -/
theorem resumeTask_resumes (hq : ∀ e, ∀ q ∈ cmds s c e, q.task = t → q.pgfail = false) :
    look (resumeTask s c t).tasks t = some { k with st := .running } ∧ ((resumeTask s c t).core c).res.getD n none = some t ∧
      (∀ x, s.ctx? t = some x → (resumeTask s c t).ctx? t = some { x with num := n, park := false }) := by
  simp only [resumeTask, hn]
  rw [failResumed_eq]
  · refine ⟨look_modTask _ (by simpa using hk), ?_, fun x hx => by simp [State.modCtx_ctx?, hx]⟩
    rw [modTask_core, State.modCtx_core, State.modCore_core_self]
    exact getD_setIfInBounds_self _ (freeNumber_lt hn) _ _
  · intro e q hq' ht
    have hu : ∃ p ∈ cmds s c e, p.task = q.task ∧ p.pgfail = q.pgfail := by
      cases e <;>
      · simp only [cmds, modTask_core, State.modCtx_core, State.modCore_core_self, unpause, if_true, Bool.false_eq_true, if_false,
          List.mem_map] at hq'
        obtain ⟨p, hp, rfl⟩ := hq'
        exact ⟨p, hp, by split <;> rfl, by split <;> rfl⟩
    obtain ⟨p, hp, htask, hfail⟩ := hu
    rw [← hfail, hq e p hp (htask.trans ht)]

/-- The task that starts runs in a new context (R126, R383). -/
theorem startTask_starts {f : Nat} (hf : pickOf s (freeFrames (s.core c)) = some f) :
    look (startTask s c t k).tasks t = some { k with st := .running, core := some c } ∧
      ((startTask s c t k).core c).res.getD n none = some t ∧
      ∃ s1, (startTask s c t k).ctx? t = some (newContext s1 c n k) := by
  obtain ⟨m, hm⟩ := recallVar_core s.tick (recVar s t) c
  simp only [startTask, hn, hf]
  refine ⟨look_modTask _ ?_, ?_, _, by rw [modTask_ctx?, State.setCtx_ctx?_self]⟩
  · rw [State.setCtx_tasks, State.modCore_tasks, dropClean, State.modCore_tasks, recallVar_tasks]
    exact hk
  · rw [modTask_core, State.setCtx_core, State.modCore_core_self, dropClean, State.modCore_core_self, hm]
    exact getD_setIfInBounds_self _ (freeNumber_lt hn) _ _

end

section
variable {s : State} {t : Nat} {k : Task} (hc : chooseFor s s.ev.core = some (t, k))
include hc

theorem exec_taskStart : exec .taskStart s = .next (if k.st = .parked then s else startTask s s.ev.core t k) := by
  change execTaskStart s = _
  simp only [execTaskStart, hc]

theorem exec_contextResume : exec .contextResume s = .next (if k.st = .parked then resumeTask s s.ev.core t else s) := by
  change execContextResume s = _
  simp only [execContextResume, hc]

end

/-! ### Parking -/

theorem exec_priorityPark {s : State} {v : Nat} {n : Option Nat} (h : parkVictim s s.ev.core = some (v, n)) :
    ∃ f, exec .priorityPark s = .next ((s.modCtx v fun x => { x with park := true }).modCore s.ev.core f) := by
  change ∃ f, execPriorityPark s = _
  simp only [execPriorityPark, h]
  exact ⟨_, rfl⟩

/-- A context's image is bytes in memory. -/
theorem writeImage_effect (s : State) (t : Nat) (x : Context) : ∃ m p, writeImage s t x = { s with mem := m, poison := p } := by
  unfold writeImage
  split
  · refine foldl_keeps (fun s' : State => ∃ m p, s' = { s with mem := m, poison := p }) _ _ s ⟨_, _, rfl⟩ ?_
    rintro _ q ⟨m, p, rfl⟩
    obtain ⟨p', h⟩ := memWrite_effect { s with mem := m, poison := p } (place (frameAddr x.core _ + q.1) q.2)
    exact ⟨_, p', h⟩
  · exact ⟨_, _, rfl⟩

/-- The state a park leaves (R128, R155). -/
def parked (s : State) (t : Nat) (x : Context) : State :=
  modTask (((writeImage s t x).modCore x.core fun k =>
    { k with res := k.res.map fun o => if o = some t then none else o, rc := k.rc.filter fun p => p.1 != t }).setCtx t { x with park := false })
    t fun k => { k with st := .parked, core := some x.core }

theorem exec_contextPark {s : State} {x : Context} (hx : s.ctx? s.ev.task = some x) (hp : parkReady s s.ev.task x = true) :
    exec .contextPark s = .next (parked s s.ev.task x) := by
  change execContextPark s = _
  simp only [execContextPark, hx, hp, if_true]
  rfl

theorem parked_core (s : State) (t : Nat) (x : Context) : (parked s t x).core x.core =
    { s.core x.core with res := (s.core x.core).res.map fun o => if o = some t then none else o,
                         rc := (s.core x.core).rc.filter fun p => p.1 != t } := by
  obtain ⟨m, p, h⟩ := writeImage_effect s t x
  rw [parked, modTask_core, State.setCtx_core, State.modCore_core_self, h]
  rfl

theorem getD_map_remove {α : Type} [DecidableEq α] (v : Vector (Option α) 16) (a : α) {i : Nat} (h : i < 16) :
    (v.map fun o => if o = some a then none else o).getD i none ≠ some a := by
  have hv : (v.map fun o => if o = some a then none else o).getD i none = if v[i] = some a then none else v[i] := by
    simp [Vector.getD, h]
  rw [hv]
  split
  · exact nofun
  · assumption

theorem look_parked {s : State} {t : Nat} {x : Context} {k : Task} (hk : look s.tasks t = some k) :
    look (parked s t x).tasks t = some { k with st := .parked, core := some x.core } := by
  obtain ⟨m, p, h⟩ := writeImage_effect s t x
  exact look_modTask _ (by rw [State.setCtx_tasks, State.modCore_tasks, h]; exact hk)

/-! ### Tickets, waves and batches -/

theorem exec_ticketRetire {s : State} {k : Task} (hk : look s.tasks s.ev.task = some k) (hr : k.retired = true) (hc : k.closed = false)
    (ht : k.ticket.isSome = true) : exec .ticketRetire s = .next (
      if ticketQuiet s s.ev.task then newHead (modTask s s.ev.task fun k => { k with closed := true }) (launchScope s k.launch) else s) := by
  change execTicketRetire s = _
  simp [execTicketRetire, retireTicket, hk, hr, hc, ht]

theorem exec_waveFormation_take {s s1 : State} {w : Nat} {e : List (Nat × Task)} {g : TScope}
    (hf : formWave s s.ev.num = .take s1 w e) (hg : look s1.scopes s.ev.num = some g) :
    exec .waveFormation s = .next (newHead (((e.take g.width).zipIdx).foldl (fun s' p => chooseTask s' s.ev.num w p.2 p.1.1)
      { s1 with scopes := put s1.scopes s.ev.num { g with wave := w } }) s.ev.num) := by
  change execWaveFormation s = _
  simp only [execWaveFormation, hf, hg]

theorem exec_waveFormation_open {s : State} (hs : look s.scopes s.ev.num ≠ none) (ho : openTickets s s.ev.num = true) :
    exec .waveFormation s = .next s := by
  obtain ⟨g, hg⟩ := Option.ne_none_iff_exists'.mp hs
  change execWaveFormation s = _
  simp [execWaveFormation, formWave, hg, ho]

theorem exec_batchClose {s : State} {g : Batch} (hg : look s.batches s.ev.num = some g) :
    exec .batchClose s = .next (if batchDue s g then closeBatch s s.ev.num else s) := by
  change execBatchClose s = _
  simp only [execBatchClose, hg]

/-- Settles O40: each step of the engine by what it finds; starts, resumes and parks by the state they leave. -/
theorem taskSteps_holds : Obligations.TaskSteps := by
  refine ⟨fun s t n f k => ?_, fun s v n x hv hx => ?_, fun s x k hx hk hp => ?_, fun s k hk hr hc ht => ?_,
    fun s s1 w e g hf hg => exec_waveFormation_take hf hg, fun s sc w i t k hk => ⟨_, look_modTask _ hk, rfl, rfl, rfl, rfl⟩,
    fun s hs ho => exec_waveFormation_open hs ho, fun s g hg => exec_batchClose hg, fun s => rfl⟩
  · intro c hc hk hn
    refine ⟨fun hp hq => ⟨⟨_, ?_, resumeTask_resumes hn hk hq⟩, ?_⟩, fun hp hf => ⟨?_, ?_⟩⟩
    · rw [exec_contextResume hc, if_pos hp]
    · rw [exec_taskStart hc, if_pos hp]
    · obtain ⟨htask, hres, s1, hctx⟩ := startTask_starts hn hk hf
      exact ⟨_, by rw [exec_taskStart hc, if_neg hp], htask, hres, _, hctx, rfl, rfl, rfl, newContext_k0 .., newContext_k1 .., rfl, rfl,
        rfl, rfl⟩
    · rw [exec_contextResume hc, if_neg hp]
  · obtain ⟨f, hf⟩ := exec_priorityPark hv
    exact ⟨_, hf, by rw [State.modCore_ctx?, State.modCtx_ctx?, if_pos rfl, hx]; rfl, by simp, by simp⟩
  · refine ⟨_, exec_contextPark hx hp, look_parked hk, ?_, fun i hi => ?_, fun p hmem => ?_, ?_⟩
    · rw [parked, modTask_ctx?, State.setCtx_ctx?_self]
    · rw [parked_core]
      exact getD_map_remove _ _ hi
    · rw [parked_core, List.mem_filter] at hmem
      simpa using hmem.2
    · rw [parked, modTask_mem, State.setCtx_mem, State.modCore_mem]
  · rw [exec_ticketRetire hk hr hc ht]
    exact ⟨fun hq => by rw [hq]; rfl, fun hq => ⟨_, by rw [hq]; rfl, look_modTask _ hk, fun j hj => look_modTask_ne s _ hj⟩⟩

end Sys2Proof.Machine
end

section
/-!
PROOFS. Stage rings and the Spout (R145, R306 to R310): the statement of O31.
-/

namespace Sys2Proof.Machine

/-! ### The fields of a ring's operands -/

theorem toNat_field (a : W64) (lo len : Nat) : (a.extractLsb' lo len).toNat = a.toNat / 2 ^ lo % 2 ^ len := by
  rw [BitVec.extractLsb'_toNat, Nat.shiftRight_eq_div_pow]

theorem toNat_low (a : W64) (len : Nat) : (a.extractLsb' 0 len).toNat = a.toNat % 2 ^ len := by
  rw [toNat_field, pow_zero, Nat.div_one]

theorem toNat_top (a : W64) {lo : Nat} (h : lo ≤ 64 := by decide) : a.toNat / 2 ^ lo % 2 ^ (64 - lo) = a.toNat / 2 ^ lo :=
  Nat.mod_eq_of_lt (Nat.div_lt_of_lt_mul (by rw [← pow_add, Nat.add_sub_cancel' h]; exact a.isLt))

theorem field_eq_iff (a : W64) (lo len : Nat) (v : BitVec len) : a.extractLsb' lo len = v ↔ a.toNat / 2 ^ lo % 2 ^ len = v.toNat := by
  rw [← BitVec.toNat_inj, toNat_field]

/-- The words of a CRING that claims a ring with `dmax` slots of `sl` lines and at least `dmin` active ones (R306). -/
def RingWords (av bv : W64) : Prop :=
  let dmax := bv.toNat / 256 % 128
  let dmin := bv.toNat % 128
  av.toNat < 2 ^ 43 ∧ av.toNat / 2 ^ 22 % 1024 = 0 ∧ 0 < av.toNat / 2 ^ 32 % 2048 ∧
    bv.toNat < 2 ^ 15 ∧ bv.toNat / 128 % 2 = 0 ∧ 0 < dmax ∧ dmax ≤ 64 ∧ 0 < dmin ∧ dmin ≤ dmax

theorem RingWords.area {av bv : W64} (h : RingWords av bv) :
    ¬(av.extractLsb' 43 21 ≠ 0 ∨ av.extractLsb' 22 10 ≠ 0 ∨ (av.extractLsb' 32 11).toNat = 0) := by
  obtain ⟨h43, h22, hsl, -⟩ := h
  simp only [ne_eq, field_eq_iff, toNat_field, BitVec.ofNat_eq_ofNat, BitVec.toNat_ofNat]
  omega

theorem RingWords.depths {av bv : W64} (h : RingWords av bv) :
    ¬(bv.extractLsb' 15 49 ≠ 0 ∨ bv.getLsbD 7 = true ∨ (bv.extractLsb' 8 7).toNat = 0 ∨ 64 < (bv.extractLsb' 8 7).toNat ∨
      (bv.extractLsb' 0 7).toNat = 0 ∨ (bv.extractLsb' 8 7).toNat < (bv.extractLsb' 0 7).toNat) := by
  obtain ⟨-, -, -, h15, h7, hmax, hmax', hmin, hle⟩ := h
  have hb : bv.getLsbD 7 = decide (bv.toNat / 2 ^ 7 % 2 = 1) := Nat.testBit_eq_decide_div_mod_eq
  simp only [ne_eq, field_eq_iff, toNat_field, BitVec.ofNat_eq_ofNat, BitVec.toNat_ofNat, hb, decide_eq_true_eq]
  omega

/-! ### CRING and CRSUB -/

section
variable {s : State} {t : Nat} {x : Context} {g : Guard} {a b : SSel} {r : BitVec 3} (hi : s.issuer = .ok (t, x))
  (hr : readable s x (gTrue g x) [.s a, .s b] 0 = true)
include hi hr

theorem exec_cring_off (hg : gTrue g x = false) : exec (.cring g a b r) s = .next s := by
  change execCring g a b r s = _
  rw [hg] at hr
  simp only [execCring, hi, guardOps_ok hr, hg, bind, Except.bind, pure, Except.pure]
  rfl

theorem exec_crsub_off (dir : SpoutDir) (hg : gTrue g x = false) : exec (.crsub g a b dir r) s = .next s := by
  change execCrsub g a b dir r s = _
  rw [hg] at hr
  simp only [execCrsub, hi, guardOps_ok hr, hg, bind, Except.bind, pure, Except.pure]
  rfl

section
variable {k : StageRing} (hk : (s.core x.core).rings[r.toFin] = k)
include hk

theorem exec_cring_release (hg : gTrue g x = true) (ha : sVal s x true a = 0) (hb : sVal s x true b = 0)
    (ho : k.owner = some t) (hs : k.sub = none) :
    exec (.cring g a b r) s = .next (modRing (popOps s x true [.s a, .s b]) x.core r fun _ => {}) := by
  change execCring g a b r s = _
  rw [hg] at hr
  have hmine : ¬((k.owner.isSome = true ∧ k.owner ≠ some t) ∨ k.sub.isSome = true) := by simp [ho, hs]
  simp only [execCring, hi, guardOps_ok hr, hg, hk, ha, hb, bind, Except.bind, pure, Except.pure, if_neg hmine]
  simp [ho]

section
variable {av bv : W64} (ha : sVal s x true a = av) (hb : sVal s x true b = bv) (hg : gTrue g x = true) (hs : k.sub = none)
include ha hb hg hs

/-- CRING of a ring that is released or the task's own, past the checks of its words (R306). -/
theorem exec_cring_claim (ho : k.owner = none ∨ k.owner = some t) (hw : RingWords av bv) :
    let sl := av.toNat / 2 ^ 32 % 2048
    let base := av.toNat % 2 ^ 22
    let dmax := bv.toNat / 256 % 128
    let dmin := bv.toNat % 128
    exec (.cring g a b r) s = .next (
      if base % 128 ≠ 0 then raise s { code := cMemory, sub := 2, addr := av }
      else if spExt (s.core x.core).part < base + dmax * sl * 128 then raise s { code := cMemory, sub := 4, addr := av }
      else if drainHeld s x t x.core then s.modLatch fun l => { l with held := true }
      else modRing (deferEng (popOps s x true [.s a, .s b]) x.core
          (.pool x.core [] (some (false, List.range' (base / 128) (dmax * sl))))) x.core r
        fun _ => { owner := some t, slotl := sl, base := base, dmax := dmax, dmin := dmin, depth := dmin }) := by
  intro sl base dmax dmin
  have hmine : ¬((k.owner.isSome = true ∧ k.owner ≠ some t) ∨ k.sub.isSome = true) := by
    rcases ho with h | h <;> simp [h, hs]
  have hnz : ¬(av = 0 ∧ bv = 0 ∧ k.owner = some t) := by
    rintro ⟨rfl, -, -⟩
    exact absurd hw.2.2.1 (by decide)
  have hsl : (av.extractLsb' 32 11).toNat = sl := toNat_field ..
  have hbase : (av.extractLsb' 0 22).toNat = base := toNat_low ..
  have hmax : (bv.extractLsb' 8 7).toNat = dmax := toNat_field ..
  have hmin : (bv.extractLsb' 0 7).toNat = dmin := toNat_low ..
  have harea := hw.area
  have hdepths := hw.depths
  rw [hsl] at harea
  rw [hmax, hmin] at hdepths
  change execCring g a b r s = _
  rw [hg] at hr
  simp only [execCring, hi, guardOps_ok hr, hg, hk, ha, hb, bind, Except.bind, pure, Except.pure, Bool.not_true, Bool.false_eq_true,
    if_false, if_neg hmine, if_neg hnz, hsl, hbase, hmax, hmin, if_neg harea, if_neg hdepths]
  by_cases hal : base % 128 = 0
  · by_cases hext : spExt (s.core x.core).part < base + dmax * sl * 128
    · simp [need, hal, hext, memTrap, mmCause, MM.code]
    · cases drainHeld s x t x.core <;> simp [need, hal, hext]
  · simp [need, hal, memTrap, mmCause, MM.code]

/-- CRSUB of a ring of the task that has no subscription: the checks of its address and tiles (R307). -/
theorem exec_crsub (dir : SpoutDir) (ho : k.owner = some t) :
    let tag := av.toNat / 2 ^ 61
    exec (.crsub g a b dir r) s = .next (
      if tag = 4 ∨ tag = 5 ∨ tag = 6 ∨ (tag = 0 ∧ isRemote av = true) then raise s { code := cOperand, sub := 0xC, info := av }
      else if ¬(0 < bv.toNat % 2 ^ 32 ∧ bv.toNat / 2 ^ 32 % 128 = 0) then raise s { code := cOperand, sub := 0xC, info := bv }
      else if badTag av then raise s { code := cMemory, sub := 1, addr := av }
      else
        let sub : RingSub := { dir := dir, base := av, ntile := bv.toNat % 2 ^ 32, stride := BitVec.ofNat 64 (bv.toNat / 2 ^ 32),
                               fork := forkOf s t x }
        modRing (popOps s x true [.s a, .s b]) x.core r fun q => { q with fins := 0, sub := some sub, tiles := 0, cycles := 0 }) := by
  intro tag
  have hmine : ¬(k.owner ≠ some t ∨ k.sub.isSome = true) := by simp [ho, hs]
  have htag : (av.extractLsb' 61 3 = 0b100 ∨ av.extractLsb' 61 3 = 0b101 ∨ av.extractLsb' 61 3 = 0b110 ∨
      (av.extractLsb' 61 3 = 0b000 ∧ isRemote av = true)) ↔ (tag = 4 ∨ tag = 5 ∨ tag = 6 ∨ (tag = 0 ∧ isRemote av = true)) := by
    simp only [field_eq_iff, toNat_top av (lo := 61)]
    rfl
  have hnt : (bv.extractLsb' 0 32).toNat = bv.toNat % 2 ^ 32 := toNat_low ..
  have hst : (bv.extractLsb' 32 32).toNat = bv.toNat / 2 ^ 32 := (toNat_field ..).trans (toNat_top bv (lo := 32))
  have hst' : (bv.extractLsb' 32 32).setWidth 64 = BitVec.ofNat 64 (bv.toNat / 2 ^ 32) :=
    BitVec.eq_of_toNat_eq (by rw [BitVec.toNat_setWidth, hst, BitVec.toNat_ofNat])
  have htiles : (bv.toNat % 2 ^ 32 = 0 ∨ bv.toNat / 2 ^ 32 % 128 ≠ 0) ↔ ¬(0 < bv.toNat % 2 ^ 32 ∧ bv.toNat / 2 ^ 32 % 128 = 0) := by omega
  change execCrsub g a b dir r s = _
  rw [hg] at hr
  simp only [execCrsub, hi, guardOps_ok hr, hg, hk, ha, hb, bind, Except.bind, pure, Except.pure, Bool.not_true, Bool.false_eq_true,
    if_false, if_neg hmine, htag, hnt, hst, hst', htiles]
  split
  · rfl
  · split
    · rfl
    · split <;> rfl

end
end
end

/-! ### CRUNSUB and CRFIN -/

section
variable {s : State} {t : Nat} {x : Context} {g : Guard} {r : BitVec 3} (hi : s.issuer = .ok (t, x))
include hi

theorem exec_crunsub_off (hg : gTrue g x = false) : exec (.crunsub g r) s = .next s := by
  change execCrunsub g r s = _
  simp [execCrunsub, hi, guardOps_nil, hg, bind, Except.bind, pure, Except.pure]

theorem exec_crfin_off (hg : gTrue g x = false) : exec (.crfin g r) s = .next s := by
  change execCrfin g r s = _
  simp [execCrfin, hi, guardOps_nil, hg, bind, Except.bind, pure, Except.pure]

section
variable {k : StageRing} (hk : (s.core x.core).rings[r.toFin] = k) (hg : gTrue g x = true) (ho : k.owner = some t)
include hk hg ho

theorem exec_crunsub {sub : RingSub} (hs : k.sub = some sub) : exec (.crunsub g r) s = .next (
    if sub.dir = .out ∧ sub.next < min k.fin sub.ntile then s.modLatch fun l => { l with held := true }
    else dropClean (modRing s x.core r fun q => { q with sub := none }) x.core) := by
  change execCrunsub g r s = _
  simp only [execCrunsub, hi, guardOps_nil, hg, hk, hs, bind, Except.bind, pure, Except.pure, Bool.not_true, Bool.false_eq_true,
    if_false, if_neg (not_not.mpr ho)]
  split <;> rfl

theorem exec_crfin_alone (hs : k.sub = none) : exec (.crfin g r) s = .next (
    modRing s x.core r fun q => { q with fin := (q.fin + 1) % 2 ^ 32, fins := q.fins + 1 }) := by
  change execCrfin g r s = _
  simp [execCrfin, hi, guardOps_nil, hg, hk, ho, hs, bind, Except.bind, pure, Except.pure]

theorem exec_crfin {sub : RingSub} (hs : k.sub = some sub)
    (hn : k.fin < sub.ntile) :
    exec (.crfin g r) s = .next (
      if (sub.dir = .in_ ∧ k.done = k.fin) ∨ drainHeld s x t x.core = true then s.modLatch fun l => { l with held := true }
      else deferEng (modRing s x.core r fun q => { q with fin := (q.fin + 1) % 2 ^ 32, fins := q.fins + 1 }) x.core
        (.pool x.core [] (some (sub.dir == .out, ringLines k k.fin)))) := by
  change execCrfin g r s = _
  simp only [execCrfin, hi, guardOps_nil, hg, hk, hs, bind, Except.bind, pure, Except.pure, Bool.not_true, Bool.false_eq_true,
    if_false, if_neg (not_not.mpr ho), if_neg hn.not_ge]
  by_cases hw : (sub.dir = .in_ ∧ k.done = k.fin) ∨ drainHeld s x t x.core = true
  · rw [if_pos hw, if_pos hw]; rfl
  · rw [if_neg hw, if_neg hw]; rfl

end
end

/-- The instructions of the stage rings. -/
theorem ringInstructions : RingInstructions := by
  refine ⟨fun s t x g a b r hi hr => ?_, fun s t x g r hi => ?_⟩
  · intro av bv k s0
    refine ⟨fun hg => ⟨exec_cring_off hi hr hg, fun dir => exec_crsub_off hi hr dir hg⟩,
      fun hg ha hb ho hs => exec_cring_release hi hr rfl hg ha hb ho hs, ?_, fun dir hg ho hs => ?_⟩
    · intro sl base dmax dmin hg ho hs h43 h22 hsl h15 h7 hmax hmax' hmin hle
      have hx := exec_cring_claim hi hr rfl rfl rfl hg hs ho ⟨h43, h22, hsl, h15, h7, hmax, hmax', hmin, hle⟩
      refine ⟨fun hal hext => ?_, fun hal => ?_, fun hal hext => ?_⟩ <;> rw [hx]
      · rw [if_neg (not_not.mpr hal), if_neg hext.not_gt]
      · rw [if_pos hal]
      · rw [if_neg (not_not.mpr hal), if_pos hext]
    · intro tag other tiles
      have hx := exec_crsub hi hr rfl rfl rfl hg hs dir ho
      refine ⟨fun h => ?_, fun h ht => ?_, fun h ht hb => ?_, fun h ht hb => ?_⟩ <;> rw [hx]
      · rw [if_pos h]
      · rw [if_neg h, if_pos ht]
      · rw [if_neg h, if_neg (not_not.mpr ht), if_pos hb]
      · rw [if_neg h, if_neg (not_not.mpr ht), if_neg (by rw [hb]; decide)]
  · exact ⟨fun hg => ⟨exec_crunsub_off hi hg, exec_crfin_off hi hg⟩, fun sub hg ho hs => exec_crunsub hi rfl hg ho hs,
      fun hg ho hs => exec_crfin_alone hi rfl hg ho hs, fun sub hg ho hs hn => exec_crfin hi rfl hg ho hs hn⟩

/-! ### The Spout -/

/-- The ring after a tile of its subscription (R307, R310). -/
def StageRing.moved (g : StageRing) (sub : RingSub) (s : State) : StageRing :=
  { g with done := sub.next + 1, tiles := g.tiles + 1, cycles := g.cycles + Config.tileCycles s.fresh,
           sub := some { sub with next := sub.next + 1 } }

section
variable {s : State} {c i : Nat} {g : StageRing} {sub : RingSub} (hs : g.sub = some sub) (hd : (s.core c).drain = none)
  (hn : sub.next < sub.ntile) (hf : forked s (g.owner.getD 0) sub.fork = true)
include hs hd hn hf

/-- The tile of an IN ring that is due is read and written into the next slot. -/
theorem spoutStep_in {s1 : State} {bs : List Byte} (hdir : sub.dir = .in_) (hdue : sub.next < g.fin + g.depth)
    (hr : engRead s c (sub.base + BitVec.ofNat 64 sub.next * sub.stride) (g.slotl * 128) = (s1, .ok bs)) :
    spoutStep s c i g = some (spWrite s1.tick c rkSpout (g.base + sub.next % max g.dmax 1 * (g.slotl * 128)) bs
      (some (true, ringLines g sub.next)), g.moved sub s) := by
  simp only [spoutStep, hs]
  rw [if_neg (by simp [hd, hf, hn])]
  simp only [hdir, if_neg hdue.not_ge, hr]
  rw [StageRing.moved, hdir]

/-- The next slot of an OUT ring that is finished is read and written back. -/
theorem spoutStep_out {s1 s2 s3 : State} {bs : List Byte} {d : Side} (hdir : sub.dir = .out) (hdue : sub.next < g.fin)
    (hr : readSide s c rkSpout
      { parts := [(.pool c (spBase (s.core c).part + (g.base + sub.next % max g.dmax 1 * (g.slotl * 128))), g.slotl * 128)] } =
        (s1, .ok bs))
    (hx : resolveMem s1 c (sub.base + BitVec.ofNat 64 sub.next * sub.stride) (g.slotl * 128) .wr = (s2, .ok d))
    (hw : writeSide s2 c rkSpout d bs = (s3, none)) :
    spoutStep s c i g = some (poolWrite s3.tick c rkSpout [] (some (false, ringLines g sub.next)), g.moved sub s) := by
  simp only [spoutStep, hs]
  rw [if_neg (by simp [hd, hf, hn])]
  simp only [hdir, if_neg hdue.not_ge, hr, hx, hw]
  rw [StageRing.moved, hdir]

end

theorem exec_spoutTileTransfer {s s1 : State} {h : StageRing} (hi : s.ev.num < 8)
    (hs : spoutStep s s.ev.core s.ev.num ((s.core s.ev.core).rings.getD s.ev.num {}) = some (s1, h)) :
    exec .spoutTileTransfer s = .next (modRing s1 s.ev.core (BitVec.ofNat 3 s.ev.num) fun _ => h) := by
  change execSpoutTileTransfer s = _
  simp only [execSpoutTileTransfer, if_pos hi, hs]

/-! ### The end of a window -/

/-- A ring at the end of a window, `l` standing for a tile's cycles where none was completed in it (R310). -/
def StageRing.windowed (g : StageRing) (l : Nat) : StageRing :=
  let h : StageRing := { g with fins := 0, tiles := 0, cycles := 0 }
  match g.sub with
  | some sub => if sub.dir = .in_ ∧ g.fins ≠ 0 then { h with depth := g.newDepth l } else h
  | none => h

theorem windowed_keeps (g : StageRing) (l : Nat) : (g.windowed l).fins = 0 ∧ (g.windowed l).owner = g.owner ∧
    (g.windowed l).sub = g.sub ∧ (g.windowed l).fin = g.fin := by
  unfold StageRing.windowed
  dsimp only
  repeat' split
  all_goals exact ⟨rfl, rfl, rfl, rfl⟩

theorem windowed_depth_same {g : StageRing} (l : Nat) (h : g.fins = 0 ∨ ∀ sub, g.sub = some sub → sub.dir ≠ .in_) :
    (g.windowed l).depth = g.depth := by
  unfold StageRing.windowed
  dsimp only
  split
  next sub hs =>
    rw [if_neg]
    rintro ⟨hd, hf⟩
    exact h.elim hf fun h => h sub hs hd
  next => rfl

theorem windowed_depth {g : StageRing} (l : Nat) {sub : RingSub} (hs : g.sub = some sub) (hd : sub.dir = .in_) (hf : g.fins ≠ 0)
    (ht : g.tiles ≠ 0) : (g.windowed l).depth =
      min (max ((g.cycles * g.fins + g.tiles * 4096 - 1) / (g.tiles * 4096) + 1) g.dmin) g.dmax := by
  simp only [StageRing.windowed, hs, if_pos (And.intro hd hf), StageRing.newDepth, if_neg ht]

theorem rings_modRing (s : State) (c : Nat) (r : BitVec 3) (f : StageRing → StageRing) :
    ((modRing s c r f).core c).rings[r.toFin] = f ((s.core c).rings[r.toFin]) := by
  simp [modRing]

theorem exec_spoutDepthUpdate {s : State} (h : (s.acyc[dieOf s.ev.core]).toNat % 4096 = 0) : exec .spoutDepthUpdate s = .next (
    modRing s.tick s.ev.core (BitVec.ofNat 3 s.ev.num) fun g => g.windowed (Config.tileCycles s.fresh)) := by
  change execSpoutDepthUpdate s = _
  simp only [execSpoutDepthUpdate, h, ne_eq, not_true_eq_false, if_false]
  rfl

theorem ringDepth_of_not_in {g : StageRing} (h : ∀ sub, g.sub = some sub → sub.dir ≠ .in_) : ringDepth g = g.dmax := by
  unfold ringDepth
  split
  next sub hs => exact if_neg (h sub hs)
  next => rfl

/-- The steps of the Spout. -/
theorem ringSteps : RingSteps := by
  refine ⟨fun s sub => ?_, fun s => ?_, fun g h => ringDepth_of_not_in h⟩
  · intro c g n off va done hi hs hd hn hf
    refine ⟨fun s1 bs hdir hdue hr => ?_, fun s1 s2 s3 bs d hdir hdue hr hx hw => ?_⟩
    · rw [exec_spoutTileTransfer hi (spoutStep_in hs hd hn hf hdir hdue hr)]
      rfl
    · rw [exec_spoutTileTransfer hi (spoutStep_out hs hd hn hf hdir hdue hr hx hw)]
      rfl
  · intro c r h
    refine ⟨_, exec_spoutDepthUpdate h, ?_⟩
    intro g h
    have hw : h = g.windowed (Config.tileCycles s.fresh) := rings_modRing s.tick c r _
    obtain ⟨hfins, howner, hsub, hfin⟩ := windowed_keeps g (Config.tileCycles s.fresh)
    rw [hw]
    exact ⟨hfins, howner, hsub, hfin, windowed_depth_same _, fun sub => windowed_depth _⟩

/-- Settles O31: the instructions past their checks, the steps by the tile that is due and the window that ends. -/
theorem stageRings : Obligations.StageRings := ⟨ringInstructions, ringSteps⟩

end Sys2Proof.Machine
end

section
/-!
PROOFS. The token-tree instructions (R148, R232 to R245): the statement of O23.
-/

namespace Sys2Proof.Machine

/-! ### A slot on a tree (R233) -/

section
variable {s : State} {t : Nat} {x : Context} {g : Guard} {a : SSel} {extra : List Opd} {n : Nat} (hi : s.issuer = .ok (t, x))
  (hm : x.trapMode = false) (hr : readable s x (gTrue g x) (.s a :: extra) n = true) {op : Nat} {uses : Bool}
  {idle : State → Nat → State} {f : State → Nat → Context → Fin 16 × TtDesc × Nat → Res State} {o : Host.Outcome State Fault Refusal}
  (he : o = ttOp op g a extra uses n idle f s)
include hi hm hr he

theorem ttOp_off (hg : gTrue g x = false) : o = .next (idle s t) := by
  rw [hg] at hr
  rw [he]
  simp only [ttOp, hi, noTrapMode_ok hm, hg, guardOps_ok hr, bind, Except.bind, pure, Except.pure, Bool.not_false, if_true]
  rfl

variable (hg : gTrue g x = true)
include hg

theorem ttOp_stray (ht : treeOf s x.core t (sVal s x true a) uses = none) :
    o = .next (raise s { code := cOperand, sub := op, info := sVal s x true a }) := by
  rw [hg] at hr
  rw [he]
  simp only [ttOp, hi, noTrapMode_ok hm, hg, guardOps_ok hr, ht, bind, Except.bind, pure, Except.pure, Bool.not_true,
    Bool.false_eq_true, if_false]
  rfl

theorem ttOp_tree {r : Fin 16 × TtDesc × Nat} (ht : treeOf s x.core t (sVal s x true a) uses = some r) :
    o = conclude s (f (popOps s x true (.s a :: extra)) t x r) := by
  rw [hg] at hr
  rw [he]
  simp only [ttOp, hi, noTrapMode_ok hm, hg, guardOps_ok hr, ht, bind, Except.bind, pure, Except.pure, Bool.not_true,
    Bool.false_eq_true, if_false]

end

theorem ttEcc_sound {d : TtDesc} (h : TreeSound d) (ns : List Nat) : ttEcc d ns = .ok () := by
  have hn : (ns.any fun n => (d.node n).bad) = false := by
    rw [List.any_eq_false]
    exact fun n _ => by simp [h n]
  simp [ttEcc, need, hn]

theorem ttEcc_singleton (d : TtDesc) (n : Nat) :
    ttEcc d [n] = if (d.node n).bad then .error (.trap { code := cDataEcc, sub := 5 }) else .ok () := by
  cases h : (d.node n).bad <;> simp [ttEcc, need, h, trapWith]

/-! ### TTNEW (R237) -/

/-- The words of a TTNEW keep the limits of a tree. -/
def TreeWords (va vb : W64) : Prop :=
  let cap := vb.toNat / 2 ^ 32 % 512
  0 < cap ∧ cap ≤ 256 ∧ vb.toNat < 2 ^ 41 ∧ va.toNat % 2 ^ 32 ≤ 0xFFFFFEFF ∧ va.toNat / 2 ^ 32 + cap - 1 ≤ 0xFFFFFFFF

theorem not_treeWords {va vb : W64} (h : vb.toNat / 2 ^ 32 % 512 = 0 ∨ 256 < vb.toNat / 2 ^ 32 % 512 ∨ 2 ^ 41 ≤ vb.toNat ∨
    0xFFFFFEFF < va.toNat % 2 ^ 32 ∨ 0xFFFFFFFF < va.toNat / 2 ^ 32 + vb.toNat / 2 ^ 32 % 512 - 1) : ¬TreeWords va vb := by
  simp only [TreeWords]
  omega

/-- The limits as TTNEW reads them off the fields of its operands. -/
theorem not_treeWords_iff (va vb : W64) : ((vb.extractLsb' 32 9).toNat = 0 ∨ 256 < (vb.extractLsb' 32 9).toNat ∨
    vb.extractLsb' 41 23 ≠ 0 ∨ 0xFFFFFEFF < (va.extractLsb' 0 32).toNat ∨
    0xFFFFFFFF < (va.extractLsb' 32 32).toNat + (vb.extractLsb' 32 9).toNat - 1) ↔ ¬TreeWords va vb := by
  have hkv : (va.extractLsb' 32 32).toNat = va.toNat / 2 ^ 32 := (toNat_field ..).trans (toNat_top va (lo := 32))
  have hz : vb.extractLsb' 41 23 = 0 ↔ vb.toNat / 2 ^ 41 = 0 := by
    rw [field_eq_iff, toNat_top vb (lo := 41)]
    rfl
  rw [hkv, ne_eq, hz, toNat_low, toNat_field]
  simp only [TreeWords]
  omega

section
variable {s : State} {t : Nat} {x : Context} {g : Guard} {a b : SSel} (hi : s.issuer = .ok (t, x)) (hm : x.trapMode = false)
  (hr : readable s x (gTrue g x) [.s a, .s b] 1 = true)
include hi hm hr

theorem exec_ttnew_off (hg : gTrue g x = false) : exec (.ttnew g a b) s = .next (pushS s t 2 0) := by
  change execTtnew g a b s = _
  rw [hg] at hr
  simp only [execTtnew, hi, noTrapMode_ok hm, hg, guardOps_ok hr, bind, Except.bind, pure, Except.pure, Bool.not_false, if_true]
  rfl

variable (hg : gTrue g x = true) {va vb : W64} (ha : sVal s x true a = va) (hb : sVal s x true b = vb)
include hg ha hb

theorem exec_ttnew_limit (hw : ¬TreeWords va vb) :
    exec (.ttnew g a b) s = .next (raise s { code := cOperand, sub := 4, info := vb }) := by
  change execTtnew g a b s = _
  rw [hg] at hr
  simp only [execTtnew, hi, noTrapMode_ok hm, hg, guardOps_ok hr, ha, hb, if_pos ((not_treeWords_iff va vb).mpr hw), bind,
    Except.bind, pure, Except.pure, Bool.not_true, Bool.false_eq_true, if_false]
  rfl

variable (hw : TreeWords va vb) {s0 : State} (h0 : popOps s x true [.s a, .s b] = s0)
include hw h0

/-- The lowest released descriptor and the entries that are free decide (R237). -/
theorem exec_ttnew : exec (.ttnew g a b) s = .next (
    match (List.finRange 16).find? (fun i => ((s0.core x.core).ttf[i]).tree.isNone) with
    | none => pushS s0 t 2 (BitVec.allOnes 64)
    | some i =>
      if ttFree (s0.core x.core) < vb.toNat / 2 ^ 32 % 512 then pushS s0 t 2 (BitVec.allOnes 64)
      else pushS (setTree s0 x.core i
        { gen := ((s0.core x.core).ttf[i]).gen + 1, tree := some (t, vb.toNat / 2 ^ 32 % 512), basePos := va.extractLsb' 0 32,
          kvBase := va.extractLsb' 32 32, nodes := [{ token := vb.extractLsb' 0 32, parent := 0, depth := 0, flags := 0 }] }) t 2
        (BitVec.ofNat 64 ((((s0.core x.core).ttf[i]).gen + 1).toNat * 16 + i.val))) := by
  have hcap : (vb.extractLsb' 32 9).toNat = vb.toNat / 2 ^ 32 % 512 := toNat_field ..
  change execTtnew g a b s = _
  rw [hg] at hr
  simp only [execTtnew, hi, noTrapMode_ok hm, hg, guardOps_ok hr, ha, hb, h0, if_neg (mt (not_treeWords_iff va vb).mp (not_not.mpr hw)),
    bind, Except.bind, pure, Except.pure, Bool.not_true, Bool.false_eq_true, if_false]
  rw [hcap]
  cases (List.finRange 16).find? (fun i => ((s0.core x.core).ttf[i]).tree.isNone) with
  | none => rfl
  | some i =>
    dsimp only
    split <;> rfl

theorem exec_ttnew_opened {i : Fin 16} (hf : (List.finRange 16).find? (fun i => ((s0.core x.core).ttf[i]).tree.isNone) = some i)
    (hroom : vb.toNat / 2 ^ 32 % 512 ≤ ttFree (s0.core x.core)) :
    exec (.ttnew g a b) s = .next (pushS (setTree s0 x.core i
      { gen := ((s0.core x.core).ttf[i]).gen + 1, tree := some (t, vb.toNat / 2 ^ 32 % 512), basePos := va.extractLsb' 0 32,
        kvBase := va.extractLsb' 32 32, nodes := [{ token := vb.extractLsb' 0 32, parent := 0, depth := 0, flags := 0 }] }) t 2
      (BitVec.ofNat 64 ((((s0.core x.core).ttf[i]).gen + 1).toNat * 16 + i.val))) := by
  rw [exec_ttnew hi hm hr hg ha hb hw h0, hf]
  dsimp only
  rw [if_neg hroom.not_gt]

theorem exec_ttnew_full (hfull : (∀ i : Fin 16, ((s0.core x.core).ttf[i]).tree.isSome = true) ∨
    ttFree (s0.core x.core) < vb.toNat / 2 ^ 32 % 512) :
    exec (.ttnew g a b) s = .next (pushS s0 t 2 (BitVec.allOnes 64)) := by
  rw [exec_ttnew hi hm hr hg ha hb hw h0]
  cases hf : (List.finRange 16).find? (fun i => ((s0.core x.core).ttf[i]).tree.isNone) with
  | none => rfl
  | some i =>
    have hnone : ((s0.core x.core).ttf[i]).tree.isNone = true := by
      simpa only using List.find?_some (p := fun j : Fin 16 => ((s0.core x.core).ttf[j]).tree.isNone) hf
    have hlt := hfull.resolve_left fun h => Option.isSome_iff_ne_none.mp (h i) (Option.isNone_iff_eq_none.mp hnone)
    dsimp only
    rw [if_pos hlt]

end

/-! ### TTADD, TTPRUNE and TTFREE (R238, R243, R245) -/

section
variable {s : State} {t : Nat} {x : Context} {g : Guard} {a b : SSel} (hi : s.issuer = .ok (t, x)) (hm : x.trapMode = false)
  (hr : readable s x (gTrue g x) [.s a, .s b] 1 = true) (hg : gTrue g x = true)
include hi hm hr hg

theorem exec_ttadd (fl : BitVec 6) {i : Fin 16} {d : TtDesc} {p : Nat}
    (ht : treeOf s x.core t (sVal s x true a) true = some (i, d, p)) (hp : (d.node p).bad = false) :
    exec (.ttadd g a b fl) s = .next (
      if (d.tree.map (·.2)).getD 0 ≤ d.nodes.length then pushS (popOps s x true [.s a, .s b]) t 2 (BitVec.allOnes 64)
      else pushS (setTree (popOps s x true [.s a, .s b]) x.core i { d with nodes := d.nodes ++
        [{ token := (sVal s x true b).setWidth 32, parent := p, depth := (d.node p).depth + 1, flags := fl }] }) t 2
        (BitVec.ofNat 64 d.nodes.length)) := by
  refine (ttOp_tree (o := execTtadd g a b fl s) hi hm hr rfl hg ht).trans ?_
  simp only [ttEcc_singleton, hp, Bool.false_eq_true, if_false, bind, Except.bind, pure, Except.pure]
  split <;> rfl

/-- The path is stored and kept where its slots are the core's own, no drain holds the store and no local release goes before it. -/
theorem exec_ttprune (sf : Bool) {i : Fin 16} {d : TtDesc} {n : Nat} {s0 : State} {o : W64} (h0 : popOps s x true [.s a, .s b] = s0)
    (ho : sVal s x true b = o) (ht : treeOf s x.core t (sVal s x true a) true = some (i, d, n)) (hd : TreeSound d)
    (hal : o.toNat % 4 = 0) (hext : o.toNat + 4 * (pathTo d n).length ≤ spExt (s0.core x.core).part)
    (hdr : drainHeld s0 x t x.core = false) (hrel : sf = true → x.rels.any Later.localRel = false) :
    exec (.ttprune g a b sf) s = .next (pushS (setTree (spStore s0 x.core x.core o.toNat (if sf then .sf else .plain)
      (place 0 ((pathTo d n).flatMap fun q => leBytes (d.kvBase + BitVec.ofNat 32 q).toNat 4)) (linesOf o.toNat (4 * (pathTo d n).length)))
      x.core i { d with nodes := pruned d (pathTo d n) }) t 6 (BitVec.ofNat 64 (pathTo d n).length)) := by
  have hfe : feSHold s0 x.core x (if sf then .sf else .plain) (linesOf o.toNat (4 * (pathTo d n).length)) = .ok () := by
    rw [feSHold_eq]
    cases sf <;> simp_all
  refine (ttOp_tree (o := execTtprune g a b sf s) hi hm hr rfl hg ht).trans ?_
  simp only [h0, ho, target_own hal hext, hdr, ttEcc_sound hd, hfe, Bool.false_eq_true, if_false, bind, Except.bind, pure, Except.pure]
  rfl

end

/-- TTFREE keeps the generation of the descriptor it releases. -/
theorem exec_ttfree {s : State} {t : Nat} {x : Context} {g : Guard} {a : SSel} (hi : s.issuer = .ok (t, x)) (hm : x.trapMode = false)
    (hr : readable s x (gTrue g x) [.s a] 0 = true) (hg : gTrue g x = true) {i : Fin 16} {d : TtDesc} {n : Nat}
    (ht : treeOf s x.core t (sVal s x true a) false = some (i, d, n)) :
    exec (.ttfree g a) s = .next (setTree (popOps s x true [.s a]) x.core i { gen := d.gen }) :=
  ttOp_tree (o := execTtfree g a s) hi hm hr rfl hg ht

/-! ### The instructions that read a tree (R240 to R242, R245) -/

section
variable {s : State} {t : Nat} {x : Context} {g : Guard} {a : SSel} (hi : s.issuer = .ok (t, x)) (hm : x.trapMode = false)
  (hr : readable s x (gTrue g x) [.s a] 1 = true) (hg : gTrue g x = true) {i : Fin 16} {d : TtDesc} {n : Nat}
include hi hm hr hg

theorem exec_ttpos (ht : treeOf s x.core t (sVal s x true a) false = some (i, d, n)) (hd : TreeSound d) (cl : Clu) (blk : BitVec 2) :
    exec (.ttpos g a cl blk) s = .next (pushAll (popOps s x true [.s a]) t cl 3 true (VReg.of fun l =>
      if 64 * blk.toNat + l < d.nodes.length then d.basePos + BitVec.ofNat 32 (d.node (64 * blk.toNat + l)).depth
      else BitVec.allOnes 32)) := by
  refine (ttOp_tree (o := execTtpos g a cl blk s) hi hm hr rfl hg ht).trans ?_
  simp only [ttEcc_sound hd, bind, Except.bind, pure, Except.pure]
  rfl

theorem exec_ttmask (ht : treeOf s x.core t (sVal s x true a) true = some (i, d, n)) (hd : TreeSound d) (cl : Clu) (col : Bool)
    (form : MaskForm) (blk : BitVec 2) :
    exec (.ttmask g a cl col form blk) s = .next (pushAll (popOps s x true [.s a]) t cl 4 true (VReg.of fun l =>
      match form with
      | .word => if relOf d col n (64 * blk.toNat + l) then BitVec.allOnes 32 else 0
      | .bias => if relOf d col n (64 * blk.toNat + l) then 0 else 0xFF800000
      | .bits => if l < 8 then BitVec.ofNat 32 ((List.range 32).foldl (fun v i => if relOf d col n (32 * l + i) then v + 2 ^ i else v) 0)
          else 0)) := by
  refine (ttOp_tree (o := execTtmask g a cl col form blk s) hi hm hr rfl hg ht).trans ?_
  simp only [ttEcc_sound hd, bind, Except.bind, pure, Except.pure]
  rfl

theorem exec_ttpath (ht : treeOf s x.core t (sVal s x true a) true = some (i, d, n)) (hd : TreeSound d) (cl : Clu) (fld : PathFld)
    (blk : BitVec 2) :
    exec (.ttpath g a cl fld blk) s = .next (pushAll (popOps s x true [.s a]) t cl 4 true (VReg.of fun l =>
      (((pathTo d n)[64 * blk.toNat + l]?).map (pathFld d fld)).getD (BitVec.allOnes 32))) := by
  refine (ttOp_tree (o := execTtpath g a cl fld blk s) hi hm hr rfl hg ht).trans ?_
  simp only [ttEcc_sound hd, bind, Except.bind, pure, Except.pure]
  rfl

variable (what : TtWhat) (ht : treeOf s x.core t (sVal s x true a) (what == .node) = some (i, d, n))
include ht

theorem exec_ttrd (hd : TreeSound d) : exec (.ttrd g a what) s = .next (pushS (popOps s x true [.s a]) t 2 (ttWord d what n)) := by
  refine (ttOp_tree (o := execTtrd g a what s) hi hm hr rfl hg ht).trans ?_
  simp only [ttEcc_sound hd, bind, Except.bind, pure, Except.pure]
  rfl

theorem exec_ttrd_error (hw : what = .node) (hb : (d.node n).bad = true) :
    exec (.ttrd g a what) s = .next (raise s { code := cDataEcc, sub := 5 }) := by
  refine (ttOp_tree (o := execTtrd g a what s) hi hm hr rfl hg ht).trans ?_
  simp only [if_pos hw, ttEcc_singleton, hb, if_true, bind, Except.bind]
  rfl

end

/-! ### The statement -/

/-- Settles O23: TTNEW by the limits and the lowest released descriptor, the others by the tree that the tree word names. -/
theorem treeInstructions : Obligations.TreeInstructions := by
  refine ⟨⟨?_, ?_, ?_, ?_, ?_⟩, ?_⟩
  · intro s t x g a b hi hm hr va vb cap s0 k
    refine ⟨exec_ttnew_off hi hm hr, fun hg h0 h256 h41 hpos hkv => ⟨fun i hf hroom => ?_, fun hfull => ?_⟩⟩
    · exact exec_ttnew_opened hi hm hr hg rfl rfl ⟨h0, h256, h41, hpos, hkv⟩ rfl hf hroom
    · exact exec_ttnew_full hi hm hr hg rfl rfl ⟨h0, h256, h41, hpos, hkv⟩ rfl hfull
  · intro s t x g a b hi hm hr va vb cap hg hout
    exact exec_ttnew_limit hi hm hr hg rfl rfl (not_treeWords hout)
  · intro s t x g a b fl hi hm hr s0
    exact ⟨ttOp_off (o := execTtadd g a b fl s) hi hm hr rfl,
      fun hg ht => ttOp_stray (o := execTtadd g a b fl s) hi hm hr rfl hg ht,
      fun i d p hg ht hp => exec_ttadd hi hm hr hg fl ht hp⟩
  · intro s t x g a b sf hi hm hr s0
    exact ⟨ttOp_off (o := execTtprune g a b sf s) hi hm hr rfl,
      fun hg ht => ttOp_stray (o := execTtprune g a b sf s) hi hm hr rfl hg ht,
      fun i d n hg ht hd hal hext hdr hrel => exec_ttprune hi hm hr hg sf rfl rfl ht hd hal hext hdr hrel⟩
  · intro s t x g a hi hm hr
    exact ⟨ttOp_off (o := execTtfree g a s) hi hm hr rfl, fun hg ht => ttOp_stray (o := execTtfree g a s) hi hm hr rfl hg ht,
      fun i d n hg ht => exec_ttfree hi hm hr hg ht⟩
  · intro s t x g a hi hm hr w s0
    refine ⟨fun hg => ?_, fun i d n hg ht hd => ?_, fun i d n hg ht hb => ?_, fun i d n hg ht hd => ?_, fun hg ht => ?_,
      fun hg ht => ?_⟩
    · exact ⟨fun cl blk => ttOp_off (o := execTtpos g a cl blk s) hi hm hr rfl hg,
        fun cl col form blk => ttOp_off (o := execTtmask g a cl col form blk s) hi hm hr rfl hg,
        fun cl fld blk => ttOp_off (o := execTtpath g a cl fld blk s) hi hm hr rfl hg,
        fun what => ttOp_off (o := execTtrd g a what s) hi hm hr rfl hg⟩
    · exact ⟨exec_ttpos hi hm hr hg ht hd, exec_ttrd hi hm hr hg .desc ht hd, exec_ttrd hi hm hr hg .pos ht hd⟩
    · exact exec_ttrd_error hi hm hr hg .node ht rfl hb
    · exact ⟨fun cl col => exec_ttmask hi hm hr hg ht hd cl col .word, fun cl col => exec_ttmask hi hm hr hg ht hd cl col .bias,
        fun cl col => exec_ttmask hi hm hr hg ht hd cl col .bits, exec_ttpath hi hm hr hg ht hd, exec_ttrd hi hm hr hg .node ht hd⟩
    · refine ⟨fun cl blk => ttOp_stray (o := execTtpos g a cl blk s) hi hm hr rfl hg ht, fun what hw => ?_⟩
      have hn : (what == .node) = false := beq_eq_false_iff_ne.mpr hw
      exact ttOp_stray (o := execTtrd g a what s) hi hm hr rfl hg (hn ▸ ht)
    · exact ⟨ttOp_stray (o := execTtrd g a .node s) hi hm hr rfl hg ht,
        fun cl col form blk => ttOp_stray (o := execTtmask g a cl col form blk s) hi hm hr rfl hg ht,
        fun cl fld blk => ttOp_stray (o := execTtpath g a cl fld blk s) hi hm hr rfl hg ht⟩

end Sys2Proof.Machine
end

section
/-!
PROOFS. Integers read and written by width, bit fields, division (R59, R70, R162, R165, R168): the statement of O3.
-/

namespace Sys2Proof.Machine

/-! ### The readings of the low bits are those of a bit vector of the width -/

theorem sx_eq_toInt (n w : Nat) : Arith.sx n w = (BitVec.ofNat w n).toInt := by
  have hhalf : n % 2 ^ w < 2 ^ (w - 1) ↔ 2 * (n % 2 ^ w) < 2 ^ w := by
    cases w with
    | zero => simp [Nat.mod_one]
    | succ w => rw [Nat.add_sub_cancel, Nat.pow_succ']; omega
  rw [BitVec.toInt_eq_toNat_cond, BitVec.toNat_ofNat]
  simp only [Arith.sx, hhalf, Nat.cast_pow, Nat.cast_ofNat]

theorem wrap_eq_toNat (v : Int) (w : Nat) : Arith.wrap v w = (BitVec.ofInt w v).toNat := by
  simp [Arith.wrap, BitVec.toNat_ofInt]

theorem intIn_unsigned (p : W64) (n : Nat) : Arith.intIn p.toNat n true = ((p.setWidth n).toNat : Int) := by
  rw [BitVec.toNat_setWidth]; rfl

theorem intIn_signed (p : W64) (n : Nat) : Arith.intIn p.toNat n false = (p.setWidth n).toInt := by
  rw [← BitVec.ofNat_toNat, ← sx_eq_toInt]; rfl

/-- int_out without SAT: the wrapped pattern, extended by its kind. -/
theorem intOut_wraps_unsigned (v : Int) (n : Nat) : Arith.intOut v n true false = (BitVec.ofInt n v).setWidth 64 := by
  rw [← BitVec.ofNat_toNat, ← wrap_eq_toNat]; rfl

theorem intOut_wraps_signed (v : Int) (n : Nat) : Arith.intOut v n false false = (BitVec.ofInt n v).signExtend 64 := by
  simp only [Arith.intOut, Arith.intPat, Bool.false_eq_true, if_false, sx_eq_toInt, wrap_eq_toNat, BitVec.ofNat_toNat,
    BitVec.setWidth_eq, BitVec.signExtend]

/-! ### A clamped result is a number of the format -/

section
variable (v : Int) {n : Nat} (h64 : n ≤ 64)
include h64

theorem toNat_intOut_clamped : (Arith.intOut v n true true).toNat = (max 0 (min v (2 ^ n - 1))).toNat := by
  have hpow : (0 : Int) < 2 ^ n := by positivity
  have hclamp : Arith.intOut v n true true = Arith.intOut (Arith.clampN v n) n true false := rfl
  have hin : Arith.clampN v n % (2 ^ n : Int) = Arith.clampN v n :=
    Int.emod_eq_of_lt (le_max_left _ _) (by unfold Arith.clampN; omega)
  rw [hclamp, intOut_wraps_unsigned, BitVec.toNat_setWidth_of_le h64, ← wrap_eq_toNat, Arith.wrap, hin, Arith.clampN]

theorem toInt_intOut_clamped (h0 : 0 < n) :
    (Arith.intOut v n false true).toInt = max (-(2 ^ (n - 1))) (min v (2 ^ (n - 1) - 1)) := by
  have hpow : (0 : Int) < 2 ^ (n - 1) := by positivity
  have hclamp : Arith.intOut v n false true = Arith.intOut (Arith.clampS v n) n false false := rfl
  rw [hclamp, intOut_wraps_signed, BitVec.toInt_signExtend_of_le h64, Arith.clampS]
  exact BitVec.toInt_ofInt_eq_self h0 (le_max_left _ _) (by omega)

end

theorem bits_pos (w : Width) : 0 < Arith.bits w := by cases w <;> decide
theorem bits_le (w : Width) : Arith.bits w ≤ 64 := by cases w <;> decide

/-! ### Bit fields (R168) -/

theorem fieldOf_eq_none_iff (b : W64) : fieldOf b = none ↔
    (b.toNat / 256 % 128 = 0 ∨ 64 < b.toNat / 256 % 128 ∨ 64 < b.toNat % 64 + b.toNat / 256 % 128) := by
  have hpos : (b.extractLsb' 0 6).toNat = b.toNat % 64 := toNat_low b 6
  have hlen : (b.extractLsb' 8 7).toNat = b.toNat / 256 % 128 := toNat_field b 8 7
  simp only [fieldOf, hpos, hlen, ite_eq_left_iff, reduceCtorEq, imp_false, not_not]

/-- The mask of a field has exactly the field's bits. -/
theorem getLsbD_fieldMask (pos len : Nat) {i : Nat} (hi : i < 64) :
    (BitVec.ofNat 64 ((2 ^ len - 1) * 2 ^ pos)).getLsbD i = decide (pos ≤ i ∧ i < pos + len) := by
  rw [BitVec.getLsbD_ofNat, Nat.testBit_mul_two_pow, Nat.testBit_two_pow_sub_one, ← Bool.decide_and, ← Bool.decide_and]
  exact decide_eq_decide.mpr (by omega)

theorem getLsbD_bfiVal (a q : W64) (pos len : Nat) {i : Nat} (hi : i < 64) :
    (bfiVal a q pos len).getLsbD i = if pos ≤ i ∧ i < pos + len then q.getLsbD (i - pos) else a.getLsbD i := by
  simp only [bfiVal, BitVec.getLsbD_or, BitVec.getLsbD_and, BitVec.getLsbD_not, BitVec.getLsbD_shiftLeft,
    getLsbD_fieldMask pos len hi, hi, decide_true, Bool.true_and]
  by_cases hin : pos ≤ i ∧ i < pos + len <;> simp [hin]

/-- BFX pushes the field's bits, extended by its kind. -/
theorem bfxVal_unsigned (a : W64) (pos len : Nat) : bfxVal a pos len true = (a.extractLsb' pos len).setWidth 64 := by
  rw [← BitVec.ofNat_toNat, toNat_field, ← intOut_zx]; rfl

theorem bfxVal_signed (a : W64) (pos len : Nat) : bfxVal a pos len false = (a.extractLsb' pos len).signExtend 64 := by
  rw [BitVec.signExtend, BitVec.extractLsb', Nat.shiftRight_eq_div_pow, ← sx_eq_toInt, ← intOut_sx]; rfl

theorem getLsbD_bfxVal_unsigned (a : W64) (pos len : Nat) {i : Nat} (hi : i < 64) :
    (bfxVal a pos len true).getLsbD i = if i < len then a.getLsbD (pos + i) else false := by
  rw [bfxVal_unsigned, BitVec.getLsbD_setWidth, BitVec.getLsbD_extractLsb']
  by_cases hl : i < len <;> simp [hi, hl]

theorem getLsbD_bfxVal_signed (a : W64) (pos : Nat) {len i : Nat} (h0 : 0 < len) (hi : i < 64) :
    (bfxVal a pos len false).getLsbD i = if i < len then a.getLsbD (pos + i) else a.getLsbD (pos + len - 1) := by
  have hmsb : (a.extractLsb' pos len).msb = a.getLsbD (pos + len - 1) := by
    rw [BitVec.msb_eq_getLsbD_last, BitVec.getLsbD_extractLsb', Nat.add_sub_assoc h0]
    simp [h0]
  rw [bfxVal_signed, BitVec.getLsbD_signExtend, BitVec.getLsbD_extractLsb', hmsb]
  by_cases hl : i < len <;> simp [hi, hl]

/-! ### Division (R165) -/

theorem divRem_zero (a : Int) (n : Nat) (u sat : Bool) :
    Arith.divRem a 0 n u sat = (if u then 2 ^ n - 1 else -1, a) := rfl

theorem divRem_least (n : Nat) (sat : Bool) :
    Arith.divRem (-(2 ^ (n - 1))) (-1) n false sat = (if sat then 2 ^ (n - 1) - 1 else -(2 ^ (n - 1)), 0) := by
  simp [Arith.divRem]

theorem divRem_rounds {a b : Int} {n : Nat} (u sat : Bool) (hb : b ≠ 0) (hover : ¬(a = -(2 ^ (n - 1)) ∧ b = -1)) :
    Arith.divRem a b n u sat = (a.tdiv b, a.tmod b) := by
  have hsigned : ¬((!u && decide (a = -(2 ^ (n - 1)))) = true ∧ b = -1) := by
    rintro ⟨ha, hm⟩
    exact hover ⟨of_decide_eq_true (Bool.and_eq_true_iff.mp ha).2, hm⟩
  simp only [Arith.divRem, if_neg hb]
  exact if_neg (by simpa using hsigned)

/-- Rounding toward zero: the remainder is smaller than the divisor and has the dividend's sign. -/
theorem tdiv_tmod_spec (a : Int) {b : Int} (hb : b ≠ 0) :
    a = b * a.tdiv b + a.tmod b ∧ (a.tmod b).natAbs < b.natAbs ∧ (a.tmod b = 0 ∨ (a.tmod b).sign = a.sign) := by
  refine ⟨(Int.mul_tdiv_add_tmod a b).symm, ?_, ?_⟩
  · rw [Int.natAbs_tmod]
    exact Nat.mod_lt _ (Int.natAbs_pos.mpr hb)
  · by_cases hd : b ∣ a
    · exact .inl (Int.tmod_eq_zero_of_dvd hd)
    · exact .inr (by rw [Int.sign_tmod, if_neg hd])

/-- Settles O3: the fields bit by bit, the readings and results as bit vectors of the width, division by its three cases. -/
theorem integerCorners : Obligations.IntegerCorners := by
  refine ⟨⟨fieldOf_eq_none_iff, fun a q pos len i _ _ hi => getLsbD_bfiVal a q pos len hi,
      fun a pos len i _ _ hi => getLsbD_bfxVal_unsigned a pos len hi,
      fun a pos len i h0 _ hi => getLsbD_bfxVal_signed a pos h0 hi⟩,
    ⟨fun w p => intIn_unsigned p _, fun w p => intIn_signed p _, fun w v => intOut_wraps_unsigned v _,
      fun w v => intOut_wraps_signed v _, fun w v => toNat_intOut_clamped v (bits_le w),
      fun w v => toInt_intOut_clamped v (bits_le w) (bits_pos w)⟩,
    fun w a b sat => ⟨⟨divRem_zero a _ false sat, divRem_zero a _ true sat⟩, divRem_least _ sat, fun hb hover u => ?_⟩⟩
  rw [divRem_rounds u sat hb hover]
  exact tdiv_tmod_spec a hb

end Sys2Proof.Machine
end

section
/-!
PROOFS. Predicates, index registers and transfers to a register's address (R170, R171, R173, R174, R184): the statements of O4
and O6.
-/

namespace Sys2Proof.Machine

/-! ### Predicates and index registers -/

section
variable {s : State} {t : Nat} {x : Context} (hi : s.issuer = .ok (t, x))
include hi

theorem exec_cmp {g : Guard} {a b : SSel} (cond : CmpCond) (d : BitVec 3) (hr : readable s x (gTrue g x) [.s a, .s b] 0 = true) :
    exec (.cmp g a b cond d) s = .next (
      if gTrue g x then wrPs (popOps s x true [.s a, .s b]) t d (cmpCond cond (sVal s x true a) (sVal s x true b)) else s) := by
  change execCmp g a b cond d s = _
  simp only [execCmp, hi, guardOps_ok hr, bind, Except.bind, pure, Except.pure, conclude_ok]
  cases gTrue g x
  · simp
  · rfl

theorem exec_plog (g : Guard) (p q d : BitVec 3) (op : PlogOp) : exec (.plog g p q op d) s = .next (
    if gTrue g x then wrPs s t d (Arith.plog op (x.fr.ps.getLsbD p.toNat) (x.fr.ps.getLsbD q.toNat)) else s) := by
  change execPlog g p q op d s = _
  simp only [execPlog, hi, guardOps_nil, bind, Except.bind, pure, Except.pure, conclude_ok]

theorem exec_putx {g : Guard} {a : SSel} (r : IdxReg) (hr : readable s x (gTrue g x) [.s a] 0 = true) :
    exec (.putx g a r) s = .next (
      if gTrue g x then wrX (popOps s x true [.s a]) t r ((sVal s x true a).setWidth 32) else s) := by
  change execPutx g a r s = _
  simp only [execPutx, hi, guardOps_ok hr, bind, Except.bind, pure, Except.pure, conclude_ok]
  cases gTrue g x
  · simp
  · rfl

theorem exec_xaddi (g : BitVec 3) (r : IdxReg) (i : BitVec 13) :
    exec (.xaddi g r i) s = .next (if gOn g x then wrX s t r (x.xReg r + i.signExtend 32) else s) := by
  change execXaddi g r i s = _
  simp only [execXaddi, hi, guardOps_nil, bind, Except.bind, pure, Except.pure, conclude_ok]

end

/-- Settles O4: each instruction by its checks; under a false guard nothing is popped. -/
theorem predicateAndIndexWrites : Obligations.PredicateAndIndexWrites :=
  ⟨fun _ _ _ _ _ _ cond d hi hr => exec_cmp hi cond d hr, fun _ _ _ g p q d op hi => exec_plog hi g p q d op,
    fun _ _ _ _ _ r hi hr => exec_putx hi r hr, fun _ _ _ g r i hi => exec_xaddi hi g r i⟩

/-! ### Transfers to a register's address (R184) -/

theorem legalTarget_iff (v : W64) :
    (v.extractLsb' 57 7 == 0 && v.extractLsb' 0 2 == 0) = true ↔ v.toNat < 2 ^ 57 ∧ v.toNat % 4 = 0 := by
  have hhigh : v.extractLsb' 57 7 = 0 ↔ v.toNat < 2 ^ 57 := by
    have := v.isLt
    rw [field_eq_iff, toNat_top v (lo := 57)]
    change v.toNat / 2 ^ 57 = 0 ↔ _
    omega
  have hlow : v.extractLsb' 0 2 = 0 ↔ v.toNat % 4 = 0 := by
    rw [← BitVec.toNat_inj, toNat_low]; rfl
  rw [Bool.and_eq_true, beq_iff_eq, beq_iff_eq, hhigh, hlow]

theorem regTarget_legal (op : Nat) {v : W64} (h : v.toNat < 2 ^ 57) (h4 : v.toNat % 4 = 0) : regTarget op v = .ok () :=
  if_pos ((legalTarget_iff v).mpr ⟨h, h4⟩)

theorem regTarget_illegal (op : Nat) {v : W64} (h : 2 ^ 57 ≤ v.toNat ∨ v.toNat % 4 ≠ 0) :
    regTarget op v = .error (.trap { code := cOperand, sub := op, info := v }) :=
  if_neg (by rw [legalTarget_iff]; omega)

section
variable {s : State} {t : Nat} {x : Context} {g : Guard} {a : SSel} (hi : s.issuer = .ok (t, x))
include hi

section
variable (op : Nat) (hr : readable s x (gTrue g x) [.s a] 0 = true)
include hr

theorem jumpReg_off (hg : gTrue g x = false) : jumpReg op g a s = .next s := by
  simp [jumpReg, hi, guardOps_ok (hg ▸ hr), hg, bind, Except.bind, pure, Except.pure]

variable (hg : gTrue g x = true)
include hg

theorem jumpReg_legal (h : (sVal s x true a).toNat < 2 ^ 57) (h4 : (sVal s x true a).toNat % 4 = 0) :
    jumpReg op g a s = .next (transfer (popOps s x true [.s a]) t x.pc (sVal s x true a)) := by
  simp [jumpReg, hi, guardOps_ok (hg ▸ hr), hg, regTarget_legal op h h4, bind, Except.bind, pure, Except.pure]

theorem jumpReg_illegal (h : 2 ^ 57 ≤ (sVal s x true a).toNat ∨ (sVal s x true a).toNat % 4 ≠ 0) :
    jumpReg op g a s = .next (raise s { code := cOperand, sub := op, info := sVal s x true a }) := by
  simp [jumpReg, hi, guardOps_ok (hg ▸ hr), hg, regTarget_illegal op h, bind, Except.bind]

end

section
variable (hr : readable s x (gTrue g x) [.s a] 1 = true)
include hr

theorem exec_callr_off (hg : gTrue g x = false) : exec (.callr g a) s = .next (pushS s t 1 (sVal s x false a)) := by
  change execCallr g a s = _
  simp [execCallr, hi, guardOps_ok (hg ▸ hr), hg, bind, Except.bind, pure, Except.pure]

variable (hg : gTrue g x = true)
include hg

theorem exec_callr_legal (h : (sVal s x true a).toNat < 2 ^ 57) (h4 : (sVal s x true a).toNat % 4 = 0) :
    exec (.callr g a) s = .next (transfer (pushS (popOps s x true [.s a]) t 1 x.npc) t x.pc (sVal s x true a)) := by
  change execCallr g a s = _
  simp [execCallr, hi, guardOps_ok (hg ▸ hr), hg, regTarget_legal 0x2D h h4, bind, Except.bind, pure, Except.pure]

theorem exec_callr_illegal (h : 2 ^ 57 ≤ (sVal s x true a).toNat ∨ (sVal s x true a).toNat % 4 ≠ 0) :
    exec (.callr g a) s = .next (raise s { code := cOperand, sub := 0x2D, info := sVal s x true a }) := by
  change execCallr g a s = _
  simp [execCallr, hi, guardOps_ok (hg ▸ hr), hg, regTarget_illegal 0x2D h, bind, Except.bind]

end

end

/-- Settles O6: JMPR and RET are one transfer with two opcodes; it and CALLR go on or trap as the address is legal or not. -/
theorem registerTransfers : Obligations.RegisterTransfers := by
  refine fun s t x g a hi => ⟨fun hr => ?_, fun hr => ?_⟩
  · intro v
    refine ⟨fun hg => ?_, fun hg h h4 => ?_, fun hg h => ?_⟩
    · exact ⟨jumpReg_off hi 0x2C hr hg, jumpReg_off hi 0x2E hr hg⟩
    · exact ⟨jumpReg_legal hi 0x2C hr hg h h4, jumpReg_legal hi 0x2E hr hg h h4⟩
    · exact ⟨jumpReg_illegal hi 0x2C hr hg h, jumpReg_illegal hi 0x2E hr hg h⟩
  · exact ⟨exec_callr_off hi hr, exec_callr_legal hi hr, exec_callr_illegal hi hr⟩

end Sys2Proof.Machine
end

section
/-!
PROOFS. PUT, streams, collectives and the state of the fabric (R172, R323, R324, R334, R336, R337, R340, R345): the statement
of O33.
-/

namespace Sys2Proof.Machine

@[simp] theorem popOps_fab (s : State) (x : Context) (on : Bool) (os : List Opd) : (popOps s x on os).fab = s.fab := by
  obtain ⟨k, l, h⟩ := popOps_effect s x on os; rw [h]

/-! ### PUT (R172, R334) -/

theorem foutHold_takes {s : State} {c t : Nat} (hw : txWords (s.core c).tx < 64)
    (ho : (s.core c).tx.owner = none ∨ (s.core c).tx.owner = some t) : foutHold s c t = .ok () := by
  rcases ho with ho | ho <;> simp [foutHold, need, hw, ho]

theorem foutHold_holds {s : State} {c t : Nat}
    (h : 64 ≤ txWords (s.core c).tx ∨ ∃ u, u ≠ t ∧ (s.core c).tx.owner = some u) : foutHold s c t = .error .hold := by
  rcases h with hw | ⟨u, hu, ho⟩
  · simp [foutHold, need, hw.not_gt]
  · simp [foutHold, need, ho, hu]

section
variable {s : State} {t : Nat} {x : Context} {g : Guard} {a : SSel} (hi : s.issuer = .ok (t, x))
include hi

theorem exec_put_off {d : KDst} (hr : readable s x (gTrue g x) [.s a, .d d] 0 = true) (hg : gTrue g x = false) :
    exec (.put g a d) s = .next s := by
  change execPut g a d s = _
  simp [execPut, hi, guardOps_ok (hg ▸ hr), hg, bind, Except.bind, pure, Except.pure]

variable (hg : gTrue g x = true)
include hg

theorem exec_put_k {r : BitVec 5} (hr : readable s x (gTrue g x) [.s a, .d (.k r)] 0 = true) :
    exec (.put g a (.k r)) s = .next (wrK (popOps s x true [.s a]) t r.toNat (sVal s x true a)) := by
  change execPut g a (.k r) s = _
  simp [execPut, hi, guardOps_ok (hg ▸ hr), hg, bind, Except.bind, pure, Except.pure]

theorem exec_put_kx {j : BitVec 3} (hr : readable s x (gTrue g x) [.s a, .d (.kx j)] 0 = true) :
    exec (.put g a (.kx j)) s = .next (wrK (popOps s x true [.s a]) t (x.fr.xs.toInt + j.toNat).toNat (sVal s x true a)) := by
  change execPut g a (.kx j) s = _
  simp [execPut, hi, guardOps_ok (hg ▸ hr), hg, bind, Except.bind, pure, Except.pure]

theorem exec_put_fout (hr : readable s x (gTrue g x) [.s a, .d .fout] 0 = true) (hf : foutHold s x.core t = .ok ()) :
    exec (.put g a .fout) s = .next (fifoPush (popOps s x true [.s a]) x.core t (sVal s x true a)) := by
  change execPut g a .fout s = _
  simp [execPut, hi, guardOps_ok (hg ▸ hr), hg, hf, bind, Except.bind, pure, Except.pure]

theorem exec_put_fout_held (hr : readable s x (gTrue g x) [.s a, .d .fout] 0 = true) (hf : foutHold s x.core t = .error .hold) :
    exec (.put g a .fout) s = .next (s.modLatch fun l => { l with held := true }) := by
  change execPut g a .fout s = _
  simp [execPut, hi, guardOps_ok (hg ▸ hr), hg, hf, bind, Except.bind]

end

/-! ### STREAM (R323) -/

theorem freeNum_free {s : State} {n : Nat} (h : freeNum s = some n) : n < 65536 ∧ look s.fab.strms n = none := by
  simpa using pickOf_mem h

/-- The state in which stream number n is bound to an endpoint in a slot of the task's context on core c. -/
def bindStrm (s : State) (t c q ep n : Nat) : State :=
  ({ s.tick with fab := { s.fab with strms := put s.fab.strms n { task := t, slot := q, ep := ep, core := c } } } : State).modCtx t
    fun y => { y with strm := y.strm.setIfInBounds q (some n) }

theorem bindStrm_fab (s : State) (t c q ep n : Nat) : (bindStrm s t c q ep n).fab =
    { s.fab with strms := put s.fab.strms n { task := t, slot := q, ep := ep, core := c } } := by
  rw [bindStrm, State.modCtx_fab]

theorem bindStrm_ctx? {s : State} {t : Nat} {y : Context} (c q ep n : Nat) (hy : s.ctx? t = some y) :
    (bindStrm s t c q ep n).ctx? t = some { y with strm := y.strm.setIfInBounds q (some n) } := by
  rw [bindStrm, State.modCtx_ctx?, if_pos rfl]
  exact congrArg (Option.map _) hy

section
variable {s : State} {t : Nat} {x : Context} {g : Guard} {a : SSel} (hi : s.issuer = .ok (t, x))
  (hr : readable s x (gTrue g x) [.s a] 0 = true)
include hi hr

theorem exec_stream_off (q : BitVec 4) (hg : gTrue g x = false) : exec (.stream g a q) s = .next s := by
  change execStream g a q s = _
  simp [execStream, hi, guardOps_ok (hg ▸ hr), hg, bind, Except.bind, pure, Except.pure]

variable (q : BitVec 4) (hg : gTrue g x = true)
include hg

theorem exec_stream_badEp (h : 1023 < (sVal s x true a).toNat ∨ s.fab.domHi < (sVal s x true a).toNat ∨
    reaches s (sVal s x true a).toNat = false) :
    exec (.stream g a q) s = .next (raise s { code := cOperand, sub := 0x18, info := sVal s x true a }) := by
  change execStream g a q s = _
  have hbad : 1023 < (sVal s x true a).toNat ∨ s.fab.domHi < (sVal s x true a).toNat ∨
      (!reaches s (sVal s x true a).toNat) = true := by simpa using h
  simp only [execStream, hi, guardOps_ok (hg ▸ hr), hg, if_pos hbad, operand, trapWith, bind, Except.bind, conclude_trap,
    Bool.not_true, Bool.false_eq_true, if_false]

variable (h10 : (sVal s x true a).toNat ≤ 1023) (hdom : (sVal s x true a).toNat ≤ s.fab.domHi)
  (hreach : reaches s (sVal s x true a).toNat = true)
include h10 hdom hreach

theorem exec_stream_slotTaken (hq : (x.strm.getD q.toNat none).isSome = true) :
    exec (.stream g a q) s = .next (raise s { code := cOperand, sub := 0x18, info := q.setWidth 64 }) := by
  change execStream g a q s = _
  simp [execStream, hi, guardOps_ok (hg ▸ hr), hg, h10.not_gt, hdom.not_gt, hreach, hq, operand, trapWith, bind, Except.bind]

variable (hq : x.strm.getD q.toNat none = none)
include hq

theorem exec_stream_held (hn : freeNum s = none) :
    exec (.stream g a q) s = .next (s.modLatch fun l => { l with held := true }) := by
  change execStream g a q s = _
  simp [execStream, hi, guardOps_ok (hg ▸ hr), hg, h10.not_gt, hdom.not_gt, hreach, hq, hn, bind, Except.bind]

theorem exec_stream_binds {n : Nat} (hn : freeNum s = some n) :
    exec (.stream g a q) s = .next (bindStrm (popOps s x true [.s a]) t x.core q.toNat (sVal s x true a).toNat n) := by
  change execStream g a q s = _
  simp [execStream, hi, guardOps_ok (hg ▸ hr), hg, h10.not_gt, hdom.not_gt, hreach, hq, hn, bindStrm, bind,
    Except.bind, pure, Except.pure]

end

/-! ### SCLOSE (R323, R324) -/

/-- Unacknowledged numbers of the stream a slot holds, those the issuing bundle has taken counted (R324). -/
def usedNums (s : State) (r : Strm) (q : BitVec 4) : Nat :=
  r.unacked.length + (((s.latch.map (·.far)).getD []).filter fun k => k == q.toNat).length

section
variable {s : State} {t : Nat} {x : Context} {g : Guard} (hi : s.issuer = .ok (t, x)) (fill : Bool) (q : BitVec 4)
include hi

theorem exec_sclose_nothing (h : gTrue g x = false ∨ strmOf s x q.toNat = none) : exec (.sclose g fill q) s = .next s := by
  change execSclose g fill q s = _
  simp only [execSclose, hi, guardOps_nil, bind, Except.bind, pure, Except.pure]
  by_cases hg : gTrue g x = true
  · simp [hg, h.resolve_left (by simp [hg])]
  · simp [hg]

variable {n : Nat} {r : Strm} (hg : gTrue g x = true) (hs : strmOf s x q.toNat = some (n, r))
include hg hs

/-- SCLOSE of a slot that holds a stream: held for want of a number, or closed. -/
theorem exec_sclose_bound : exec (.sclose g fill q) s = .next (
    if fill = false ∧ r.failed = false ∧ 4096 ≤ usedNums s r q then s.modLatch fun l => { l with held := true }
    else if fill = true ∧ r.failed = false then closeStream s n r true
    else (closeStream s n r fill).modCtx t fun y => { y with strm := y.strm.setIfInBounds q.toNat none }) := by
  change execSclose g fill q s = _
  simp only [execSclose, hi, guardOps_nil, hg, hs, bind, Except.bind, pure, Except.pure, Bool.not_true,
    Bool.false_eq_true, if_false, usedNums]
  cases fill with
  | true => cases r.failed <;> simp
  | false =>
    cases r.failed with
    | true => simp
    | false =>
      simp only [Bool.not_false, Bool.true_and, decide_eq_true_eq, true_and]
      split <;> rfl

end

/-- The stream once CLOSE has taken its next number (R324). -/
def Strm.closed (r : Strm) : Strm :=
  { r with closing := true, holes := [], next := (r.next + 1) % 2 ^ 32, unacked := r.unacked ++ [r.next] }

/-- A stream that has not failed sends CLOSE, with its holes, under its next number (R323, R324). -/
theorem closeStream_sends {s : State} {r : Strm} (n : Nat) (hf : r.failed = false) :
    look (closeStream s n r false).fab.strms n = some r.closed ∧
      ∃ o, (closeStream s n r false).fab.out = s.fab.out ++ [o] ∧ o.dst = r.ep ∧
        o.msg = .strm { src := s.fab.ep, strm := n, seq := r.next, tick := none, body := .close r.holes } := by
  have hc : closeStream s n r false = formMsg { s with fab := { s.fab with strms := put s.fab.strms n r.closed } }
      { dst := r.ep, task := r.task, addr := 0,
        msg := .strm { src := s.fab.ep, strm := n, seq := r.next, tick := none, body := .close r.holes } } := by
    simp only [closeStream, hf, Bool.false_eq_true, if_false, Strm.closed]
  rw [hc, formMsg_effect]
  exact ⟨look_put_self _ _ _, _, rfl, rfl, rfl⟩

/-! ### Collective instructions (R336, R337) -/

/-- The opcode of a collective kind, with which its instruction raises OPERAND. -/
def collOp : CollKind → Nat
  | .red => 0x1A
  | .bc => 0x1B
  | .a2a => 0x1C
  | .vir | .samp => 0x1D
  | .disp | .comb => 0x1E

theorem exec_collInstr {k : CollKind} (hk : k ≠ .samp) (g : Guard) (a : SSel) (s : State) :
    exec (collInstr k g a) s = issueColl (collOp k) k g a s := by
  cases k with
  | samp => exact absurd rfl hk
  | red | bc | a2a | vir | disp | comb => rfl

/-- The address of the sync object of a descriptor, zero where it names none (R336). -/
def collSync (b : List Byte) : W64 := BitVec.ofNat 64 (fld b 0x20 8)

/-- The collective that a descriptor's issue makes, before its number is known; `fork` is what comes before its reads. -/
def descColl (s : State) (t : Nat) (x : Context) (k : CollKind) (b : List Byte) (fork : Fork) : Coll :=
  { key := { kind := k, cid := fld b 0 2, fields := collFields b }, inst := 0, task := t, launch := x.launch, core := x.core,
    cmd := some (ceOf s, s.fresh), src := BitVec.ofNat 64 (fld b 0x10 8), dst := BitVec.ofNat 64 (fld b 0x18 8),
    fork := fork, sync := if collSync b = 0 then none else some (tagOff (collSync b)) }

/-- The command that stands for it in its engine. -/
def descCmd (s : State) (t : Nat) (x : Context) (b : List Byte) (sweep : Bool) : Cmd :=
  { id := s.fresh, task := t, launch := x.launch, kind := .coll (fld b 0 2), sweep := sweep }

section
variable {s : State} {t : Nat} {x : Context} {g : Guard} {a : SSel} (hi : s.issuer = .ok (t, x))
  (hr : readable s x (gTrue g x) [.s a] 0 = true) (op : Nat) (k : CollKind)
include hi hr

theorem issueColl_off (hg : gTrue g x = false) : issueColl op k g a s = .next s := by
  simp [issueColl, hi, guardOps_ok (hg ▸ hr), hg, bind, Except.bind, pure, Except.pure]

/-- A collective instruction whose engine has room and whose descriptor is within its limits (R336, R337). -/
theorem issueColl_joins {o : W64} {b : List Byte} (hg : gTrue g x = true) (ho : sVal s x true a = o)
    (hb : spRead s x.core o.toNat 64 = b) (hroom : roomFor s x.core (ceOf s) t = true)
    (hal : o.toNat % 64 = 0) (hext : o.toNat + 64 ≤ spExt (s.core x.core).part) (hd : drainHeld s x t x.core = false)
    (he : spBad s x.core o.toNat 64 = false) (hok : collOk s k b = true)
    (hsy : collSync b = 0 ∨ (badTag (collSync b) = false ∧ tagOff (collSync b) % 16 = 0 ∧
      tagOff (collSync b) + 16 ≤ spExt (s.core x.core).part)) (hbusy : collBusy s (fld b 0 2) = false) :
    let s0 := popOps s x true [.s a]
    issueColl op k g a s = .next (collIssue
      (modCmds s0.tick x.core (ceOf s) fun l => l ++ [descCmd s t x b (inSweep s0 x.core t)])
      (descColl s t x k b (forkOf s0 t x))) := by
  have hsync : (collSync b == 0 || (!badTag (collSync b) && tagOff (collSync b) % 16 == 0 &&
      decide (tagOff (collSync b) + 16 ≤ spExt (s.core x.core).part))) = true := by
    rcases hsy with h | ⟨h1, h2, h3⟩
    · simp [h]
    · simp [h1, h2, h3]
  unfold collSync at hsync
  simp only [issueColl, hi, guardOps_ok (hg ▸ hr), hg, ho, roomHold, hroom, target_own hal hext, hd, spEcc, he, hb, hok,
    hsync, hbusy, need, bind, Except.bind, pure, Except.pure, Bool.not_true, Bool.not_false, Bool.false_eq_true, if_false,
    if_true, Bool.and_self, Bool.or_self, popOps_fresh, conclude_ok]
  rfl

end

/-! ### CLWAIT and FBSTAT (R340, R345) -/

/-- The state without a collective that has been waited for. -/
def takeColl (s : State) (c : Coll) : State := { s with fab := { s.fab with colls := s.fab.colls.filter fun d => d != c } }

/-- What CLWAIT finds where the newest collective of the CID is the task's own. -/
theorem filter_collOf_own {s : State} {cid t : Nat} {c : Coll} (hc : collOf s cid = some c) (ht : c.task = t) :
    (collOf s cid).filter (fun c => c.task == t) = some c := by
  rw [hc, Option.filter_some, if_pos (beq_iff_eq.mpr ht)]

section
variable {s : State} {t : Nat} {x : Context} {g : Guard} {a : SSel} (hi : s.issuer = .ok (t, x))
  (hr : readable s x (gTrue g x) [.s a] 1 = true)
include hi hr

section
variable (hg : gTrue g x = false)
include hg

theorem exec_clwait_off : exec (.clwait g a) s = .next (pushS s t 2 0) := by
  change execClwait g a s = _
  simp [execClwait, hi, guardOps_ok (hg ▸ hr), hg, bind, Except.bind, pure, Except.pure]

theorem exec_fbstat_off (what : Bool) : exec (.fbstat g a what) s = .next (pushS s t 2 0) := by
  change execFbstat g a what s = _
  simp [execFbstat, hi, guardOps_ok (hg ▸ hr), hg, bind, Except.bind, pure, Except.pure]

end

variable (hg : gTrue g x = true)
include hg

theorem exec_fbstat_peer (hv : (sVal s x true a).extractLsb' 10 54 = 0) :
    exec (.fbstat g a false) s = .next (pushS (popOps s x true [.s a]) t 2 (peerWord s (sVal s x true a).toNat)) := by
  change execFbstat g a false s = _
  simp [execFbstat, hi, guardOps_ok (hg ▸ hr), hg, hv, bind, Except.bind, pure, Except.pure]

theorem exec_fbstat_slot (hv : (sVal s x true a).extractLsb' 4 60 = 0) :
    exec (.fbstat g a true) s = .next (pushS (popOps s x true [.s a]) t 2 (slotWord s x (sVal s x true a).toNat)) := by
  change execFbstat g a true s = _
  simp [execFbstat, hi, guardOps_ok (hg ▸ hr), hg, hv, bind, Except.bind, pure, Except.pure]

variable (hv : (sVal s x true a).extractLsb' 16 48 = 0)
include hv

theorem exec_clwait_none (hn : (collOf s (sVal s x true a).toNat).filter (fun c => c.task == t) = none) :
    exec (.clwait g a) s = .next (pushS (popOps s x true [.s a]) t 2 0x80) := by
  change execClwait g a s = _
  simp [execClwait, hi, guardOps_ok (hg ▸ hr), hg, hv, hn, bind, Except.bind, pure, Except.pure]

variable {c : Coll} (hc : (collOf s (sVal s x true a).toNat).filter (fun c => c.task == t) = some c)
include hc

theorem exec_clwait_held (hf : c.fin = false) : exec (.clwait g a) s = .next (s.modLatch fun l => { l with held := true }) := by
  change execClwait g a s = _
  simp [execClwait, hi, guardOps_ok (hg ▸ hr), hg, hv, hc, hf, bind, Except.bind]

theorem exec_clwait_takes (hf : c.fin = true) :
    exec (.clwait g a) s = .next (pushS (takeColl (popOps s x true [.s a]) c) t 2 (collStatus c)) := by
  change execClwait g a s = _
  simp [execClwait, hi, guardOps_ok (hg ▸ hr), hg, hv, hc, hf, takeColl, bind, Except.bind, pure, Except.pure]

end

/-! ### The two parts of the statement -/

theorem putsAndStreams : PutsAndStreams := by
  intro s t x g hi hold
  refine ⟨fun a d hr => ?_, fun a q hr => ?_, fun fill q => ⟨exec_sclose_nothing hi fill q, fun n r hg hs => ?_⟩,
    fun n r hf => ⟨_, rfl, closeStream_sends n hf⟩⟩
  · intro v s0 f
    refine ⟨exec_put_off hi hr, ?_, ?_, ?_, ?_⟩
    · rintro r hg rfl; exact exec_put_k hi hg hr
    · rintro j hg rfl; exact exec_put_kx hi hg hr
    · rintro hg rfl hw ho; exact exec_put_fout hi hg hr (foutHold_takes hw ho)
    · rintro hg rfl h; exact exec_put_fout_held hi hg hr (foutHold_holds h)
  · intro v
    refine ⟨exec_stream_off hi hr q, fun n hg h10 hdom hreach hq hn => ?_, exec_stream_badEp hi hr q,
      exec_stream_slotTaken hi hr q, exec_stream_held hi hr q⟩
    obtain ⟨hlt, hfree⟩ := freeNum_free hn
    refine ⟨hlt, hfree, _, exec_stream_binds hi hr q hg h10 hdom hreach hq hn, ?_, fun m hm => ?_, ?_,
      fun y hy => ⟨_, bindStrm_ctx? _ _ _ _ ?_, rfl, rfl⟩⟩
    · rw [bindStrm_fab]; exact look_put_self _ _ _
    · rw [bindStrm_fab, popOps_fab]; exact look_put_ne _ _ hm
    · rw [bindStrm_fab, popOps_fab]
    · rw [State.ctx?, popOps_ctxs]; exact hy
  · intro used
    refine ⟨fun h => ?_, fun hfill hf hu => ?_⟩
    · rw [exec_sclose_bound hi fill q hg hs, if_neg]
      rintro ⟨hfill, hf, hu⟩
      have hu' : 4096 ≤ used := hu
      simp [hfill, hf, hu'.not_gt] at h
    · rw [exec_sclose_bound hi fill q hg hs, if_pos ⟨hfill, hf, hu⟩]

theorem collectivesAndStatus : CollectivesAndStatus := by
  intro s t x g hi hold
  refine ⟨fun k a hk hr => ⟨fun hg => ?_, ?_⟩, fun a hr => ?_⟩
  · rw [exec_collInstr hk, issueColl_off hi hr _ k hg]
  · intro o b sy hg hroom hal hext hd he hok hsy hbusy s0
    rw [exec_collInstr hk]
    exact issueColl_joins hi hr _ k hg rfl rfl hroom hal hext hd he hok hsy hbusy
  · intro v
    refine ⟨fun hg => ⟨exec_clwait_off hi hr hg, exec_fbstat_off hi hr hg⟩, exec_clwait_none hi hr,
      fun c hg hv hc ht => exec_clwait_held hi hr hg hv (filter_collOf_own hc ht), fun c hg hv hc ht hf => ?_,
      exec_fbstat_peer hi hr, exec_fbstat_slot hi hr⟩
    refine ⟨_, exec_clwait_takes hi hr hg hv (filter_collOf_own hc ht) hf, ?_, fun d hd hne => ?_, popOps_ctxs ..⟩
    · simp [takeColl]
    · simp [takeColl, hd, hne]

/-- Settles O33: each instruction by its checks, in the model's order; a false guard ends behind the first of them. -/
theorem fabricInstructions : Obligations.FabricInstructions := ⟨putsAndStreams, collectivesAndStatus⟩

end Sys2Proof.Machine
end

section
/-!
PROOFS. Element arithmetic, conversion, predicates, moves and the mask stack of the vector slots (R198 to R203, R205 to R215):
the statements of O17, O18 and O19.
-/

namespace Sys2Proof.Machine

/-! ### Instructions that push one result -/

section
variable {c : Clu} {e : EF} {lat : Nat}

theorem vPushesUn_of {mk : Guard → VSel → Instr} {f : W32 → W32} (h : ∀ g a s, exec (mk g a) s = vUn c g a e lat f s) :
    VPushesUn c mk e lat f :=
  fun g a => vPushes_of_vOp (h g a)

theorem vPushesBin_of {mk : Guard → VSel → VSel → Instr} {f : W32 → W32 → W32}
    (h : ∀ g a b s, exec (mk g a b) s = vBin c g a b e lat f s) : VPushesBin c mk e lat f :=
  fun g a b => vPushes_of_vOp (h g a b)

theorem vPushesTri_of {mk : Guard → VSel → VSel → BitVec 4 → Instr} {f : W32 → W32 → W32 → W32}
    (h : ∀ g a b m s, exec (mk g a b m) s = vTri c g a b m e lat f s) : VPushesTri c mk e lat f :=
  fun g a b m => vPushes_of_vOp (h g a b m)

end

/-- The case split VABS makes is the absolute value (R205). -/
theorem ite_neg_eq_abs : (fun p : Int => if p < 0 then -p else p) = fun p => |p| := by
  funext p
  split
  next h => exact (abs_of_neg h).symm
  next h => exact (abs_of_nonneg (not_lt.mp h)).symm

/-- VABS of either cluster with the absolute value of its integer form written as one. -/
theorem vAbs_eq (c : Clu) (g : Guard) (a : VSel) (ty : VTy) :
    vAbs c g a ty = vUn c g a (vtyEf ty) 2 (tyOp1 ty Arith.fAbs fun p => |p|) := by
  rw [vAbs, ite_neg_eq_abs]

/-- Settles O17: on each cluster an instruction is `vBin` or `vUn` with its operation and its latency. -/
theorem vectorArithmeticResults : Obligations.VectorArithmeticResults := by
  intro c
  refine ⟨fun ty => ?_, fun ty => ?_, fun ty => ?_, fun ty => ?_, fun ty => ?_, fun ty => vPushesUn_of fun g a s => ?vabs,
    fun ty => vPushesUn_of fun g a s => ?vneg, fun w u sat => ?_, fun w u sat => ?_, ?_, ?_, ?_⟩
  case vabs =>
    rw [← vAbs_eq]
    cases c <;> rfl
  case vneg => cases c <;> rfl
  all_goals
    refine vPushesBin_of fun g a b s => ?_
    cases c <;> rfl

/-! ### Fused, converting and elementary instructions -/

/-- VMXQ pushes the elements and then the scales (R212). -/
theorem vMxq_pushes {c : Clu} {s : State} {t : Nat} {x : Context} {g : Guard} {a : VSel} (ft : MxFmt) (p : BitVec 3)
    (hi : s.issuer = .ok (t, x)) (hm : x.trapMode = false) (hr : readable s x true [.v c a] 2 = true) :
    let va := vVal x c (.flt .f32) a
    vMxq c g a ft p s = .next
      (pushV (pushV s t c 6 (laneMask x c g) (mxqElems ft p.toNat va) va) t c 6 (laneMask x c g) (mxqScales ft va) va) := by
  simp only [vMxq, hi, noTrapMode_ok hm, guardOps_ok (readable_of_true _ hr), bind, Except.bind, pure, Except.pure, conclude_ok]

/-- Settles O18: on each cluster an instruction is one `vOp`, and VMXQ its two pushes. -/
theorem vectorFloatResults : Obligations.VectorFloatResults := by
  intro c
  refine ⟨fun f => ?_, fun f => ?_, fun ty => ?_, fun f => ?_, fun f => ?_, fun f => ?_, fun f => ?_, fun f => ?_,
    fun g a ft p su rm => vPushes_of_vOp fun s => ?vcvt, fun ft p g a b => vPushes_of_vOp fun s => ?vmxd,
    fun s t x g a ft p hi hm hr => ?vmxq⟩
  case vcvt => cases c <;> rfl
  case vmxd => cases c <;> rfl
  case vmxq => cases c <;> exact vMxq_pushes ft p hi hm hr
  iterate 3
    · refine vPushesTri_of fun g a b m s => ?_
      cases c <;> rfl
  all_goals
    refine vPushesUn_of fun g a s => ?_
    cases c <;> rfl

/-! ### Predicates, register writes and the mask stack -/

section
variable {c : Clu} {s : State} {t : Nat} {x : Context} {g : Guard} {a b : VSel} (hi : s.issuer = .ok (t, x))
  (hm : x.trapMode = false)
include hi hm

theorem vCmp_writes (cond : VCmpCond) (d : BitVec 3) (hr : readable s x true [.v c a, .v c b] 0 = true) :
    vCmp c g a b cond d s = .next (wrPred s t c d (laneMask x c g)
      (maskOf fun l => vcmpCond cond ((vVal x c (vcmpEf cond) a).lane l) ((vVal x c (vcmpEf cond) b).lane l))) := by
  simp only [vCmp, hi, noTrapMode_ok hm, guardOps_ok (readable_of_true _ hr), bind, Except.bind, pure, Except.pure, conclude_ok]

theorem vPlog_writes (p q : BitVec 3) (op : PlogOp) (d : BitVec 3) :
    vPlog c g p q op d s = .next (wrPred s t c d (laneMask x c g) (plogMask op (lanePred x c p) (lanePred x c q))) := by
  simp only [vPlog, hi, noTrapMode_ok hm, guardOps_nil, bind, Except.bind, pure, Except.pure, conclude_ok]

theorem vPut_writes (d : VDst) (hr : readable s x true [.v c a, .vd c d] 0 = true) :
    vPut c g a d s = .next (wrV s t c (vdstReg x c d) (laneMask x c g) (vVal x c .i32 a)) := by
  simp only [vPut, hi, noTrapMode_ok hm, guardOps_ok (readable_of_true _ hr), bind, Except.bind, pure, Except.pure, conclude_ok]

theorem vPutx_writes (l : BitVec 6) (hr : readable s x true [.v c a] 0 = true) :
    vPutx c g a l s = .next (
      if (laneMask x c g).getLsbD l.toNat then wrX s t (cluX c) ((vVal x c .i32 a).lane l.toNat) else s) := by
  simp only [vPutx, hi, noTrapMode_ok hm, guardOps_ok (readable_of_true _ hr), bind, Except.bind, pure, Except.pure, conclude_ok]

variable {op : Nat} {ok : Nat → Bool} {f : Context → List W64 → List W64}

/-- A mask-stack instruction within its limit (R200). -/
theorem maskOp_sets (h : ok (maskStack x c).length = true) :
    maskOp op c ok f s = .next (setStack s t c (f x (maskStack x c))) := by
  simp only [maskOp, hi, noTrapMode_ok hm, guardOps_nil, need, h, if_true, bind, Except.bind, pure, Except.pure, conclude_ok]

/-- One that would leave its limit. -/
theorem maskOp_raises (h : ok (maskStack x c).length = false) :
    maskOp op c ok f s = .next
      (raise s { code := cOperand, sub := op, info := BitVec.ofNat 64 (maskStack x c).length }) := by
  simp only [maskOp, hi, noTrapMode_ok hm, guardOps_nil, need, h, operand, trapWith, Bool.false_eq_true, if_false, bind,
    Except.bind, conclude_trap]

/-- VMINV and VMPOP of an empty stack: the depth in INFO is 0. -/
theorem maskOp_raises_empty (h : (maskStack x c).length = 0) :
    maskOp op c (fun n => decide (0 < n)) f s = .next (raise s { code := cOperand, sub := op, info := 0 }) := by
  rw [maskOp_raises hi hm (decide_eq_false h.not_gt), h]
  rfl

end

theorem exec_vmpush (c : Clu) (inv : Bool) (p : BitVec 3) (s : State) :
    exec (onCl c (.vmpushA inv p) (.vmpushB inv p)) s = vMpush c inv p s := by
  cases c <;> rfl

theorem exec_vminv (c : Clu) (s : State) : exec (onCl c .vminvA .vminvB) s = vMinv c s := by
  cases c <;> rfl

theorem exec_vmpop (c : Clu) (s : State) : exec (onCl c .vmpopA .vmpopB) s = vMpop c s := by
  cases c <;> rfl

/-- Settles O19: each instruction has its meaning on either cluster; the mask stack is full for VMPUSH at 16 masks, and empty
for VMINV and VMPOP at none. -/
theorem vectorPredicatesAndMoves : Obligations.VectorPredicatesAndMoves := by
  intro c
  refine ⟨fun s t x g a b cond d hi hm hr => ?vcmp, fun s t x g p q d op hi hm => ?vplog, fun s t x g a d hi hm hr => ?vput,
    fun s t x g a l hi hm hr => ?vputx, fun s t x inv p hi hm => ⟨fun h => ?push, fun h => ?full, fun h => ⟨?inv, ?pop⟩,
    fun h => ⟨?invEmpty, ?popEmpty⟩⟩, fun g a b p => vPushes_of_vOp fun s => ?vsel, fun g i => vPushes_of_vOp fun s => ?vmovi,
    fun g r => vPushes_of_vOp fun s => ?vxmov⟩
  case vcmp => cases c <;> exact vCmp_writes hi hm cond d hr
  case vplog => cases c <;> exact vPlog_writes hi hm p q op d
  case vput => cases c <;> exact vPut_writes hi hm d hr
  case vputx => cases c <;> exact vPutx_writes hi hm l hr
  case push => exact (exec_vmpush ..).trans (maskOp_sets hi hm (decide_eq_true h))
  case full => exact (exec_vmpush ..).trans (maskOp_raises hi hm (decide_eq_false h.not_gt))
  case inv => exact (exec_vminv ..).trans (maskOp_sets hi hm (decide_eq_true h))
  case pop => exact (exec_vmpop ..).trans (maskOp_sets hi hm (decide_eq_true h))
  case invEmpty => exact (exec_vminv ..).trans (maskOp_raises_empty hi hm h)
  case popEmpty => exact (exec_vmpop ..).trans (maskOp_raises_empty hi hm h)
  case vsel => cases c <;> rfl
  case vmovi => cases c <;> rfl
  case vxmov => cases c <;> rfl

end Sys2Proof.Machine
end

section
/-!
PROOFS. The matrix engine's own steps, beats, accumulator rows and sweeps (R252 to R277): the statements of O25, O26 and O27.
-/

namespace Sys2Proof.Machine

/-! ### The core under the operations of the engine -/

@[simp] theorem State.modMe_core_self (s : State) (c : Nat) (f : MatrixEng → MatrixEng) :
    (s.modMe c f).core c = { s.core c with me := f (s.core c).me } := State.modCore_core_self ..

@[simp] theorem State.modMe_ctx? (s : State) (c : Nat) (f : MatrixEng → MatrixEng) (t : Nat) :
    (s.modMe c f).ctx? t = s.ctx? t := rfl

theorem refillRx_me (n : Nat) (k : Core) : (Core.refillRx k n).me = k.me := by
  obtain ⟨_, _, _, h⟩ := refillRx_effect n k
  rw [h]

theorem refillRx_part (n : Nat) (k : Core) : (Core.refillRx k n).part = k.part := by
  obtain ⟨_, _, _, h⟩ := refillRx_effect n k
  rw [h]

@[simp] theorem popOps_me (s : State) (x : Context) (on : Bool) (os : List Opd) :
    ((popOps s x on os).core x.core).me = (s.core x.core).me := by
  unfold popOps
  cases hl : s.latch <;> dsimp only <;> split_ifs <;> simp [hl, refillRx_me]

@[simp] theorem popOps_part (s : State) (x : Context) (on : Bool) (os : List Opd) :
    ((popOps s x on os).core x.core).part = (s.core x.core).part := by
  unfold popOps
  cases hl : s.latch <;> dsimp only <;> split_ifs <;> simp [hl, refillRx_part]

/-- A plain write of a pool leaves the matrix engine as it is. -/
theorem poolWrite_me (s : State) (c rk : Nat) (bs : List (Nat × Byte)) :
    ((poolWrite s c rk bs none).core c).me = (s.core c).me := by
  obtain ⟨m, w, h⟩ := foldl_write8_effect rk (s.core c) bs
  unfold poolWrite
  rw [State.modCore_core_self, h]
  dsimp only
  split <;> rfl

/-- No source stands before an M slot, so each byte it writes is written (R259). -/
theorem write8_rkM_pool (k : Core) (p : Nat × Byte) : (Core.write8 rkM k p).pool = wr8 k.pool p.1 p.2 := by
  unfold Core.write8
  split
  · rw [if_neg fun h => Nat.not_lt_zero _ h.1]
  · rfl

theorem foldl_write8_rkM_pool (k : Core) (bs : List (Nat × Byte)) : (bs.foldl (Core.write8 rkM) k).pool = wrBytes k.pool bs := by
  induction bs generalizing k with
  | nil => rfl
  | cons p r ih => rw [List.foldl_cons, ih, write8_rkM_pool]; rfl

/-! ### Transfers, fills and rollbacks -/

/-- A transfer that is due, from a local source, takes its step (R264). -/
theorem exec_mwldComplete {s : State} (hst : ((s.core s.ev.core).me.half s.ev.num).st = .loading)
    (hf : forked s ((s.core s.ev.core).me.half s.ev.num).task ((s.core s.ev.core).me.half s.ev.num).fork = true)
    (hd : (s.core s.ev.core).drain = none) : exec .mwldComplete s = .next (tileStep s s.ev.core s.ev.num) := by
  change execMwldComplete s = _
  simp [execMwldComplete, hst, hf, hd]

section
variable {s s1 : State} {c n : Nat}
  (hl : ¬(((s.core c).me.half n).src.extractLsb' 61 3 = 0 ∧ isRemote ((s.core c).me.half n).src = true))
include hl

theorem tileStep_headerFault {d : Nat} {a : W64} (hr : tileRead s c ((s.core c).me.half n).src 64 = (s1, .error (d, a))) :
    tileStep s c n = s1.modMe c fun m => m.setHalf n (((s.core c).me.half n).fail d a) := by
  simp only [tileStep, if_neg hl, hr]

variable {hdr : List Byte} (hr : tileRead s c ((s.core c).me.half n).src 64 = (s1, .ok hdr))
include hr

/-- An invalid image is reported at its own address (R255, log entry 27). -/
theorem tileStep_invalid (hh : tileHeader hdr = none) :
    tileStep s c n = s1.modMe c fun m =>
      m.setHalf n (((s.core c).me.half n).fail 0x100 ((s.core c).me.half n).src) := by
  simp only [tileStep, if_neg hl, hr, hh]

theorem tileStep_loads {f : AFmt} {sp ns sb : Nat} {s2 : State} {bs : List Byte} (hh : tileHeader hdr = some (f, sp, ns, sb))
    (hb : tileRead s1 c ((s.core c).me.half n).src (64 + ns * sb) = (s2, .ok bs)) :
    tileStep s c n = s2.modMe c fun m => m.setHalf n (((s.core c).me.half n).load hdr (bs.drop 64)) := by
  simp only [tileStep, if_neg hl, hr, hh, hb]

end

theorem exec_arrayFill_due {s : State} {h seg : Nat} {due : W64} (hf : (s.core s.ev.core).me.filling = some (h, seg, due))
    (hd : due.toNat ≤ (s.acyc[dieOf s.ev.core]).toNat) :
    exec .arrayFill s = .next (s.modMe s.ev.core fun m => { m with filled := some (h, seg), filling := none }) := by
  change execArrayFill s = _
  simp only [execArrayFill, hf, if_pos hd]

/-- A due rollback whose commands are quiet, and the trap that caused it, if one did (R274). -/
theorem exec_sweepRollback {s : State} {w : Sweep} {cause : Option (Cause × BitVec 8 × Bool)}
    (hs : (s.core s.ev.core).me.sweep = some w) (hq : fetchQuiet s s.ev.core = true) (hr : w.roll = some cause) :
    exec .sweepRollback s = .next (match cause with
      | some (c, m, async) => trapEntry (rollBack s s.ev.core w) w.owner c m async true w.pc
      | none => rollBack s s.ev.core w) := by
  change execSweepRollback s = _
  simp only [execSweepRollback, hs, hr, if_pos hq]
  cases cause <;> rfl

/-- The matrix engine after a rollback (R274 steps 2 to 5). -/
theorem rollBack_me (s : State) (c : Nat) (w : Sweep) :
    let m := ((dropFetch s c).core c).me
    ((rollBack s c w).core c).me = { m with
      slots := w.slots, sel := w.sel, selv := w.selv, gw := w.gw, afmt := w.afmt, inv := false, outv := false,
      filled := none, filling := none, sweep := none, h0 := m.h0.rolled, h1 := m.h1.rolled, replays := m.replays + 1 } := by
  simp only [rollBack, State.modCtx_core, State.modMe_core_self, poolWrite_me]

/-- It puts the window's rows back over what the cycle has written (R259, R274). -/
theorem rollBack_pool (s : State) (c : Nat) (w : Sweep) :
    ((rollBack s c w).core c).pool = wrBytes ((dropFetch s c).core c).pool
      (place (acBase ((dropFetch s c).core c).part + 512 * w.wbase) w.rows) := by
  simp only [rollBack, State.modCtx_core, State.modMe_core_self, poolWrite_pool, foldl_write8_rkM_pool]

/-- It leaves the owner at its MSWEEP, outside any nest. -/
theorem rollBack_owner (s : State) (c : Nat) (w : Sweep) : (rollBack s c w).ctx? w.owner =
    ((dropFetch s c).ctx? w.owner).map fun x => { x with
      pc := w.pc, npc := w.pc, fr := { x.fr with nest := { x.fr.nest with act := [], pos := 0, buf := [] } } } := by
  simp only [rollBack, State.modCtx_ctx?, State.modMe_ctx?, if_true]
  rfl

/-- Settles O27: a transfer by what its source answers, a fill, and a rollback by what it does to each part of the state. -/
theorem matrixSteps : Obligations.MatrixSteps := by
  refine ⟨fun s hst hf hd hl => ⟨fun s1 d a hr => ?_, fun s1 hdr hr hh => ?_, fun s1 hdr f sp ns sb s2 bs hr hh hb => ?_⟩,
    fun s h seg due hf hd => exec_arrayFill_due hf hd,
    fun s w c m async hs hq => ⟨fun hr => exec_sweepRollback hs hq hr, fun hr => exec_sweepRollback hs hq hr⟩,
    fun s c w => ?_⟩
  · rw [exec_mwldComplete hst hf hd, tileStep_headerFault hl hr]
  · rw [exec_mwldComplete hst hf hd, tileStep_invalid hl hr hh]
  · rw [exec_mwldComplete hst hf hd, tileStep_loads hl hr hh hb]
  · dsimp only
    rw [rollBack_me, rollBack_pool, rollBack_owner]
    exact ⟨rfl, rfl, rfl, rfl, rfl, rfl, rfl, rfl, rfl, rfl, fun x hx => by
      rw [hx, Option.map_some]
      exact ⟨_, rfl, rfl, rfl, rfl⟩⟩

/-! ### Checks that stop nothing -/

theorem meStop_nil : meStop [] = .ok () := rfl

/-- Where none of the checks holds, nothing stops the slot (R277). -/
theorem meStop_ok {l : List (Bool × Nat × W64)} (h : ∀ p ∈ l, p.1 = false) : meStop l = .ok () := by
  induction l with
  | nil => rfl
  | cons p r ih =>
    rw [meStop_skip (h p (List.mem_cons_self ..)), ih fun q hq => h q (List.mem_cons_of_mem _ hq)]

theorem rowRange_fst {s : State} {c r n : Nat} (h : r + n ≤ acRows s c) : (rowRange s c r n).1 = false :=
  decide_eq_false h.not_gt

/-- The selected half takes a beat of a segment: it is ready, its format agrees with the activation's, the segment is one of its
slices, and it holds no error (R266, R277). -/
def HalfTakes (m : MatrixEng) (seg : Nat) : Prop :=
  m.selv = true ∧ (m.half m.sel).st = .ready ∧ aWidth m.afmt = aWidth (m.half m.sel).bfmt ∧ seg < (m.half m.sel).nslice ∧
    (m.half m.sel).bad = false

/-- Where ACC is set, the row is one of the store, lies in the window of the context's sweep and holds no error (R266,
R273, R277). -/
def RowTakes (s : State) (c t row : Nat) (acc : Bool) : Prop :=
  acc = true → row < acRows s c ∧ (outWin s c t row 1).1 = false ∧ (rowEcc s c row 1).1 = false

theorem beatChecks_fst {m : MatrixEng} {seg : Nat} (h : HalfTakes m seg) : ∀ p ∈ beatChecks m seg, p.1 = false := by
  obtain ⟨hv, hst, hw, hs, -⟩ := h
  simp [beatChecks, hv, hst, hw, hs]

section
variable {s : State} {c t row : Nat} {acc : Bool} (h : RowTakes s c t row acc)
include h

theorem accChecks_fst : (accChecks s c t row acc).1.1 = false ∧ (accChecks s c t row acc).2.1 = false := by
  cases acc with
  | false => exact ⟨rfl, rfl⟩
  | true => exact ⟨rowRange_fst (h rfl).1, (h rfl).2.1⟩

theorem beatEcc_fst (hb : ((s.core c).me.half (s.core c).me.sel).bad = false) : ∀ p ∈ beatEcc s c row acc, p.1 = false := by
  cases acc with
  | false => simp [beatEcc, halfEcc, hb]
  | true => simp [beatEcc, halfEcc, hb, (h rfl).2.2]

/-- The checks of a beat: its own stand between those on the half and those on what it reads (R266, R277). -/
theorem meStop_beat {seg : Nat} {l : List (Bool × Nat × W64)} (hh : HalfTakes (s.core c).me seg) (hl : ∀ p ∈ l, p.1 = false) :
    meStop ([(accChecks s c t row acc).1] ++ beatChecks (s.core c).me seg ++ l ++ beatEcc s c row acc) = .ok () := by
  refine meStop_ok fun p hp => ?_
  simp only [List.mem_append, List.mem_singleton] at hp
  obtain ⟨_, _, _, _, hb⟩ := id hh
  obtain ((rfl | hp) | hp) | hp := hp
  · exact (accChecks_fst h).1
  · exact beatChecks_fst hh p hp
  · exact hl p hp
  · exact beatEcc_fst h hb p hp

end

/-- The array that holds the pair needs no fill (R260). -/
theorem needFill_none {s : State} {c seg : Nat} (h : (s.core c).me.filled = some ((s.core c).me.sel, seg)) :
    needFill s c seg = none := by
  simp only [needFill, if_pos h]

/-- A command of the operand fetch: one of the task that was queued in the bundle of the MSWEEP (R273). -/
def tagFetch (s : State) (t : Nat) (q : Cmd) : Cmd :=
  if q.task = t ∧ (s.latch.map (·.fresh0)).getD s.fresh ≤ q.id then { q with sweep := true } else q

/-- The sweep that opens over n rows from row r of a core, with their contents before the cycle as its shadow (R272). -/
def sweepOver (k : Core) (t : Nat) (pc : W64) (r n : Nat) : Sweep where
  owner := t
  wbase := r
  wlen := n
  rows := k.ports (acBase k.part + 512 * r) (512 * n)
  slots := k.me.slots
  sel := k.me.sel
  selv := k.me.selv
  gw := k.me.gw
  afmt := k.me.afmt
  pc := pc

/-- A sweep of a task opens on a core (R272). -/
def openSweep (s : State) (c t : Nat) (pc : W64) (r n : Nat) : State :=
  s.modCore c fun k => { k with
    cq0 := k.cq0.map (tagFetch s t), cq1 := k.cq1.map (tagFetch s t), me := { k.me with sweep := some (sweepOver k t pc r n) } }

theorem openSweep_sweep (s : State) (c t : Nat) (pc : W64) (r n : Nat) :
    ((openSweep s c t pc r n).core c).me.sweep = some (sweepOver (s.core c) t pc r n) := by
  rw [openSweep, State.modCore_core_self]

theorem openSweep_pool (s : State) (c t : Nat) (pc : W64) (r n : Nat) :
    ((openSweep s c t pc r n).core c).pool = (s.core c).pool := by
  rw [openSweep, State.modCore_core_self]

section
variable {s : State} {t : Nat} {x : Context} {g : Guard} (hi : s.issuer = .ok (t, x)) (hm : x.trapMode = false)
  (hg : gTrue g x = true) (hb : (busySweep s x.core t).1 = false)
include hi hm hg hb

/-! ### Beats -/

section
variable {b : SSel} {acc : Bool} {seg : BitVec 4}

theorem exec_mpush_normal {a : VSel} {cl : Clu} (hr : readable s x true [.v cl a, .s b] 0 = true)
    (hgw : (s.core x.core).me.gw = .normal) (hh : HalfTakes (s.core x.core).me seg.toNat)
    (hrow : RowTakes s x.core t ((sVal s x true b).toNat % 4096) acc)
    (hf : (s.core x.core).me.filled = some ((s.core x.core).me.sel, seg.toNat)) :
    let m := (s.core x.core).me
    let n := (sVal s x true b).toNat % 4096
    let m' := { m with inRow := vVal x cl (rowEf m.afmt) a, inv := true }
    exec (.mpush g a b cl acc seg) s = .next (beatDone ((popOps s x true [.s b]).modMe x.core fun _ => m') x.core n acc
      (beatNormal m' (m.half m.sel) seg.toNat)) := by
  have hstop := meStop_beat hrow hh (l := [(accChecks s x.core t ((sVal s x true b).toNat % 4096) acc).2, busySweep s x.core t])
    (by simp [(accChecks_fst hrow).2, hb])
  change execMpush g a b cl acc seg s = _
  simp only [execMpush, hi, hg, noTrapMode_ok hm, guardOps_ok hr, toNat_low, if_pos hgw, hstop, needFill_none hf,
    bind, Except.bind, pure, Except.pure, Bool.not_true, Bool.false_eq_true, if_false, Nat.reducePow, conclude_ok]
  rfl

/-- In a swapped mode MPUSH stores a token row; its checks read neither half nor formats (R266, log entry 101). -/
theorem exec_mpush_swapped {a : VSel} {cl : Clu} (hr : readable s x true [.v cl a, .s b] 0 = true)
    (hgw : (s.core x.core).me.gw ≠ .normal) (hn : (sVal s x true b).toNat % 4096 < gwWidth (s.core x.core).me.gw) :
    exec (.mpush g a b cl false 0) s = .next ((popOps s x true [.s b]).modMe x.core fun m => { m with
      slots := put m.slots ((sVal s x true b).toNat % 4096) (vVal x cl (rowEf (s.core x.core).me.afmt) a) }) := by
  change execMpush g a b cl false 0 s = _
  simp [execMpush, hi, hg, noTrapMode_ok hm, guardOps_ok hr, hgw, meStop_skip, hn.not_ge, hb, meStop_nil, bind, Except.bind,
    pure, Except.pure]

/-- An MSHIFT in normal mode forms OUT from the row that was pushed before. -/
theorem exec_mshift_normal (hr : readable s x true [.s b] 0 = true)
    (hgw : (s.core x.core).me.gw = .normal) (hh : HalfTakes (s.core x.core).me seg.toNat)
    (hrow : RowTakes s x.core t ((sVal s x true b).toNat % 4096) acc) (hin : (s.core x.core).me.inv = true)
    (hf : (s.core x.core).me.filled = some ((s.core x.core).me.sel, seg.toNat)) :
    let m := (s.core x.core).me
    exec (.mshift g b acc seg) s = .next (beatDone (popOps s x true [.s b]) x.core ((sVal s x true b).toNat % 4096) acc
      (beatNormal m (m.half m.sel) seg.toNat)) := by
  have hstop := meStop_beat hrow hh (l := [(!(s.core x.core).me.inv, 7, 0),
    (accChecks s x.core t ((sVal s x true b).toNat % 4096) acc).2, busySweep s x.core t])
    (by simp [(accChecks_fst hrow).2, hb, hin])
  change execMshift g b acc seg s = _
  simp only [execMshift, hi, hg, noTrapMode_ok hm, guardOps_ok hr, toNat_low, if_pos hgw, hstop, needFill_none hf,
    bind, Except.bind, pure, Except.pure, Bool.not_true, Bool.false_eq_true, if_false, Nat.reducePow, conclude_ok]

/-- In a swapped mode it forms OUT over a column group. -/
theorem exec_mshift_swapped (hr : readable s x true [.s b] 0 = true)
    (hgw : (s.core x.core).me.gw ≠ .normal) (hh : HalfTakes (s.core x.core).me seg.toNat)
    (hrow : RowTakes s x.core t ((sVal s x true b).toNat % 4096) acc)
    (hcg : (sVal s x true b).toNat / 65536 % 128 < gwWidth (s.core x.core).me.gw) :
    let m := (s.core x.core).me
    exec (.mshift g b acc seg) s = .next (beatDone (popOps s x true [.s b]) x.core ((sVal s x true b).toNat % 4096) acc
      (beatSwapped m (m.half m.sel) seg.toNat ((sVal s x true b).toNat / 65536 % 128))) := by
  have hstop := meStop_beat hrow hh (l := [(decide (gwWidth (s.core x.core).me.gw ≤ (sVal s x true b).toNat / 65536 % 128), 6,
      BitVec.ofNat 64 ((sVal s x true b).toNat / 65536 % 128)),
    (accChecks s x.core t ((sVal s x true b).toNat % 4096) acc).2, busySweep s x.core t])
    (by simp [(accChecks_fst hrow).2, hb, hcg])
  change execMshift g b acc seg s = _
  simp only [execMshift, hi, hg, noTrapMode_ok hm, guardOps_ok hr, toNat_field, if_neg hgw, hstop, Nat.div_one, bind, Except.bind,
    pure, Except.pure, Bool.not_true, Bool.false_eq_true, if_false, Nat.reducePow, conclude_ok]

end

/-! ### Rows of the accumulator store -/

section
variable {a : SSel}

theorem exec_macc (hr : readable s x true [.s a] 0 = true) (hout : (s.core x.core).me.outv = true)
    (hrow : RowTakes s x.core t (sVal s x true a).toNat true) :
    exec (.macc g a) s = .next (accumulate (popOps s x true [.s a]) x.core (sVal s x true a).toNat) := by
  obtain ⟨hn, how, hecc⟩ := hrow rfl
  change execMacc g a s = _
  simp [execMacc, hi, hg, noTrapMode_ok hm, guardOps_ok hr, meStop_skip, meStop_nil, rowRange_fst (n := 1) hn, hout, how, hb, hecc,
    bind, Except.bind, pure, Except.pure]

theorem exec_mdrn {b : SSel} {cl : Clu} {df : DrainFmt} {clr : Bool} (hr : readable s x true [.s a, .s b] 1 = true)
    (hn : (sVal s x true a).toNat < acRows s x.core)
    (how : clr = true → (outWin s x.core t (sVal s x true a).toNat 1).1 = false)
    (hecc : (rowEcc s x.core (sVal s x true a).toNat 1).1 = false) :
    let n := (sVal s x true a).toNat
    let s0 := popOps s x true [.s a, .s b]
    exec (.mdrn g a b cl df clr) s = .next (pushAll (if clr then accWrite s0 x.core n (List.replicate 128 0) else s0) t cl 6 true
      (drainRow df (accElem s x.core n) ((sVal s x true b).toNat % 2 ^ 32))) := by
  have hclr : (clr && (outWin s x.core t (sVal s x true a).toNat 1).1) = false := by
    cases clr with
    | false => rfl
    | true => exact how rfl
  change execMdrn g a b cl df clr s = _
  simp only [execMdrn, hi, hg, noTrapMode_ok hm, guardOps_ok hr, meStop_skip, meStop_nil, rowRange_fst (n := 1) hn, hclr, hb, hecc,
    bind, Except.bind, pure, Except.pure, Bool.not_true, Bool.false_eq_true, if_false, conclude_ok]

variable {n : BitVec 6} (hr : readable s x true [.s a] 0 = true)
  (hn : (sVal s x true a).toNat + (n.toNat + 1) ≤ acRows s x.core)
include hr hn

theorem exec_mzero (how : (outWin s x.core t (sVal s x true a).toNat (n.toNat + 1)).1 = false) :
    let r := (sVal s x true a).toNat
    exec (.mzero g a n) s = .next ((List.range (n.toNat + 1)).foldl
      (fun s i => accWrite s x.core (r + i) (List.replicate 128 0)) (popOps s x true [.s a])) := by
  change execMzero g a n s = _
  simp [execMzero, hi, hg, noTrapMode_ok hm, guardOps_ok hr, meStop_skip, meStop_nil, rowRange_fst hn, how, hb,
    bind, Except.bind, pure, Except.pure]

/-! ### Sweeps -/

theorem exec_msweep (hs : (s.core x.core).me.sweep = none) (hnest : x.fr.nest.act = [])
    (hecc : (rowEcc s x.core (sVal s x true a).toNat (n.toNat + 1)).1 = false) :
    exec (.msweep g a n) s =
      .next (openSweep (popOps s x true [.s a]) x.core t x.pc (sVal s x true a).toNat (n.toNat + 1)) := by
  change execMsweep g a n s = _
  simp only [execMsweep, hi, hg, noTrapMode_ok hm, guardOps_ok hr, meStop_skip, meStop_nil, rowRange_fst hn, hs, hnest, hb, hecc,
    Option.isSome_none, List.isEmpty_nil, Bool.or_false, bind, Except.bind, pure, Except.pure, Bool.not_true,
    Bool.false_eq_true, if_false, conclude_ok]
  rfl

end

omit hb

theorem exec_mend_noSweep (hs : (s.core x.core).me.sweep = none) :
    exec (.mend g) s = .next (raise s { code := cMatrix, sub := 9 }) := by
  change execMend g s = _
  simp only [execMend, hi, hg, noTrapMode_ok hm, guardOps_nil, hs, bind, Except.bind]
  rfl

/-- MEND waits for the operand fetch as it stood before its own bundle (R273, log entry 99). -/
theorem exec_mend_closes {w : Sweep} (hs : (s.core x.core).me.sweep = some w) (ho : w.owner = t)
    (hf : fetchOpen s x.core = false)
    (h0 : ¬((s.core x.core).me.h0.st = .failed ∧ (s.core x.core).me.h0.fetch = true))
    (h1 : ¬((s.core x.core).me.h1.st = .failed ∧ (s.core x.core).me.h1.fetch = true)) :
    exec (.mend g) s = .next (closeSweep s x.core) := by
  have howner : ((s.core x.core).me.sweep.map (·.owner) != some t) = false := by simp [hs, ho]
  change execMend g s = _
  simp only [execMend, hi, hg, noTrapMode_ok hm, guardOps_nil, meStop_skip, howner, meStop_nil, hf, if_neg h0, if_neg h1,
    bind, Except.bind, pure, Except.pure, Bool.not_true, Bool.false_eq_true, if_false, conclude_ok]

end

/-- Settles O25: a beat whose checks pass, by its mode, and MACC. -/
theorem matrixBeats : Obligations.MatrixBeats := by
  intro s t x g hi hm hg hb
  refine ⟨fun a b cl acc seg hr => ⟨fun hgw hv hst hw hs hbad hrow hf => ?_, fun hgw hn hacc hseg => ?_⟩,
    fun b acc seg hr hv hst hw hs hbad hrow => ⟨fun hgw hin hf => ?_, fun hgw hcg => ?_⟩, fun a hr hout hn how hecc => ?_⟩
  · exact exec_mpush_normal hi hm hg hb hr hgw ⟨hv, hst, hw, hs, hbad⟩ hrow hf
  · subst hacc hseg
    exact exec_mpush_swapped hi hm hg hb hr hgw hn
  · exact exec_mshift_normal hi hm hg hb hr hgw ⟨hv, hst, hw, hs, hbad⟩ hrow hin hf
  · exact exec_mshift_swapped hi hm hg hb hr hgw ⟨hv, hst, hw, hs, hbad⟩ hrow hcg
  · exact exec_macc hi hm hg hb hr hout fun _ => ⟨hn, how, hecc⟩

/-- Settles O26: each instruction whose checks pass; the sweep MSWEEP opens is read off the core the pops leave. -/
theorem matrixRowsAndSweeps : Obligations.MatrixRowsAndSweeps := by
  intro s t x g hi hm hg hb
  refine ⟨fun a b cl df clr hr hn how hecc => exec_mdrn hi hm hg hb hr hn how hecc,
    fun a n hr hn how => exec_mzero hi hm hg hb hr hn how, fun a n hr hs hnest hn hecc => ?_,
    fun hs => exec_mend_noSweep hi hm hg hs, fun w hs ho hf h0 h1 => exec_mend_closes hi hm hg hs ho hf h0 h1⟩
  refine ⟨_, _, exec_msweep hi hm hg hb hr hn hs hnest hecc, openSweep_sweep .., rfl, rfl, rfl, rfl, rfl, ?_, ?_, ?_, ?_, ?_,
    openSweep_pool ..⟩
  all_goals simp [sweepOver]

end Sys2Proof.Machine
end

section
/-!
PROOFS. The steps of a copy engine (R283 to R286, R291, R294, R296, R299): the statement of O32.
-/

namespace Sys2Proof.Machine

/-! ### The commands an engine holds -/

@[simp] theorem cmds_modCmds_self (s : State) (c : Nat) (e : Bool) (f : List Cmd → List Cmd) :
    cmds (modCmds s c e f) c e = f (cmds s c e) := by
  cases e <;> simp [cmds, modCmds]

/-- A command leaves its engine as it ends (R285, R296). -/
theorem mem_cmds_completeCmd {s : State} {c : Nat} {e : Bool} {q r : Cmd} (h : r ∈ cmds (completeCmd s c e q) c e) : r.id ≠ q.id := by
  simp only [completeCmd, dropCmd, cmds_modCmds_self, List.mem_filter, bne_iff_ne] at h
  exact h.2

/-- COMMAND_COMPLETE of a command the engine holds (R123, R285, R296). -/
theorem exec_commandComplete {s : State} {q : Cmd} (h : (cmds s s.ev.core s.ev.flag)[s.ev.num]? = some q) :
    exec .commandComplete s =
      .next (if cmdQuiet s q then closeDying (completeCmd s s.ev.core s.ev.flag q) else applyHeld s q) := by
  change execCommandComplete s = _
  simp only [execCommandComplete, h]
  exact (apply_ite Host.Outcome.next ..).symm

/-! ### A granule (R291) -/

theorem runGranule_busy {s : State} {c : Nat} {e : Bool} {q : Cmd} (hb : q.busy = true) :
    runGranule s c e q = performAll c e q.left s q := by simp only [runGranule, if_pos hb]

section
variable {s : State} {c : Nat} {e : Bool} {q p : Cmd} {k : Chk} (hb : q.busy = false)
include hb

theorem runGranule_draining (hd : ctlDraining s c q = true) : runGranule s c e q = s := by
  simp only [runGranule, hb, Bool.false_eq_true, if_false, if_pos hd]

variable (hd : ctlDraining s c q = false) (hk : checkGranule s c q = (k, p))
include hd hk

theorem runGranule_fails {sub : Nat} {a : W64} {src : Bool} (herr : k.err = some (sub, a, src)) :
    runGranule s c e q = logOut (copyFault k.st c e p sub a src) c a k.out := by
  simp only [runGranule, hb, hd, Bool.false_eq_true, if_false, hk, herr]
  rw [hk]

theorem runGranule_starts {s1 : State} {p' : Cmd} (herr : k.err = none) (hh : k.hold = false) (hr : reserve k.st p k = some (s1, p')) :
    let r := { p' with busy := true, plan := k.plan }
    runGranule s c e q = performAll c e p'.left (setCmd s1 c e r) r := by
  simp only [runGranule, hb, hd, Bool.false_eq_true, if_false, hk, herr, hh, hr]
  rfl

end

/-- COPY_GRANULE of a command whose turn has come, which nothing stops at its boundary (R291, R294, R296). -/
theorem exec_copyGranule {s : State} {q : Cmd} (hq : (cmds s s.ev.core s.ev.flag)[s.ev.num]? = some q)
    (ht : turnOf s s.ev.core s.ev.flag s.ev.num = some q) (hcoll : ∀ n, q.kind ≠ .coll n) (hp : q.isPage = false)
    (hf : forked s q.task q.fork = true) (hb : boundary s s.ev.core s.ev.flag q = none) :
    exec .copyGranule s = .next (runGranule s s.ev.core s.ev.flag q) := by
  change execCopyGranule s = _
  simp only [execCopyGranule, hq, ht, hf, if_true, granuleOf, hp, Bool.false_eq_true, if_false, hb]

/-! ### An element (R283, R286, R299) -/

section
variable {s s1 : State} {c : Nat} {e : Bool} {q : Cmd} {sp dp : List (Spot × Nat)} (htick : q.tick = none)
  (hplan : q.plan.headD ([], []) = (sp, dp)) (hfar : ({ parts := dp } : Side).far? = none)
include htick hplan hfar

/-- An element between two places of this package, with no ticket: the bytes read are written, and counted (R285). -/
theorem copyElem_local {s2 : State} {bs : List Byte} {sz : Nat} (hkind : q.kind = .copy sz)
    (hsrc : ({ parts := sp } : Side).far? = none)
    (hmeet : meets (({ parts := sp } : Side).span s) (q.dueSpan s) = false)
    (hrd : readSide s c (rkCe e) { parts := sp } = (s1, .ok bs)) (hwr : writeSide s1 c (rkCe e) { parts := dp } bs = (s2, none)) :
    copyElem s c e q = .done (arrive s2 q (2 ^ sz)) q.next := by
  have hready : dstReady s c q { parts := dp } = true := by simp only [dstReady, hfar, htick, Option.isNone_none, Bool.true_or]
  simp only [copyElem, hplan, hready, hfar, hsrc, hmeet, hrd, Option.bind_none, Bool.not_true, Bool.false_eq_true, if_false,
    writeElem, hkind, htick, Option.isSome_none, hwr, Cmd.esize]

/-- A CACCR or CCAS on a place of this package, with no ticket: its old value lands (R299). -/
theorem retElem_local {a : W64} {old : Nat} (hrmw : rmwSide s c (rkCe e) q.esize { parts := dp } q.retVal = (s1, .ok old)) :
    retElem s c e q a = .done (landVal s1 q.task q.pend (.s (BitVec.ofNat 64 old))) q.next := by
  simp only [retElem, hplan, hfar, htick, Option.isSome_none, Bool.false_eq_true, if_false, hrmw]

end

/-- Settles O32: what a granule does by what it finds, then its elements by the kind of its command. -/
theorem copySteps : Obligations.CopySteps := by
  refine ⟨fun s q hq ht hcoll hp hf hb => ?_, fun s c e q s1 s2 sp dp bs sz hkind htot htick harr hplan hsrc hdst hmeet
    hrd hwr => ?_, fun s c e q s1 dp sp old htick harr hplan hfar hrmw => ?_, fun s q hq => exec_commandComplete hq,
    fun s c e q r hr => mem_cmds_completeCmd hr⟩
  · have hexec := exec_copyGranule hq ht hcoll hp hf hb
    refine ⟨fun hbusy => ?_, fun k p hbusy hk => ⟨fun s1 p' hd herr hh hr => ?_, fun hd => ?_, fun sub a src hd herr => ?_⟩⟩
    · rw [hexec, runGranule_busy hbusy]
    · rw [hexec, runGranule_starts hbusy hd hk herr hh hr]
    · rw [hexec, runGranule_draining hbusy hd]
    · rw [hexec, runGranule_fails hbusy hd hk herr]
  · have helem : elemStep s c e q = copyElem s c e q := by simp only [elemStep, harr, hkind, if_neg htot]
    rw [helem, copyElem_local htick hplan hdst hkind hsrc hmeet hrd hwr]
  · refine ⟨fun op a v p hkind => ?_, fun n a v w p hkind => ?_⟩
    · have helem : elemStep s c e q = retElem s c e q a := by simp only [elemStep, harr, hkind]
      rw [helem, retElem_local htick hplan hfar hrmw, Cmd.pend, hkind]
    · have helem : elemStep s c e q = retElem s c e q a := by simp only [elemStep, harr, hkind]
      rw [helem, retElem_local htick hplan hfar hrmw, Cmd.pend, hkind]

end Sys2Proof.Machine
end

section
/-!
PROOFS. The registers of a copy engine, CWAIT, and the commands that join it (R281, R282, R290, R295, R299, R301, R324): the
statements of O28 and O29.
-/

namespace Sys2Proof.Machine

/-! ### A slot under its guard -/

section
variable {s off : State} {t : Nat} {x : Context} {g : Guard} {os : List Opd} {n : Nat} {r : Nat × Context → Res State} {k : Res State}
  (hi : s.issuer = .ok (t, x))
  (h : r (t, x) = (guardOps s x (gTrue g x) os n >>= fun _ => if !gTrue g x then pure off else k))
include hi h

/-- Under a false guard a slot whose operands can be read ends at once (R31). -/
theorem conclude_off (hr : readable s x false os n = true) (hg : gTrue g x = false) : conclude s (s.issuer >>= r) = .next off := by
  rw [hi]
  change conclude s (r (t, x)) = _
  rw [h, hg, guardOps_ok hr]
  rfl

/-- Under a true one it goes on past the checks of its operands. -/
theorem conclude_on (hr : readable s x true os n = true) (hg : gTrue g x = true) : conclude s (s.issuer >>= r) = conclude s k := by
  rw [hi]
  change conclude s (r (t, x)) = _
  rw [h, hg, guardOps_ok hr]
  rfl

end

/-! ### Claims, room and the registers of an engine -/

theorem claimHold_ok {s : State} {c t : Nat} (h : claimed s c (ceOf s) t = false) : claimHold s c t = .ok () := by
  simp [claimHold, need, h]
theorem claimHold_held {s : State} {c t : Nat} (h : claimed s c (ceOf s) t = true) : claimHold s c t = .error .hold := by
  simp [claimHold, need, h]
theorem roomHold_ok {s : State} {c t : Nat} (h : roomFor s c (ceOf s) t = true) : roomHold s c t = .ok () := by
  simp [roomHold, need, h]

section
variable {s : State} {t : Nat} {x : Context} {g : Guard} {a b : SSel} (hi : s.issuer = .ok (t, x)) (hg : gTrue g x = true)
include hi hg

/-! ### CNEST, CSTRIDE, CBASE and CWAIT -/

theorem exec_cnest (l : Lvl) (hr : readable s x true [.s a] 0 = true) :
    exec (.cnest g a l) s = .next (
      if claimed s x.core (ceOf s) t then s.modLatch fun k => { k with held := true }
      else if 2 ^ 32 ≤ (sVal s x true a).toNat then raise s { code := cOperand, sub := 1, info := sVal s x true a }
      else modCe (popOps s x true [.s a]) x.core (ceOf s) fun r =>
        { r with ext := r.ext.setIfInBounds (lvlNat l) (sVal s x true a).toNat, wt := some t, claim := true }) := by
  refine (conclude_on hi rfl hr hg).trans ?_
  rw [hg]
  cases hc : claimed s x.core (ceOf s) t
  · simp only [claimHold_ok hc, writeCe, popOps_ceOf, bind, Except.bind]
    split <;> rfl
  · rw [claimHold_held hc]; rfl

variable (hr : readable s x true [.s a, .s b] 0 = true)
include hr

theorem exec_cstride (l : Lvl) :
    exec (.cstride g a b l) s = .next (
      if claimed s x.core (ceOf s) t then s.modLatch fun k => { k with held := true }
      else modCe (popOps s x true [.s a, .s b]) x.core (ceOf s) fun r =>
        { r with sstr := r.sstr.setIfInBounds (lvlNat l) (sVal s x true a), dstr := r.dstr.setIfInBounds (lvlNat l) (sVal s x true b),
                 wt := some t, claim := true }) := by
  refine (conclude_on hi rfl hr hg).trans ?_
  rw [hg]
  cases hc : claimed s x.core (ceOf s) t
  · rw [claimHold_ok hc, ← popOps_ceOf s x true]; rfl
  · rw [claimHold_held hc]; rfl

theorem exec_cbase (slot : BitVec 4) :
    exec (.cbase g a b slot) s = .next (
      if claimed s x.core (ceOf s) t then s.modLatch fun k => { k with held := true }
      else modCe (popOps s x true [.s a, .s b]) x.core (ceOf s) fun r =>
        { r with src := sVal s x true a, dst := sVal s x true b, slot := slot.toNat, wt := some t, claim := true }) := by
  refine (conclude_on hi rfl hr hg).trans ?_
  rw [hg]
  cases hc : claimed s x.core (ceOf s) t
  · rw [claimHold_ok hc, ← popOps_ceOf s x true]; rfl
  · rw [claimHold_held hc]; rfl

end

theorem exec_cwait {s : State} {t : Nat} {x : Context} {g : Guard} (hi : s.issuer = .ok (t, x)) :
    exec (.cwait g) s = .next (
      if gTrue g x = false then s
      else if (cmds s x.core (ceOf s)).any fun q => q.task == t then s.modLatch fun k => { k with held := true }
      else dropClean (unclaim s x.core (ceOf s) t) x.core) := by
  change execCwait g s = _
  simp only [execCwait, hi, guardOps_nil, bind, Except.bind, pure, Except.pure]
  cases gTrue g x
  · rfl
  · simp only [Bool.not_true, Bool.false_eq_true, if_false]
    split <;> rfl

/-- Settles O28: each instruction under a false guard, under another task's claim and without one. -/
theorem copyRegisters : Obligations.CopyRegisters := by
  intro s t x g a b l slot hi u v held
  refine ⟨fun hg => ⟨fun hr => conclude_off hi rfl hr hg, fun hr => ⟨conclude_off hi rfl hr hg, conclude_off hi rfl hr hg⟩, ?_⟩,
    fun hg hc => ⟨fun hr => ?_, fun hr => ⟨?_, ?_⟩⟩,
    fun hg hc => ⟨fun hr => ⟨fun hu => ?_, fun hu => ?_⟩, fun hr => ⟨?_, ?_⟩⟩, fun hg => ⟨fun hn => ?_, fun q hq ht => ?_⟩⟩
  · rw [exec_cwait hi, if_pos hg]
  · rw [exec_cnest hi hg l hr, if_pos hc]
  · rw [exec_cstride hi hg hr l, if_pos hc]
  · rw [exec_cbase hi hg hr slot, if_pos hc]
  · simp only [exec_cnest hi hg l hr, hc, Bool.false_eq_true, if_false, if_neg hu.not_ge, u]
  · simp only [exec_cnest hi hg l hr, hc, Bool.false_eq_true, if_false, if_pos hu, u]
  · simp only [exec_cstride hi hg hr l, hc, Bool.false_eq_true, if_false, u, v]
  · simp only [exec_cbase hi hg hr slot, hc, Bool.false_eq_true, if_false, u, v]
  · have hany : (cmds s x.core (ceOf s)).any (fun q => q.task == t) = false := by simpa using hn
    simp only [exec_cwait hi, hg, hany, Bool.true_eq_false, Bool.false_eq_true, if_false]
  · have hany : (cmds s x.core (ceOf s)).any (fun q => q.task == t) = true := List.any_eq_true.mpr ⟨q, hq, by simp [ht]⟩
    simp only [exec_cwait hi, hg, hany, Bool.true_eq_false, if_false, if_true, held]

/-! ### Copy and accumulate commands (R281, R282, R299, R301) -/

@[simp] theorem countTick_core (s : State) (t : Nat) (i : Option Nat) (c : Nat) : (countTick s t i).core c = s.core c := by
  unfold countTick
  split <;> simp
@[simp] theorem ftgUse_core (s : State) (l c : Nat) : (ftgUse s l).core c = s.core c := by
  unfold ftgUse
  split <;> rfl
@[simp] theorem cmds_unclaim (s : State) (c : Nat) (e : Bool) (t : Nat) : cmds (unclaim s c e t) c e = cmds s c e := by
  cases e <;> simp [cmds, unclaim, modCe]
@[simp] theorem ceRegs_modCmds (s : State) (c : Nat) (e : Bool) (f : List Cmd → List Cmd) :
    ceRegs (modCmds s c e f) c e = ceRegs s c e := by
  cases e <;> simp [ceRegs, modCmds]
/-- The claim of the task that wrote the registers last ends. -/
theorem claim_unclaim {s : State} {c t : Nat} {e : Bool} (h : (ceRegs s c e).wt = some t) :
    (ceRegs (unclaim s c e t) c e).claim = false := by
  cases e
  · have hw : (s.core c).ce0.wt = some t := h
    simp [ceRegs, unclaim, modCe, hw]
  · have hw : (s.core c).ce1.wt = some t := h
    simp [ceRegs, unclaim, modCe, hw]
theorem claimed_of_wt {s : State} {c t : Nat} {e : Bool} (h : (ceRegs s c e).wt = some t) : claimed s c e t = false := by
  simp [claimed, h]

/-- The command of a CCOPY or CACC with control word `b` and the registers `r` (R282, R299). -/
def copyCmd (s : State) (t : Nat) (x : Context) (r : CeRegs) (b : W64) (acc : Option AccOp) (obj : Option (Nat × Nat))
    (tick : Option Nat) : Cmd where
  id := s.fresh
  task := t
  launch := x.launch
  slot := r.slot
  tick := tick
  obj := obj
  ck := b.toNat / 16 % 4
  kind := match acc with
    | none => .copy (b.toNat % 8)
    | some o => .acc o
  split := b.toNat / 64 % 8
  perm := b.getLsbD 9
  list := b.toNat / 2 ^ 32 % 2 ^ 22
  src := r.src
  dst := r.dst
  ext := r.ext
  sstr := r.sstr
  dstr := r.dstr
  sweep := inSweep s x.core t
  fork := forkOf s t x

/-- The state in which it joins its engine: the claim has ended, its ticket is counted, a remote one noted (R281, R301, R347). -/
def copyClaimed (s : State) (t : Nat) (x : Context) (e : Bool) (tick : Option Nat) (dst : W64) : State :=
  let s1 := countTick (unclaim s x.core e t) t tick
  (if tick.isSome ∧ isRemote dst then ftgUse s1 x.launch else s1).tick

theorem copyClaimed_core (s : State) (t : Nat) (x : Context) (e : Bool) (tick : Option Nat) (dst : W64) (c : Nat) :
    (copyClaimed s t x e tick dst).core c = (unclaim s x.core e t).core c := by
  unfold copyClaimed
  dsimp only
  split <;> simp
theorem copyClaimed_mem (s : State) (t : Nat) (x : Context) (e : Bool) (tick : Option Nat) (dst : W64) :
    (copyClaimed s t x e tick dst).mem = s.mem := by
  unfold copyClaimed
  dsimp only
  split <;> simp
theorem cmds_copyClaimed (s : State) (t : Nat) (x : Context) (e : Bool) (tick : Option Nat) (dst : W64) :
    cmds (copyClaimed s t x e tick dst) x.core e = cmds s x.core e := by
  rw [← cmds_unclaim s x.core e t]
  simp only [cmds, copyClaimed_core]
theorem claim_copyClaimed {s : State} {t : Nat} {x : Context} {e : Bool} (tick : Option Nat) (dst : W64)
    (h : (ceRegs s x.core e).wt = some t) : (ceRegs (copyClaimed s t x e tick dst) x.core e).claim = false := by
  rw [← claim_unclaim h]
  simp only [ceRegs, copyClaimed_core]

section
variable {s : State} {t : Nat} {x : Context} {op : Nat} {a b : W64} {tb : Bool} {acc : Option AccOp} {e : Bool} (he : ceOf s = e)
  (hc : claimed s x.core e t = false) (hroom : roomFor s x.core e t = true)
include he hc hroom

theorem issueCopy_otherTask (hw : (ceRegs s x.core e).wt ≠ some t) : issueCopy s t x op a b tb acc = operand op 0 := by
  subst he
  simp only [issueCopy, claimHold_ok hc, roomHold_ok hroom, bind, Except.bind, if_pos hw]
  rfl

variable (hw : (ceRegs s x.core e).wt = some t)
include hw

theorem issueCopy_badCtl (hb : badCtl b acc.isSome (ceRegs s x.core e).dst = true) : issueCopy s t x op a b tb acc = operand op b := by
  subst he
  simp only [issueCopy, claimHold_ok hc, roomHold_ok hroom, bind, Except.bind, if_neg (not_not.mpr hw), if_pos hb]
  rfl

theorem issueCopy_joins {obj : Option (Nat × Nat)} {tick : Option Nat} (hb : badCtl b acc.isSome (ceRegs s x.core e).dst = false)
    (hacc : acc.isSome = true → (ceRegs s x.core e).dst.extractLsb' 61 3 ≠ 0b110)
    (h02 : b.toNat / 16 % 4 = 0 ∨ b.toNat / 16 % 4 = 2 → a = 0 ∧ obj = none)
    (h1 : b.toNat / 16 % 4 = 1 → ∃ o, objAt s x op a 16 16 = .ok o ∧ obj = some o)
    (h3 : b.toNat / 16 % 4 = 3 → ∃ o, objAt s x op a 1 1 = .ok o ∧ obj = some o)
    (htick : ticketIdx s x t op tb (ceRegs s x.core e).dst = .ok tick) :
    issueCopy s t x op a b tb acc = .ok (modCmds (copyClaimed s t x e tick (ceRegs s x.core e).dst) x.core e
      fun l => l ++ [copyCmd s t x (ceRegs s x.core e) b acc obj tick]) := by
  subst he
  have hck : (b.extractLsb' 4 2).toNat = b.toNat / 16 % 4 := toNat_field ..
  have hnz : ¬((b.toNat / 16 % 4 = 0 ∨ b.toNat / 16 % 4 = 2) ∧ a ≠ 0) := fun ⟨h, ha⟩ => ha (h02 h).1
  have hdst : ¬(acc.isSome = true ∧ (ceRegs s x.core (ceOf s)).dst.extractLsb' 61 3 = 0b110) := fun ⟨h, hd⟩ => hacc h hd
  have hsize : (b.extractLsb' 0 3).toNat = b.toNat % 8 := toNat_low ..
  have hsplit : (b.extractLsb' 6 3).toNat = b.toNat / 64 % 8 := toNat_field ..
  have hlist : (b.extractLsb' 32 22).toNat = b.toNat / 2 ^ 32 % 2 ^ 22 := toNat_field ..
  simp only [issueCopy, claimHold_ok hc, roomHold_ok hroom, bind, Except.bind, if_neg (not_not.mpr hw), hb, Bool.false_eq_true,
    if_false, hck, if_neg hnz, if_neg hdst, htick, hsize, hsplit, hlist, pure, Except.pure]
  split
  · obtain ⟨o, ho, rfl⟩ := h1 ‹_›
    simp only [ho, Except.map]
    cases acc <;> rfl
  · split
    · obtain ⟨o, ho, rfl⟩ := h3 ‹_›
      simp only [ho, Except.map]
      cases acc <;> rfl
    · obtain ⟨-, rfl⟩ := h02 (by omega)
      cases acc <;> rfl

end

section
variable {s : State} {t : Nat} {x : Context} {g : Guard} {a b : SSel} {tb : Bool} (hi : s.issuer = .ok (t, x)) (hg : gTrue g x = true)
  (hr : readable s x true [.s a, .s b] 0 = true)
include hi hg hr

theorem exec_ccopy_on : exec (.ccopy g a b tb) s =
    conclude s (issueCopy (popOps s x true [.s a, .s b]) t x 4 (sVal s x true a) (sVal s x true b) tb none) :=
  (conclude_on hi rfl hr hg).trans (by rw [hg])

theorem exec_cacc_on (o : AccOp) : exec (.cacc g a b tb o) s =
    conclude s (issueCopy (popOps s x true [.s a, .s b]) t x 5 (sVal s x true a) (sVal s x true b) tb (some o)) :=
  (conclude_on hi rfl hr hg).trans (by rw [hg])

end

theorem copyJoins : CopyJoins := by
  intro s t x g a b tb acc hi i op e s0 r av bv ck
  have he : ceOf s0 = e := popOps_ceOf ..
  refine ⟨fun hg hr => ?_, fun hg hr hc hroom => ?_⟩
  · cases acc
    · exact conclude_off hi rfl hr hg
    · exact conclude_off hi rfl hr hg
  · have hexec : exec i s = conclude s (issueCopy s0 t x op av bv tb acc) := by
      cases acc
      · exact exec_ccopy_on hi hg hr
      · exact exec_cacc_on hi hg hr _
    rw [hexec]
    refine ⟨fun hw => ?_, fun hw hb => ?_, fun obj tick hw hb hacc h02 h1 h3 htick => ?_⟩
    · rw [issueCopy_otherTask he hc hroom hw]; rfl
    · rw [issueCopy_badCtl he hc hroom hw hb]; rfl
    · rw [issueCopy_joins he hc hroom hw hb hacc h02 h1 h3 htick]
      refine ⟨_, copyCmd s0 t x r bv acc obj tick, rfl, ?_, ?_, rfl, rfl, rfl, rfl, rfl, rfl, rfl, rfl, rfl, rfl, rfl, rfl, rfl, rfl,
        rfl, rfl, rfl, rfl, rfl, ?_⟩
      · rw [cmds_modCmds_self, cmds_copyClaimed]
      · rw [ceRegs_modCmds, claim_copyClaimed tick r.dst hw]
      · rw [modCmds_mem, copyClaimed_mem, popOps_mem]

/-! ### Returning commands (R299, R324) -/

/-- The command of a CACCR or CCAS, with the slot of its stream where its destination is remote. -/
def retCmd (s : State) (t : Nat) (x : Context) (slot : Nat) (kind : CmdKind) (tick : Option Nat) : Cmd where
  id := s.fresh
  task := t
  launch := x.launch
  kind := kind
  slot := slot
  tick := tick
  sweep := inSweep s x.core t
  fork := forkOf s t x

section
variable {s : State} {t : Nat} {x : Context} {op : Nat} {a : W64} {tb : Bool} {mk : Nat → CmdKind} {e : Bool} (he : ceOf s = e)
  (hroom : roomFor s x.core e t = true)
include he hroom

theorem issueRet_otherTask (hrem : a.extractLsb' 61 3 = 0 ∧ isRemote a = true) (hclaim : (ceRegs s x.core e).claim = false)
    (hw : (ceRegs s x.core e).wt ≠ some t) : issueRet s t x op a tb mk = operand op 0 := by
  subst he
  have hc : claimed s x.core (ceOf s) t = false := by simp [claimed, hclaim]
  simp [issueRet, hrem, claimHold_ok hc, roomHold_ok hroom, hw, operand, trapWith, bind, Except.bind]

variable {tick : Option Nat} (htag : a.extractLsb' 61 3 ≠ 0b110) (htick : ticketIdx s x t op tb a = .ok tick)
include htag htick

theorem issueRet_local (hrem : ¬(a.extractLsb' 61 3 = 0 ∧ isRemote a = true)) :
    issueRet s t x op a tb mk = .ok (pushQ (modCmds (countTick s t tick).tick x.core e fun l =>
      l ++ [retCmd s t x 0 (mk (nextId s t)) tick]) t .s 40 none) := by
  subst he
  have hfar : (a.extractLsb' 61 3 == 0 && isRemote a) = false := by simpa using hrem
  simp only [issueRet, hfar, roomHold_ok hroom, if_neg htag, htick, Bool.false_eq_true, if_false, false_and, and_false, bind,
    Except.bind, pure, Except.pure, retCmd]

theorem issueRet_remote {s1 : State} {q : Cmd} (hrem : a.extractLsb' 61 3 = 0 ∧ isRemote a = true)
    (hw : (ceRegs s x.core e).wt = some t)
    (hret : takeRet s (retCmd s t x (ceRegs s x.core e).slot (mk (nextId s t)) tick) a = .ok (s1, q)) :
    issueRet s t x op a tb mk = .ok (pushQ (modCmds (countTick (if tick.isSome then ftgUse s1 x.launch else s1) t tick).tick x.core e
      fun l => l ++ [q]) t .s 40 none) := by
  subst he
  have hfar : (a.extractLsb' 61 3 == 0 && isRemote a) = true := by simpa using hrem
  rw [retCmd] at hret
  simp only [issueRet, hfar, claimHold_ok (claimed_of_wt hw), roomHold_ok hroom, hw, ne_eq, not_true_eq_false, and_false,
    if_false, if_neg htag, htick, hret, if_true, and_true, bind, Except.bind, pure, Except.pure]

end

section
variable {s : State} {t : Nat} {x : Context} {g : Guard} {a b : SSel} {tb : Bool} (hi : s.issuer = .ok (t, x)) (hg : gTrue g x = true)
include hi hg

theorem exec_caccr_on (op : AccOp) (hr : readable s x true [.s a, .s b] 1 = true) : exec (.caccr g a b tb op) s =
    conclude s (issueRet (popOps s x true [.s a, .s b]) t x 6 (sVal s x true a) tb fun p =>
      .accr op (sVal s x true a) (sVal s x true b) p) :=
  (conclude_on hi rfl hr hg).trans (by rw [hg])

theorem exec_ccas_on (sz : Bool) (m : BitVec 4) (hr : readable s x true [.s a, .s b, .s (.q m)] 1 = true) :
    exec (.ccas g a b tb sz m) s =
      conclude s (issueRet (popOps s x true [.s a, .s b]) t x 7 (sVal s x true a) tb fun p =>
        .cas (if sz then 4 else 8) (sVal s x true a) (x.qsAt m) (sVal s x true b) p) :=
  (conclude_on hi rfl hr hg).trans (by rw [hg])

end

/-- What an instruction that comes to `issueRet` does, by where its destination lies (R299, R324). -/
theorem returning_joins {s s0 : State} {t : Nat} {x : Context} {i : Instr} {op : Nat} {d : W64} {tb : Bool} {kind : Nat → CmdKind}
    {e : Bool} (he : ceOf s0 = e) (hexec : exec i s = conclude s (issueRet s0 t x op d tb kind)) {tick : Option Nat}
    (hroom : roomFor s0 x.core e t = true) (htag : d.extractLsb' 61 3 ≠ 0b110) (htick : ticketIdx s0 x t op tb d = .ok tick) :
    let rem := d.extractLsb' 61 3 = 0 ∧ isRemote d = true
    (¬rem → exec i s = .next (pushQ (modCmds (countTick s0 t tick).tick x.core e fun l =>
      l ++ [retCmd s0 t x 0 (kind (nextId s0 t)) tick]) t .s 40 none)) ∧
    (∀ s1 q, rem → (ceRegs s0 x.core e).wt = some t →
      takeRet s0 (retCmd s0 t x (ceRegs s0 x.core e).slot (kind (nextId s0 t)) tick) d = .ok (s1, q) →
      exec i s = .next (pushQ (modCmds (countTick (if tick.isSome then ftgUse s1 x.launch else s1) t tick).tick x.core e
        fun l => l ++ [q]) t .s 40 none)) ∧
    (rem → (ceRegs s0 x.core e).claim = false → (ceRegs s0 x.core e).wt ≠ some t →
      exec i s = .next (raise s { code := cOperand, sub := op })) := by
  refine ⟨fun hrem => ?_, fun s1 q hrem hw hret => ?_, fun hrem hclaim hw => ?_⟩
  · rw [hexec, issueRet_local he hroom htag htick hrem]; rfl
  · rw [hexec, issueRet_remote he hroom htag htick hrem hw hret]; rfl
  · rw [hexec, issueRet_otherTask he hroom hrem hclaim hw]; rfl

theorem returningJoins : ReturningJoins := by
  intro s t x g a b tb hi e d v rem zero goes
  refine ⟨fun hg => ⟨fun op hr => conclude_off hi rfl hr hg, fun sz m hr => conclude_off hi rfl hr hg⟩,
    fun hg => ⟨fun op hr => ?_, fun sz m hr => ?_⟩⟩
  · exact fun tick hroom htag htick => returning_joins (popOps_ceOf ..) (exec_caccr_on hi hg op hr) hroom htag htick
  · exact fun tick hroom htag htick => returning_joins (popOps_ceOf ..) (exec_ccas_on hi hg sz m hr) hroom htag htick

/-- Settles O29: the commands without a value, and those that return one. -/
theorem copyCommands : Obligations.CopyCommands := ⟨copyJoins, returningJoins⟩

end Sys2Proof.Machine
end

section
/-!
PROOFS. The page instructions at their issue (R281, R357 to R359, R364, R366, R369, R373, R374): the statement of O37.
-/

namespace Sys2Proof.Machine

/-! ### The command and its engine -/

theorem cmds_pageCmd (s : State) (t : Nat) (x : Context) (ck : Nat) (obj : Option (Nat × Nat)) (k : CmdKind) (r : CeRegs) :
    cmds (pageCmd s t x ck obj k r) x.core (ceOf s) = cmds s x.core (ceOf s) ++
      [{ id := s.fresh, task := t, launch := x.launch, kind := k, ck := ck, obj := obj, sweep := inSweep s x.core t,
         dst := r.dst, dstr := r.dstr, fork := forkOf s t x }] := cmds_modCmds_self ..

/-- PMAP with its operation as a number (R369). -/
theorem exec_pmapInstr (op : Fin 6) (g : Guard) (a b : SSel) (s : State) :
    exec (pmapInstr op g a b) s = conclude s (issuePmap g a b op.val s) := by
  fin_cases op <;> rfl

section
variable {s : State} {t : Nat} {x : Context} {g : Guard} {a b : SSel} {u v : W64} (hi : s.issuer = .ok (t, x)) (hg : gTrue g x = true)
  (hroom : roomFor s x.core (ceOf s) t = true)
include hi hg hroom

section
variable (hr : readable s x true [.s a, .s b] 0 = true)
include hr

/-! ### KVLD, KVST and PSEL (R359, R364, R366) -/

theorem exec_kvld_otherTask (hclaim : (ceRegs s x.core (ceOf s)).claim = false) (hw : (ceRegs s x.core (ceOf s)).wt ≠ some t) :
    exec (.kvld g a b) s = .next (raise s { code := cOperand, sub := 0x28 }) := by
  have hc : claimed s x.core (ceOf s) t = false := by simp [claimed, hclaim]
  refine (conclude_on hi rfl hr hg).trans ?_
  simp only [claimHold_ok hc, roomHold_ok hroom, if_pos hw, operand, trapWith, bind, Except.bind, conclude_trap]

variable (hb : sVal s x true b = v)
include hb

theorem exec_kvst_operand (hbad : (v.extractLsb' 22 2).toNat = 2 ∨ v.extractLsb' 0 2 ≠ 0) :
    exec (.kvst g a b) s = .next (raise s { code := cOperand, sub := 0x29, info := v }) := by
  refine (conclude_on hi rfl hr hg).trans ?_
  simp only [hg, hb, roomHold_ok hroom, if_pos hbad, operand, trapWith, bind, Except.bind, conclude_trap]

theorem exec_psel_operand
    (hbad : v.extractLsb' 54 10 ≠ 0 ∨ v.extractLsb' 6 26 ≠ 0 ∨ v.extractLsb' 0 4 ≠ 0 ∨ v.extractLsb' 32 5 ≠ 0) :
    exec (.psel g a b) s = .next (raise s { code := cOperand, sub := 0x2A, info := v }) := by
  refine (conclude_on hi rfl hr hg).trans ?_
  simp only [hg, hb, roomHold_ok hroom, if_pos hbad, operand, trapWith, bind, Except.bind, conclude_trap]

variable (ha : sVal s x true a = u)
include ha

theorem exec_kvld_joins {r : CeRegs} {obj : Option (Nat × Nat)} (hregs : ceRegs s x.core (ceOf s) = r) (hw : r.wt = some t)
    (hlegal : ¬(v.extractLsb' 54 10 ≠ 0 ∨ v.extractLsb' 0 2 ≠ 0 ∨ v.extractLsb' 6 2 = 3 ∨ v.extractLsb' 2 2 = 3 ∨
      v.extractLsb' 32 2 ≠ 0 ∨
      ((v.extractLsb' 4 2).toNat = 2 ∧ r.dst.extractLsb' 61 3 ≠ 0b100 ∧ r.dst.extractLsb' 61 3 ≠ 0b101)))
    (hobj : pageObj s x 0x28 u (v.extractLsb' 4 2).toNat = .ok obj) :
    exec (.kvld g a b) s = .next (unclaim (pageCmd (popOps s x true [.s a, .s b]) t x (v.extractLsb' 4 2).toNat obj
      (.kvld (v.extractLsb' 32 22).toNat ((v.extractLsb' 24 8).toNat + 1) (v.extractLsb' 16 8).toNat
        ((v.extractLsb' 8 8).toNat + 1) (v.extractLsb' 6 2).toNat (v.extractLsb' 2 2).toNat) r) x.core (ceOf s) t) := by
  subst hregs
  have hce : ∀ ck obj k r, ceOf (pageCmd (popOps s x true [.s a, .s b]) t x ck obj k r) = ceOf s := fun _ _ _ _ => popOps_ceOf ..
  refine (conclude_on hi rfl hr hg).trans ?_
  simp only [hg, ha, hb, claimHold_ok (claimed_of_wt hw), roomHold_ok hroom, if_neg (not_not.mpr hw), if_neg hlegal, hobj, hce,
    bind, Except.bind, conclude_pure]

theorem exec_kvst_joins {obj : Option (Nat × Nat)} (hlegal : ¬((v.extractLsb' 22 2).toNat = 2 ∨ v.extractLsb' 0 2 ≠ 0))
    (hobj : pageObj s x 0x29 u (v.extractLsb' 22 2).toNat = .ok obj) :
    exec (.kvst g a b) s = .next (pageCmd (popOps s x true [.s a, .s b]) t x (v.extractLsb' 22 2).toNat obj
      (.kvst (v.extractLsb' 32 32).toNat (v.extractLsb' 24 8).toNat (v.extractLsb' 0 22).toNat)) := by
  refine (conclude_on hi rfl hr hg).trans ?_
  simp only [hg, ha, hb, roomHold_ok hroom, if_neg hlegal, hobj, bind, Except.bind, conclude_pure]

theorem exec_psel_joins {obj : Option (Nat × Nat)}
    (hlegal : ¬(v.extractLsb' 54 10 ≠ 0 ∨ v.extractLsb' 6 26 ≠ 0 ∨ v.extractLsb' 0 4 ≠ 0 ∨ v.extractLsb' 32 5 ≠ 0))
    (hobj : pageObj s x 0x2A u (v.extractLsb' 4 2).toNat = .ok obj) :
    exec (.psel g a b) s = .next (pageCmd (popOps s x true [.s a, .s b]) t x (v.extractLsb' 4 2).toNat obj
      (.psel (v.extractLsb' 32 22).toNat)) := by
  refine (conclude_on hi rfl hr hg).trans ?_
  simp only [hg, ha, hb, roomHold_ok hroom, if_neg hlegal, hobj, bind, Except.bind, conclude_pure]

/-! ### PSREF (R373) -/

variable (hset : (u.extractLsb' 0 16).toNat < 16384)
include hset

/-- PSREF that makes a set, for the task itself or pinned. -/
theorem exec_psref_new {pin : Bool} (hlegal : ¬(u.extractLsb' 16 16 ≠ 0 ∨ u.extractLsb' 50 14 ≠ 0 ∨ u.extractLsb' 48 2 = 3 ∨
      (look s.pg.sets (u.extractLsb' 0 16).toNat).isSome = true))
    (hlist : ¬(v.extractLsb' 0 2 ≠ 0 ∨ isRemote v = true)) (hfit : pin = false → refsOf s t < 16) :
    exec (.psref g a b pin true) s = .next (pageCmd (popOps s x true [.s a, .s b]) t x 0 none
      (.psref (u.extractLsb' 0 16).toNat ((u.extractLsb' 32 16).toNat + 1) (u.extractLsb' 48 2).toNat true v
        (if pin then none else some t))) := by
  refine (conclude_on hi rfl hr hg).trans ?_
  simp only [hg, ha, hb, roomHold_ok hroom, if_neg hset.not_ge, if_true, if_neg hlegal, if_neg hlist, bind, Except.bind, pure,
    Except.pure]
  cases pin
  · simp only [Bool.false_eq_true, if_false, if_neg (hfit rfl).not_ge, conclude_ok]
  · simp only [if_true, conclude_ok]

variable (hlegal : ¬(u.extractLsb' 16 48 ≠ 0 ∨ (look s.pg.sets (u.extractLsb' 0 16).toNat).isNone = true))
include hlegal

/-- PSREF of a set that exists, for the task itself or pinned. -/
theorem exec_psref_own {pin : Bool} (hv : v = 0) (hfit : pin = false → refsOf s t < 16) :
    exec (.psref g a b pin false) s = .next (pageCmd (popOps s x true [.s a, .s b]) t x 0 none
      (.psref (u.extractLsb' 0 16).toNat ((u.extractLsb' 32 16).toNat + 1) (u.extractLsb' 48 2).toNat false v
        (if pin then none else some t))) := by
  refine (conclude_on hi rfl hr hg).trans ?_
  simp only [hg, ha, hb, roomHold_ok hroom, if_neg hset.not_ge, Bool.false_eq_true, if_false, if_neg hlegal, hv, bind, Except.bind,
    pure, Except.pure]
  cases pin
  · simp only [Bool.false_eq_true, if_false, if_true, if_neg (hfit rfl).not_ge, conclude_ok]
  · simp only [ne_eq, not_true_eq_false, if_false, if_true, conclude_ok]

/-- PSREF of a set that exists, for a child that has not started. -/
theorem exec_psref_child {i : Nat} {k : Task} (hv : v ≠ 0) (hchild : childOf s t v = some (i, k)) (hk : notStarted k = true)
    (hfit : refsOf s i < 16) :
    exec (.psref g a b false false) s = .next (pageCmd (popOps s x true [.s a, .s b]) t x 0 none
      (.psref (u.extractLsb' 0 16).toNat ((u.extractLsb' 32 16).toNat + 1) (u.extractLsb' 48 2).toNat false v (some i))) := by
  refine (conclude_on hi rfl hr hg).trans ?_
  simp only [hg, ha, hb, roomHold_ok hroom, if_neg hset.not_ge, Bool.false_eq_true, if_false, if_neg hlegal, if_neg hv, hchild, hk,
    if_true, if_neg hfit.not_ge, bind, Except.bind, pure, Except.pure, conclude_ok]

end

/-! ### PMAP (R369) -/

section
variable (hr : readable s x true [.s a, .s b] 1 = true) (ha : sVal s x true a = u)
include hr ha

theorem exec_pmap_joins (op : Fin 6) (hb : sVal s x true b = v) (hu : ¬(u.extractLsb' 32 32 ≠ 0 ∨ (!pgOk s u.toNat) = true))
    (hnew : op = 2 → v.extractLsb' 2 30 = 0 ∧ v.extractLsb' 0 2 ≠ 3) (hold : op ≠ 2 → v = 0) :
    exec (pmapInstr op g a b) s = .next (pushQ (pageCmd (popOps s x true [.s a, .s b]) t x 0 none
      (.pmap op.val u.toNat v (nextId s t))) t .s 24 none) := by
  have hop : op.val = 2 ↔ op = 2 := Fin.val_inj (b := 2)
  rw [exec_pmapInstr]
  refine (conclude_on hi rfl hr hg).trans ?_
  simp only [hg, ha, hb, roomHold_ok hroom, if_neg hu, bind, Except.bind, hop]
  by_cases h2 : op = 2
  · have hword : (v.extractLsb' 2 30 == 0 && v.extractLsb' 0 2 != 3) = true := by
      rw [Bool.and_eq_true, beq_iff_eq, bne_iff_ne]
      exact hnew h2
    simp only [if_pos h2, need, hword, if_true, conclude_pure]
  · simp only [if_neg h2, need, hold h2, BEq.rfl, if_true, conclude_pure]

theorem exec_pmap_operand (op : Fin 6) (hu : u.extractLsb' 32 32 ≠ 0 ∨ (!pgOk s u.toNat) = true) :
    exec (pmapInstr op g a b) s = .next (raise s { code := cOperand, sub := 0x2B, info := u }) := by
  rw [exec_pmapInstr]
  refine (conclude_on hi rfl hr hg).trans ?_
  simp only [hg, ha, roomHold_ok hroom, if_pos hu, operand, trapWith, bind, Except.bind, conclude_trap]

end

/-! ### PSDROP (R374) -/

section
variable (hr : readable s x true [.s a] 0 = true) (ha : sVal s x true a = u) (hset : u.toNat < 16384)
include hr ha hset

theorem exec_psdrop_joins {k : PageSet} {pin : Bool} (hk : look s.pg.sets u.toNat = some k)
    (hheld : if pin then 0 < k.pins else ∃ r, look s.tasks t = some r ∧ u.toNat ∈ r.refs) :
    exec (.psdrop g a pin) s = .next (pageCmd (popOps s x true [.s a]) t x 0 none (.psdrop u.toNat pin)) := by
  refine (conclude_on hi rfl hr hg).trans ?_
  simp only [hg, ha, roomHold_ok hroom, if_neg hset.not_ge, hk, bind, Except.bind]
  cases pin
  · obtain ⟨r, hr, hm⟩ := hheld
    simp [hr, hm]
  · have hp : 0 < k.pins := hheld
    simp [hp]

theorem exec_psdrop_operand (pin : Bool) (hk : look s.pg.sets u.toNat = none) :
    exec (.psdrop g a pin) s = .next (raise s { code := cOperand, sub := 0x2D, info := u }) := by
  refine (conclude_on hi rfl hr hg).trans ?_
  simp only [hg, ha, roomHold_ok hroom, if_neg hset.not_ge, hk, operand, trapWith, bind, Except.bind, Bool.not_false, if_true,
    conclude_trap]

end
end

/-! ### The statements -/

theorem kvldIssues : KvldIssues := by
  refine ⟨cmds_pageCmd, fun s t x g a b hi => ⟨fun hg hr => conclude_off hi rfl hr hg, ?_, ?_⟩⟩
  · intro obj hg hr hroom hw h54 h0 h6 h2 h32 htag hobj
    exact exec_kvld_joins hi hg hroom hr rfl rfl rfl hw (by tauto) hobj
  · exact fun hg hr hroom hclaim hw => exec_kvld_otherTask hi hg hroom hr hclaim hw

theorem kvstAndPselIssue : KvstAndPselIssue := by
  intro s t x g a b hi v s0
  refine ⟨fun hg hr => ⟨conclude_off hi rfl hr hg, conclude_off hi rfl hr hg⟩, fun hg hr hroom => ⟨fun obj hck h0 hobj => ?_,
    exec_kvst_operand hi hg hroom hr rfl, fun obj h54 h6 h0 h32 hobj => ?_, exec_psel_operand hi hg hroom hr rfl⟩⟩
  · exact exec_kvst_joins hi hg hroom hr rfl rfl (by tauto) hobj
  · exact exec_psel_joins hi hg hroom hr rfl rfl (by tauto) hobj

theorem pmapIssues : PmapIssues := by
  intro s t x g a b op hi u v
  refine ⟨fun hg hr => ?_, fun hg hr hroom => ⟨fun hu hp hnew hold => ?_, fun hbad => ?_⟩⟩
  · rw [exec_pmapInstr]
    exact conclude_off hi rfl hr hg
  · have hlegal : ¬(u.extractLsb' 32 32 ≠ 0 ∨ (!pgOk s u.toNat) = true) :=
      not_or.mpr ⟨not_not.mpr (high_eq_zero_iff.mpr hu), by rw [hp]; decide⟩
    exact exec_pmap_joins hi hg hroom hr rfl op rfl hlegal hnew hold
  · exact exec_pmap_operand hi hg hroom hr rfl op
      (hbad.imp (fun hu => mt high_eq_zero_iff.mp hu.not_gt) fun hp => by rw [hp]; rfl)

theorem setRefsIssue : SetRefsIssue := by
  intro s t x g a b pin hi u v set cmd
  have hlegal : u.extractLsb' 16 48 = 0 → (look s.pg.sets set).isSome = true →
      ¬(u.extractLsb' 16 48 ≠ 0 ∨ (look s.pg.sets set).isNone = true) := fun h16 hmade =>
    not_or.mpr ⟨not_not.mpr h16, by simpa [Option.isSome_iff_ne_none] using hmade⟩
  refine ⟨fun hg hr new => conclude_off hi rfl hr hg, fun hg hr => conclude_off hi rfl hr hg, fun hg hr hroom hset => ⟨?_, ?_, ?_⟩,
    fun hg hr hroom => ⟨?_, ?_⟩⟩
  · intro h16 h50 h48 hfree h0 hloc hfit
    refine exec_psref_new hi hg hroom hr rfl rfl hset ?_ ?_ hfit
    · have hsome : (look s.pg.sets set).isSome ≠ true := by rw [hfree]; decide
      tauto
    · have hfar : isRemote v ≠ true := by rw [hloc]; decide
      tauto
  · exact fun h16 hmade hv hfit => exec_psref_own hi hg hroom hr rfl rfl hset (hlegal h16 hmade) hv hfit
  · exact fun i k h16 hmade _ hv hchild hk hfit =>
      exec_psref_child hi hg hroom hr rfl rfl hset (hlegal h16 hmade) hv hchild hk hfit
  · exact fun k hset hk hheld => exec_psdrop_joins hi hg hroom hr rfl hset hk hheld
  · exact fun hset hk => exec_psdrop_operand hi hg hroom hr rfl hset pin hk

/-- Settles O37: each page instruction past its checks, and what it raises where one fails. -/
theorem pageCommands : Obligations.PageCommands := ⟨kvldIssues, kvstAndPselIssue, pmapIssues, setRefsIssue⟩

end Sys2Proof.Machine
end

section
/-!
PROOFS. Sealing, receiving, resending and lending on a link (R313 to R318, R331): the statement of O34.
-/

namespace Sys2Proof.Machine

/-! ### Sealing (R313, R315, R316) -/

/-- The station found has its link up and lies on the die half asked for (R313). -/
theorem nextStation_up {f : Fab} {h : BitVec 1} {st : Nat} (hn : nextStation f h = some st) :
    f.up.getLsbD st = true ∧ st / 16 = h.toNat := by
  simpa using List.find?_some hn

/-- The header word of a flit, read back as the number it was written from (R315). -/
theorem leNat_flitHdr (dst src : Nat) (epoch : BitVec 4) (kind : BitVec 8) :
    leNat (flitHdr dst src epoch kind) = dst % 1024 + src % 1024 * 2 ^ 10 + epoch.toNat * 2 ^ 20 + kind.toNat * 2 ^ 24 := by
  rw [flitHdr, leNat_leBytes]
  omega

section
variable (s : State) (d : SendDir) (m : OutMsg) (cnt i : Nat)

theorem take_makeFlit : (makeFlit s d m cnt i).bytes.take 8 = flitHdr m.dst s.fab.ep d.epoch (Config.flitKind m.msg i) := by
  simp only [makeFlit, flitBytes, List.append_assoc]
  exact List.take_left' (length_leBytes _ _)

theorem take_drop_makeFlit : ((makeFlit s d m cnt i).bytes.drop 8).take 8 = leBytes (d.ctr + i) 8 := by
  simp only [makeFlit, flitBytes, List.append_assoc]
  rw [flitHdr, List.drop_left' (length_leBytes _ _), List.take_left' (length_leBytes _ _)]

/-- What the header of a sealed flit says (R315, R316). -/
theorem makeFlit_header (hc : d.ctr + i < 2 ^ 64) :
    let f := makeFlit s d m cnt i
    flitDst f = m.dst % 1024 ∧ flitSrc f = s.fab.ep % 1024 ∧ flitEpoch f = d.epoch ∧ flitCtr f = d.ctr + i := by
  have he : d.epoch.toNat < 2 ^ 4 := d.epoch.isLt
  simp only [flitDst, flitSrc, flitEpoch, flitCtr, take_makeFlit, take_drop_makeFlit, leNat_flitHdr, leNat_leBytes]
  refine ⟨by omega, by omega, BitVec.eq_of_toNat_eq ?_, Nat.mod_eq_of_lt hc⟩
  rw [BitVec.toNat_ofNat]
  omega

end

theorem flitsSealed : FlitsSealed := by
  refine ⟨?_, fun s d m cnt i hc => makeFlit_header s d m cnt i hc⟩
  intro s m st hm hd hs hn d n m' hctr
  refine ⟨?_, nextStation_up hn⟩
  change Host.Outcome.next (sealAt s s.ev.num) = _
  obtain rfl : (nextStation s.fab (halfOf m)).getD 0 = st := by rw [hn, Option.getD_some]
  have hlt : d.ctr + msgFlits m.msg < 2 ^ 64 - 2 ^ 32 := hctr
  have hall : min (msgFlits m.msg) (2 ^ 64 - 1 - d.ctr) = msgFlits m.msg := by omega
  have hask : decide (rekeyAt ≤ d.ctr + msgFlits m.msg) = false := decide_eq_false (Nat.not_le.mpr hctr)
  have hstop : decide (2 ^ 64 - 1 ≤ d.ctr + msgFlits m.msg) = false := decide_eq_false (by omega)
  have hdir : (look s.fab.sends m.dst).getD {} = d := rfl
  cases ha : msgAcked m.msg <;>
    simp only [sealAt, hm, hs, ha, hd, hdir, hall, hask, hstop, Bool.not_true, Bool.false_eq_true, if_false, if_true,
      Bool.false_and, Bool.or_false, List.append_nil] <;>
    rfl

/-! ### Receiving (R317, R331) -/

theorem exec_flitReceive {s : State} {f : Flit} (hb : s.ev.body = .flit f) : exec .flitReceive s = .next (receiveFlit s f) := by
  change execFlitReceive s = _
  simp only [execFlitReceive, hb]

theorem ctrNew_iff (l : List Nat) (n : Nat) : ctrNew l n = true ↔ n ∉ l ∧ (l.length < 4096 ∨ l.headD 0 < n) := by
  simp [ctrNew]

theorem flitsReceived : FlitsReceived := by
  intro s f hb d k
  rw [exec_flitReceive hb]
  constructor
  · intro key hk he ht hs hn hw r s1
    have hcur : (flitEpoch f == d.epoch && ((d.key.map fun k => flitTagOk f k && flitSays f k).getD false)) = true := by
      simp [he, hk, ht, hs]
    have hnew : ctrNew d.seen (flitCtr f) = true := (ctrNew_iff _ _).mpr ⟨hn, hw⟩
    unfold receiveFlit
    simp only [d] at hcur hnew
    simp only [hcur, hnew]
    rfl
  · intro hd hp hold
    have hcur : (flitEpoch f == d.epoch && ((d.key.map fun k => flitTagOk f k && flitSays f k).getD false) &&
        ctrNew d.seen (flitCtr f)) = false := by
      refine Bool.eq_false_iff.mpr fun h => ?_
      simp only [Bool.and_eq_true, beq_iff_eq, ctrNew_iff] at h
      obtain ⟨⟨he, hgood⟩, hnot, hroom⟩ := h
      cases hk : d.key with
      | none => simp [hk] at hgood
      | some key =>
        simp only [hk, Option.map_some, Option.getD_some, Bool.and_eq_true] at hgood
        rcases hold he key hk hgood.1 hgood.2 with hin | ⟨hfull, hlow⟩
        · exact hnot hin
        · exact hroom.elim hfull.not_gt hlow.not_gt
    have hprev : (d.prev == some (flitEpoch f)) = false := by simpa using hp
    unfold receiveFlit
    simp only [hd, Option.getD_some, Option.isSome_some, hcur, hprev, Bool.and_false, Bool.false_and, Bool.or_self,
      Bool.false_eq_true, if_false, if_true]

/-! ### Resending and giving up (R317, R318) -/

theorem exec_retransmitTimeout {s : State} {m : OutMsg} (hm : s.fab.sent[s.ev.num]? = some m) (hd : m.dst ≠ s.fab.ep)
    (ht : 65536 ≤ (s.acyc[(0 : Fin 2)] - m.at_).toNat) :
    let f := { s.fab with sent := s.fab.sent.eraseIdx s.ev.num }
    exec .retransmitTimeout s = .next (if 8 ≤ m.tries then ({ s with fab := f } : State).due .endpointUnreachable { num := m.dst }
      else { s with fab := { f with out := s.fab.out ++ [m] } }) := by
  change execRetransmitTimeout s = _
  have hdue : (m.dst == s.fab.ep || decide ((s.acyc[(0 : Fin 2)] - m.at_).toNat < 65536)) = false := by
    rw [beq_false_of_ne hd, decide_eq_false ht.not_gt]
    rfl
  simp only [execRetransmitTimeout, hm, hdue, Bool.false_eq_true, if_false]
  split <;> rfl

/-! ### Links (R313, R318) -/

/-- Steps made due change the agenda. -/
theorem foldl_due_effect (i : Instr) (ev : Nat → Ev) (l : List Nat) (s : State) :
    ∃ a, l.foldl (fun s p => s.due i (ev p)) s = { s with agenda := a } :=
  foldl_keeps (fun s' => ∃ a, s' = { s with agenda := a }) _ l s ⟨_, rfl⟩ fun z p hz => by
    obtain ⟨a, rfl⟩ := hz
    exact ⟨_, rfl⟩

theorem getLsbD_bit {n i : Nat} (hn : n < 32) (hi : i < 32) : (BitVec.ofNat 32 (2 ^ (n % 32))).getLsbD i = decide (i = n) := by
  rw [BitVec.getLsbD_ofNat, Nat.mod_eq_of_lt hn, Nat.testBit_two_pow]
  simp [hi, eq_comm]

/-- The link state of station n set to b (R313). -/
def setLink (up : W32) (n : Nat) (b : Bool) : W32 :=
  if b then up ||| BitVec.ofNat 32 (2 ^ (n % 32)) else up &&& ~~~BitVec.ofNat 32 (2 ^ (n % 32))

theorem getLsbD_setLink {up : W32} {n i : Nat} (b : Bool) (hn : n < 32) (hi : i < 32) :
    (setLink up n b).getLsbD i = if i = n then b else up.getLsbD i := by
  cases b with
  | false =>
    rw [setLink, if_neg Bool.false_ne_true, BitVec.getLsbD_and, BitVec.getLsbD_not, getLsbD_bit hn hi]
    split <;> simp [*]
  | true =>
    rw [setLink, if_pos rfl, BitVec.getLsbD_or, getLsbD_bit hn hi]
    split <;> simp [*]

/-- The state once the link of the step's station has changed (R313). -/
def relinked (s : State) : State := { s with fab := { s.fab with up := setLink s.fab.up s.ev.num s.ev.flag } }

/-- A change of a link changes what is up, and makes steps due where nothing is up any more. -/
theorem exec_linkStateChange (s : State) :
    ∃ a, exec .linkStateChange s = .next { relinked s with agenda := a } ∧ ((relinked s).fab.up ≠ 0 → a = s.agenda) := by
  have hx : exec .linkStateChange s = if (relinked s).fab.up = 0 then
      .next (((List.range (s.fab.domHi + 1)).filter fun p => p != s.fab.ep && !s.fab.unreach.contains p).foldl
        (fun s p => s.due .endpointUnreachable { num := p }) (relinked s)) else .next (relinked s) := rfl
  rw [hx]
  split
  next h =>
    obtain ⟨a, ha⟩ := foldl_due_effect .endpointUnreachable (fun p => { num := p })
      ((List.range (s.fab.domHi + 1)).filter fun p => p != s.fab.ep && !s.fab.unreach.contains p) (relinked s)
    exact ⟨a, congrArg _ ha, fun hne => absurd h hne⟩
  next => exact ⟨s.agenda, rfl, fun _ => rfl⟩

/-! ### Lending (R331) -/

/-- The place of endpoint e's channel into half h. -/
def lendKey (h : BitVec 1) (e : Nat) : Nat := h.toNat * 1024 + e
/-- The endpoints whose channels a window rates. -/
def lendEps (s : State) : List Nat := (List.range (s.fab.domHi + 1)).filter fun e => e != s.fab.ep
/-- The limit of a channel before the window ends. -/
def lendOld (s : State) (h : BitVec 1) (e : Nat) : Nat := (look s.fab.limit (lendKey h e)).getD 256
/-- What a channel's share is measured by: the bytes it received, and half its old share. -/
def lendWeight (s : State) (h : BitVec 1) (e : Nat) : Nat := (look s.fab.lendU (lendKey h e)).getD 0 + (lendOld s h e - 256) / 2
/-- The share of weight n where all weights are W, in whole flits. -/
def lendShare (W n : Nat) : Nat := if W = 0 then 0 else 3932160 * n / W / 256 * 256
/-- The limit a window leaves a channel. -/
def lendNew (s : State) (h : BitVec 1) (e : Nat) : Nat :=
  256 + lendShare ((lendEps s).map (lendWeight s h)).sum (lendWeight s h e)
/-- One channel's turn in a window that has begun in s and left st so far. -/
def lendStep (s : State) (h : BitVec 1) (st : State) (e : Nat) : State :=
  let st := { st with fab := { st.fab with
    lendU := del st.fab.lendU (lendKey h e), limit := put st.fab.limit (lendKey h e) (lendNew s h e) } }
  if lendNew s h e = lendOld s h e || !reaches s e then st
  else formMsg st { dst := e, msg := .lend h (lendNew s h e), task := 0, addr := 0 }

theorem lendWindow_eq_foldl (s : State) (h : BitVec 1) : lendWindow s h = (lendEps s).foldl (lendStep s h) s := by
  have hsum (w : Nat → Nat) (l : List Nat) : l.foldl (fun a e => a + w e) 0 = (l.map w).sum := by
    rw [List.sum_eq_foldl, List.foldl_map]
  unfold lendWindow
  simp only [hsum]
  rfl

section
variable (s : State) (h : BitVec 1)

section
variable (st : State) (e : Nat)

theorem lendStep_limit : (lendStep s h st e).fab.limit = put st.fab.limit (lendKey h e) (lendNew s h e) := by
  unfold lendStep
  dsimp only
  split <;> rfl

theorem lendStep_lendU : (lendStep s h st e).fab.lendU = del st.fab.lendU (lendKey h e) := by
  unfold lendStep
  dsimp only
  split <;> rfl

theorem mem_out_lendStep {o : OutMsg} (ho : o ∈ st.fab.out) : o ∈ (lendStep s h st e).fab.out := by
  unfold lendStep
  dsimp only
  split
  · exact ho
  · exact List.mem_append_left _ ho

/-- A sender whose limit changes is told (R331). -/
theorem lendStep_tells (hne : lendNew s h e ≠ lendOld s h e) (hr : reaches s e = true) :
    ∃ o ∈ (lendStep s h st e).fab.out, o.dst = e ∧ o.msg = .lend h (lendNew s h e) := by
  have hc : (decide (lendNew s h e = lendOld s h e) || !reaches s e) = false := by simp [hne, hr]
  simp only [lendStep, hc, Bool.false_eq_true, if_false]
  exact ⟨_, List.mem_append_right _ (List.mem_singleton_self _), rfl, rfl⟩

end

/-- A window leaves the channels it does not rate as they are. -/
theorem foldl_lendStep_other (l : List Nat) (st : State) {k : Nat} (hk : ∀ e ∈ l, k ≠ lendKey h e) :
    look (l.foldl (lendStep s h) st).fab.limit k = look st.fab.limit k ∧
      look (l.foldl (lendStep s h) st).fab.lendU k = look st.fab.lendU k := by
  induction l generalizing st with
  | nil => exact ⟨rfl, rfl⟩
  | cons a r ih =>
    obtain ⟨ha, hr⟩ := List.forall_mem_cons.mp hk
    obtain ⟨h1, h2⟩ := ih (lendStep s h st a) hr
    rw [List.foldl_cons, h1, h2, lendStep_limit, lendStep_lendU, look_put_ne _ _ ha, look_del, if_neg ha]
    exact ⟨rfl, rfl⟩

theorem lendKey_ne {e a : Nat} (hne : e ≠ a) : lendKey h e ≠ lendKey h a := fun he => hne (Nat.add_left_cancel he)

/-- A channel a window rates has its new limit, and its bytes count from zero again. -/
theorem foldl_lendStep_mem (l : List Nat) (st : State) {e : Nat} (he : e ∈ l) :
    look (l.foldl (lendStep s h) st).fab.limit (lendKey h e) = some (lendNew s h e) ∧
      look (l.foldl (lendStep s h) st).fab.lendU (lendKey h e) = none := by
  induction l generalizing st with
  | nil => exact absurd he List.not_mem_nil
  | cons a r ih =>
    by_cases hr : e ∈ r
    · exact ih _ hr
    · obtain rfl : e = a := (List.mem_cons.mp he).resolve_right hr
      obtain ⟨h1, h2⟩ := foldl_lendStep_other s h r (lendStep s h st e) fun b hb => lendKey_ne h (ne_of_mem_of_not_mem hb hr).symm
      rw [List.foldl_cons, h1, h2, lendStep_limit, lendStep_lendU]
      exact ⟨look_put_self .., look_del_self ..⟩

theorem foldl_lendStep_tells (l : List Nat) (st : State) {e : Nat} (he : e ∈ l) (hne : lendNew s h e ≠ lendOld s h e)
    (hr : reaches s e = true) :
    ∃ o ∈ (l.foldl (lendStep s h) st).fab.out, o.dst = e ∧ o.msg = .lend h (lendNew s h e) := by
  induction l generalizing st with
  | nil => exact absurd he List.not_mem_nil
  | cons a r ih =>
    rcases List.mem_cons.mp he with rfl | hm
    · obtain ⟨o, ho, hd⟩ := lendStep_tells s h st e hne hr
      exact ⟨o, foldl_keeps (fun z : State => o ∈ z.fab.out) _ r _ ho fun z b hz => mem_out_lendStep s h z b hz, hd⟩
    · exact ih _ hm

end

/-- What is shared out in proportion to the weights is no more than there is. -/
theorem sum_share_le (c : Nat) (w : Nat → Nat) (l : List Nat) (hW : 0 < (l.map w).sum) :
    (l.map fun e => c * w e / (l.map w).sum).sum ≤ c := by
  refine Nat.le_of_mul_le_mul_right ?_ hW
  rw [← List.sum_map_mul_right, ← List.sum_map_mul_left]
  exact List.sum_le_sum fun e _ => Nat.div_mul_le_self ..

theorem sum_lendShare_le (w : Nat → Nat) (l : List Nat) : (l.map fun e => lendShare (l.map w).sum (w e)).sum ≤ 3932160 := by
  by_cases hW : (l.map w).sum = 0
  · simp [lendShare, hW]
  · simp only [lendShare, if_neg hW]
    exact (List.sum_le_sum fun e _ => Nat.div_mul_le_self ..).trans (sum_share_le _ w l (Nat.pos_of_ne_zero hW))

theorem sum_lendNew (s : State) (h : BitVec 1) : ((lendEps s).map (lendNew s h)).sum =
    256 * (lendEps s).length + ((lendEps s).map fun e => lendShare ((lendEps s).map (lendWeight s h)).sum (lendWeight s h e)).sum := by
  change ((lendEps s).map fun e => 256 + _).sum = _
  rw [List.sum_map_add, List.map_const', List.sum_replicate, smul_eq_mul, mul_comm]

theorem lendShare_mod (W n : Nat) : lendShare W n % 256 = 0 := by
  unfold lendShare
  split
  · rfl
  · exact Nat.mul_mod_left ..

/-- A half's channels lie in its own 1,024 places. -/
theorem lendKey_div {h : BitVec 1} {e : Nat} (he : e < 1024) : lendKey h e / 1024 = h.toNat := by
  unfold lendKey
  omega

theorem lendLimits : LendLimits := by
  intro s h s' key eps old lim w W
  have hs : s' = (lendEps s).foldl (lendStep s h) s := lendWindow_eq_foldl s h
  have hmem : ∀ e ∈ eps, look s'.fab.limit (key e) = some (lendNew s h e) ∧ look s'.fab.lendU (key e) = none := fun e he => by
    rw [hs]
    exact foldl_lendStep_mem s h _ s he
  have hlim : ∀ e ∈ eps, lim e = lendNew s h e := fun e he => by
    simp only [lim, (hmem e he).1, Option.getD_some]
  have hsum : (eps.map lim).sum = ((lendEps s).map (lendNew s h)).sum := congrArg List.sum (List.map_congr_left hlim)
  have hshare := sum_lendShare_le (lendWeight s h) (lendEps s)
  refine ⟨hlim, fun e he => ⟨?_, ?_, (hmem e he).2⟩, ?_, ?_, fun e he hne hr => ?_, fun k hk hdom => ?_⟩
  · rw [hlim e he]
    exact Nat.le_add_right ..
  · rw [hlim e he, lendNew, Nat.add_mod, lendShare_mod]
  · rw [hsum, sum_lendNew]
    exact Nat.le_add_right ..
  · rw [hsum, sum_lendNew]
    exact Nat.add_le_add_left hshare _
  · rw [hlim e he] at hne ⊢
    rw [hs]
    exact foldl_lendStep_tells s h _ s he hne hr
  · rw [hs]
    refine foldl_lendStep_other s h _ s fun e he hke => hk ?_
    have hle : e ≤ s.fab.domHi := Nat.lt_succ_iff.mp (List.mem_range.mp (List.mem_filter.mp he).1)
    rw [hke]
    exact lendKey_div (by omega)

/-! ### The statement -/

/-- Settles O34: each step by its own case, the window by the fold over its channels. -/
theorem fabricFlits : Obligations.FabricFlits := by
  refine ⟨flitsSealed, flitsReceived, ?_, fun s => ?_, fun s hn => ?_, fun s => rfl, fun s h => ?_, lendLimits, fun s => rfl⟩
  · intro s m hm hd ht f
    rw [exec_retransmitTimeout hm hd ht]
    exact ⟨fun h8 => by rw [if_neg h8.not_ge], fun h8 => by rw [if_pos h8]⟩
  · change execEndpointUnreachable s = _
    unfold execEndpointUnreachable
    dsimp only
    split <;> rfl
  · obtain ⟨a, he, hagenda⟩ := exec_linkStateChange s
    exact ⟨_, he, fun i hi => getLsbD_setLink _ hn hi, rfl, rfl, hagenda⟩
  · change execLendWindow s = _
    rw [execLendWindow]
    exact if_pos h

end Sys2Proof.Machine
end

section
/-!
PROOFS. The Weir's commits, fabric waves and collectives (R320, R325, R328, R329, R337, R339): the statement of O36.
-/

namespace Sys2Proof.Machine

/-! ### What a commit leaves alone (R119, R120, R321) -/

/-- Dropping clean copies changes the cores. -/
theorem dropFar_effect (s : State) (c off n : Nat) : ∃ k, dropFar s c off n = { s with cores := k } := by
  refine foldl_keeps (fun z : State => ∃ k, z = { s with cores := k }) _ _ s ⟨_, rfl⟩ fun z p hz => ?_
  obtain ⟨k, rfl⟩ := hz
  cases expPa { s with cores := k } p.1 <;> exact ⟨_, rfl⟩

/-- A message of this package's own changes the cores. -/
theorem dropOwn_effect (s : State) (m : StreamMsg) : ∃ k, dropOwn s m = { s with cores := k } := by
  unfold dropOwn
  split
  · cases look s.fab.strms m.strm with
    | none => exact ⟨_, rfl⟩
    | some r => exact dropFar_effect ..
  · exact ⟨_, rfl⟩

/-- What a home logs of a refusal changes its logs. -/
theorem logBad_effect (s : State) (src e off : Nat) : ∃ v r n, logBad s src e off = { s with viol := v, ras := r, rascnt := n } := by
  unfold logBad
  cases expPa s off with
  | none => exact ⟨_, _, _, rfl⟩
  | some pa =>
    dsimp only
    split_ifs <;> exact ⟨_, _, _, rfl⟩

/-- A write commits in memory, or is logged. -/
theorem commitWrite_effect (s : State) (src : Nat) (bs : List (Nat × Byte)) :
    ∃ m p v r n, (commitWrite s src bs).st = { s with mem := m, poison := p, viol := v, ras := r, rascnt := n } := by
  unfold commitWrite
  cases firstBad (badParts s .wr false (lineHeads bs)) with
  | none =>
    obtain ⟨p, h⟩ := memWrite_effect s (bs.filterMap fun b => (xlateExp s b.1 .wr).toOption.map fun pa => (pa, b.2))
    exact ⟨_, p, _, _, _, h⟩
  | some q =>
    obtain ⟨v, r, n, h⟩ := logBad_effect s src q.1 q.2
    exact ⟨_, _, v, r, n, h⟩

/-- A commit leaves the fabric engine and the commit buffers as they are, up to its acknowledgement. -/
theorem dropOwn_commitWrite (s : State) (m : StreamMsg) (bs : List (Nat × Byte)) :
    (dropOwn (commitWrite s m.src bs).st m).fab = s.fab ∧ (dropOwn (commitWrite s m.src bs).st m).cb = s.cb := by
  obtain ⟨k, hk⟩ := dropOwn_effect (commitWrite s m.src bs).st m
  obtain ⟨_, _, _, _, _, hc⟩ := commitWrite_effect s m.src bs
  rw [hk, hc]
  exact ⟨rfl, rfl⟩

/-! ### The entry of a stream (R324, R325) -/

/-- An entry with what was refused of number n (R324). -/
def Weir.noted (w : Weir) (n err off : Nat) : Weir :=
  { w with errs := if err = 0 then w.errs else
      (n, err, off) :: w.errs.filter fun e => decide ((n + 2 ^ 32 - e.1) % 2 ^ 32 < 4096) }

/-- An entry one number further, with what was refused of number n, its last (R325). -/
def Weir.passed (w : Weir) (n err off : Nat) : Weir := { w.noted n err off with x := (w.x + 1) % 2 ^ 32 }

section
variable {s : State} {m : StreamMsg} {w : Weir} (err off : Nat)

theorem look_noteErr (hw : look s.fab.weir (weirKey m.src m.strm) = some w) :
    look (noteErr s m err off).fab.weir (weirKey m.src m.strm) = some (w.noted m.seq err off) := by
  simp only [noteErr, hw, Weir.noted]
  split
  · exact hw
  · exact look_put_self ..

theorem noteErr_cb (s : State) (m : StreamMsg) : (noteErr s m err off).cb = s.cb := by
  unfold noteErr
  dsimp only
  split
  · split <;> rfl
  · rfl

end

theorem look_setWeir (s : State) (key : Nat) (w : Weir) : look (setWeir s key w).fab.weir key = some w := look_put_self ..

/-- An entry whose turn no message and no void has reached stays (R325). -/
theorem weirRun_stays {s : State} {key : Nat} (n : Nat)
    (h : ∀ w, look s.fab.weir key = some w → w.x ∉ w.voids ∧ ∀ m ∈ w.held, m.seq ≠ w.x) : weirRun key n s = s := by
  cases n with
  | zero => rfl
  | succ n =>
    unfold weirRun
    cases hw : look s.fab.weir key with
    | none => rfl
    | some w =>
      obtain ⟨hv, hh⟩ := h w hw
      have hnone : (w.held.find? fun m => m.seq == w.x) = none := by simpa using hh
      simp [hv, hnone]

theorem weirGo_stays {s : State} {key : Nat}
    (h : ∀ w, look s.fab.weir key = some w → w.x ∉ w.voids ∧ ∀ m ∈ w.held, m.seq ≠ w.x) : weirGo s key = s := by
  unfold weirGo
  cases look s.fab.weir key with
  | none => rfl
  | some w => exact weirRun_stays _ h

/-- Neither a message nor a void waits at an entry. -/
def WeirIdle (s : State) (key : Nat) : Prop := ∀ w, look s.fab.weir key = some w → w.voids = [] ∧ w.held = []

section
variable {s : State} {key : Nat} (h : WeirIdle s key)
include h

theorem weirRun_idle (n : Nat) : weirRun key n s = s := weirRun_stays n fun w hw => by simp [h w hw]

theorem weirGo_idle : weirGo s key = s := weirGo_stays fun w hw => by simp [h w hw]

theorem tellHeld_idle (m : StreamMsg) : tellHeld s key m = s := by
  unfold tellHeld
  cases hw : look s.fab.weir key with
  | none => rfl
  | some w => simp [h w hw]

end

theorem weirIdle_passed (s : State) {key : Nat} {w : Weir} (n err off : Nat) (hv : w.voids = []) (hh : w.held = []) :
    WeirIdle (setWeir s key (w.passed n err off)) key := fun v hw => by
  obtain rfl := Option.some.inj ((look_setWeir ..).symm.trans hw)
  exact ⟨hv, hh⟩

/-- The message whose turn it is commits (R325). -/
theorem weirRun_commits {s : State} {key : Nat} {w : Weir} {m : StreamMsg} (n : Nat) (hw : look s.fab.weir key = some w)
    (hv : w.voids = []) (hm : (w.held.find? fun m => m.seq == w.x) = some m) (hr : w.refused = []) (ht : m.tick = none) :
    weirRun key (n + 1) s = weirRun key n (commitHeld s key w m) := by
  rw [weirRun]
  simp [hw, hv, hm, hr, ht]

theorem groupsHere_nil {s : State} (h : s.cb = []) : groupsHere s = [] := by simp [groupsHere, h]

/-- What follows once an arriving message has met its entry: what has reached its turn commits, the sender of a message that stays
is told, and closed waves go on. -/
def weirAfter (s : State) (key : Nat) (m : StreamMsg) : State :=
  let s := tellHeld (weirGo s key) key m
  (groupsHere s).foldl waveApply s

theorem weirAfter_eq {s s1 s2 : State} {key : Nat} {m : StreamMsg} (hgo : weirGo s key = s1) (htell : tellHeld s1 key m = s2)
    (hcb : s2.cb = []) : weirAfter s key m = s2 := by
  rw [weirAfter, hgo, htell, groupsHere_nil hcb]
  rfl

/-- An acknowledgement of number n of a message's stream. -/
def ackOf (m : StreamMsg) (err off : Nat) : OutMsg := { dst := m.src, msg := .ack m.strm m.seq err off, task := 0, addr := 0 }
/-- What tells a sender that its message is held. -/
def heldOf (m : StreamMsg) : OutMsg := { dst := m.src, msg := .held m.strm m.seq, task := 0, addr := 0 }

/-- Everything a write's commit does but moving its entry on. -/
def commitAck (s : State) (m : StreamMsg) (bs : List (Nat × Byte)) : State :=
  let c := commitWrite s m.src bs
  formMsg (noteErr (dropOwn c.st m) m c.err c.off) (ackOf m c.err c.off)

theorem replyAgain_some {s : State} {m : StreamMsg} {errs : List (Nat × Nat × Nat)} {n : Nat} {e : Nat × Nat × Nat}
    (h : errs.find? (fun e => e.1 == n) = some e) : replyAgain s m errs n = reply s m.src m.strm n e.2.1 e.2.2 none none := by
  simp only [replyAgain, h]

theorem replyAgain_none {s : State} {m : StreamMsg} {errs : List (Nat × Nat × Nat)} {n : Nat}
    (h : errs.find? (fun e => e.1 == n) = none) : replyAgain s m errs n = reply s m.src m.strm n 0 0 none none := by
  simp only [replyAgain, h]

/-- Acknowledging again forms one message and changes nothing else. -/
theorem replyAgain_forms (s : State) (m : StreamMsg) (errs : List (Nat × Nat × Nat)) (n : Nat) :
    ∃ o, replyAgain s m errs n = formMsg s o := by
  cases h : errs.find? fun e => e.1 == n with
  | none => exact ⟨_, replyAgain_none h⟩
  | some e => exact ⟨_, replyAgain_some h⟩

/-- A message without a ticket joins an entry that holds none. -/
theorem weirHold_plain {m : StreamMsg} {w : Weir} (s : State) (key : Nat) (hh : w.held = []) (ht : m.tick = none) :
    weirHold s key w m = setWeir s key { w with held := [m] } := by
  simp [weirHold, hh, ht]

theorem commitAck_cb (s : State) (m : StreamMsg) (bs : List (Nat × Byte)) : (commitAck s m bs).cb = s.cb := by
  change (noteErr _ _ _ _).cb = _
  rw [noteErr_cb, (dropOwn_commitWrite s m bs).2]

section
variable {s : State} {m : StreamMsg} {bs : List (Nat × Byte)} (hb : m.body = .write bs)
include hb

theorem commitMsg_write : commitMsg s m = commitAck s m bs := by
  simp only [commitMsg, commitBody, hb, bodyRet, reply, commitAck, ackOf]

theorem commitHeld_write {w : Weir} (hw : look s.fab.weir (weirKey m.src m.strm) = some w) (w' : Weir) :
    commitHeld s (weirKey m.src m.strm) w' m = setWeir (commitAck s m bs) (weirKey m.src m.strm)
      (w.noted m.seq (commitWrite s m.src bs).err (commitWrite s m.src bs).off).next := by
  have hl : look (commitAck s m bs).fab.weir (weirKey m.src m.strm) =
      some (w.noted m.seq (commitWrite s m.src bs).err (commitWrite s m.src bs).off) :=
    look_noteErr _ _ (by rw [(dropOwn_commitWrite s m bs).1]; exact hw)
  have hc : isClose m = false := by simp only [isClose, hb]
  simp only [commitHeld, commitMsg_write hb, hc, Bool.false_eq_true, if_false, passWeir, hl]

/-- An entry that holds nothing but the write whose turn it is commits that, and no more. -/
theorem weirGo_turn {w : Weir} (hl : look s.fab.weir (weirKey m.src m.strm) = some { w with held := [m] }) (hv : w.voids = [])
    (hh : w.held = []) (hr : w.refused = []) (ht : m.tick = none) (he : m.seq = w.x) :
    weirGo s (weirKey m.src m.strm) = setWeir (commitAck s m bs) (weirKey m.src m.strm)
      (w.passed m.seq (commitWrite s m.src bs).err (commitWrite s m.src bs).off) := by
  have hnext (err off : Nat) : (({ w with held := [m] } : Weir).noted m.seq err off).next = w.passed m.seq err off := by
    simp [Weir.next, Weir.noted, Weir.passed, hh, hv, hr, he]
  simp only [weirGo, hl, hv, List.length_singleton, List.length_nil]
  rw [weirRun_commits 1 hl hv (by simp [he]) hr ht, commitHeld_write hb hl, hnext]
  exact weirRun_idle (weirIdle_passed _ _ _ _ hv hh) 1

/-! ### Arrival of a write (R325) -/

variable {id : Nat} {w : Weir} (hroom : s.fab.weir.length < 65536)
  (hgone : ∀ g, look s.fab.gone (weirKey m.src m.strm) = some g → g.1 < id)
  (hw : (look s.fab.weir (weirKey m.src m.strm)).getD {} = w) (hv : w.voids = []) (hh : w.held = [])
include hroom hgone hw hv

/-- A write that reports no hole joins its entry, or is acknowledged again; then what has reached its turn commits. -/
theorem weirArrive_write : weirArrive s id m =
    weirAfter (if 4096 ≤ (m.seq + 2 ^ 32 - w.x) % 2 ^ 32 then replyAgain s m w.errs m.seq
      else weirHold s (weirKey m.src m.strm) w m) (weirKey m.src m.strm) m := by
  have hnew : ((look s.fab.gone (weirKey m.src m.strm)).filter fun g => decide (id ≤ g.1)) = none := by
    rw [Option.filter_eq_none_iff]
    exact fun g hg => by simpa using hgone g hg
  have hfit : ¬ 65536 ≤ s.fab.weir.length := hroom.not_ge
  have hsame : ({ w with voids := [] } : Weir) = w := by rw [← hv]
  simp [weirArrive, hnew, hfit, hw, hb, holesOf, isClose, hv, hsame, weirAfter]

include hh

/-- A message held that has come early stays (R325). -/
theorem weirArrive_early (ht : m.tick = none) (hcb : s.cb = []) (hne : m.seq ≠ w.x) (hd : (m.seq + 2 ^ 32 - w.x) % 2 ^ 32 < 4096) :
    weirArrive s id m = formMsg (setWeir s (weirKey m.src m.strm) { w with held := [m] }) (heldOf m) := by
  have hstay : weirGo (setWeir s (weirKey m.src m.strm) { w with held := [m] }) (weirKey m.src m.strm) =
      setWeir s (weirKey m.src m.strm) { w with held := [m] } := by
    refine weirGo_stays fun v hl => ?_
    obtain rfl : { w with held := [m] } = v := Option.some.inj ((look_setWeir ..).symm.trans hl)
    simp [hv, hne]
  have htell : tellHeld (setWeir s (weirKey m.src m.strm) { w with held := [m] }) (weirKey m.src m.strm) m =
      formMsg (setWeir s (weirKey m.src m.strm) { w with held := [m] }) (heldOf m) := by
    simp [tellHeld, look_setWeir, heldOf]
  rw [weirArrive_write hb hroom hgone hw hv, if_neg hd.not_ge, weirHold_plain s _ hh ht]
  exact weirAfter_eq hstay htell hcb

/-- A message whose turn it is commits and leaves its entry one number further (R325). -/
theorem weirArrive_turn (ht : m.tick = none) (hcb : s.cb = []) (hr : w.refused = []) (he : m.seq = w.x) :
    let s1 := setWeir s (weirKey m.src m.strm) { w with held := [m] }
    weirArrive s id m = setWeir (commitAck s1 m bs) (weirKey m.src m.strm)
      (w.passed m.seq (commitWrite s1 m.src bs).err (commitWrite s1 m.src bs).off) := by
  have hold : ¬ 4096 ≤ (m.seq + 2 ^ 32 - w.x) % 2 ^ 32 := by omega
  rw [weirArrive_write hb hroom hgone hw hv, if_neg hold, weirHold_plain s _ hh ht]
  exact weirAfter_eq (weirGo_turn hb (look_setWeir ..) hv hh hr ht he) (tellHeld_idle (weirIdle_passed _ _ _ _ hv hh) m)
    ((commitAck_cb ..).trans hcb)

/-- A message that comes again is acknowledged again (R325). -/
theorem weirArrive_again (hcb : s.cb = []) (hd : 4096 ≤ (m.seq + 2 ^ 32 - w.x) % 2 ^ 32) :
    weirArrive s id m = replyAgain s m w.errs m.seq := by
  obtain ⟨o, ho⟩ := replyAgain_forms s m w.errs m.seq
  have hidle : WeirIdle (formMsg s o) (weirKey m.src m.strm) := fun v hl => by
    have hvw : v = w := by rw [← hw, show look s.fab.weir _ = some v from hl, Option.getD_some]
    exact hvw ▸ ⟨hv, hh⟩
  rw [weirArrive_write hb hroom hgone hw hv, if_pos hd, ho]
  exact weirAfter_eq (weirGo_idle hidle) (tellHeld_idle hidle m) hcb

end

theorem exec_weirArrival {s : State} {m : StreamMsg} (hb : s.ev.body = .strm m) :
    exec .weirArrival s = .next (weirArrive s s.ev.num m) := by
  change execWeirArrival s = _
  simp only [execWeirArrival, hb]

/-! ### Waves (R328, R329) -/

theorem waveApply_nil {s : State} (gid : Nat) (h : s.cb = []) : waveApply s gid = s := by
  simp [waveApply, waveRun, h, sortBy]

theorem dropGroup_none {s : State} {gid : Nat} (h : look s.fab.ranges gid = none) : dropGroup s gid = s := by
  simp only [dropGroup, h]

theorem exec_waveClose (s : State) : exec .waveClose s = .next (dropGroup (waveApply s s.ev.num) s.ev.num) := rfl

theorem exec_wavedone_due {s : State} {l : Launch} {w : Nat} (hl : look s.launches s.ev.num = some l) (hd : doneDue s l = some w) :
    exec .wavedone s = .next (sendDone s l w) := by
  change execWavedone s = _
  simp only [execWavedone, hl, hd]

/-- Messages that are formed one after another change neither contexts nor memory. -/
theorem foldl_formMsg_frame {α : Type} (f : α → OutMsg) (l : List α) (s : State) :
    (l.foldl (fun s p => formMsg s (f p)) s).ctxs = s.ctxs ∧ (l.foldl (fun s p => formMsg s (f p)) s).mem = s.mem :=
  foldl_keeps (fun z : State => z.ctxs = s.ctxs ∧ z.mem = s.mem) _ l s ⟨rfl, rfl⟩ fun _ _ hz => hz

/-- What is told of a group's waves is noted (R328). -/
theorem sendDone_notes (s : State) (l : Launch) (w : Nat) :
    ((l.ftgcfg.extractLsb' 0 16).toNat, w) ∈ (sendDone s l w).fab.doneSent ∧ (sendDone s l w).ctxs = s.ctxs ∧
      (sendDone s l w).mem = s.mem :=
  ⟨List.mem_cons_self, foldl_formMsg_frame ..⟩

/-! ### Collective messages (R337) -/

theorem exec_collectiveArrival {s : State} {m : CollMsg} (hb : s.ev.body = .coll m) :
    exec .collectiveArrival s = .next (collArrive s m) := by
  change execCollectiveArrival s = _
  simp only [execCollectiveArrival, hb]

/-- The outstanding collective here that a message is of. -/
def collFor (s : State) (m : CollMsg) : Option Coll := s.fab.colls.find? fun c => c.key.cid == m.cid && c.inst == m.inst && !c.fin

section
variable {s : State} {m : CollMsg}

theorem collArrive_joins {c : Coll} (h : collFor s m = some c) :
    collArrive s m = (collTake s c m.src m.body).due .collectiveComplete { num := m.cid } := by
  unfold collFor at h
  simp only [collArrive, h]

variable (h : collFor s m = none)
include h

theorem collArrive_waits (hn : (look s.fab.ncoll m.cid).getD 0 ≤ m.inst) : collArrive s m =
    if s.fab.early.contains m then s else { s with fab := { s.fab with early := s.fab.early ++ [m] } } := by
  unfold collFor at h
  simp only [collArrive, h, if_neg hn.not_gt]

theorem collArrive_late (hn : m.inst < (look s.fab.ncoll m.cid).getD 0) : collArrive s m = collLate s m := by
  unfold collFor at h
  simp only [collArrive, h, if_pos hn]

omit h

/-- A collective that has ended takes nothing more of members whose fields agree with its own (R337). -/
theorem collLate_agrees (hp : ∀ k d, m.body = .contrib k d → ∀ p ∈ s.fab.past, p.1.cid = m.cid → p.2 = m.inst → p.1 = k) :
    collLate s m = s := by
  unfold collLate
  cases hb : m.body with
  | contrib k d =>
    have hnone : (s.fab.past.any fun p => p.1.cid == m.cid && p.2 == m.inst && p.1 != k) = false := by
      simpa [List.any_eq_false] using hp k d hb
    simp [hnone]
  | done n => rfl
  | abort => rfl
  | fault => rfl
  | unreach => rfl
  | mismatch => rfl

/-- One whose fields differ is told of the mismatch (R337, log entry 90). -/
theorem collLate_differs {k : CollKey} {d : List Byte} {p : CollKey × Nat} (hb : m.body = .contrib k d) (hp : p ∈ s.fab.past)
    (hc : p.1.cid = m.cid) (hi : p.2 = m.inst) (hk : p.1 ≠ k) (hr : reaches s m.src = true) :
    let told : CollMsg := { src := s.fab.ep, cid := m.cid, inst := m.inst, body := .mismatch }
    collLate s m = formMsg s { dst := m.src, msg := .coll told, task := 0, addr := 0 } := by
  have hany : (s.fab.past.any fun p => p.1.cid == m.cid && p.2 == m.inst && p.1 != k) = true :=
    List.any_eq_true.mpr ⟨p, hp, by simp [hc, hi, hk]⟩
  simp only [collLate, hb, hr, hany, Bool.and_self, if_true]

end

/-! ### Completion of a collective (R339) -/

theorem exec_collectiveComplete (s : State) : exec .collectiveComplete s = .next (collAdvance s s.ev.num) := rfl

section
variable {s : State} {cid : Nat} {c : Coll} (hc : collOf s cid = some c)
include hc

theorem collAdvance_ended (hf : c.fin = true) : collAdvance s cid = s := by
  simp [collAdvance, hc, hf]

variable (hs : c.started = true) (hstop : ((c.cmd.bind fun p => cmdOf s c.core p.1 p.2).map (·.stop)).getD false = false)
  (hf : c.fin = false) (hclash : (c.got.any fun p => p.2.1 != c.key) = false)
include hs hstop hf hclash

/-- With every contribution in reach a collective performs its writes (R337, R339). -/
theorem collAdvance_performs (hw : c.wrote = false) (hb : c.bits.getLsbD 9 = false)
    (hk : c.cut s = false ∨ c.key.kind = .a2a ∨ c.key.kind = .disp ∨ c.key.kind = .comb)
    (hgot : ∀ e ∈ c.members.filter (fun e => reaches s e), (look c.got e).isSome = true) :
    collAdvance s cid = collPerform s c := by
  have hall : ((c.members.filter fun e => reaches s e).all fun e => (look c.got e).isSome) = true := List.all_eq_true.mpr hgot
  rcases hk with hcut | hk | hk | hk
  · simp only [collAdvance, hc, hf, hs, hstop, hclash, hw, hcut, hall, hb, Bool.not_true, Bool.not_false, Bool.or_self,
      Bool.and_false, Bool.false_eq_true, if_false, if_true]
  all_goals
    simp only [collAdvance, hc, hf, hs, hstop, hclash, hw, hk, hall, hb, Bool.not_true, Bool.not_false, Bool.or_self,
      Bool.and_false, Bool.false_and, Bool.false_eq_true, if_false, if_true]

/-- With every report of the members in reach a collective ends (R339). -/
theorem collAdvance_ends (hw : c.wrote = true) (hk : c.key.kind ≠ .samp)
    (hdone : ∀ e ∈ c.members.filter (fun e => reaches s e), e = s.fab.ep ∨ (look c.dones e).isSome = true)
    (hsent : collUnsent s c = false) : collAdvance s cid = collRowEnd s c := by
  have hall : ((c.members.filter fun e => reaches s e).all fun e => e == s.fab.ep || (look c.dones e).isSome) = true :=
    List.all_eq_true.mpr fun e he => by simpa using hdone e he
  simp only [collAdvance, hc, hf, hs, hstop, hclash, hw, hk, hall, hsent, Bool.not_true, Bool.not_false, Bool.or_self,
    Bool.and_true, Bool.false_and, Bool.false_eq_true, false_and, if_false, if_true]

end

/-- Settles O36: each arrival and each completion by the case of the model's receiver that its hypotheses name. -/
theorem fabricCommits : Obligations.FabricCommits := by
  refine ⟨?_, fun s l w hl hd => ⟨_, exec_wavedone_due hl hd, sendDone_notes s l w⟩, exec_waveClose,
    fun s hcb hr => ?_, ?_, ?_⟩
  · intro s m bs hbody ht hb key w ack hroom hgone hh hv hr hx hseq hcb
    rw [exec_weirArrival hbody]
    refine ⟨?_, fun hne hd => ?_, fun hd => ?_⟩
    · intro he c kept
      rw [weirArrive_turn hb hroom hgone rfl hv hh ht hcb hr he]
      rfl
    · rw [weirArrive_early hb hroom hgone rfl hv hh ht hcb hne hd]
      rfl
    · rw [weirArrive_again hb hroom hgone rfl hv hh hcb hd]
      refine ⟨fun hnone => ?_, fun e hfind => ?_⟩
      · rw [replyAgain_none (by simpa using hnone)]
        rfl
      · rw [replyAgain_some hfind]
        rfl
  · rw [exec_waveClose, waveApply_nil _ hcb, dropGroup_none hr]
  · intro s m hb at_ n
    rw [exec_collectiveArrival hb]
    refine ⟨fun h hn => ?_, fun h hn hp => ?_, ?_, fun c h => ?_⟩
    · rw [collArrive_waits h hn]
    · rw [collArrive_late h hn, collLate_agrees hp]
    · intro k d p h hn hbody hp hc hi hk hr told
      rw [collArrive_late h hn, collLate_differs hbody hp hc hi hk hr]
    · rw [collArrive_joins h]
  · intro s c hc hs hstop live
    rw [exec_collectiveComplete]
    refine ⟨fun hf => by rw [collAdvance_ended hc hf], fun hf hclash => ⟨fun hw hb hk hgot => ?_, fun hw hk hdone hsent => ?_⟩⟩
    · rw [collAdvance_performs hc hs hstop hf hclash hw hb hk hgot]
    · rw [collAdvance_ends hc hs hstop hf hclash hw hk hdone hsent]

end Sys2Proof.Machine
end

section
/-!
PROOFS. Page entries, fills, evictions and page sets (R354, R356, R363, R369, R370, R372): the statement of O38.
-/

namespace Sys2Proof.Machine

/-! ### Entries, frames and slots in use -/

theorem pgEnt_of_map_eq {s s' : State} (h : s'.pg.map = s.pg.map) (j : Nat) : pgEnt s' j = pgEnt s j := by
  unfold pgEnt
  rw [h]

@[simp] theorem pgEnt_setEnt_self (s : State) (h : Nat) (e : PgEntry) : pgEnt (setEnt s h e) h = e := by simp [pgEnt_setEnt]

theorem not_mem_rmN (l : List Nat) (k : Nat) : k ∉ rmN l k := by simp [rmN]

@[simp] theorem setUsedF_pgMap (s : State) (d : Nat) (l : List Nat) : (setUsedF s d l).pg.map = s.pg.map := by
  unfold setUsedF
  dsimp only
  split <;> rfl

theorem usedF_setUsedF (s : State) (d : Nat) (l : List Nat) : usedF (setUsedF s d l) d = l := by
  unfold usedF setUsedF
  split <;> rfl

/-- A frame that is freed is not in use, whatever entry is written with it. -/
theorem freeFrame_frees (s : State) (h f : Nat) (e : PgEntry) : f ∉ usedF (setEnt (freeFrame s h f) h e) (pgDie h) := by
  have hu : usedF (setEnt (freeFrame s h f) h e) (pgDie h) = rmN (usedF s (pgDie h)) f := usedF_setUsedF ..
  rw [hu]
  exact not_mem_rmN _ _

theorem takeFrame_pgMap {s s1 : State} {h f : Nat} (ht : takeFrame s h = some (s1, f)) : s1.pg.map = s.pg.map := by
  obtain ⟨g, -, hg⟩ := Option.map_eq_some_iff.mp ht
  cases hg
  exact setUsedF_pgMap ..

@[simp] theorem memWrite_pg (s : State) (bs : List (Nat × Byte)) : (memWrite s bs).pg = s.pg := by
  obtain ⟨p, h⟩ := memWrite_effect s bs
  rw [h]

/-- Nothing is reclaimed where the references have not gone. -/
theorem reclaimDead_alive {s : State} {h : Nat} (hd : (pgEnt s h).dead = false) : reclaimDead s h = s := by simp [reclaimDead, hd]

/-- Writing an entry that is not marked ends there. -/
theorem reclaimDead_setEnt (s : State) (h : Nat) {e : PgEntry} (hd : e.dead = false) : reclaimDead (setEnt s h e) h = setEnt s h e :=
  reclaimDead_alive (by simpa using hd)

/-! ### PMAP (R369) -/

/-- MAPNEW gives an ABSENT or REVOKED page a frame (R356). -/
theorem mapNew_maps {s s1 : State} {h f : Nat} (hdc pos0 : Nat) (hst : (pgEnt s h).st = .absent ∨ (pgEnt s h).st = .revoked)
    (ht : takeFrame s h = some (s1, f)) : ∃ s', mapNew s h hdc pos0 = some s' ∧
      pgEnt s' h = { pgEnt s h with st := .resident, hdc := hdc, frame := some f, slot := 0, hslot := 0 } ∧
      ∀ j, j ≠ h → pgEnt s' j = pgEnt s j := by
  have hfree : ((pgEnt s h).st != .absent && (pgEnt s h).st != .revoked) = false := by
    rcases hst with hst | hst <;> rw [hst] <;> rfl
  have hkeeps : ∀ p q j, pgEnt (memWrite (memWrite s1 p) q) j = pgEnt s j := fun p q =>
    pgEnt_of_map_eq (by rw [memWrite_pg, memWrite_pg, takeFrame_pgMap ht])
  simp only [mapNew, hfree, Bool.false_eq_true, if_false, ht]
  refine ⟨_, rfl, pgEnt_setEnt_self .., fun j hj => ?_⟩
  rw [pgEnt_setEnt, if_neg hj, hkeeps]

theorem mapNew_none {s : State} {h : Nat} (hdc pos0 : Nat) (ha : (pgEnt s h).st ≠ .absent) (hr : (pgEnt s h).st ≠ .revoked) :
    mapNew s h hdc pos0 = none := by
  simp [mapNew, ha, hr]

/-- A RESIDENT page that is not being evicted is reclaimed with its frame (R356). -/
theorem reclaim_resident {s : State} {h : Nat} (hst : (pgEnt s h).st = .resident) (hev : (pgEnt s h).evict = none) :
    pgEnt (reclaim s h) h = { pgEnt s h with st := .revoked, frame := none, dead := false } ∧
      ∀ f, (pgEnt s h).frame = some f → f ∉ usedF (reclaim s h) (pgDie h) := by
  have hr : reclaim s h = setEnt (((pgEnt s h).frame.map (freeFrame s h)).getD s) h
      { pgEnt s h with st := .revoked, frame := none, dead := false } := by
    simp only [reclaim, hev, hst, Option.isSome_none, Bool.false_eq_true, if_false]
  refine ⟨by rw [hr, pgEnt_setEnt_self], fun f hf => ?_⟩
  rw [hr, hf]
  exact freeFrame_frees _ _ _ _

/-- A COLD page is reclaimed with its slots (R356). -/
theorem reclaim_cold {s : State} {h : Nat} (hst : (pgEnt s h).st = .cold) (hev : (pgEnt s h).evict = none) :
    pgEnt (reclaim s h) h = { pgEnt s h with st := .revoked, slot := 0, hslot := 0, dead := false } ∧
      (pgEnt s h).slot ∉ (reclaim s h).pg.usedS ∧ (pgEnt s h).hslot ∉ (reclaim s h).pg.usedH := by
  have hr : reclaim s h = setEnt (freeSlots s (pgEnt s h).slot (pgEnt s h).hslot) h
      { pgEnt s h with st := .revoked, slot := 0, hslot := 0, dead := false } := by
    simp only [reclaim, hev, hst, Option.isSome_none, Bool.false_eq_true, if_false]
  rw [hr]
  exact ⟨pgEnt_setEnt_self .., not_mem_rmN _ _, not_mem_rmN _ _⟩

theorem evictStart_none {s : State} {h : Nat} (hst : (pgEnt s h).st ≠ .resident) : evictStart s h = none := by
  simp [evictStart, hst]

/-- PREFETCH of a COLD page queues its fill (R363). -/
theorem prefetch_queues {s : State} {h : Nat} (hst : (pgEnt s h).st = .cold) :
    (pgEnt (prefetch s h) h).st = .filling ∧ (prefetch s h).pg.pre = s.pg.pre ++ [h] := by
  have hp : ∀ e, pgEnt { setEnt s h e with pg := { (setEnt s h e).pg with pre := (setEnt s h e).pg.pre ++ [h] } } h = e :=
    fun e => pgEnt_setEnt_self s h e
  simp only [prefetch, hst, if_true, hp]
  exact ⟨trivial, rfl⟩

/-! ### Fills (R363) -/

/-- A fill begins with the frame it takes. -/
theorem fillBegin_takes {s s1 : State} {h f : Nat} {r : List Nat} (hq : s.pg.demand ++ s.pg.pre = h :: r)
    (ht : takeFrame s h = some (s1, f)) : (fillBegin s).pg.filling = some h ∧ (pgEnt (fillBegin s) h).frame = some f ∧
      h ∉ (fillBegin s).pg.demand ∧ h ∉ (fillBegin s).pg.pre := by
  have hb : fillBegin s = (let s2 := setEnt s1 h { pgEnt s1 h with frame := some f }
      { s2 with pg := { s2.pg with filling := some h, demand := rmN s2.pg.demand h, pre := rmN s2.pg.pre h } }) := by
    simp only [fillBegin, hq, ht]
  rw [hb]
  refine ⟨rfl, ?_, not_mem_rmN _ _, not_mem_rmN _ _⟩
  exact congrArg PgEntry.frame (pgEnt_setEnt_self s1 h _)

section
variable {s : State} {h f : Nat} {bad : Bool} (hf : (pgEnt s h).frame = some f) (hd : (pgEnt s h).dead = false)
include hf hd

/-- A fill whose check words agree makes its page RESIDENT and frees its slots. -/
theorem fillEnd_agrees (hb : bad = false) (hc : checkWords (rdBytes s.pg.flash ((pgEnt s h).slot * frameB) frameB) =
      ((rdBytes s.pg.flash ((pgEnt s h).slot * frameB) frameB).drop 0x8840).take 140) : let s' := fillEnd s h bad
    pgEnt s' h = { pgEnt s h with st := .resident, slot := 0, hslot := 0 } ∧ s'.pg.filling = none ∧
      s'.mem = wrBytes s.mem (place (frameAt s h f) (rdBytes s.pg.flash ((pgEnt s h).slot * frameB) frameB)) ∧
      (pgEnt s h).slot ∉ s'.pg.usedS ∧ (pgEnt s h).hslot ∉ s'.pg.usedH := by
  dsimp only
  unfold fillEnd
  simp only [hb, beq_iff_eq.mpr hc, Bool.not_false, Bool.and_self, if_true, hf, Option.getD_some]
  rw [reclaimDead_setEnt _ _ (by exact hd)]
  refine ⟨pgEnt_setEnt_self .., ?_, ?_, not_mem_rmN _ _, not_mem_rmN _ _⟩
  · change (memWrite _ _).pg.filling = none
    rw [memWrite_pg]
  · exact memWrite_mem ..

/-- A fill that cannot read the flash, or whose check words differ, leaves its page COLD and frees its frame. -/
theorem fillEnd_fails (hb : bad = true ∨ checkWords (rdBytes s.pg.flash ((pgEnt s h).slot * frameB) frameB) ≠
      ((rdBytes s.pg.flash ((pgEnt s h).slot * frameB) frameB).drop 0x8840).take 140) : let s' := fillEnd s h bad
    pgEnt s' h = { pgEnt s h with st := .cold, frame := none } ∧ s'.pg.filling = none ∧ s'.mem = s.mem ∧
      f ∉ usedF s' (pgDie h) := by
  have hno : (!bad && checkWords (rdBytes s.pg.flash ((pgEnt s h).slot * frameB) frameB) ==
      ((rdBytes s.pg.flash ((pgEnt s h).slot * frameB) frameB).drop 0x8840).take 140) = false := by
    rcases hb with rfl | hc
    · rfl
    · rw [beq_eq_false_iff_ne.mpr hc, Bool.and_false]
  dsimp only
  unfold fillEnd
  simp only [hno, Bool.false_eq_true, if_false, hf, Option.getD_some]
  rw [reclaimDead_setEnt _ _ (by exact hd)]
  refine ⟨pgEnt_setEnt_self .., ?_, rfl, freeFrame_frees _ _ _ _⟩
  unfold freeFrame setUsedF setEnt
  dsimp only
  split <;> rfl

/-! ### Evictions (R370) -/

variable {fs hs : Nat} {touched : Bool} (he : (pgEnt s h).evict = some (fs, hs, touched))
include he

/-- The eviction of a page that was written meanwhile, or that cannot be read, frees its slots only (log entry 92). -/
theorem evictEnd_stays (hw : touched = true ∨ (frameRead s (frameAt s h f) frameB).isSome = false) :
    evictEnd s h = setEnt (freeSlots s fs hs) h { pgEnt s h with evict := none } := by
  have hb : (touched || (frameRead s (frameAt s h f) frameB).isNone) = true := by
    rcases hw with rfl | hw
    · rfl
    · rw [Option.isNone_iff_eq_none.mpr (by simpa using hw), Bool.or_true]
  simp only [evictEnd, he, hf, hb, if_true]
  exact reclaimDead_setEnt _ _ hd

/-- The eviction of another ends with it COLD, in its slots. -/
theorem evictEnd_cold (ht : touched = false) (hw : (frameRead s (frameAt s h f) frameB).isSome = true) :
    pgEnt (evictEnd s h) h = { pgEnt s h with st := .cold, frame := none, slot := fs, hslot := hs, evict := none } ∧
      f ∉ usedF (evictEnd s h) (pgDie h) := by
  have hb : (touched || (frameRead s (frameAt s h f) frameB).isNone) = false := by
    rw [ht, Option.isNone_eq_false_iff.mpr hw, Bool.or_false]
  simp only [evictEnd, he, hf, hb, Bool.false_eq_true, if_false]
  rw [reclaimDead_setEnt _ _ (by exact hd)]
  exact ⟨pgEnt_setEnt_self .., freeFrame_frees _ _ _ _⟩

end

/-! ### The ends of a build (R372) -/

section
variable {s : State} {i : Nat} {k : PageSet} (hk : look s.pg.sets i = some k) (hl : k.live = false) (hc : findCmd s k.cmd = none)
include hk hl hc

theorem setBuilt_lives (hf : k.fail = none) (hr : k.sref ≠ 0) : setBuilt s i = setSet s i (some { k with live := true }) := by
  simp only [setBuilt, hk, hl, hc, hf, hr, Bool.false_eq_true, if_false]

theorem setBuilt_frees {d : Nat × W64} (hf : k.fail = some d) : look (setBuilt s i).pg.sets i = none := by
  simp only [setBuilt, hk, hl, hc, hf, Bool.false_eq_true, if_false]
  exact look_del_self ..

end

/-- Settles O38: each operation on a page or a set by the state its entry is in. -/
theorem pageSteps : Obligations.PageSteps := by
  refine ⟨fun s h b => ⟨rfl, rfl, fun s1 f hst ht => mapNew_maps _ _ hst ht, mapNew_none _ _, fun hr hev => ⟨fun hst => ?_, fun hst => ?_⟩,
      fun hr => ?_, evictStart_none, fun hst => ?_, fun hst => ?_⟩,
    fun s h f hfill hf hd => ?_, fun s s1 h f r hfill hq ht => ?_, fun s fs hs f touched he hf hd => ⟨fun hw => ?_, fun ht hw => ?_⟩,
    fun s k hk hl hc => ⟨fun hf hr => congrArg _ (setBuilt_lives hk hl hc hf hr), fun d hf => ⟨_, rfl, setBuilt_frees hk hl hc hf⟩⟩⟩
  · exact ⟨_, by simp [pmapDo, hst, hr, hev], reclaim_resident hst hev⟩
  · exact ⟨_, by simp [pmapDo, hst, hr, hev], reclaim_cold hst hev⟩
  · simp [pmapDo, hr.ne']
  · exact ⟨_, by simp [pmapDo, hst], prefetch_queues hst⟩
  · rcases hst with hst | hst | hst <;> simp [pmapDo, hst]
  · have hx : exec .flashFill s = .next (fillEnd s h s.ev.flag) := by
      change execFlashFill s = _
      rw [execFlashFill, hfill]
    exact ⟨fun hb hc => ⟨_, hx, fillEnd_agrees hf hd hb hc⟩, fun hb => ⟨_, hx, fillEnd_fails hf hd hb⟩⟩
  · have hx : exec .flashFill s = .next (fillBegin s) := by
      change execFlashFill s = _
      rw [execFlashFill, hfill]
    obtain ⟨hbegun, hframe, hdemand, hpre⟩ := fillBegin_takes hq ht
    exact ⟨_, hx, hbegun, hframe, hdemand, hpre, fillBegin_mem s⟩
  · refine ⟨evictEnd s s.ev.num, rfl, ?_⟩
    rw [evictEnd_stays hf hd he hw]
    exact ⟨pgEnt_setEnt_self .., rfl, not_mem_rmN _ _, not_mem_rmN _ _⟩
  · exact ⟨_, rfl, evictEnd_cold hf hd he ht hw⟩

end Sys2Proof.Machine
end

section
/-!
PROOFS. The phase of a phaser (R416, R417, R419, R421 to R423): the statement of O42.
-/

namespace Sys2Proof.Machine

namespace Phaser

/-! ### The members of a phaser -/

/-- The member that is a task, where a change of members keeps their tasks. -/
theorem member_modMem (p : Phaser) (t : Nat) {f : PhMember → PhMember} (hf : ∀ m, (f m).task = m.task) :
    (p.modMem t f).member t = (p.member t).map f := by
  unfold member modMem
  rw [List.find?_map]
  have hkeep : ((fun m : PhMember => m.task == t) ∘ fun m => if m.task = t then f m else m) = fun m => m.task == t := by
    funext m
    dsimp only [Function.comp]
    split <;> simp only [hf]
  rw [hkeep]
  cases hm : p.mem.find? (fun m => m.task == t) with
  | none => rfl
  | some m =>
    have ht : m.task = t := by simpa using List.find?_some hm
    simp only [Option.map_some, if_pos ht]

theorem nsig_modMem (p : Phaser) (t : Nat) {f : PhMember → PhMember} (hf : ∀ m, (f m).mode = m.mode) :
    (p.modMem t f).nsig = p.nsig := by
  unfold nsig modMem
  rw [List.filter_map, List.length_map]
  congr 2
  funext m
  dsimp only [Function.comp]
  split <;> simp only [hf]

theorem arr_modMem (p : Phaser) (t : Nat) {f : PhMember → PhMember} (hf : ∀ m, (f m).mode = m.mode ∧ (f m).arrived = m.arrived) :
    (p.modMem t f).arr = p.arr := by
  unfold arr modMem
  rw [List.filter_map, List.length_map]
  congr 2
  funext m
  dsimp only [Function.comp]
  split <;> simp only [hf]

/-- Where a list's tasks are distinct, its one member that is a task and now signals counts once more. -/
theorem countArrived_mark {l : List PhMember} {t : Nat} {m : PhMember} (hn : (l.map (·.task)).Nodup)
    (hm : l.find? (fun m => m.task == t) = some m) (ha : m.arrived = false) (hs : signals m.mode = true) :
    ((l.map fun m => if m.task = t then { m with arrived := true } else m).filter fun m => signals m.mode && m.arrived).length =
      (l.filter fun m => signals m.mode && m.arrived).length + 1 := by
  induction l with
  | nil => cases hm
  | cons a r ih =>
    obtain ⟨hout, hrest⟩ := List.nodup_cons.mp hn
    by_cases ht : a.task = t
    · have hother : ∀ b ∈ r, (if b.task = t then { b with arrived := true } else b) = b := fun b hb =>
        if_neg fun hbt => hout (List.mem_map.mpr ⟨b, hb, hbt.trans ht.symm⟩)
      obtain rfl : a = m := by simpa [ht] using hm
      rw [List.map_cons, List.map_congr_left hother, List.map_id']
      simp [ht, ha, hs]
    · have hr : r.find? (fun m => m.task == t) = some m := by simpa [ht] using hm
      rw [List.map_cons, if_neg ht, List.filter_cons, List.filter_cons]
      split
      · rw [List.length_cons, List.length_cons, ih hrest hr]
      · exact ih hrest hr

theorem arr_arrives {p : Phaser} {t : Nat} {m : PhMember} (hn : (p.mem.map (·.task)).Nodup) (hm : p.member t = some m)
    (ha : m.arrived = false) (hs : signals m.mode = true) : (p.modMem t fun m => { m with arrived := true }).arr = p.arr + 1 :=
  countArrived_mark hn hm ha hs

/-! ### The advance test (R416) -/

/-- Every signaller has arrived: the phase advances and the arrivals are cleared. -/
theorem test_advances {p : Phaser} (hb : p.brk = false) (ha : p.arr = p.nsig) (hm : p.moved = true) (hl : p.lone = false) :
    p.test.ph = p.ph + 1 ∧ p.test.arr = 0 ∧ p.test.nsig = p.nsig := by
  have ht : p.test = { p with ph := p.ph + 1, moved := false, lone := p.nsig == 0,
                              mem := p.mem.map fun m => { m with arrived := false } } := by
    simp [test, hb, ha, hm, hl]
  rw [ht]
  refine ⟨rfl, ?_, ?_⟩
  · simp [arr]
  · unfold nsig
    rw [List.filter_map, List.length_map]
    rfl

/-- A phaser that is broken, that has not moved, or that lacks an arrival stands. -/
theorem test_stands {p : Phaser} (h : p.brk = true ∨ p.moved = false ∨ p.arr < p.nsig) : p.test = p := by
  rcases h with h | h | h
  · simp [test, h]
  · simp [test, h]
  · simp [test, h.ne]

theorem test_mem_nil {p : Phaser} (h : p.mem = []) : p.test.mem = [] := by
  unfold test
  split
  · simp [h]
  · exact h

theorem test_brk (p : Phaser) : p.test.brk = p.brk := by
  unfold test
  split <;> rfl

/-- Without members nothing is held for the next phase. -/
theorem late_of_mem_nil {p : Phaser} (h : p.mem = []) (n : Nat) : p.late n = p := by
  cases n with
  | zero => rfl
  | succ n => simp [late, h]

/-! ### Arrivals, registrations, drops and waits (R418, R419, R421 to R423) -/

theorem arrive_first {p : Phaser} {t : Nat} {m : PhMember} (hm : p.member t = some m) (ha : m.arrived = false) :
    p.arrive t = test { p.modMem t fun m => { m with arrived := true } with moved := true, lone := false } := by
  simp [arrive, hm, ha]

theorem arrive_again {p : Phaser} {t : Nat} {m : PhMember} (hm : p.member t = some m) (ha : m.arrived = true) :
    p.arrive t = p.modMem t fun m => { m with early := m.early + 1 } := by
  simp [arrive, hm, ha]

/-- The member that registers waits for the next phase. -/
theorem reg_member {p : Phaser} {t : Nat} (m : PhMode) (hm : p.moved = false) (hn : p.member t = none) :
    p.reg t m = { p with mem := p.mem ++ [{ task := t, mode := m, wph := p.ph + 1 }] } ∧
      (p.reg t m).member t = some { task := t, mode := m, wph := p.ph + 1 } := by
  have hr : p.reg t m = { p with mem := p.mem ++ [{ task := t, mode := m, wph := p.ph + 1 }] } := test_stands (.inr (.inl hm))
  refine ⟨hr, ?_⟩
  rw [hr]
  unfold member at hn ⊢
  rw [List.find?_append, hn]
  simp

/-- The last member to leave mends the phaser. -/
theorem drop_last {p : Phaser} {t : Nat} (h : (p.mem.filter fun m => m.task != t) = []) :
    (p.drop t).brk = (p.brk && (p.member t).isNone) := by
  unfold drop
  cases hm : p.member t with
  | none => simp
  | some m =>
    simp only [Option.isNone_some, Bool.false_eq_true, if_false, h, List.isEmpty_nil, Bool.not_true, Bool.and_false]
    rw [late_of_mem_nil (test_mem_nil rfl), test_brk]

end Phaser

/-! ### The next operation that is due (R417) -/

/-- The next operation is of the earliest cycle. -/
theorem nextPhOp_least {l r : List PhOp} {o : PhOp} (h : nextPhOp l = some (o, r)) :
    ∀ q ∈ l, o.due.toNat ≤ q.due.toNat := by
  induction l generalizing o r with
  | nil => cases h
  | cons a l ih =>
    cases hn : nextPhOp l with
    | none =>
      have hl : l = [] := by
        cases l with
        | nil => rfl
        | cons b l =>
          simp only [nextPhOp] at hn
          split at hn
          · split at hn <;> cases hn
          · cases hn
      simp only [nextPhOp, hn, Option.some.injEq, Prod.mk.injEq] at h
      simp [hl, h.1]
    | some q =>
      obtain ⟨b, r'⟩ := q
      have hb := ih hn
      simp only [nextPhOp, hn] at h
      split at h
      · rename_i hbefore
        cases h
        have hab : a.due.toNat ≤ b.due.toNat := by
          simp only [PhOp.before, Bool.or_eq_true, Bool.and_eq_true, decide_eq_true_eq, beq_iff_eq] at hbefore
          rcases hbefore with hlt | ⟨heq, -⟩
          · exact hlt.le
          · rw [heq]
        exact List.forall_mem_cons.mpr ⟨le_refl _, fun q hq => hab.trans (hb q hq)⟩
      · rename_i hafter
        cases h
        have hba : o.due.toNat ≤ a.due.toNat := by
          simp only [PhOp.before, Bool.or_eq_true, decide_eq_true_eq, not_or] at hafter
          exact not_lt.mp hafter.1
        exact List.forall_mem_cons.mpr ⟨hba, hb⟩

/-! ### Operations at their phaser (R417, R424) -/

theorem phOf_setPh_self (s : State) (c : Nat) {n : Nat} (p : Phaser) (hn : n < 32) : phOf (setPh s c n p) c n = p := by
  simp [phOf, setPh, Vector.getD, hn]

/-- A task tested again may become READY: the records change. -/
theorem tryReady_effect (s : State) (i : Nat) : ∃ k, tryReady s i = { s with tasks := k } := by
  unfold tryReady
  split
  · split
    · obtain ⟨k, h, -⟩ := modTask_effect s i fun k => { k with st := .ready, at_ := s.acyc[0] }
      exact ⟨k, h⟩
    · exact ⟨_, rfl⟩
  · exact ⟨_, rfl⟩

/-- A phaser that takes its new value changes its core and the records. -/
theorem phChange_effect (s : State) (c n : Nat) (p : Phaser) : ∃ k, phChange s c n p = { setPh s c n p with tasks := k } := by
  unfold phChange
  refine foldl_keeps (fun z : State => ∃ k, z = { setPh s c n p with tasks := k }) _ _ _ ⟨_, rfl⟩ fun z i hz => ?_
  obtain ⟨k, rfl⟩ := hz
  exact tryReady_effect _ i

theorem phOf_phChange (s : State) (c : Nat) {n : Nat} (p : Phaser) (hn : n < 32) : phOf (phChange s c n p) c n = p := by
  obtain ⟨k, h⟩ := phChange_effect s c n p
  rw [h]
  exact phOf_setPh_self s c p hn

theorem phChange_ctx? (s : State) (c n : Nat) (p : Phaser) (t : Nat) : (phChange s c n p).ctx? t = s.ctx? t := by
  obtain ⟨k, h⟩ := phChange_effect s c n p
  rw [h]
  rfl

/-- An operation other than a break changes no context. -/
theorem phApply_ctx? (s : State) {o : PhOp} (ho : o.act ≠ .brk) (t : Nat) : (phApply s o).ctx? t = s.ctx? t := by
  unfold phApply
  cases ha : o.act with
  | brk => exact absurd ha ho
  | reg m => exact phChange_ctx? ..
  | drop => exact phChange_ctx? ..
  | arrive => exact phChange_ctx? ..

section
variable {s : State} {t n : Nat} {x : Context} (hx : s.ctx? t = some x) (hh : x.holds = [.phaw .ctx n])
include hx hh

/-- A wait whose phase has come ends, the member's next phase set from the phase of that moment. -/
theorem phawDone_passed (hb : (phOf s x.core n).brk = false) (hp : (phOf s x.core n).passed t = true) :
    phawDone s t n = (setPh s x.core n ((phOf s x.core n).waited t)).setCtx t { x with holds := [] } := by
  have hx' : (setPh s x.core n ((phOf s x.core n).waited t)).ctx? t = some x := hx
  simp [phawDone, hx, hh, hb, hp, scWide, State.modCtx_some _ hx']

/-- A wait whose phase has not come stands. -/
theorem phawDone_waits (hp : (phOf s x.core n).passed t = false) : phawDone s t n = s := by
  simp [phawDone, hx, hh, hp]

end

/-- Settles O42: the advance test by what it compares, and each operation and wait by the state of its phaser. -/
theorem phaserPhases : Obligations.PhaserPhases := by
  refine ⟨fun p t m hn hm ha hs => ⟨fun hb hlast => ?_, fun hstand => ?_⟩, fun p t m hm ha => ?_, fun p t m hmoved hnone => ?_,
    fun p t h => Phaser.drop_last h, fun p t m hm => ⟨?_, ?_⟩,
    fun s o r h => ⟨fun q hq hdue => nextPhOp_least h q (List.mem_filter.mpr ⟨hq, decide_eq_true hdue⟩), ?_⟩,
    fun s o hn => ⟨fun ho u => by rw [phApply_ctx? s ho], fun m hact => ?_, fun hact => ?_, fun hact => ?_⟩,
    fun s t n x m hx hn hh hb hm => ⟨fun hp => ?_, phawDone_waits hx hh⟩⟩
  · have hsig := p.nsig_modMem t (f := fun m => { m with arrived := true }) fun _ => rfl
    rw [Phaser.arrive_first hm ha, ← hsig]
    refine Phaser.test_advances hb ?_ rfl rfl
    exact (Phaser.arr_arrives hn hm ha hs).trans (hlast.trans hsig.symm)
  · have harr := Phaser.arr_arrives hn hm ha hs
    have hsig := p.nsig_modMem t (f := fun m => { m with arrived := true }) fun _ => rfl
    rw [Phaser.arrive_first hm ha, Phaser.test_stands]
    · exact ⟨rfl, harr⟩
    · refine hstand.imp id fun hlt => .inr ?_
      exact harr.trans_lt (hlt.trans_eq hsig.symm)
  · rw [Phaser.arrive_again hm ha]
    exact ⟨rfl, p.arr_modMem t fun _ => ⟨rfl, rfl⟩⟩
  · obtain ⟨hr, hmem⟩ := Phaser.reg_member m hmoved hnone
    exact ⟨by rw [hr], hmem⟩
  · simp only [Phaser.passed, hm]
  · have hw := p.member_modMem t (f := fun m => { m with wph := p.ph + 1 }) fun _ => rfl
    exact ⟨_, hw.trans (by rw [hm]; rfl), rfl, rfl⟩
  · change Host.Outcome.next (phStep s) = _
    rw [phStep, h]
  · simp only [phApply, hact, phOf_phChange _ _ _ hn]
  · simp only [phApply, hact, phOf_phChange _ _ _ hn]
  · simp only [phApply, hact, phOf_phChange _ _ _ hn]
  · rw [phawDone_passed hx hh hb hp]
    exact ⟨_, State.setCtx_ctx?_self .., rfl, phOf_setPh_self s x.core _ hn⟩

end Sys2Proof.Machine
end

section
/-!
PROOFS. Node records, walks, runs of records and selections (R430, R432, R435 to R440): the statement of O44.
-/

namespace Sys2Proof.Machine

/-! ### The lowest free run (R440) -/

/-- Below the keys of a map nothing is listed. -/
theorem look_none_of_lt {α : Type} {m : SMap α} {j : Nat} (h : ∀ p ∈ m, j < p.1) : look m j = none := by
  induction m with
  | nil => rfl
  | cons p r ih =>
    simp only [look]
    rw [if_neg (h p List.mem_cons_self).ne', ih fun q hq => h q (List.mem_cons_of_mem _ hq)]

/-- A free run lies free, within the records of a die, and no run before it does. -/
theorem freeRun_spec {n lo i : Nat} {m : SMap NodeRec} (hm : (m.map (·.1)).Pairwise (· < ·)) (h : freeRun n lo m = some i) :
    lo ≤ i ∧ i + n ≤ 2 ^ 20 ∧ (∀ j, i ≤ j → j < i + n → look m j = none) ∧
      ∀ h, lo ≤ h → h < i → ∃ j, h ≤ j ∧ j < h + n ∧ (look m j).isSome = true := by
  induction m generalizing lo with
  | nil =>
    obtain ⟨hfit, rfl⟩ : lo + n ≤ 2 ^ 20 ∧ lo = i := by simpa [freeRun] using h
    exact ⟨le_refl _, hfit, fun _ _ _ => rfl, fun h hl hi => absurd hl hi.not_ge⟩
  | cons p r ih =>
    obtain ⟨k, v⟩ := p
    obtain ⟨hk, hr⟩ := List.pairwise_cons.mp hm
    replace hk : ∀ q ∈ r, k < q.1 := fun q hq => hk q.1 (List.mem_map_of_mem hq)
    simp only [freeRun] at h
    split at h
    · rename_i hfit
      obtain rfl : lo = i := by simpa using h
      have hbefore : ∀ j, j < lo + n → ∀ q ∈ (k, v) :: r, j < q.1 := fun j hj =>
        List.forall_mem_cons.mpr ⟨by omega, fun q hq => by have := hk q hq; omega⟩
      exact ⟨le_refl _, by omega, fun j _ hj => look_none_of_lt (hbefore j hj), fun h hl hi => absurd hl hi.not_ge⟩
    · rename_i hfull
      obtain ⟨hlo, hfit, hfree, hlow⟩ := ih hr h
      refine ⟨by omega, hfit, fun j hij hj => ?_, fun h hl hi => ?_⟩
      · simp only [look]
        rw [if_neg (by omega), hfree j hij hj]
      · by_cases hh : max lo (k + 1) ≤ h
        · obtain ⟨j, hhj, hj, hsome⟩ := hlow h hh hi
          refine ⟨j, hhj, hj, ?_⟩
          simp only [look]
          rwa [if_neg (by omega)]
        · exact ⟨k, by omega, by omega, by simp [look]⟩

/-! ### Selection (R437) -/

theorem bestChild_spec {l : List (W32 × Nat)} {b : W32 × Nat} (h : bestChild l = some b) : b ∈ l ∧
    ∀ a ∈ l, Arith.totalKey (BitVec.ofNat 32 a.2) ≤ Arith.totalKey (BitVec.ofNat 32 b.2) := by
  induction l generalizing b with
  | nil => cases h
  | cons a r ih =>
    cases hr : bestChild r with
    | none =>
      have hnil : r = [] := by
        cases r with
        | nil => rfl
        | cons c r =>
          simp only [bestChild] at hr
          split at hr
          · cases hr
          · split at hr <;> cases hr
      obtain rfl : a = b := by simpa [bestChild, hr] using h
      simp [hnil]
    | some c =>
      obtain ⟨hc, hbest⟩ := ih hr
      simp only [bestChild, hr] at h
      split at h
      · rename_i hlt
        cases h
        exact ⟨List.mem_cons_of_mem _ hc, List.forall_mem_cons.mpr ⟨hlt.le, hbest⟩⟩
      · rename_i hge
        cases h
        exact ⟨List.mem_cons_self, List.forall_mem_cons.mpr ⟨le_refl _, fun q hq => (hbest q hq).trans (not_lt.mp hge)⟩⟩

/-! ### Reading and writing records (R432, R436, R438, R439) -/

theorem readRec_ok {s : State} {x : W32} {r : NodeRec} (hr : recAt s x = some r) (hb : r.bad = false) : readRec s x = .ok r := by
  simp [readRec, hr, hb]

theorem writeRec_ok {s : State} {w : Who} {x : W32} {r : NodeRec} (hr : recAt s x = some r) (ho : r.owner = (w.ep, w.launch))
    (hb : r.bad = false) : writeRec s w x = .ok r := by
  simp [writeRec, hr, ho, hb]

theorem writeRec_other {s : State} {w : Who} {x : W32} {r : NodeRec} (hr : recAt s x = some r) (ho : r.owner ≠ (w.ep, w.launch)) :
    writeRec s w x = .error nsNotOwner := by
  simp [writeRec, hr, ho]

/-- What a failure leaves in the logs changes the logs. -/
theorem nsLog_effect (s : State) (w : Who) (sub : Nat) (x : W32) :
    ∃ v r n, nsLog s w sub x = { s with viol := v, ras := r, rascnt := n } := by
  unfold nsLog
  dsimp only
  split_ifs <;> exact ⟨_, _, _, rfl⟩

/-- A step of a walk at a record without a parent ends there (R436). -/
theorem walkStep_root {s : State} {w : Who} {x : W32} {r : NodeRec} {op : NsOp} (hw : writeRec s w x = .ok r)
    (hp : r.parent = nullId) :
    walkStep w op s { cur := x } = (putRec s x (updateRec op false r), { cur := x }, .done none) := by
  simp [walkStep, walkRun, hw, hp]

/-- A walk changes the records and the logs. -/
theorem walkRun_effect (w : Who) (op : NsOp) (die fuel : Nat) (s : State) (a : WalkAt) :
    ∃ b v r n, (walkRun w op die fuel s a).1 = { s with basin := b, viol := v, ras := r, rascnt := n } := by
  induction fuel generalizing s a with
  | zero => exact ⟨_, _, _, _, rfl⟩
  | succ fuel ih =>
    unfold walkRun
    split
    · exact ⟨_, _, _, _, rfl⟩
    · split
      · exact ⟨_, _, _, _, rfl⟩
      · cases writeRec s w a.cur with
        | error e =>
          obtain ⟨v, r, n, h⟩ := nsLog_effect s w e a.cur
          exact ⟨_, _, _, _, h⟩
        | ok p =>
          dsimp only
          split
          · exact ⟨_, _, _, _, rfl⟩
          · obtain ⟨b, v, r, n, h⟩ := ih (putRec s a.cur (updateRec op a.neg p)) _
            exact ⟨b, v, r, n, h⟩

theorem walkStep_nops (w : Who) (op : NsOp) (s : State) (a : WalkAt) : (walkStep w op s a).1.nops = s.nops := by
  obtain ⟨b, v, r, n, h⟩ := walkRun_effect w op (idDie a.cur) 256 s a
  rw [walkStep, h]

/-! ### Operations at the Basin (R435) -/

/-- The operation by its name, once it has been put in the place of the one it was. -/
theorem nopOf_replace {s : State} {id : Nat} {q q' : NodeOp} (hq : nopOf s id = some q) (hid : q'.id = q.id) :
    nopOf { s with nops := s.nops.map fun o => if o.id = q.id then q' else o } id = some q' := by
  have hqid : q.id = id := by simpa using List.find?_some hq
  unfold nopOf at hq ⊢
  have hkeep : ((fun o : NodeOp => o.id == id) ∘ fun o => if o.id = q.id then q' else o) = fun o => o.id == id := by
    funext o
    dsimp only [Function.comp]
    split
    · rename_i ho
      rw [hid, ho]
    · rfl
  rw [List.find?_map, hkeep, hq, Option.map_some, if_pos rfl]

section
variable {s : State} {id : Nat} {q : NodeOp} (hq : nopOf s id = some q)
include hq

theorem nopStep_lands {v : W64} (hf : q.fin = some v) :
    nopStep s id false = lands { s with nops := s.nops.filter fun o => o.id != q.id } q v := by
  simp [nopStep, hq, hf]

variable (hf : q.fin = none) (hr : nopReady s q = true)
include hf hr

theorem nopStep_applies (hw : nsWalks q.op = false) :
    nopStep s id false = endNop (applyNs s (q.who s) q.die q.node q.op).1 q (applyNs s (q.who s) q.die q.node q.op).2 := by
  simp [nopStep, hq, hf, hr, hw]

variable (hw : nsWalks q.op = true)
include hw

theorem nopStep_walkEnds {s1 : State} {a : WalkAt} {e : Option (Nat × W32)}
    (hstep : walkStep (q.who s) q.op s { cur := q.cur, neg := q.neg, visited := q.visited } = (s1, a, .done e)) :
    nopStep s id true = endNop s1 q { err := e } := by
  simp [nopStep, hq, hf, hr, hw, hstep]

theorem nopStep_walks {s1 : State} {a : WalkAt}
    (hstep : walkStep (q.who s) q.op s { cur := q.cur, neg := q.neg, visited := q.visited } = (s1, a, .more)) :
    (nopStep s id true).basin = s1.basin ∧
      nopOf (nopStep s id true) id = some { q with begun := true, cur := a.cur, neg := a.neg, visited := a.visited } := by
  have hn : s1.nops = s.nops := by
    have h := walkStep_nops (q.who s) q.op s { cur := q.cur, neg := q.neg, visited := q.visited }
    rwa [hstep] at h
  have hq1 : nopOf s1 id = some q := by
    unfold nopOf at hq ⊢
    rwa [hn]
  simp only [nopStep, hq, hf, hr, hw, hstep, Bool.not_true, bne_self_eq_false, Bool.or_self, Bool.false_eq_true, if_false, if_true]
  exact ⟨trivial, nopOf_replace hq1 rfl⟩

end

/-- Settles O44: the operations on one record, the run found by the order of the keys, and the steps of an operation. -/
theorem nodeRecords : Obligations.NodeRecords := by
  refine ⟨fun _ _ _ => rfl, fun r v n alt neg => ⟨rfl, ?_, ?_, rfl, rfl, rfl⟩, fun n lo i m hm h => freeRun_spec hm h,
    fun l b h => bestChild_spec h, fun s w x r hr ho hb hp op _ => ?_, fun s w x r f b hr hb => ⟨fun ho => ?_, fun ho => ?_, fun i => ?_⟩,
    fun s q hq => ⟨fun v hf => congrArg _ (nopStep_lands hq hf), fun hf hr => ⟨fun hw => congrArg _ (nopStep_applies hq hf hr hw),
      fun hw s1 a e h => congrArg _ (nopStep_walkEnds hq hf hr hw h), fun hw s1 a h => ⟨_, rfl, nopStep_walks hq hf hr hw h⟩⟩⟩⟩
  · exact Nat.mod_eq_of_lt (by omega)
  · exact Nat.mod_eq_of_lt (by omega)
  · rw [walkStep_root (writeRec_ok hr ho hb) hp]
    exact ⟨rfl, rfl⟩
  · simp only [doWr, writeRec_ok hr ho hb]
  · obtain ⟨v, n, c, h⟩ := nsLog_effect s w nsNotOwner x
    simp only [doWr, writeRec_other hr ho, nsErr, h, and_self]
  · simp only [doRd, readRec_ok hr hb]

end Sys2Proof.Machine
end

section
/-!
PROOFS. Passes of generation, their opening and what a start does (R446, R447, R449, R450, R454, R459): the
statement of O46.
-/

namespace Sys2Proof.Machine

/-! ### ITNs (R450, R454) -/

theorem itnOf_ne_zero (k : Nat) : itnOf k ≠ 0 := by
  intro h
  have hn := congrArg BitVec.toNat h
  simp only [itnOf, BitVec.ofNat_eq_ofNat, BitVec.toNat_ofNat] at hn
  omega

theorem toNat_itnOf {k : Nat} (h1 : 1 ≤ k) (h : k < 2 ^ 32) : (itnOf k).toNat = k := by
  simp only [itnOf, BitVec.toNat_ofNat]
  omega

/-- An ITN beyond the passes opened so far names none of them. -/
theorem Gsq.find_future {g : Gsq} {itn : W32} (ho : g.opened < 2 ^ 32 - 1) (hi : g.opened < itn.toNat)
    (hp : ∀ p ∈ g.passes, 1 ≤ p.k ∧ p.k ≤ g.opened) : g.find itn = .future := by
  have hnone : g.passes.find? (fun p => itnOf p.k == itn) = none := by
    refine List.find?_eq_none.mpr fun p hm => ?_
    obtain ⟨h1, hk⟩ := hp p hm
    have hn := toNat_itnOf h1 (by omega)
    rw [beq_iff_eq]
    rintro rfl
    omega
  have hz : itn ≠ 0 := by
    rintro rfl
    simp at hi
  simp only [Gsq.find, if_neg hz, hnone, if_pos ho, if_neg hi.not_ge]

/-! ### The bucket of a pass (R449) -/

/-- The first of rising numbers that gives a value. -/
theorem findSome?_first {α : Type} {f : Nat → Option α} {l : List Nat} {b : α} (hl : l.Pairwise (· < ·)) (h : l.findSome? f = some b) :
    ∃ n ∈ l, f n = some b ∧ ∀ m ∈ l, m < n → f m = none := by
  obtain ⟨l1, n, l2, rfl, hn, hbefore⟩ := List.findSome?_eq_some_iff.mp h
  refine ⟨n, by simp, hn, fun m hm hlt => ?_⟩
  have hafter : m ∉ n :: l2 := by
    obtain ⟨-, hl2, -⟩ := List.pairwise_append.mp hl
    obtain ⟨hl2, -⟩ := List.pairwise_cons.mp hl2
    rintro (_ | ⟨_, hm2⟩)
    · omega
    · exact absurd (hl2 m hm2) hlt.le.not_gt
  exact hbefore m ((List.mem_append.mp hm).resolve_right hafter)

/-- A pass takes the first bucket that OCC and DLEN fit. -/
theorem Gsq.fit_first {g : Gsq} {n : Nat} {b : Bucket} (h : g.fit = some (n, b)) : n < 16 ∧ g.buckets.getD n none = some b ∧
    g.occ ≤ b.occMax ∧ g.dlen ≤ b.dlMax ∧
    ∀ m c, m < n → g.buckets.getD m none = some c → ¬(g.occ ≤ c.occMax ∧ g.dlen ≤ c.dlMax) := by
  obtain ⟨i, hi, hfit, hfirst⟩ := findSome?_first List.pairwise_lt_range h
  have hi16 := List.mem_range.mp hi
  split at hfit
  · rename_i c hc
    split at hfit
    · rename_i hle
      cases hfit
      refine ⟨hi16, hc, hle.1, hle.2, fun m d hm hd hboth => ?_⟩
      have hnone := hfirst m (List.mem_range.mpr (hm.trans hi16)) hm
      simp [hd, hboth] at hnone
    · cases hfit
  · cases hfit

/-! ### Opening a pass (R449, R450, R455) -/

/-- The pass before has refuted the assumption of a pass opened with a start word (R455). -/
def Gsq.refutes (g : Gsq) (w : W64) : Bool :=
  match g.at g.opened with
  | some q => match q.acc with
    | some (n, tok) => (w.extractLsb' 0 8).toNat != n || w.extractLsb' 32 32 != tok
    | none => q.drained || q.closed
  | none => false
/-- A pass opened with a start word assumes something of the pass before it (R450). -/
def Gsq.assumes (g : Gsq) (w : W64) : Bool := w.getLsbD 31 && (g.at g.opened).isSome && g.opened != 0
/-- The pass that a start word opens, before its assumption is tested. -/
def Gsq.fresh (g : Gsq) (w : W64) : Pass :=
  { k := g.opened + 1, word := w, aspec := g.assumes w, bkt := g.fit.map (·.1), entry := (g.fit.map fun q => q.2.entry).getD 0,
    occ := g.occ, dlen := g.dlen, drained := g.fit.isNone }
/-- The operation unit with one pass more in front. -/
def Gsq.push (g : Gsq) (p : Pass) : Gsq := { g with opened := g.opened + 1, passes := p :: g.passes.take 15 }

/-- A drain ends where no pass follows. -/
theorem Gsq.drain_last {g : Gsq} {k : Nat} {p : Pass} (hp : g.at k = some p) (hc : p.closed = false)
    (hn : (g.mod k fun p => if p.closed then p else { p with drained := true, acc := none }).at (k + 1) = none) :
    g.drain k = g.mod k fun p => if p.closed then p else { p with drained := true, acc := none } := by
  rw [Gsq.drain, hp]
  simp only [Option.map_some, Option.getD_some, hc, Bool.false_eq_true, if_false]
  rw [Gsq.drainFrom]
  simp only [hn]

section
variable {g : Gsq} {p : Pass} (hp : p.k = g.opened + 1)
include hp

theorem Gsq.at_push_self : (g.push p).at (g.opened + 1) = some p := by
  simp [Gsq.at, Gsq.push, hp]

theorem Gsq.at_push_older {j : Nat} (hj : j ≤ g.opened) : (g.push p).at j = (g.passes.take 15).find? fun q => q.k == j := by
  have hne : p.k ≠ j := by omega
  simp [Gsq.at, Gsq.push, hne]

/-- An older pass stands or has left the table. -/
theorem Gsq.at_push_older_or {j : Nat} (hj : j ≤ g.opened) : (g.push p).at j = none ∨ (g.push p).at j = g.at j := by
  rw [Gsq.at_push_older hp hj]
  have hsplit : g.at j = ((g.passes.take 15).find? fun q => q.k == j).or ((g.passes.drop 15).find? fun q => q.k == j) := by
    rw [← List.find?_append, List.take_append_drop]
    rfl
  rw [hsplit]
  cases (g.passes.take 15).find? (fun q => q.k == j) with
  | none => exact .inl rfl
  | some q => exact .inr rfl

variable (hle : ∀ q ∈ g.passes, q.k ≤ g.opened)
include hle

/-- Draining the newest pass marks it alone. -/
theorem Gsq.drain_push (hc : p.closed = false) :
    (g.push p).drain (g.opened + 1) = g.push { p with drained := true, acc := none } := by
  have hold : ∀ q ∈ g.passes.take 15, (if q.k = g.opened + 1 then
      (if q.closed = true then q else { q with drained := true, acc := none }) else q) = q := fun q hq => by
    have hqk := hle q (List.mem_of_mem_take hq)
    rw [if_neg (by omega)]
  have hmod : (g.push p).mod (g.opened + 1) (fun p => if p.closed then p else { p with drained := true, acc := none }) =
      g.push { p with drained := true, acc := none } := by
    simp only [Gsq.mod, Gsq.push, List.map_cons, List.map_congr_left hold, List.map_id', if_pos hp, hc, Bool.false_eq_true, if_false]
  have hnext : (g.push { p with drained := true, acc := none }).at (g.opened + 1 + 1) = none := by
    refine List.find?_eq_none.mpr fun q hq => ?_
    rcases List.mem_cons.mp hq with rfl | hq
    · simp [hp]
    · have hqk := hle q (List.mem_of_mem_take hq)
      simp only [beq_iff_eq]
      omega
  rw [Gsq.drain_last (Gsq.at_push_self hp) hc (by rw [hmod, hnext]), hmod]

omit hp in
/-- The newest pass is the first of the table. -/
theorem Gsq.at_opened_head {q : Pass} (hord : (g.passes.map (·.k)).Pairwise (· > ·)) (hq : g.at g.opened = some q) :
    (g.passes.take 15).find? (fun p => p.k == g.opened) = some q := by
  have hmem := List.mem_of_find?_eq_some hq
  have hk : q.k = g.opened := by simpa using List.find?_some hq
  cases hps : g.passes with
  | nil => simp [hps] at hmem
  | cons a r =>
    simp only [Gsq.at, hps] at hq
    rw [hps] at hmem hord hle
    have ha : a.k = g.opened := by
      rcases List.mem_cons.mp hmem with rfl | hr
      · exact hk
      · have hlt : q.k < a.k := (List.pairwise_cons.mp hord).1 q.k (List.mem_map_of_mem hr)
        have hak := hle a List.mem_cons_self
        omega
    simpa [ha] using hq

end

/-- The test of the newest pass against the one before it drains it where its assumption is refuted (R455). -/
theorem Gsq.test_push {g : Gsq} {w : W64} {q : Pass} {nt : Nat × W32} (hq : g.at g.opened = some q) (hacc : q.acc = some nt)
    (hpred : (g.push (g.fresh w)).at g.opened = some q) (ha : g.assumes w = true) : (g.push (g.fresh w)).test g.opened =
      if g.refutes w then (g.push (g.fresh w)).drain (g.opened + 1) else g.push (g.fresh w) := by
  have haspec : (g.fresh w).aspec = true := ha
  have hclosed : (g.fresh w).closed = false := rfl
  have hword : (g.fresh w).word = w := rfl
  have hr : g.refutes w = ((w.extractLsb' 0 8).toNat != nt.1 || w.extractLsb' 32 32 != nt.2) := by
    simp only [Gsq.refutes, hq, hacc]
  simp only [Gsq.test, hpred, Gsq.at_push_self (p := g.fresh w) rfl, hacc, haspec, hclosed, hword, hr, Bool.or_eq_true, bne_iff_ne,
    Bool.not_false, true_and]

/-- The first start of a pass puts it in front of the others and drains it where its assumption is refuted. -/
theorem Gsq.open_tests {g : Gsq} (w : W64) (hord : (g.passes.map (·.k)).Pairwise (· > ·)) (hle : ∀ p ∈ g.passes, p.k ≤ g.opened) :
    g.open_ w = if g.assumes w && g.refutes w then (g.push (g.fresh w)).drain (g.opened + 1) else g.push (g.fresh w) := by
  have hassumes : (w.getLsbD 31 && (g.at g.opened).isSome && (g.opened + 1 != 1)) = g.assumes w := by
    unfold Gsq.assumes
    congr 1
    simp
  unfold Gsq.open_
  simp only [Nat.add_sub_cancel, hassumes]
  change (match g.at g.opened with
    | some q => if !g.assumes w then g.push (g.fresh w)
        else if q.acc.isSome then (g.push (g.fresh w)).test g.opened
        else if q.drained || q.closed then (g.push (g.fresh w)).drain (g.opened + 1) else g.push (g.fresh w)
    | none => g.push (g.fresh w)) = _
  cases hq : g.at g.opened with
  | none => simp [Gsq.assumes, hq]
  | some q =>
    cases ha : g.assumes w with
    | false => simp
    | true =>
      have hpred : (g.push (g.fresh w)).at g.opened = some q := (Gsq.at_push_older rfl le_rfl).trans (Gsq.at_opened_head hle hord hq)
      cases hacc : q.acc with
      | none => simp [Gsq.refutes, hq, hacc]
      | some nt => simp [hacc, Gsq.test_push hq hacc hpred ha]

/-- What the first start of a pass makes: the pass in front of the others, drained where its assumption is refuted. -/
theorem Gsq.open_eq {g : Gsq} (w : W64) (hord : (g.passes.map (·.k)).Pairwise (· > ·)) (hle : ∀ p ∈ g.passes, p.k ≤ g.opened) :
    g.open_ w = g.push { g.fresh w with drained := g.fit.isNone || (g.assumes w && g.refutes w) } := by
  rw [Gsq.open_tests w hord hle]
  cases g.assumes w && g.refutes w with
  | true =>
    rw [if_pos rfl, Gsq.drain_push rfl hle rfl, Bool.or_true]
    rfl
  | false =>
    rw [if_neg Bool.false_ne_true, Bool.or_false]
    rfl

/-! ### The status word (R459) -/

theorem toNat_word_accepted {p : Pass} {n : Nat} {tok : W32} (ha : p.acc = some (n, tok)) (hn : n < 256) (hc : p.closed = false)
    (hd : p.drained = false) (hb : p.bkt = some 0) : (Found.pass p).word.toNat = tok.toNat * 2 ^ 32 + n * 2 ^ 24 + 3 := by
  have ht := tok.isLt
  simp only [Found.word, ha, hc, hd, hb, Option.getD_some, Option.isNone_some, Bool.false_eq_true, if_false, BitVec.toNat_ofNat]
  omega

theorem word_accepted {p : Pass} {n : Nat} {tok : W32} (ha : p.acc = some (n, tok)) (hn : n < 256) (hc : p.closed = false)
    (hd : p.drained = false) (hb : p.bkt = some 0) : (Found.pass p).word.extractLsb' 32 32 = tok ∧
      ((Found.pass p).word.extractLsb' 24 8).toNat = n ∧ (Found.pass p).word.extractLsb' 0 5 = 0b00011 := by
  have hw := toNat_word_accepted ha hn hc hd hb
  have ht := tok.isLt
  refine ⟨BitVec.eq_of_toNat_eq ?_, ?_, BitVec.eq_of_toNat_eq ?_⟩
  · rw [BitVec.extractLsb'_toNat, Nat.shiftRight_eq_div_pow, hw]
    omega
  · rw [BitVec.extractLsb'_toNat, Nat.shiftRight_eq_div_pow, hw]
    omega
  · rw [BitVec.extractLsb'_toNat, Nat.shiftRight_eq_div_pow, hw]
    simp only [BitVec.ofNat_eq_ofNat, BitVec.toNat_ofNat]
    omega

/-! ### Starts (R447, R450) -/

/-- What a start makes of its operation unit: the task has made one start more, and joins the pass of that number. -/
def startCounted (s : State) (e t : Nat) (w : W64) : State :=
  let k := (look (gsqOf s e).parts t).getD 0 + 1
  let g := { gsqOf s e with parts := put (gsqOf s e).parts t k }
  let join := fun (g : Gsq) => g.mod k fun p => { p with joined := p.joined ++ [t] }
  match g.at k with
  | some p => if p.word = w then setGsq s e (join g) else postAsync (setGsq s e (join g)) t (genCause 2 (itnOf k))
  | none => if k ≤ g.opened then postAsync (setGsq s e g) t (genCause 3 (itnOf k)) else setGsq s e (join (g.open_ w))

section
variable {s : State} {e t : Nat} {w : W64}

/-- A start by a task that is enrolled, or for which there is room, counts among its own (R447, R450). -/
theorem gsStart_enrolled (h : (look (gsqOf s e).parts t).isSome = true ∨ (gsqOf s e).parts.length < (gsqOf s e).npart) :
    gsStart s e t w = startCounted s e t w := by
  unfold gsStart startCounted
  dsimp only
  cases hl : look (gsqOf s e).parts t with
  | some n => rfl
  | none =>
    have hroom : (gsqOf s e).parts.length < (gsqOf s e).npart := by simpa [hl] using h
    rw [decide_eq_true hroom] <;> rfl

theorem gsStart_full (h : look (gsqOf s e).parts t = none) (hf : (gsqOf s e).npart ≤ (gsqOf s e).parts.length) :
    gsStart s e t w = postAsync s t (genCause 1 0) := by
  simp only [gsStart, h, decide_eq_false hf.not_gt]

end

/-- Settles O46: what an opening makes of the table, and each start by the pass it names. -/
theorem generationSteps : Obligations.GenerationSteps := by
  refine ⟨fun s o h => ?_, fun s h => ?_, fun g w hord hle => ?_, fun s e t w h => ⟨fun hnone hnext => ?_, fun hnone hgone => ?_, fun p hp => ?_⟩,
    fun g n b h => Gsq.fit_first h, fun g itn ho hi hp => ?_, fun k h1 => ⟨itnOf_ne_zero k, toNat_itnOf h1⟩,
    fun p n tok ha hn hc hd hb => word_accepted ha hn hc hd hb, fun s e t w h hf => gsStart_full h hf⟩
  · change Host.Outcome.next (gsStep s) = _
    rw [gsStep, h]
  · change Host.Outcome.next (gsStep s) = _
    rw [gsStep, h]
  · have hk : ∀ d, ({ g.fresh w with drained := d } : Pass).k = g.opened + 1 := fun _ => rfl
    rw [Gsq.open_eq w hord hle]
    refine ⟨rfl, ?_, fun j hj => Gsq.at_push_older_or (hk _) hj, _, Gsq.at_push_self (hk _), rfl, rfl, rfl, rfl, rfl, rfl, rfl, rfl, rfl⟩
    rw [← List.map_take]
    rfl
  · rw [gsStart_enrolled h, startCounted]
    dsimp only
    split
    · rename_i p hp
      exact absurd (hp.symm.trans hnone) (by simp)
    · exact if_neg (by omega)
  · rw [gsStart_enrolled h, startCounted]
    dsimp only
    split
    · rename_i p hp
      exact absurd (hp.symm.trans hnone) (by simp)
    · exact if_pos hgone
  · rw [gsStart_enrolled h, startCounted]
    dsimp only
    split
    · rename_i q hq
      obtain rfl : q = p := Option.some.inj (hq.symm.trans hp)
      rfl
    · rename_i hnone
      exact absurd (hnone.symm.trans hp) (by simp)
  · have hf := Gsq.find_future ho hi hp
    exact ⟨hf, fun lay l => by rw [hf]; rfl⟩

end Sys2Proof.Machine
end

section
/-!
PROOFS. The steps of the management controller (R471, R472, R474, R479, R482, R483, R485, R486, R488, R492, R493): the statement
of O52.
-/

namespace Sys2Proof.Machine

/-! ### Power (R471) -/

/-- Fencing what is not complete sends messages to the host. -/
theorem fenceAll_effect (s : State) : ∃ n v, fenceAll s = { s with fresh := n, dev := { s.dev with sent := v } } := by
  refine foldl_keeps (fun z : State => ∃ n v, z = { s with fresh := n, dev := { s.dev with sent := v } }) _ _ s ⟨_, _, rfl⟩ fun z p hz => ?_
  obtain ⟨n, v, rfl⟩ := hz
  dsimp only
  split
  · exact ⟨_, _, rfl⟩
  · obtain ⟨n, v, h⟩ := complete_effect { s with fresh := n, dev := { s.dev with sent := v } } _
    exact ⟨n, v, h⟩

/-- What a power-down keeps of the controller (log entry 55). -/
theorem goDown_keeps (s : State) (m : DevMode) : (goDown s m).dev.kek = s.dev.kek ∧ (goDown s m).dev.pwrcap = s.dev.pwrcap := by
  obtain ⟨n, v, h⟩ := fenceAll_effect s
  unfold goDown
  rw [h]
  exact ⟨rfl, rfl⟩

theorem goDown_regions (s : State) (m : DevMode) : (goDown s m).dev.regions = [] := by
  simp [goDown, powerDown, dropRegions]

/-! ### Final Cut (R472) -/

theorem cutStep_sent (s : State) (n : Nat) (mask : W64) (ds : List Byte) : (cutStep s n mask ds).dev.sent = s.dev.sent := by
  unfold cutStep
  split <;> rfl

/-- The bytes a step of Final Cut brings. -/
def cutBytes (s : State) : List Byte :=
  match s.ev.body with
  | .data b => b
  | _ => []

section
variable {s : State} {q hq n : Nat} {id : W32} (hfc : s.dev.fc = some (q, hq, id, n)) (hn : s.ev.num = n)
include hfc hn

/-- A step that succeeds, before the last. -/
theorem exec_finalCut_goesOn (hok : s.ev.flag = true) (h6 : n < 6) : exec .finalCutStepDone s =
    .next (let z := cutStep s n s.ev.val (cutBytes s)
      { z with dev := { z.dev with fc := some (q, hq, id, n + 1) } }) := by
  change execFinalCutStepDone s = _
  simp only [execFinalCutStepDone, hfc, hn, hok, h6, ne_eq, not_true_eq_false, Bool.not_true, Bool.false_eq_true, if_true, if_false]
  rfl

/-- The last step. -/
theorem exec_finalCut_ends (hok : s.ev.flag = true) (h6 : n = 6) : exec .finalCutStepDone s =
    .next (endCut (complete s { qp := q, hq := hq, msgid := id, opc := 0x10,
                                data := s.dev.delays.flatMap fun v => leBytes v 2 }) .ready) := by
  subst h6
  change execFinalCutStepDone s = _
  simp only [execFinalCutStepDone, hfc, hn, hok, ne_eq, not_true_eq_false, Bool.not_true, Bool.false_eq_true, if_false, lt_self_iff_false]
  rfl

/-- A step that fails. -/
theorem exec_finalCut_fails (hbad : s.ev.flag = false) : ∃ z, exec .finalCutStepDone s = .next (endCut z .rough) := by
  change ∃ z, execFinalCutStepDone s = _
  simp only [execFinalCutStepDone, hfc, hn, hbad, ne_eq, not_true_eq_false, Bool.not_false, if_true, if_false]
  exact ⟨_, rfl⟩

end

/-! ### Clocks (R492) -/

/-- The clock of a die after a report, which moves it where the cores run. -/
def clkAfter (s : State) (d : Fin 2) (tj : BitVec 8) (mw : Nat) : DieClk :=
  if released s then throttle s.dev.clk[d] tj (decide (1000 * s.dev.pwrcap < mw)) (decide (mw < 1000 * s.dev.pwrcap))
  else { s.dev.clk[d] with tj := tj }

section
variable {k : DieClk} {tj : BitVec 8} {high low : Bool}

theorem throttle_tj : (throttle k tj high low).tj = tj := by
  unfold throttle
  dsimp only
  split_ifs <;> rfl

theorem throttle_lowers (h : 95 ≤ tj.toNat ∨ high = true) : (throttle k tj high low).mhz = max 425 (k.mhz - 25) := by
  have hdown : (decide (95 ≤ tj.toNat) || high) = true := by simpa using h
  simp only [throttle, hdown, if_true]

theorem throttle_raises (ht : tj.toNat < 90) (hh : high = false) (hl : low = true) :
    (throttle k tj high low).mhz = min 850 (k.mhz + 25) := by
  have hcool : ¬ 95 ≤ tj.toNat := by omega
  simp only [throttle, hcool, hh, ht, hl, decide_false, Bool.or_self, Bool.false_eq_true, and_self, if_true, if_false]
  split <;> rfl

theorem throttle_stands (ht : tj.toNat < 95) (hh : high = false) (hl : 90 ≤ tj.toNat ∨ low = false) :
    (throttle k tj high low).mhz = k.mhz := by
  have hup : ¬(tj.toNat < 90 ∧ low = true) := by
    rintro ⟨h90, h⟩
    rcases hl with hl | hl
    · omega
    · simp [hl] at h
  simp only [throttle, decide_eq_false ht.not_ge, hh, hup, Bool.or_self, Bool.false_eq_true, if_false]

end

theorem clkAfter_spec (s : State) (d : Fin 2) (tj : BitVec 8) (mw : Nat) : let k' := clkAfter s d tj mw
    k'.tj = tj ∧ (released s = false → k'.mhz = s.dev.clk[d].mhz) ∧
      (released s = true → (95 ≤ tj.toNat ∨ 1000 * s.dev.pwrcap < mw) → k'.mhz = max 425 (s.dev.clk[d].mhz - 25)) ∧
      (released s = true → tj.toNat < 90 → mw < 1000 * s.dev.pwrcap → k'.mhz = min 850 (s.dev.clk[d].mhz + 25)) ∧
      (released s = true → tj.toNat < 95 → mw ≤ 1000 * s.dev.pwrcap → (90 ≤ tj.toNat ∨ mw = 1000 * s.dev.pwrcap) →
        k'.mhz = s.dev.clk[d].mhz) := by
  unfold clkAfter
  cases released s with
  | false => simp
  | true =>
    refine ⟨throttle_tj, by simp, fun _ h => throttle_lowers (by simpa using h), fun _ ht hl => ?_, fun _ ht hh hl => ?_⟩
    · exact throttle_raises ht (decide_eq_false (by omega)) (decide_eq_true hl)
    · exact throttle_stands ht (decide_eq_false (by omega)) (hl.imp_right fun h => decide_eq_false (by omega))

/-- A die's report changes its clock, and the log where the clock moves (R488). -/
theorem throttleDie_effect (s : State) (d : Fin 2) (tj : BitVec 8) (mw : Nat) :
    ∃ r, throttleDie s d tj mw = { s with dev := { s.dev with clk := s.dev.clk.set d (clkAfter s d tj mw) }, ras := r } ∧
      ((clkAfter s d tj mw).mhz = s.dev.clk[d].mhz → r = s.ras) := by
  unfold throttleDie
  change ∃ r, (if (clkAfter s d tj mw).mhz ≠ s.dev.clk[d].mhz then logRas _ d 0x106 0xFFFF 0xFF none none none else _) = _ ∧ _
  split
  · rename_i h
    exact ⟨_, rfl, fun he => absurd he h⟩
  · exact ⟨_, rfl, fun _ => rfl⟩

/-- A report changes both dies' clocks, and the log where one moves. -/
theorem throttle_both (s : State) (tj : Fin 2 → BitVec 8) (mw : Nat) :
    ∃ z r, throttleDie (throttleDie s 0 (tj 0) mw) 1 (tj 1) mw = { s with dev := { s.dev with clk := z }, ras := r } ∧
      (∀ d : Fin 2, z[d] = clkAfter s d (tj d) mw) ∧ ((∀ d : Fin 2, z[d].mhz = s.dev.clk[d].mhz) → r = s.ras) := by
  obtain ⟨r0, h0, hr0⟩ := throttleDie_effect s 0 (tj 0) mw
  obtain ⟨r1, h1, hr1⟩ := throttleDie_effect (throttleDie s 0 (tj 0) mw) 1 (tj 1) mw
  have hclk : (throttleDie s 0 (tj 0) mw).dev.clk[1] = s.dev.clk[1] := by
    rw [h0]
    exact Vector.getElem_set_ne (by decide) (by decide) (by decide)
  have hnext : clkAfter (throttleDie s 0 (tj 0) mw) 1 (tj 1) mw = clkAfter s 1 (tj 1) mw := by
    have hrel : released (throttleDie s 0 (tj 0) mw) = released s := by rw [h0]; rfl
    have hcap : (throttleDie s 0 (tj 0) mw).dev.pwrcap = s.dev.pwrcap := by rw [h0]
    unfold clkAfter
    rw [hrel, hcap]
    change (if released s then throttle (throttleDie s 0 (tj 0) mw).dev.clk[1] _ _ _
      else { (throttleDie s 0 (tj 0) mw).dev.clk[1] with tj := tj 1 }) = _
    rw [hclk]
    rfl
  rw [hnext] at h1 hr1
  have hz : ∀ d : Fin 2, ((s.dev.clk.set 0 (clkAfter s 0 (tj 0) mw)).set 1 (clkAfter s 1 (tj 1) mw))[d] = clkAfter s d (tj d) mw :=
    Fin.forall_fin_two.mpr ⟨by simp, by simp⟩
  refine ⟨_, r1, ?_, hz, fun hstand => ?_⟩
  · rw [h1, h0]
    rfl
  · have he0 := hstand 0
    have he1 := hstand 1
    rw [hz] at he0 he1
    rw [hr1 (he1.trans (congrArg DieClk.mhz hclk).symm), h0]
    exact hr0 he0

/-! ### RDMA (R479) -/

section
variable {s : State} {q key : Nat} {va : W64} {r : Region} {n : Nat}

theorem rdmaRead_answers (h : regionOf s key = some r) (hr : r.rd = true) {ps : List ((Nat × Nat) × Nat)}
    (hl : rdmaLines s r va.toNat n .rd = some ps) (hp : ∀ p ∈ ps, s.poison.contains (p.2 / 128) = false) :
    rdmaRead s q key va n = rdmaAnswer s q (.data (ps.flatMap fun p => rdBytes s.mem p.2 p.1.2)) := by
  have hclean : ps.find? (fun p => s.poison.contains (p.2 / 128)) = none :=
    List.find?_eq_none.mpr fun p hm => by rw [hp p hm]; decide
  simp only [rdmaRead, h, hr, hl, hclean, Bool.not_true, Bool.false_eq_true, if_false]

end

/-! ### Captures (R483) -/

section
variable {s : State} {d : Fin 2} (f : Firing)

theorem captureDie_drops {c : W64} (hb : s.dev.snaps[d].busy = some c) :
    (captureDie s f d).dev.snaps[d].drop = s.dev.snaps[d].drop + 1 ∧ (captureDie s f d).dev.snaps[d].words = s.dev.snaps[d].words := by
  unfold captureDie
  simp only [hb, Option.isSome_some, if_true]
  simp [logRas]

variable (hb : s.dev.snaps[d].busy = none)
include hb

/-- What a capture latches begins with its header. -/
theorem captureDie_latches : ∃ ws, (captureDie s f d).dev.snaps[d] = { s.dev.snaps[d] with
    seq := s.dev.snaps[d].seq + 1
    busy := some (s.acyc[d] + 4096)
    words := [s.dev.snaps[d].drop ++ (s.dev.snaps[d].seq + 1), f.tag,
              fields [(f.kind % 256, 0), (f.src.getD f.core % 65536, 8), (f.ctx % 256, 24)], s.acyc[d]] ++ ws } := by
  unfold captureDie
  simp only [hb, Option.isSome_none, Bool.false_eq_true, if_false]
  simp only [Fin.getElem_fin, Vector.getElem_set_self, snapHead, snapSeq]
  exact ⟨_, rfl⟩

end

theorem setWidth_append_low (x y : W32) : BitVec.setWidth 32 (x ++ y) = y := by
  rw [BitVec.setWidth_append, dif_pos le_rfl, BitVec.setWidth_eq]

theorem toNat_fields_three (a b c i j : Nat) : (fields [(a, 0), (b, i), (c, j)]).toNat = (a + b * 2 ^ i + c * 2 ^ j) % 2 ^ 64 := by
  simp [fields]

theorem toNat_snapKind {k c x : Nat} (hk : k < 256) : (fields [(k % 256, 0), (c % 65536, 8), (x % 256, 24)]).toNat =
    k + c % 65536 * 2 ^ 8 + x % 256 * 2 ^ 24 := by
  rw [toNat_fields_three, Nat.mod_eq_of_lt hk]
  exact Nat.mod_eq_of_lt (by omega)

/-- The header's 32 bytes come first in a die's area. -/
theorem captureBytes_head {ws : List W64} (h : 4 ≤ ws.length) :
    (captureBytes ws).take 32 = (ws.take 4).flatMap fun w => leBytes w.toNat 8 := by
  have hlen : ((ws.take 4).flatMap fun w => leBytes w.toNat 8).length = 32 := by
    simp [List.length_flatMap, h]
  unfold captureBytes
  rw [List.take_take, List.take_append_of_le_length (by rw [hlen]; decide)]
  exact List.take_of_length_le (by rw [hlen]; decide)

/-- A capture whose time has come is written to its die's area, and the next may latch. -/
theorem exec_captureDone_ends {s : State} {c : W64} : let d : Fin 2 := if s.ev.num = 0 then 0 else 1
    s.dev.snaps[d].busy = some c → c.toNat ≤ (s.acyc[d]).toNat → ∃ s', exec .captureDone s = .next s' ∧ s'.dev.snaps[d].busy = none ∧
      s'.mem = wrBytes s.mem (place (snapBase d) (captureBytes s.dev.snaps[d].words)) := by
  intro d hb hc
  have hx : exec .captureDone s = .next { s with
      mem := wrBytes s.mem (place (snapBase d) (captureBytes s.dev.snaps[d].words))
      dev := { s.dev with snaps := s.dev.snaps.set d { s.dev.snaps[d] with busy := none, words := [] } } } := by
    change execCaptureDone s = _
    unfold execCaptureDone
    simp only [show (if s.ev.num = 0 then 0 else 1 : Fin 2) = d from rfl, hb, hc, if_true]
  exact ⟨_, hx, by simp, rfl⟩

/-! ### Errors found by the patrol (R485, R486) -/

section
variable {s : State} {d : Fin 2} {core : Nat} (hd : (if s.ev.num = 0 then 0 else 1) = d)
  (hcore : (if s.ev.sel.toNat ≤ 3 then s.ev.core else 0xFFFF) = core) (hrel : released s = true)
include hd hcore hrel

theorem exec_patrolScrub_corrected (hf : s.ev.flag = false) :
    exec .patrolScrub s = .next (noteCe s d core s.ev.val s.ev.sel.toNat) := by
  change execPatrolScrub s = _
  simp only [execPatrolScrub, hd, hcore, hrel, hf, Bool.not_true, Bool.not_false, Bool.false_eq_true, if_true, if_false]

/-- An uncorrectable error, by the storage it is found in. -/
theorem exec_patrolScrub_uncorrected (hf : s.ev.flag = true) : ∃ s', exec .patrolScrub s = .next s' ∧
    (s.ev.sel.toNat = 6 → s' = poisonLine (noteUe s d core 0xFF s.ev.val) (s.ev.val.toNat / 128)) ∧
    (s.ev.sel.toNat = 4 → s'.basin = s.basin.set d ((s.basin[d]).map fun p => if p.1 = s.ev.cnt then (p.1, { p.2 with bad := true }) else p)) ∧
    (s.ev.sel.toNat = 5 → s' = killRecord (noteUe s d core 0xFF s.ev.val) s.ev.task) ∧
    (1 ≤ s.ev.sel.toNat → s.ev.sel.toNat ≤ 3 →
      s' = spoilCore (noteUe s d core 0xFF s.ev.val) s.ev.core s.ev.task s.ev.sel.toNat s.ev.cnt s.ev.val s.ev.body) := by
  change ∃ s', execPatrolScrub s = _ ∧ _
  simp only [execPatrolScrub, hd, hcore, hrel, hf, Bool.not_true, Bool.false_eq_true, if_false]
  refine ⟨_, rfl, fun h => ?_, fun h => ?_, fun h => ?_, fun h1 h3 => ?_⟩
  · simp only [h]
    rfl
  · simp only [h]
    rfl
  · simp only [h]
    rfl
  · split
    · omega
    · omega
    · omega
    · rfl

end

/-- A record marked bad in place. -/
theorem look_spoiled {m : SMap NodeRec} {k : Nat} {r : NodeRec} (h : look m k = some r) :
    look (m.map fun p => if p.1 = k then (p.1, { p.2 with bad := true }) else p) k = some { r with bad := true } := by
  rw [look_map_of_keys _ (by intro p; split <;> rfl), h]
  simp

/-- The weight-buffer halves of the matrix engine are spoiled where they hold an image. -/
theorem spoilCore_half (s : State) {c t n : Nat} {a : W64} {b : EvBody} {h : Half} (hn : n < 2) (hh : (s.core c).me.half n = h)
    (hr : h.st = .ready) : ((spoilCore s c t 2 n a b).core c).me.half n = { h with bad := true } := by
  have hs : spoilCore s c t 2 n a b = s.modMe c fun m => if (m.half n).st = .ready then m.setHalf n { m.half n with bad := true } else m := by
    obtain rfl | rfl : n = 0 ∨ n = 1 := by omega
    · rfl
    · rfl
  rw [hs, State.modMe, State.modCore_core_self]
  simp only [hh, hr, if_true, half_setHalf]

/-- Settles O52: power, Final Cut, clocks, queue pairs, RDMA, captures and the patrol, each by the case its hypotheses name. -/
theorem deviceSteps : Obligations.DeviceSteps := by
  refine ⟨fun s => ⟨fun hm hf => ?_, fun h => ?_, fun hm => ?_, fun m => ?_⟩,
    fun s q hq id n hfc hn => ⟨fun hok h6 ds hds => ?_, fun hok h6 => ?_, fun hbad => ?_⟩, fun s hm => ?_,
    fun s => ⟨fun i hup hi => ?_, ?_, fun hq => ⟨fun bs hb => ?_, ?_, ?_⟩⟩,
    fun s q key va bs n => ⟨fun h => ?_, fun r h => ⟨fun hw => ?_, fun hr => ?_, fun ps hr hl hp => rdmaRead_answers h hr hl hp⟩, rfl⟩,
    fun s => ⟨fun f hb hm => ?_, fun f d => ⟨fun c hb => captureDie_drops f hb, fun hb => ?_⟩, fun f d hb hk => ?_,
      fun ws h => ⟨captureBytes_head h, by simp [captureBytes]⟩, rfl, fun c hb hc => ?_⟩,
    fun s hrel => ⟨fun hf => ?_, fun hf => ?_⟩,
    fun s c t a b => ⟨?_, rfl, fun n h hn hh hr => spoilCore_half s hn hh hr⟩⟩
  · exact ⟨_, (congrArg Host.Outcome.next (if_pos ⟨hm, hf⟩) : execPowerGood s = _), rfl, rfl, rfl, rfl, rfl⟩
  · refine (congrArg Host.Outcome.next (if_neg ?_) : execPowerGood s = _)
    rintro ⟨hm, hf⟩
    simp [hm, hf] at h
  · exact (congrArg Host.Outcome.next (if_neg hm) : execTrip s = _)
  · exact ⟨rfl, rfl, rfl, rfl, rfl, goDown_regions s m, goDown_keeps s m⟩
  · refine ⟨_, exec_finalCut_goesOn hfc hn hok h6, rfl, cutStep_sent .., ?_, ?_, ?_, ?_⟩
    · rintro rfl
      exact ⟨rfl, rfl, rfl, rfl⟩
    · rintro rfl b hb
      simp [cutStep, cutRegions, hb]
    · rintro rfl
      rfl
    · rintro rfl
      rfl
  · refine ⟨_, exec_finalCut_ends hfc hn hok h6, rfl, rfl, fun hq => ?_⟩
    change (complete _ _).dev.sent.length = _
    rw [complete_sent hq, List.length_append]
    rfl
  · obtain ⟨z, hz⟩ := exec_finalCut_fails hfc hn hbad
    exact ⟨_, hz, rfl, rfl⟩
  · intro tj mw cap hot
    obtain ⟨z, r, hs, hz, hr⟩ := throttle_both s tj mw
    refine ⟨throttleDie (throttleDie s 0 (tj 0) mw) 1 (tj 1) mw, (if_neg hm : execThrottleStep s = _), ?_⟩
    rw [hs]
    refine ⟨fun d => ?_, rfl, rfl, rfl, hr⟩
    have hd := clkAfter_spec s d (tj d) mw
    rwa [← hz d] at hd
  · refine ⟨_, by simp only [exec, execQpEstablish, hup, hi]; rfl, rfl, ?_⟩
    simp
  · refine ⟨_, rfl, ?_, ?_⟩
    · simp
    · change (if s.dev.mqp = some s.ev.num then none else s.dev.mqp) ≠ some s.ev.num
      split
      · simp
      · assumption
  · change execRdmaWrite s = _
    simp only [execRdmaWrite, hb, hq, if_true]
  · exact congrArg Host.Outcome.next (if_pos hq)
  · exact congrArg Host.Outcome.next (if_pos hq)
  · simp only [rdmaWrite, rdmaRead, h, and_self]
  · simp only [rdmaWrite, h, hw, Bool.not_false, if_true]
  · simp only [rdmaRead, h, hr, Bool.not_false, if_true]
  · change execClapperCapture s = _
    simp only [execClapperCapture, hb, hm, if_true]
  · obtain ⟨ws, hw⟩ := captureDie_latches f hb
    rw [hw]
    exact ⟨rfl, rfl⟩
  · obtain ⟨ws, hw⟩ := captureDie_latches f hb
    rw [hw]
    exact ⟨by simp, rfl, toNat_snapKind hk, rfl, setWidth_append_low _ _⟩
  · exact exec_captureDone_ends hb hc
  · exact exec_patrolScrub_corrected rfl rfl hrel hf
  · obtain ⟨s', hx, h6, h4, h5, h13⟩ := exec_patrolScrub_uncorrected rfl rfl hrel hf
    refine ⟨s', hx, fun h => ?_, fun h n hn => ?_, h5, h13⟩
    · rw [h6 h]
      rfl
    · rw [h4 h]
      simpa using look_spoiled hn
  · change ((s.modCore c fun k => { k with bad := insN k.bad (a.toNat / 8) }).core c).bad = _
    rw [State.modCore_core_self]

end Sys2Proof.Machine
end

section
/-!
PROOFS. The phaser instructions at their issue (R415, R418, R419, R422 to R424, R427): the statement of O41.
-/

namespace Sys2Proof.Machine

/-! ### The phaser a word names (R415) -/

section
variable {x : Context} {v : W64} (hv : v.extractLsb' 8 56 = 0)
include hv

theorem phWord_ok (op : Nat) : phWord op x v = .ok (8 * (x.core / 8) + (v.extractLsb' 5 3).toNat, (v.extractLsb' 0 5).toNat) := by
  simp [phWord, hv, need, bind, Except.bind, pure, Except.pure]

theorem phLocal_ok (op : Nat) (hc : 8 * (x.core / 8) + (v.extractLsb' 5 3).toNat = x.core) :
    phLocal op x v = .ok (v.extractLsb' 0 5).toNat := by
  simp only [phLocal, phWord_ok hv, hc, need, BEq.rfl, if_true, bind, Except.bind, pure, Except.pure]

end

/-! ### An arrival's checks (R422, R428) -/

theorem arriveOk_ok {s : State} {t c n : Nat} {x : Context} {v : W64} {ok : PhMode → Bool} {m : PhMode}
    (hm : memberSeen s t c n = some m) (hok : ok m = true) (hf : phForeign s t x c = (false, false)) (hb : (phOf s c n).brk = false) :
    arriveOk s t x c n v ok = .ok () := by
  simp [arriveOk, hm, hok, hf, hb, pure, Except.pure]

/-! ### The instructions past their checks -/

section
variable {s : State} {t : Nat} {x : Context} {g : Guard} {a : SSel} {v : W64} {c n : Nat} (hi : s.issuer = .ok (t, x))
  (hg : gTrue g x = true) (ha : sVal s x true a = v) (hv : v.extractLsb' 8 56 = 0)
  (hc : 8 * (x.core / 8) + (v.extractLsb' 5 3).toNat = c) (hn : (v.extractLsb' 0 5).toNat = n)
include hi hg ha hv hc

section
variable (hr : readable s x true [.s a] 0 = true)
include hr hn

/-- PHREG sends its registration (R418). -/
theorem exec_phreg_sends {m : PhMode} (hf : phForeign s t x c = (false, false)) (hb : (phOf s c n).brk = false)
    (hw : waits m = true → c = x.core) (hm : memberSeen s t c n = none) (h64 : membersSeen s c n < 64) (h16 : memberships s t < 16) :
    exec (.phreg g a m) s = .next (sendPh (popOps s x true [.s a]) t x.core c n (.reg m)) := by
  have hlocal : ¬(waits m = true ∧ c ≠ x.core) := fun h => h.2 (hw h.1)
  have hroom : ¬(64 ≤ membersSeen s c n ∨ 16 ≤ memberships s t) := by omega
  refine (conclude_on hi rfl hr hg).trans ?_
  simp only [hg, ha, phWord_ok hv, hc, hn, hf, if_neg hlocal, hb, hm, if_neg hroom, Option.isSome_none, Bool.false_eq_true, if_false,
    bind, Except.bind, conclude_pure]

/-- PHDROP sends its drop (R419). -/
theorem exec_phdrop_sends {m : PhMode} (hm : memberSeen s t c n = some m) :
    exec (.phdrop g a) s = .next (sendPh (popOps s x true [.s a]) t x.core c n .drop) := by
  refine (conclude_on hi rfl hr hg).trans ?_
  simp only [hg, ha, phWord_ok hv, hc, hn, hm, Option.isNone_some, Bool.false_eq_true, if_false, bind, Except.bind, conclude_pure]

theorem exec_phdrop_stranger (hm : memberSeen s t c n = none) :
    exec (.phdrop g a) s = .next (raise s { code := cPhaser, sub := 1, info := v }) := by
  refine (conclude_on hi rfl hr hg).trans ?_
  simp only [hg, ha, phWord_ok hv, hc, hn, hm, Option.isNone_none, if_true, phTrap, bind, Except.bind, conclude_trap]

section
variable {m : PhMode} {sc : Scope} (hm : memberSeen s t c n = some m)
include hm

section
variable (hok : signals m = true) (hf : phForeign s t x c = (false, false)) (hb : (phOf s c n).brk = false)
include hok hf hb

/-- PHARR arrives after the actions of its fence (R422). -/
theorem exec_pharr_arrives (hh : arrivalHeld s t c n = false) :
    exec (.pharr g a sc) s = .next (arriveAfter (popOps s x true [.s a]) t c n sc) := by
  refine (conclude_on hi rfl hr hg).trans ?_
  simp only [hg, ha, phWord_ok hv, hc, hn, arriveOk_ok hm hok hf hb, hh, Bool.false_eq_true, if_false, bind, Except.bind, conclude_pure]

/-- PHARR waits while an earlier arrival is held for the next phase. -/
theorem exec_pharr_waits (hh : arrivalHeld s t c n = true) :
    exec (.pharr g a sc) s = .next (s.modLatch fun l => { l with held := true }) := by
  refine (conclude_on hi rfl hr hg).trans ?_
  simp only [hg, ha, phWord_ok hv, hc, hn, arriveOk_ok hm hok hf hb, hh, if_true, bind, Except.bind, conclude_hold]

end

variable (hx : c = x.core)
include hx

section
variable (hw : waits m = true) (hb : (phOf s c n).brk = false)
include hw hb

/-- PHWAIT ends once its phase has come (R423). -/
theorem exec_phwait_ends (hp : (phOf s c n).passed t = true) : exec (.phwait g a sc) s =
    .next (if scWide sc then dropClean (setPh (popOps s x true [.s a]) c n ((phOf s c n).waited t)) c
      else setPh (popOps s x true [.s a]) c n ((phOf s c n).waited t)) := by
  subst hx
  refine (conclude_on hi rfl hr hg).trans ?_
  simp only [hg, ha, phLocal_ok hv _ hc, hn, hm, hw, hb, hp, Bool.not_true, Bool.false_eq_true, if_false, bind, Except.bind,
    conclude_pure]

/-- PHWAIT waits until its phase has come. -/
theorem exec_phwait_waits (hp : (phOf s c n).passed t = false) :
    exec (.phwait g a sc) s = .next (s.modLatch fun l => { l with held := true }) := by
  subst hx
  refine (conclude_on hi rfl hr hg).trans ?_
  simp only [hg, ha, phLocal_ok hv _ hc, hn, hm, hw, hb, hp, Bool.not_true, Bool.not_false, Bool.false_eq_true, if_true, if_false,
    bind, Except.bind, conclude_hold]

end

/-- PHAW arrives and then waits (R424). -/
theorem exec_phaw_arrives (hsw : m = .sw) (hf : phForeign s t x c = (false, false)) (hb : (phOf s c n).brk = false)
    (hh : arrivalHeld s t c n = false) : exec (.phaw g a sc) s =
      .next ((arriveAfter (popOps s x true [.s a]) t c n sc).modCtx t fun y => { y with holds := y.holds ++ [.phaw sc n] }) := by
  subst hx
  have hok : (m == .sw) = true := beq_iff_eq.mpr hsw
  refine (conclude_on hi rfl hr hg).trans ?_
  simp only [hg, ha, phLocal_ok hv _ hc, hn, arriveOk_ok (ok := (· == .sw)) hm hok hf hb, hh, Bool.false_eq_true, if_false, bind,
    Except.bind, conclude_pure]

end
end

/-- PHRD pushes the state of a local phaser (R427). -/
theorem exec_phrd_pushes (hr : readable s x true [.s a] 1 = true) (hx : c = x.core) :
    exec (.phrd g a) s = .next (pushS (popOps s x true [.s a]) t 2 (phRead (phOf s c (v.extractLsb' 0 5).toNat) t)) := by
  subst hx
  refine (conclude_on hi rfl hr hg).trans ?_
  simp only [hg, ha, phLocal_ok hv _ hc, bind, Except.bind, conclude_pure]

end

/-- Settles O41: each phaser instruction past its checks, and where it waits. -/
theorem phaserInstructions : Obligations.PhaserInstructions := by
  intro s t x g a hi v c n s0 hold free
  refine ⟨fun hr => ⟨fun hg => ?_, fun hg hv => ?_⟩, fun hr => ⟨fun hg => ?_, fun hg hv hx => ?_⟩⟩
  · rw [hg] at hr
    exact ⟨fun m => conclude_off hi rfl hr hg, conclude_off hi rfl hr hg,
      fun sc => ⟨conclude_off hi rfl hr hg, conclude_off hi rfl hr hg, conclude_off hi rfl hr hg⟩⟩
  · rw [hg] at hr
    refine ⟨fun m hfree hw hm h64 h16 => ?_, fun m hm => ?_, fun hm => ?_, fun m sc hfree hm hs hh => ?_, fun m sc hfree hm hs hh => ?_,
      fun m sc hm hx hw hb hp => ?_, fun m sc hm hx hw hb hp => ?_, fun sc hfree hm hx hh => ?_⟩
    · exact exec_phreg_sends hi hg rfl hv rfl rfl hr hfree.1 hfree.2 hw hm h64 h16
    · exact exec_phdrop_sends hi hg rfl hv rfl rfl hr hm
    · exact exec_phdrop_stranger hi hg rfl hv rfl rfl hr hm
    · exact exec_pharr_arrives hi hg rfl hv rfl rfl hr hm hs hfree.1 hfree.2 hh
    · exact exec_pharr_waits hi hg rfl hv rfl rfl hr hm hs hfree.1 hfree.2 hh
    · exact exec_phwait_ends hi hg rfl hv rfl rfl hr hm hx hw hb hp
    · exact exec_phwait_waits hi hg rfl hv rfl rfl hr hm hx hw hb hp
    · exact exec_phaw_arrives hi hg rfl hv rfl rfl hr hm hx rfl hfree.1 hfree.2 hh
  · rw [hg] at hr
    exact conclude_off hi rfl hr hg
  · rw [hg] at hr
    exact exec_phrd_pushes hi hg rfl hv rfl hr hx

end Sys2Proof.Machine
end

section
/-!
PROOFS. The generation instructions (R446 to R448, R450, R453, R454, R457, R458, R461, R462, R467): the statement of O45.
-/

namespace Sys2Proof.Machine

/-! ### Slots that send an operation (R446, R468) -/

section
variable {s : State} {t : Nat} {x : Context} {g : Guard} {os : List Opd} {f : State → Nat → Context → Res GsAct}
  (hi : s.issuer = .ok (t, x)) (hok : guardOps s x (gTrue g x) os 0 = .ok ())
include hi hok

theorem gsSend_off (hg : gTrue g x = false) : gsSend g os f s = .next s := by
  simp only [gsSend, hi, hok, bind, Except.bind]
  simp only [hg, Bool.not_false, if_true, conclude_pure]

theorem gsSend_on (hg : gTrue g x = true) :
    gsSend g os f s = conclude s (f s t x >>= fun a => pure (sendGs (popOps s x true os) t x.core a)) := by
  simp only [gsSend, hi, hok, bind, Except.bind]
  simp only [hg, Bool.not_true, Bool.false_eq_true, if_false]

theorem gsSend_sends (hg : gTrue g x = true) {a : GsAct} (hf : f s t x = .ok a) :
    gsSend g os f s = .next (sendGs (popOps s x true os) t x.core a) := by
  rw [gsSend_on hi hok hg, hf]
  rfl

theorem gsSend_stops (hg : gTrue g x = true) {e : Stop} (hf : f s t x = .error e) :
    gsSend g os f s = conclude s (.error e) := by
  rw [gsSend_on hi hok hg, hf]
  rfl

end

/-- Bytes of the own scratchpad that are aligned, inside the extent and sound. -/
theorem gsBytes_ok {s : State} {t n al : Nat} {x : Context} {o : W64} (ha : o.toNat % al = 0)
    (hb : o.toNat + n ≤ spExt (s.core x.core).part) (hd : drainHeld s x t x.core = false) (he : spBad s x.core o.toNat n = false) :
    gsBytes s t x o n al = .ok (spRead s x.core o.toNat n) := by
  simp only [gsBytes, target_own ha hb, hd, spEcc, he, need, Bool.not_false, Bool.false_eq_true, if_true, if_false, bind, Except.bind,
    pure, Except.pure]

/-! ### Schedules and registers (R448, R467) -/

section
variable {s : State} {t : Nat} {x : Context} {g : Guard} {a : SSel} {u : W64} (hi : s.issuer = .ok (t, x))
include hi

theorem exec_gscfg_clear (n : BitVec 4) : exec (.gscfg g a true n) s =
    .next (if gTrue g x then sendGs (popOps s x true []) t x.core (.bucket n.toFin none) else s) := by
  have hok := guardOps_nil s x (gTrue g x)
  change execGscfg g a true n s = _
  simp only [execGscfg, if_true]
  cases hg : gTrue g x with
  | false => exact gsSend_off hi hok hg
  | true => exact gsSend_sends hi hok hg rfl

theorem exec_gscfg_off (hr : guardOps s x (gTrue g x) [.s a] 0 = .ok ()) (hg : gTrue g x = false) (n : BitVec 4) :
    exec (.gscfg g a false n) s = .next s := by
  change execGscfg g a false n s = _
  simp only [execGscfg, Bool.false_eq_true, if_false]
  exact gsSend_off hi hr hg

variable (hr : guardOps s x (gTrue g x) [.s a] 0 = .ok ()) (hg : gTrue g x = true) (ha : sVal s x true a = u)
include hr hg ha

theorem exec_gscfg_sets (n : BitVec 4) {k : Bucket} (h32 : u.toNat % 32 = 0) (hb : u.toNat + 32 ≤ spExt (s.core x.core).part)
    (hd : drainHeld s x t x.core = false) (he : spBad s x.core u.toNat 32 = false)
    (hk : bucketOf (spRead s x.core u.toNat 32) = some k) :
    exec (.gscfg g a false n) s = .next (sendGs (popOps s x true [.s a]) t x.core (.bucket n.toFin (some k))) := by
  change execGscfg g a false n s = _
  simp only [execGscfg, Bool.false_eq_true, if_false]
  refine gsSend_sends hi hr hg ?_
  simp only [ha, gsBytes_ok h32 hb hd he, hk, bind, Except.bind, pure, Except.pure]

theorem exec_gsocc_sends (h1 : 1 ≤ u.toNat) (h256 : u.toNat ≤ 256) :
    exec (.gsocc g a) s = .next (sendGs (popOps s x true [.s a]) t x.core (.occ u.toNat)) := by
  have hin : ¬(u.toNat < 1 ∨ 256 < u.toNat) := by omega
  change execGsocc g a s = _
  refine gsSend_sends hi hr hg ?_
  simp only [ha, if_neg hin, bind, Except.bind, pure, Except.pure]

theorem exec_gsocc_operand (h : u.toNat = 0 ∨ 256 < u.toNat) :
    exec (.gsocc g a) s = .next (raise s { code := cOperand, sub := 0x31, info := u }) := by
  have hout : u.toNat < 1 ∨ 256 < u.toNat := by omega
  change execGsocc g a s = _
  refine gsSend_stops hi hr hg (e := .trap { code := cOperand, sub := 0x31, info := u }) ?_
  simp only [ha, if_pos hout, operand, trapWith, bind, Except.bind]

theorem exec_gsdlen_sends (h : u.toNat ≤ 255) :
    exec (.gsdlen g a) s = .next (sendGs (popOps s x true [.s a]) t x.core (.dlen u.toNat)) := by
  change execGsdlen g a s = _
  refine gsSend_sends hi hr hg ?_
  simp only [ha, if_neg h.not_gt, bind, Except.bind, pure, Except.pure]

theorem exec_gsdlen_operand (h : 255 < u.toNat) :
    exec (.gsdlen g a) s = .next (raise s { code := cOperand, sub := 0x32, info := u }) := by
  change execGsdlen g a s = _
  refine gsSend_stops hi hr hg (e := .trap { code := cOperand, sub := 0x32, info := u }) ?_
  simp only [ha, if_pos h, operand, trapWith, bind, Except.bind]

theorem exec_gsseed_sends : exec (.gsseed g a) s = .next (sendGs (popOps s x true [.s a]) t x.core (.seed u)) := by
  change execGsseed g a s = _
  refine gsSend_sends hi hr hg ?_
  simp only [ha, pure, Except.pure]

/-! ### Passes (R450, R453, R454) -/

variable (h23 : u.extractLsb' 8 23 = 0) {e : Nat} (he : groupEntry s t = some e)
include h23 he

theorem exec_gsiterStart_sends (hs : startHold s t e = .ok ()) :
    exec (.gsiterStart g a) s = .next (sendGs (popOps s x true [.s a]) t x.core (.start u)) := by
  change execGsiterStart g a s = _
  refine gsSend_sends hi hr hg ?_
  simp only [ha, if_neg (not_not.mpr h23), he, hs, bind, Except.bind, pure, Except.pure]

theorem exec_gsiterStart_waits (hs : startHold s t e = .error .hold) :
    exec (.gsiterStart g a) s = .next (s.modLatch fun l => { l with held := true }) := by
  change execGsiterStart g a s = _
  refine gsSend_stops hi hr hg (e := .hold) ?_
  simp only [ha, if_neg (not_not.mpr h23), he, hs, bind, Except.bind]

end

section
variable {s : State} {t : Nat} {x : Context} {g : Guard} {a b : SSel} {u v : W64} (hi : s.issuer = .ok (t, x))
  (hg : gTrue g x = true)
include hi hg

theorem exec_gsiterLayer_releases (hr : readable s x true [.s a, .s b] 0 = true) (ha : sVal s x true a = u)
    (hb : sVal s x true b = v) (hu : u.toNat ≤ 4095) :
    exec (.gsiterLayer g a b) s = .next (gsRelease (popOps s x true [.s a, .s b]) t (.layer u.toNat (v.setWidth 32))) := by
  refine (conclude_on hi rfl hr hg).trans ?_
  simp only [hg, ha, hb, if_neg hu.not_gt, bind, Except.bind, conclude_pure]

theorem exec_gsiterEnd_releases (hr : readable s x true [.s b] 0 = true) (hb : sVal s x true b = v) :
    exec (.gsiterEnd g b) s = .next (gsRelease (popOps s x true [.s b]) t (.fin (v.setWidth 32))) := by
  refine (conclude_on hi rfl hr hg).trans ?_
  simp only [hg, hb, conclude_pure]

/-! ### GSWAIT (R454) -/

section
variable {lay : Bool} {l : W64} (hr : readable s x true (.s a :: (if lay then [.s b] else [])) 1 = true) (ha : sVal s x true a = u)
  (hl : (if lay then sVal s x true b else 0) = l) (hu : u.extractLsb' 32 32 = 0) (h4 : l.toNat ≤ 4095)
include hr ha hl hu h4

theorem exec_gswait_ends {q : Gsq} (hq : gsqOf s ((groupEntry s t).getD 256) = q)
    (hd : gsReleased q (q.find (u.setWidth 32)) lay l.toNat = true) : exec (.gswait g a b lay) s =
      .next (pushS (dropClean (popOps s x true (.s a :: (if lay then [.s b] else []))) x.core) t 2 (q.find (u.setWidth 32)).word) := by
  refine (conclude_on hi rfl hr hg).trans ?_
  simp only [hg, ha, hl, hq, if_neg (not_not.mpr hu), if_neg h4.not_gt, hd, Bool.not_true, Bool.false_eq_true, if_false, bind,
    Except.bind, conclude_pure]

theorem exec_gswait_waits {q : Gsq} (hq : gsqOf s ((groupEntry s t).getD 256) = q)
    (hd : gsReleased q (q.find (u.setWidth 32)) lay l.toNat = false) :
    exec (.gswait g a b lay) s = .next (s.modLatch fun l => { l with held := true }) := by
  refine (conclude_on hi rfl hr hg).trans ?_
  simp only [hg, ha, hl, hq, if_neg (not_not.mpr hu), if_neg h4.not_gt, hd, Bool.not_false, if_true, bind, Except.bind, conclude_hold]

end

/-! ### GSACC and GSNOISE (R458, R461) -/

section
variable (hr : readable s x true [.s a, .s b] 1 = true) (ha : sVal s x true a = u) (hb : sVal s x true b = v)
include hr ha hb

theorem exec_gsacc_accepts {i : Fin 16} {d : TtDesc} {m : Nat} {r : Nat × W32} (h24 : u.extractLsb' 8 24 = 0)
    (ht : treeOf s x.core t (u &&& 0xFF) false = some (i, d, m)) (hd : TreeSound d)
    (hbs : gsBytes s t x v (4 * d.nodes.length) 4 = .ok (spRead s x.core v.toNat (4 * d.nodes.length)))
    (hwalk : accWalk d ((List.range d.nodes.length).map fun i =>
      laneOf (((spRead s x.core v.toNat (4 * d.nodes.length)).drop (4 * i)).take 4)) d.nodes.length 0 = r) :
    exec (.gsacc g a b) s = .next (pushS (gsRelease (popOps s x true [.s a, .s b]) t (.acc (u.extractLsb' 32 32) r.1 r.2)) t 4
      (BitVec.ofNat 64 (r.2.toNat * 2 ^ 32 + (d.node r.1).depth * 2 ^ 8 + r.1))) := by
  obtain ⟨n, tok⟩ := r
  refine (conclude_on hi rfl hr hg).trans ?_
  simp only [hg, ha, hb, if_neg (not_not.mpr h24), ht, hbs, hwalk, ttEcc_sound hd, bind, Except.bind, conclude_pure]

theorem exec_gsnoise_sends (cl : Clu) (hm : x.trapMode = false) (h32 : v.extractLsb' 32 32 = 0) :
    exec (.gsnoise g a b cl) s = .next (pushQ (sendGs (popOps s x true [.s a, .s b]) t x.core
      (.noise (u.setWidth 32) (u.extractLsb' 32 32) (v.setWidth 32) (nextId s t))) t (cluQ cl) 6 none) := by
  change execGsnoise g a b cl s = _
  simp only [execGsnoise, hi, hm, hg, guardOps_ok hr, ha, hb, if_neg (not_not.mpr h32), Bool.not_true, Bool.false_eq_true, if_false, bind,
    Except.bind, conclude_pure]

end

/-! ### GSSAMP (R462 to R465) -/

section
variable (hr : readable s x true [.s a] 0 = true) (ha : sVal s x true a = u)
include hr ha

/-- GSSAMP issues its operation under the fields of its descriptor. -/
theorem exec_gssamp_issues {i : Fin 16} {d : TtDesc} {m : Nat} {bs : List Byte}
    (hfew : (s.fab.colls.filter fun c => c.task == t && !c.fin && c.key.kind == .samp).length < 4)
    (hbs : gsBytes s t x u 64 64 = .ok bs) (hd : TreeSound d) (hsamp : sampOk s bs = true) (hsync : syncOk s x.core bs = true)
    (hbusy : collBusy s (fld bs 0 2) = false) (ht : treeOf s x.core t (BitVec.ofNat 64 (fld bs 0x18 8)) false = some (i, d, m))
    (hrow : fld bs 6 2 ≤ d.nodes.length) (hal : (BitVec.ofNat 64 (fld bs 0x2C 4) : W64).toNat % 4 = 0)
    (hext : (BitVec.ofNat 64 (fld bs 0x2C 4) : W64).toNat + 4 * fld bs 6 2 ≤ spExt (s.core x.core).part) :
    ∃ c, exec (.gssamp g a) s = .next (collIssue (popOps s x true [.s a]) c) ∧
      c.key = ⟨.samp, fld bs 0 2, [fld bs 2 2, fld bs 4 2, fld bs 6 2, fld bs 8 4, fld bs 0x14 4]⟩ ∧
      c.task = t ∧ c.core = x.core ∧ c.src = BitVec.ofNat 64 (fld bs 0x20 8) ∧ c.vn = fld bs 0x10 4 ∧ c.fork = forkOf s t x ∧
      c.pos = (List.range (fld bs 6 2)).map fun i => d.basePos + BitVec.ofNat 32 ((d.node i).depth + 1) := by
  have hgood : ¬((!(sampOk s bs && syncOk s x.core bs) || collBusy s (fld bs 0 2)) = true) := by simp [hsamp, hsync, hbusy]
  have hx : exec (.gssamp g a) s = _ := conclude_on hi rfl hr hg
  rw [hx]
  simp only [hg, ha, if_neg hfew.not_ge, hbs, if_neg hgood, ht, if_neg hrow.not_gt, target_own hal hext, ttEcc_sound hd, bind, Except.bind,
    conclude_pure]
  exact ⟨_, rfl, rfl, rfl, rfl, rfl, rfl, rfl, rfl⟩

end
end

/-- Settles O45: each generation instruction past its checks, what it raises or waits for, and its false guard. -/
theorem generationInstructions : Obligations.GenerationInstructions := by
  intro s t x g a b hi u v s1 s2 hold
  refine ⟨exec_gscfg_clear hi, fun hr => ⟨fun hg => ?_, fun hg => ?_⟩, fun hr => ⟨fun hg => ?_, fun hg hu => ?_⟩, fun hr => ?_,
    fun hr => ⟨fun hg => ?_, fun i d m hg h24 ht hal hext hdr hecc hd => ?_, fun cl hm hg => ?_, fun cl hm hg h32 => ?_⟩,
    fun lay => ?_⟩
  · have hok := guardOps_ok hr
    rw [hg] at hr
    exact ⟨fun n => exec_gscfg_off hi hok hg n, show execGsocc g a s = _ from gsSend_off hi hok hg,
      show execGsdlen g a s = _ from gsSend_off hi hok hg, show execGsseed g a s = _ from gsSend_off hi hok hg,
      show execGsiterStart g a s = _ from gsSend_off hi hok hg, conclude_off hi rfl hr hg⟩
  · have hok := guardOps_ok hr
    rw [hg] at hr
    refine ⟨fun n k h32 hb hd he hk => exec_gscfg_sets hi hok hg rfl n h32 hb hd he hk, exec_gsocc_sends hi hok hg rfl,
      exec_gsocc_operand hi hok hg rfl, exec_gsdlen_sends hi hok hg rfl, exec_gsdlen_operand hi hok hg rfl, exec_gsseed_sends hi hok hg rfl,
      fun e h23 he hs => exec_gsiterStart_sends hi hok hg rfl h23 he hs, fun e h23 he hs => exec_gsiterStart_waits hi hok hg rfl h23 he hs, ?_⟩
    intro i d m bs nrow out hfew h64 hext hdr hecc hd hsamp hsync hbusy ht hrow hal hout
    exact exec_gssamp_issues hi hg hr rfl hfew (gsBytes_ok h64 hext hdr hecc) hd hsamp hsync hbusy ht hrow hal hout
  · rw [hg] at hr
    exact conclude_off hi rfl hr hg
  · rw [hg] at hr
    exact exec_gsiterLayer_releases hi hg hr rfl rfl hu
  · cases hg : gTrue g x with
    | false =>
      rw [hg] at hr
      exact conclude_off hi rfl hr hg
    | true =>
      rw [hg] at hr
      exact exec_gsiterEnd_releases hi hg hr rfl
  · rw [hg] at hr
    exact conclude_off hi rfl hr hg
  · rw [hg] at hr
    exact exec_gsacc_accepts hi hg hr rfl rfl h24 ht hd (gsBytes_ok hal hext hdr hecc) rfl
  · rw [hg] at hr
    change execGsnoise g a b cl s = _
    simp only [execGsnoise, hi, hm, hg, guardOps_ok hr, Bool.not_false, if_true, bind, Except.bind, conclude_pure]
  · rw [hg] at hr
    exact exec_gsnoise_sends hi hg hr rfl rfl cl hm h32
  · intro os l q hr
    refine ⟨fun hg => ?_, fun hg hu h4 hq => ?_, fun hg hu h4 hq => ?_⟩
    all_goals rw [hg] at hr
    · exact conclude_off hi rfl hr hg
    · exact exec_gswait_ends hi hg hr rfl rfl hu h4 rfl hq
    · exact exec_gswait_waits hi hg hr rfl rfl hu h4 rfl hq

end Sys2Proof.Machine
end

section
/-!
PROOFS. The node instructions (R433 to R442): the refutation of O43.
-/

namespace Sys2Proof.Machine

/-! ### A request under a name that is taken

Requests take their names in order from `fresh`. The statement is about all states, and does not ask that the next name is free: in the
state below it is that of the request of a load that has no value. The request of an NSRD is put under it before what comes before the
operation is looked at (R435, R441), and replaces it; the operation no longer waits for the load. -/

/-- The context that issues: its slot 0 is bound to stream 0. -/
def clashCtx : Context := { core := 0, pc := 0, npc := 0, strm := Vector.replicate 16 (some 0) }

/-- Package 1, whose stream 0 is bound to package 0; a load of task 0 has the name the next request takes. -/
def clashState : State :=
  { cur := some 0, ctxs := [(0, clashCtx)]
    fab := { ep := 1, domHi := 1, strms := [(0, { task := 0, slot := 0, ep := 0 })]
             reqs := [(0, { dst := 0, addr := 0, launch := 0, kind := .scal 0 5 8 true false .pkg })] } }

/-- How many messages are formed and not sent after a step. -/
def outCount : Host.Outcome State Fault Refusal → Nat
  | .next s => s.fab.out.length
  | _ => 0

/-- An NSRD of a word of node 0, in package 0, on slot 0. -/
def clashRead : Instr := .nsrd ⟨0, false⟩ .zero .zero false (.word 0)

/-- What comes before the operation at its issue: the load. -/
theorem clashState_fork : forkOf clashState 0 clashCtx = { waits := [], acks := [], pends := [5] } := by decide

/-- The operation leaves at once all the same. -/
theorem clashState_sends : outCount (exec clashRead clashState) = 1 := by decide

/-- Refutes O43: the request of an NSRD under a name that is taken replaces the load the operation waits for, and the operation is sent
at once. -/
theorem not_nodeInstructions : ¬ Obligations.NodeInstructions := by
  intro h
  obtain ⟨-, -, -, hrd, -⟩ := h clashState 0 clashCtx ⟨0, false⟩ .zero .zero false rfl
  have hfar := ((hrd 0 (by decide)).2 (by decide) (by decide) trivial (by decide)).2 0 { task := 0, slot := 0, ep := 0 } (by decide) (by decide)
    (by decide) (by decide) (by decide) rfl rfl rfl (by decide) (by decide) (by decide)
  obtain ⟨s', hnext, hout, -⟩ := hfar.1 (by decide)
  have hsent := clashState_sends
  rw [clashRead, hnext, outCount, hout] at hsent
  exact absurd hsent (by decide)

end Sys2Proof.Machine
end
